-- ==== Sys2Proof/Word.lean ====
section
/-! DEFINITION. The words of the Jupal 2640 and the two fixed tables of like things (six zones; eight inputs, points,
lanes or heater outputs) that the state is built from. -/

namespace Sys2Proof

/-- A word of exchange memory or of the register window (12.1). -/
abbrev Word := BitVec 16

/-- A track position, in tenths of a millimetre, wrapping (Table 2-1). -/
abbrev Pos := BitVec 32

/-- A value of the line clock, in milliseconds, wrapping (R188). -/
abbrev Clock := BitVec 32

/-- The name of one preheat zone: 0 is Z1, 5 is Z6. -/
abbrev Zone := Fin 6

/-- The index of one of eight like things (temperature inputs, alarm points, lanes, heater outputs). -/
abbrev Idx8 := Fin 8

/-- The index of one of the 64 slots. -/
abbrev SlotIx := Fin 64

/-- Six like things, one for each preheat zone. -/
structure Tab6 (α : Type) where
  a0 : α
  a1 : α
  a2 : α
  a3 : α
  a4 : α
  a5 : α
deriving DecidableEq, Repr

/-- Eight like things. -/
structure Tab8 (α : Type) where
  a0 : α
  a1 : α
  a2 : α
  a3 : α
  a4 : α
  a5 : α
  a6 : α
  a7 : α
deriving DecidableEq, Repr

variable {α β : Type}

/-- The entry of zone `z`. -/
def Tab6.get (t : Tab6 α) (z : Fin 6) : α :=
  match z with
  | 0 => t.a0
  | 1 => t.a1
  | 2 => t.a2
  | 3 => t.a3
  | 4 => t.a4
  | 5 => t.a5

/-- The table with the entry of zone `z` replaced. -/
def Tab6.set (t : Tab6 α) (z : Fin 6) (x : α) : Tab6 α :=
  match z with
  | 0 => { t with a0 := x }
  | 1 => { t with a1 := x }
  | 2 => { t with a2 := x }
  | 3 => { t with a3 := x }
  | 4 => { t with a4 := x }
  | 5 => { t with a5 := x }

/-- The table of a function's values. -/
def Tab6.ofFn (f : Fin 6 → α) : Tab6 α :=
  ⟨f 0, f 1, f 2, f 3, f 4, f 5⟩

/-- The entries mapped, each with its zone. -/
def Tab6.mapIdx (t : Tab6 α) (f : Fin 6 → α → β) : Tab6 β :=
  ⟨f 0 t.a0, f 1 t.a1, f 2 t.a2, f 3 t.a3, f 4 t.a4, f 5 t.a5⟩

/-- The entries in the order of the zones. -/
def Tab6.toList (t : Tab6 α) : List α :=
  [t.a0, t.a1, t.a2, t.a3, t.a4, t.a5]

/-- The entry of index `i`. -/
def Tab8.get (t : Tab8 α) (i : Fin 8) : α :=
  match i with
  | 0 => t.a0
  | 1 => t.a1
  | 2 => t.a2
  | 3 => t.a3
  | 4 => t.a4
  | 5 => t.a5
  | 6 => t.a6
  | 7 => t.a7

/-- The table with the entry of index `i` replaced. -/
def Tab8.set (t : Tab8 α) (i : Fin 8) (x : α) : Tab8 α :=
  match i with
  | 0 => { t with a0 := x }
  | 1 => { t with a1 := x }
  | 2 => { t with a2 := x }
  | 3 => { t with a3 := x }
  | 4 => { t with a4 := x }
  | 5 => { t with a5 := x }
  | 6 => { t with a6 := x }
  | 7 => { t with a7 := x }

/-- The table of a function's values. -/
def Tab8.ofFn (f : Fin 8 → α) : Tab8 α :=
  ⟨f 0, f 1, f 2, f 3, f 4, f 5, f 6, f 7⟩

/-- The entries mapped, each with its index. -/
def Tab8.mapIdx (t : Tab8 α) (f : Fin 8 → α → β) : Tab8 β :=
  ⟨f 0 t.a0, f 1 t.a1, f 2 t.a2, f 3 t.a3, f 4 t.a4, f 5 t.a5, f 6 t.a6, f 7 t.a7⟩

/-- The entries in the order of their index. -/
def Tab8.toList (t : Tab8 α) : List α :=
  [t.a0, t.a1, t.a2, t.a3, t.a4, t.a5, t.a6, t.a7]

/-- The eight indices, in order. -/
def allIdx8 : List (Fin 8) := [0, 1, 2, 3, 4, 5, 6, 7]

/-- The six zones, in order. -/
def allZones : List (Fin 6) := [0, 1, 2, 3, 4, 5]

end Sys2Proof
end

