-- ==== Sys2Proof/Config.lean ====
section
/-! DEFINITION. What this part fixes: addresses of exchange memory (Table 12-1), register codes, and the constants of the
chapters. Two values are free: what a refresh has written that a port reset cuts short (`refreshCut`), and the word of a measured
speed outside the signed 16-bit range (`speedBeyond`). -/

namespace Sys2Proof.Config

/-- The part code of the header and of PART_ID (R176, R188). -/
def partCode : Word := 0x2640
/-- The layout version of the header (R188). -/
def layoutVersion : Word := 0x0001
/-- The revision number of the part (R176). -/
def revision : Word := 1
/-- HEAT_AUTH ENABLED (R102). -/
def authCode : Word := 0xA55A
/-- HEAT_AUTH disabled (R102). -/
def noAuthCode : Word := 0x5AA5

/-- The number of words of exchange memory (1.4). -/
def memWords : Nat := 8192

/-- Header word addresses (Table 12-2). -/
def resetCauseAt : Nat := 0x0002
def mirrorEAt : Nat := 0x0003
def mirrorTankAt : Nat := 0x0004
def closedCountAt : Nat := 0x0006
def clockAt : Nat := 0x0007

/-- The request record (Table 12-3). -/
def requestAt : Nat := 0x0040
/-- The setup record (Table 12-6) and the number of its words that the part reads (R186: offsets 117 to 255 are not used). -/
def setupAt : Nat := 0x0060
def setupWords : Nat := 117
/-- The live status block (Table 12-7) and its length in words. -/
def statusAt : Nat := 0x0160
def statusWords : Nat := 0x200
/-- The offsets of the low words of the block's two-word fields (Table 12-7): late limit, P, the relative leads of the in-flight
view, the tank counter, the last changes of the alarm table, run-on, idle and supervision timer. -/
def statusLowWords : List Nat :=
  [0x13, 0x20] ++ ((List.range 16).map fun i => 0x43 + 6 * i) ++ [0x10C] ++ ((List.range 8).map fun k => 0x123 + 6 * k)
    ++ [0x156, 0x163, 0x165]
/-- Which words of the live status block a refresh has written where a port reset at `clock` cuts it short, bit `j` for word
`j`, the generation count before it at `generation`; none where the reset cuts no refresh short. Of a two-word field the bit of
its low word counts, for both words (R187). A free value: R185 says no more (log entry 52). -/
opaque refreshCut (clock : BitVec 32) (generation : Word) : Option (BitVec 512)
/-- The word that the live status block shows at `now` for a measured speed `m` outside −32768 to 32767. A free value: R6 and R185
state none (log entry 64). -/
opaque speedBeyond (m : Int) (now : BitVec 32) : Word
/-- The recipe table (2.7): 16 records of 60h words. -/
def recipeAt (n : Nat) : Nat := 0x0360 + 0x60 * n
/-- The slot array (2.1): 64 slots of 40h words. -/
def slotAt (n : SlotIx) : Nat := 0x1000 + 0x40 * n.val

/-- The most records of the in-flight list (R10). -/
def listMax : Nat := 16
/-- The room of the spray edge list (R62). -/
def edgeMax : Nat := 32
/-- The largest tank volume, in microlitres (R69). -/
def tankMax : Nat := 50000000
/-- The late-admission distance, in tenths (R45). -/
def lateDistance : Nat := 500
/-- The eye debounce, in tenths (R4). -/
def eyeDistance : Nat := 20
/-- The period of the status interval and of the modulation grid, in milliseconds (R80, R66). -/
def statusPeriod : Nat := 250
def modPeriod : Nat := 16
/-- The end sensor's qualifying time, in milliseconds (R153). -/
def sensorTime : Nat := 20
/-- The start grace of a fan, in milliseconds (R139). -/
def graceTime : Nat := 10000
/-- The run-on time of a port reset, in milliseconds (R138). -/
def resetRunOn : Nat := 3600000
/-- The feeder's settling time, in milliseconds (R122). -/
def settlingTime : Nat := 10000
/-- The age at which a shot leaves the history, in milliseconds (R124). -/
def shotAge : Nat := 600000
/-- The most shots the history holds (R124). -/
def historyMax : Nat := 20
/-- The minimum rail width, where the home switch is, in tenths (R58). -/
def homeWidth : Nat := 500
/-- The outward and inward travel limits of homing, in tenths (R58). -/
def homeOutward : Nat := 200
def homeInward : Nat := 4600

end Sys2Proof.Config
end

