-- ==== Sys2Proof/Syntax.lean ====
section
/-! DEFINITION. The commands of the Jupal 2640: one constructor for each row of spec/opcode_table.json, with what the event
brings from outside as its operands. -/

namespace Sys2Proof

/-- The two eyes of the main conveyor (1.2). -/
inductive Eye
  | entry
  | exit
deriving DecidableEq, Repr

/-- The two waves (7.3). -/
inductive Wave
  | chip
  | main
deriving DecidableEq, Repr

/-- The two extraction channels (Table 8-1). -/
inductive Channel
  | x1
  | x2
deriving DecidableEq, Repr

/-- The three level flags (R118). -/
inductive LevelFlag
  | high
  | low
  | lowlow
deriving DecidableEq, Repr

/-- The seven control loops (5.2). -/
inductive LoopId
  | pot
  | zone (z : Zone)
deriving DecidableEq, Repr

/-- The direction of an encoder count (R2). -/
inductive Direction
  | forward
  | backward
deriving DecidableEq, Repr

/-- The half of POS that the half-select address bit chooses (R3). -/
inductive Half
  | lo
  | hi
deriving DecidableEq, Repr

/-- The end of the rails at which a limit switch lies (3.7). -/
inductive RailEnd
  | minimum
  | maximum
deriving DecidableEq, Repr

/-- The registers whose writes are ignored (R176). -/
inductive ReadOnlyReg
  | partId
  | mode
  | pos
deriving DecidableEq, Repr

/-- One write of the host to one word of exchange memory. -/
structure HostWrite where
  addr : Fin 8192
  word : Word
deriving DecidableEq, Repr

/-- The field inputs that are sampled at the end of a status interval, as they read there.
`none` is an open sensor circuit. -/
structure Readings where
  /-- Inputs 0 to 5 Z1 to Z6, 6 pot, 7 pyrometer, tenths °C (R80). -/
  temps : Tab8 (Option Int)
  /-- Level probe, tenths (R117). -/
  level : Option Int
  /-- Flux line pressure, kPa (R76). -/
  pressure : Option Int
  /-- The tank low switch reads empty (R70). -/
  tankEmpty : Bool
  /-- Pump speed feedback over the interval, rpm (R127). -/
  chipRpm : Nat
  mainRpm : Nat
  /-- Duct pressures, filter pressure (Pa) and vapour (tenths of a percent of LFL) (R141). -/
  x1 : Option Int
  x2 : Option Int
  filter : Option Int
  vapour : Option Int
  /-- The fifth analogue input that chapter 8 counts and does not name. -/
  fifth : Word
  /-- Fan feedback present (R144). -/
  feedback1 : Bool
  feedback2 : Bool
  /-- Levels that have no row of their own for both directions (R58, R60, R99). -/
  thermostatOpen : Bool
  homeActive : Bool
  limitMin : Bool
  limitMax : Bool
deriving DecidableEq, Repr

/-- The commands, in the order of the table. -/
inductive Instr
  | powerOnReset (powerUp : List HostWrite)
  | portReset
  | encoderCount (dir : Direction)
  | eyeRawChange (eye : Eye) (blocked : Bool)
  | eyeChangeAccepted (eye : Eye)
  | entryJam
  | boardLost
  | lateLimitReached
  | statusIntervalEnd (inputs : Readings) (writes : List HostWrite)
  | inputFault (input : Idx8)
  | inputRecovery (input : Idx8)
  | inputFillingEnd (input : Idx8)
  | speedStableSet
  | conveyorSpeed
  | levelInputRecovered
  | levelFlagChange (flag : LevelFlag)
  | pumpStableSet (wave : Wave)
  | fluxPressure
  | alarmActivation (point : Idx8)
  | alarmSeverityRise (point : Idx8)
  | alarmEscalation (point : Idx8)
  | alarmClear (point : Idx8)
  | vapourHalt
  | heaterPeriodBoundary
  | loopSettled (loop : LoopId)
  | heaterOutputSwitch (output : Idx8)
  | modulationBoundary
  | lanePulseEnd (lane : Idx8)
  | purgeDurationComplete
  | feederShotStart
  | feederShotComplete
  | feederSettlingComplete
  | shotHistoryExpiry
  | widthMotionStart
  | homingComplete
  | homingTravelExceeded
  | widthMoveComplete
  | widthLimitActive (railEnd : RailEnd)
  | thermostatContactOpen
  | estopInputActive
  | estopInputRelease
  | upstreamAvailableChange (asserted : Bool)
  | endSensorRawChange (blocked : Bool)
  | endSensorEvent
  | downstreamReadyChange (asserted : Bool)
  | idleTimerExpiry
  | runOnTimerExpiry
  | startGraceEnd (channel : Channel)
  | supervisionExpired
  | warmupComplete
  | loadSetup (writes : List HostWrite)
  | start (writes : List HostWrite)
  | shutdown (writes : List HostWrite)
  | stop (writes : List HostWrite)
  | clear (writes : List HostWrite)
  | economy (writes : List HostWrite)
  | wake (writes : List HostWrite)
  | setSource (writes : List HostWrite)
  | setSequence (writes : List HostWrite)
  | cancelDocket (writes : List HostWrite)
  | ackAlarms (writes : List HostWrite)
  | fluxRefilled (writes : List HostWrite)
  | purgeFluxer (writes : List HostWrite)
  | clearTrackFlags (writes : List HostWrite)
  | unknownRequest (code : Word) (writes : List HostWrite)
  | requestOverrun (code : Word)
  | noticeRead
  | noticeWrite (value : Word)
  | noticeEnWrite (value : Word)
  | posRead (half : Half)
  | hostAliveWrite (value : Word)
  | heatAuthEnable
  | heatAuthDisable
  | heatAuthInvalid (value : Word)
  | ignoredRegisterWrite (reg : ReadOnlyReg) (value : Word)
  | widthStepperStep
  | homeSwitchInactive
deriving DecidableEq, Repr

end Sys2Proof
end

