-- ==== Sys2Proof/Machine/State.lean ====
section
/-! DEFINITION. The state of the Jupal 2640, block by block, as Table 1-1 and the state tables of the chapters give it; its
faults and refusals; and the state right after power-on reset. -/

namespace Sys2Proof.Machine

/-! ## Line modes and halt causes (chapter 10) -/

/-- The six line modes, in the order of their codes (Table 12-5). -/
inductive Mode
  | off
  | warmup
  | production
  | economy
  | cooldown
  | halted
deriving DecidableEq, Repr

/-- The twelve halt causes, in the order of Table 10-3. -/
inductive HaltCause
  | estop
  | stopRequest
  | boardLost
  | entryJam
  | potOvertemp
  | potSensor
  | potLevel
  | conveyorSpeed
  | widthDrive
  | authority
  | trackFault
  | vapour
deriving DecidableEq, Repr

/-- The state of the mode controller (Table 10-2). -/
structure Modes where
  mode : Mode
  /-- The halt-cause set, without repeats, in the order of joining (R170). -/
  causes : List HaltCause
  /-- Elapsed milliseconds of the idle timer, or stopped (R166). -/
  idle : Option Nat
  /-- UPSTREAM_AVAILABLE as sampled at entry to ECONOMY (R167). -/
  wakeArm : Option Bool
  /-- Remaining milliseconds of the run-on timer, or stopped (R138). -/
  runOn : Option Nat
deriving DecidableEq, Repr

/-! ## Recipes, the offer and the in-flight list (chapters 1 and 2) -/

/-- A class: rail width (tenths), conveyor speed (mm/min), pot setpoint (tenths °C) (3.5). -/
structure LineClass where
  width : Nat
  speed : Nat
  pot : Int
deriving DecidableEq, Repr

/-- One spray window of a recipe: offsets in millimetres, lanes, duty (Table 2-3). -/
structure Window where
  start : Nat
  stop : Nat
  lanes : BitVec 8
  duty : Nat
deriving DecidableEq, Repr

/-- A recipe's working fields: Table 2-3 except the name (R33). -/
structure Recipe where
  revision : Word
  cls : LineClass
  zones : Tab6 Int
  zoneTol : Int
  topMin : Int
  topMax : Int
  windowCount : Nat
  windows : List Window
  chipRpm : Nat
  mainRpm : Nat
  contactMin : Nat
  contactMax : Nat
deriving DecidableEq, Repr

/-- The source of boards (2.2): DOCKET, or STANDING with its recipe index. -/
inductive Source
  | docket
  | standing (recipe : Fin 16)
deriving DecidableEq, Repr

/-- The origin of a record (Table 1-2). -/
inductive Origin
  | docket
  | standing
  | intruder
deriving DecidableEq, Repr

/-- The offer (R33): slot, origin, the docket fields the part uses, the recipe snapshot. -/
structure Offer where
  slot : SlotIx
  origin : Origin
  sequence : Word
  recipeIndex : Word
  skipFlux : Bool
  expectedLength : Nat
  lengthTol : Nat
  recipe : Recipe
deriving DecidableEq, Repr

/-- The next board the docket unit reports: its recipe and whether its docket carries SKIP_FLUX (R26, R41). -/
structure NextBoard where
  recipe : Recipe
  skipFlux : Bool
deriving DecidableEq, Repr

/-- The stage of a record (R11). -/
inductive Stage
  | entering
  | tracked
  | exiting
deriving DecidableEq, Repr

/-- The deviation flags of a record, in the order of Table 2-4. -/
inductive Flag
  | dwell
  | waveInterrupted
  | waveUnstable
  | lateAdmit
  | lengthMismatch
  | lengthChange
  | overlength
  | preheatDeviation
  | topsideLow
  | topsideHigh
  | topsideUnmeasured
  | contactLow
  | contactHigh
  | fluxSkipped
  | fluxIncomplete
deriving DecidableEq, Repr

/-- What an admitted board takes from its offer: absent for an intruder (R11). -/
structure Binding where
  slot : SlotIx
  recipe : Recipe
  skipFlux : Bool
  expectedLength : Nat
  lengthTol : Nat
deriving DecidableEq, Repr

/-- An in-flight record (Table 1-2). -/
structure Record where
  ordinal : BitVec 16
  origin : Origin
  binding : Option Binding
  lead : Pos
  trail : Option Pos
  length : Option Nat
  stage : Stage
  jam : Bool
  entryTime : Clock
  exitLead : Option Pos
  /-- Flux accumulator, nanolitres (R68). -/
  flux : Nat
  skipped : BitVec 16
  incomplete : BitVec 16
  flags : BitVec 16
  zoneMask : BitVec 16
  topside : Option Int
  minSpeed : Option Nat
  minRpm : Option Nat
deriving DecidableEq, Repr

/-- The qualifier of an eye (R4) or of the end sensor (R153): the accepted state (`true` is blocked), the pending
change, and the transition count. The pending change is a position for an eye, a clock value for the sensor. -/
structure Qualifier where
  accepted : Bool
  pendingAt : Option (BitVec 32)
  count : BitVec 8
deriving DecidableEq, Repr

/-- The state of the track unit (Table 1-1). -/
structure Track where
  pos : Pos
  frac : Nat
  entryEye : Qualifier
  exitEye : Qualifier
  ref : Nat
  /-- Forward counts minus reverse counts of the running window (R6). -/
  net : Int
  /-- The running window is the first after a port reset (R6). -/
  shortWindow : Bool
  /-- The reference has changed within the running window (R7, R8). -/
  refMoved : Bool
  measured : Int
  speedStable : Bool
  passes : Nat
  misses : Nat
  ordinal : BitVec 16
  records : List Record
  /-- The newest record was created by the most recent accepted entry leading edge (R13). -/
  owner : Bool
  overflow : Bool
  phantom : Bool
  /-- The test of R16 waits for a pending exit change: P has passed the candidate's window, and the change was in time. -/
  lostWaits : Bool
  lastTrail : Option Pos
deriving DecidableEq, Repr

/-- The state of the docket unit (Table 2-1) but for the closed-slot count, which the header holds. -/
structure Docket where
  expected : Word
  source : Source
  candidate : Option SlotIx
  next : Option NextBoard
  noDocket : Bool
  recipeHold : Bool
  noSlot : Bool
  offer : Option Offer
  held : List SlotIx
deriving DecidableEq, Repr

/-! ## The entry gate (chapter 3) -/

/-- The gate states (3.2), in the order of their codes. -/
inductive GateState
  | closed
  | opened
  | late
  | receiving
deriving DecidableEq, Repr

/-- The hold reasons, in the order of Table 3-2. -/
inductive HoldReason
  | modeHold
  | listFull
  | noDocket
  | recipe
  | noSlot
  | changeover
  | flux
  | edgeRoom
  | x2Extraction
  | pot
  | zoneFault
  | hostLost
  | outfeed
  | spacing
deriving DecidableEq, Repr

/-- The changeover phases (3.6), in the order of Table 3-1. -/
inductive Phase
  | none
  | draining
  | moving
  | settling
deriving DecidableEq, Repr

/-- The width drive states (Table 3-3); HOMING carries its direction. -/
inductive WidthState
  | unreferenced
  | homing (outward : Bool)
  | idle
  | moving
  | fault
deriving DecidableEq, Repr

/-- The width drive (3.7). -/
structure Width where
  state : WidthState
  /-- Width position in tenths; 0 while unknown. -/
  pos : Nat
  target : Nat
  /-- Travel of the running homing leg, in tenths (R58). -/
  travel : Nat
deriving DecidableEq, Repr

/-- The outfeed states (9.1), in the order of their codes. -/
inductive OutfeedState
  | empty
  | loading
  | holding
  | delivering
deriving DecidableEq, Repr

/-- The state of the entry gate (Table 3-1). -/
structure Gate where
  state : GateState
  /-- The hold set as last formed, in the order of Table 3-2 (R41). -/
  holds : List HoldReason
  lateLimit : Option Pos
  /-- The gate waits for a pending entry change from before the late limit, which P has reached (R47). -/
  lateWaits : Bool
  /-- ENTRY_READY and its transition count (R44). -/
  ready : Bool
  readyCount : BitVec 8
  upstreamCount : BitVec 8
  lineClass : Option LineClass
  phase : Phase
  target : Option LineClass
  width : Width
  /-- The model's own note: the outfeed state at the gate's latest evaluation, of which it was told (R154, R160; log entry 58). -/
  told : OutfeedState
deriving DecidableEq, Repr

/-! ## The outfeed (chapter 9) -/

/-- The state of the outfeed unit (Table 9-1); the sampled DOWNSTREAM_READY is the pin. -/
structure Outfeed where
  state : OutfeedState
  sensor : Qualifier
  drive : Bool
  /-- BOARD_AVAILABLE_OUT and its transition count (R156). -/
  available : Bool
  availableCount : BitVec 8
  /-- The transition count of DOWNSTREAM_READY (R157). -/
  readyCount : BitVec 8
  stop : Bool
deriving DecidableEq, Repr

/-! ## The flux unit (chapter 4) -/

/-- One edge of the spray edge list (R62). -/
structure Edge where
  pos : Pos
  ordinal : BitVec 16
  window : Nat
  /-- `true` for OPEN, `false` for CLOSE. -/
  opens : Bool
  lanes : BitVec 8
  duty : Nat
deriving DecidableEq, Repr

/-- A window of the active window set (R66). -/
structure ActiveWindow where
  ordinal : BitVec 16
  window : Nat
  lanes : BitVec 8
  duty : Nat
deriving DecidableEq, Repr

/-- An open valve of a lane (R68): the boundary its pulse began at, the length of the pulse in milliseconds, and the window
that owns it. The length is 0 once a pulse of the whole period has been credited and the valve waits for the boundary (log
entry 53). -/
structure Pulse where
  start : Clock
  q : Nat
  ordinal : BitVec 16
  window : Nat
deriving DecidableEq, Repr

/-- The fluxer inhibit reasons, in the order of Table 4-2. -/
inductive Inhibit
  | extraction
  | vapour
  | pressure
  | tank
  | mode
deriving DecidableEq, Repr

/-- A running purge: the remaining time at the latest credit, and when that was (R78). -/
structure Purge where
  remaining : Nat
  creditedAt : Clock
deriving DecidableEq, Repr

/-- The state of the flux unit (Table 4-1). -/
structure Flux where
  edges : List Edge
  active : List ActiveWindow
  duties : Tab8 Nat
  pulses : Tab8 (Option Pulse)
  counter : Nat
  remainder : Nat
  /-- The volume of the latest refill, the bound of the counter (R69, R71). -/
  bound : Nat
  /-- The low-mark state is BELOW (R70). -/
  low : Bool
  /-- The latest sample of the tank low switch reads empty (R70, R71). -/
  tankEmpty : Bool
  inhibit : List Inhibit
  pressureFault : Bool
  pressureCount : Nat
  /-- The latest pressure sample is in band (R76). -/
  pressureInBand : Bool
  purge : Option Purge
deriving DecidableEq, Repr

/-! ## The thermal unit (chapters 5 and 6) -/

/-- The states of a temperature input (R81). -/
inductive InputState
  | filling
  | good
  | faulted
deriving DecidableEq, Repr

/-- The record of a temperature input (Table 5-1). -/
structure Input where
  state : InputState
  /-- Samples taken while FILLING (R82). -/
  seen : Nat
  /-- The most recent good samples, oldest first, at most 4 (R80). -/
  ring : List Int
  bad : Nat
  good : Nat
deriving DecidableEq, Repr

/-- The record of a control loop (Table 5-1), with the governing board of a zone (R105). -/
structure Loop where
  target : Int
  sp : Int
  /-- Integral A, hundredths of a per-mille (R87). -/
  integral : Int
  request : Nat
  grant : Nat
  prevRequest : Nat
  prevGrant : Nat
  count : Nat
  settled : Bool
  limited : Bool
  governing : Option (BitVec 16)
deriving DecidableEq, Repr

/-- The state of the thermal unit (Table 5-1). -/
structure Thermal where
  inputs : Tab8 Input
  pot : Loop
  zones : Tab6 Loop
  /-- Pot ramp remainder (R86). -/
  ramp : Nat
  latches : Tab6 Bool
  outputs : Tab8 Bool
  /-- HEAT_AUTH is ENABLED (R102). -/
  auth : Bool
deriving DecidableEq, Repr

/-! ## The pot unit (chapter 7) -/

/-- A level flag with its dwell count (R118). -/
structure Level where
  set : Bool
  count : Nat
deriving DecidableEq, Repr

/-- The feeder states (Table 7-3), with the remaining shot or settling time in milliseconds. -/
inductive Feeder
  | idle
  | feeding (remaining : Nat)
  | settling (remaining : Nat)
  | jammed
deriving DecidableEq, Repr

/-- A pump record (Table 7-1). -/
structure Pump where
  target : Nat
  ref : Nat
  measured : Nat
  stable : Bool
  count : Nat
  /-- The reference has changed within the running window (R128). -/
  refMoved : Bool
  governing : Option (BitVec 16)
deriving DecidableEq, Repr

/-- The wave drop states (Table 7-4). The wave-stable wait is raised in HELD and RECOVERING. -/
inductive Drop
  | none
  | held
  | recovering
deriving DecidableEq, Repr

/-- The state of the pot unit (Table 7-1). -/
structure Pot where
  levelGood : Bool
  /-- Consecutive good samples while FAULTED (R117). -/
  levelRun : Nat
  level : Int
  high : Level
  low : Level
  lowlow : Level
  feeder : Feeder
  shotLevel : Option Int
  misses : Nat
  history : List Clock
  /-- The model's own note that R121's test of the shot conditions falls at this moment (log entry 1). -/
  feedTest : Bool
  chip : Pump
  main : Pump
  drop : Drop
  /-- The running pump window is the first after a port reset (R127). -/
  shortWindow : Bool
deriving DecidableEq, Repr

/-! ## The extraction monitor (chapter 8) -/

/-- The annunciation states (8.3), in the order of their codes. -/
inductive Annunciation
  | normal
  | activeUnack
  | activeAck
  | clearedUnack
deriving DecidableEq, Repr

/-- The severities (8.3), in the order of their codes. -/
inductive Severity
  | none
  | warning
  | alarm
deriving DecidableEq, Repr

/-- The record of an alarm point (8.3) with its dwell counts (Table 8-1). -/
structure Point where
  ann : Annunciation
  sev : Severity
  value : Word
  lastChange : Clock
  activations : BitVec 16
  warnCount : Nat
  alarmCount : Nat
  clearCount : Nat
  escCount : Nat
deriving DecidableEq, Repr

/-- The state of the extraction monitor (Table 8-1). Both fans are commanded together (8.1). -/
structure Extr where
  fan : Bool
  grace1 : Option Nat
  grace2 : Option Nat
  /-- The readings of the latest samples; `none` is out of range (R141). -/
  x1 : Option Nat
  x2 : Option Nat
  filter : Option Nat
  vapour : Option Nat
  fifth : Word
  feedback1 : Bool
  feedback2 : Bool
  points : Tab8 Point
  vapourCount : Nat
  /-- The model's own note that the alarm table was sampled at this moment and under this setup (R145; log entries 1 and 32). -/
  sampled : Bool
  horn : Bool
  hornCount : BitVec 8
  beacon : Bool
  beaconCount : BitVec 8
deriving DecidableEq, Repr

/-! ## The port interface (chapter 11) -/

/-- The request states (R177), in the order of their codes. -/
inductive ReqState
  | idle
  | busy
  | done
  | refused
deriving DecidableEq, Repr

/-- The refusal codes (Table 11-3), in the order of their codes. -/
inductive RefusalCode
  | none
  | wrongMode
  | badArgument
  | setupInvalid
  | notLoaded
  | busyLine
  | notPosted
  | inUse
  | causePresent
deriving DecidableEq, Repr

/-- The notices, in the order of Table 11-7. -/
inductive Notice
  | slotClosed
  | requestDone
  | modeChanged
  | alarmChanged
  | intruder
  | trackFault
  | halted
  | supervisionExpired
  | potEvent
  | fluxEvent
  | holdChanged
deriving DecidableEq, Repr

/-- A setup: the words of Table 12-6, in the order of their offsets. -/
structure Setup where
  words : List Word
deriving DecidableEq, Repr

/-- The state of the port interface (Table 11-1), with host supervision (R174) and the POS latch (R3). -/
structure Port where
  request : ReqState
  posted : Option Word
  refusal : RefusalCode
  field : BitVec 8
  overrun : Bool
  /-- The working set, when a setup is loaded (R182). -/
  setup : Option Setup
  notices : BitVec 11
  marks : BitVec 11
  enable : BitVec 11
  /-- The NOTICE line is asserted (R184). -/
  line : Bool
  /-- The latched half of POS and its value (R3). -/
  latch : Option (Half × Word)
  /-- The supervision timer runs; its elapsed milliseconds (R174). -/
  supRunning : Bool
  supElapsed : Nat
  hostLost : Bool
  /-- The generation count of the live status block, as the port interface last wrote it (R185; DEDUCED, log entry 43). -/
  generation : Word
  /-- What the latest register read put on the data lines (Table 12-10). -/
  data : Word
deriving DecidableEq, Repr

/-! ## Pins, memory and the whole -/

/-- The field inputs as last presented (Table 12-10). -/
structure Pins where
  entryEye : Bool
  exitEye : Bool
  endSensor : Bool
  upstream : Bool
  downstream : Bool
  estop : Bool
  thermostatOpen : Bool
  homeActive : Bool
  limitMin : Bool
  limitMax : Bool
  readings : Readings
deriving DecidableEq, Repr

/-- Exchange memory: words that differ from what an unlisted address reads as, by rising address. -/
abbrev Memory := List (Nat × Word)

/-- The state of the part. -/
structure State where
  pins : Pins
  /-- The line clock (R188), and the latest boundary taken on each of the three grids (2.4). -/
  clock : Clock
  statusAt : Clock
  heaterAt : Clock
  modAt : Clock
  mem : Memory
  track : Track
  docket : Docket
  gate : Gate
  outfeed : Outfeed
  flux : Flux
  thermal : Thermal
  pot : Pot
  extr : Extr
  modes : Modes
  port : Port
  /-- The commands waiting, first in first out. -/
  pending : List Instr
deriving DecidableEq, Repr

/-- Why the machine stops. No rule of the spec stops the machine: every fault it describes is a latch, a halt cause, an
alarm or a refusal code, which State holds. So no meaning answers with a fault, and the type has no constructor. -/
inductive Fault
deriving DecidableEq, Repr

/-- Why a command has no meaning here. -/
inductive Refusal
  /-- Raised by `exec` for a command without a meaning yet; safe, since nothing can be proved of what it does. -/
  | notModelled (mnemonic : String)
deriving DecidableEq, Repr

/-! ## The state right after power-on reset -/

/-- Readings at rest. DESIGN CHOICE (log entry 2), unsafe: the spec gives no reading at reset. -/
def Readings.atRest : Readings :=
  { temps := ⟨some 250, some 250, some 250, some 250, some 250, some 250, some 250, some 250⟩
    level := some 0, pressure := some 0, tankEmpty := false, chipRpm := 0, mainRpm := 0
    x1 := some 0, x2 := some 0, filter := some 0, vapour := some 0, fifth := 0
    feedback1 := false, feedback2 := false
    thermostatOpen := false, homeActive := false, limitMin := false, limitMax := false }

/-- Pins at rest. DESIGN CHOICE (log entry 2), unsafe: the spec gives no reading at reset. -/
def Pins.atRest : Pins :=
  { entryEye := false, exitEye := false, endSensor := false, upstream := false, downstream := false, estop := false
    thermostatOpen := false, homeActive := false, limitMin := false, limitMax := false, readings := Readings.atRest }

/-- The qualifier that takes the raw reading at reset exit (R4, R153). -/
def Qualifier.atReset (raw : Bool) : Qualifier :=
  { accepted := raw, pendingAt := none, count := 0 }

/-- The track unit after either reset (R2, R4 to R8, R10, R11, R18, R42); `short` marks the first window of a port
reset (R6). -/
def Track.atReset (p : Pins) (short : Bool) : Track :=
  { pos := 0, frac := 0, entryEye := Qualifier.atReset p.entryEye, exitEye := Qualifier.atReset p.exitEye
    ref := 0, net := 0, shortWindow := short, refMoved := false, measured := 0, speedStable := false
    passes := 0, misses := 0, ordinal := 0, records := [], owner := false
    overflow := false, phantom := false, lostWaits := false, lastTrail := none }

/-- The docket unit after either reset (R39, R40), with the E that the reset leaves (R21). -/
def Docket.atReset (e : Word) : Docket :=
  { expected := e, source := .docket, candidate := none, next := none
    noDocket := true, recipeHold := false, noSlot := false, offer := none, held := [] }

/-- The gate after either reset (R44, R50, R57); the hold set is formed after it, on the outfeed state of reset exit. -/
def Gate.atReset : Gate :=
  { state := .closed, holds := [], lateLimit := none, lateWaits := false, ready := false, readyCount := 0, upstreamCount := 0
    lineClass := none, phase := .none, target := none
    width := { state := .unreferenced, pos := 0, target := 0, travel := 0 }, told := .empty }

/-- The outfeed after either reset (R162, R154). -/
def Outfeed.atReset (p : Pins) : Outfeed :=
  { state := if p.endSensor then .holding else if p.exitEye then .loading else .empty
    sensor := Qualifier.atReset p.endSensor
    drive := false, available := false, availableCount := 0, readyCount := 0, stop := false }

/-- The flux unit after either reset (R61, R62, R69, R70, R72, R76, R78), with the tank counter the reset leaves. The
samples of the low switch and of the pressure are DESIGN CHOICE (log entry 2). -/
def Flux.atReset (counter : Nat) : Flux :=
  { edges := [], active := [], duties := Tab8.ofFn fun _ => 0, pulses := Tab8.ofFn fun _ => none
    counter := counter, remainder := 0, bound := counter, low := false, tankEmpty := false
    inhibit := if counter = 0 then [.tank, .mode] else [.mode]
    pressureFault := false, pressureCount := 0, pressureInBand := false, purge := none }

/-- A temperature input after either reset (R82, R103). -/
def Input.atReset : Input :=
  { state := .filling, seen := 0, ring := [], bad := 0, good := 0 }

/-- A loop after either reset (R103, R109). -/
def Loop.atReset : Loop :=
  { target := 0, sp := 0, integral := 0, request := 0, grant := 0, prevRequest := 0, prevGrant := 0
    count := 0, settled := false, limited := false, governing := none }

/-- The thermal unit after either reset (R103). -/
def Thermal.atReset : Thermal :=
  { inputs := Tab8.ofFn fun _ => Input.atReset, pot := Loop.atReset, zones := Tab6.ofFn fun _ => Loop.atReset
    ramp := 0, latches := Tab6.ofFn fun _ => false, outputs := Tab8.ofFn fun _ => false, auth := false }

/-- A pump after either reset (R127, R128, R135). -/
def Pump.atReset : Pump :=
  { target := 0, ref := 0, measured := 0, stable := false, count := 0, refMoved := false, governing := none }

/-- The pot unit after either reset (R135). -/
def Pot.atReset (short : Bool) : Pot :=
  { levelGood := true, levelRun := 0, level := 0
    high := ⟨false, 0⟩, low := ⟨false, 0⟩, lowlow := ⟨false, 0⟩
    feeder := .idle, shotLevel := none, misses := 0, history := [], feedTest := false
    chip := Pump.atReset, main := Pump.atReset, drop := .none, shortWindow := short }

/-- An alarm point after power-on reset (R152). -/
def Point.atReset : Point :=
  { ann := .normal, sev := .none, value := 0, lastChange := 0, activations := 0
    warnCount := 0, alarmCount := 0, clearCount := 0, escCount := 0 }

/-- The extraction monitor after power-on reset (R152). The latest readings are DESIGN CHOICE (log entry 2). -/
def Extr.atReset : Extr :=
  { fan := false, grace1 := none, grace2 := none
    x1 := some 0, x2 := some 0, filter := some 0, vapour := some 0, fifth := 0, feedback1 := false, feedback2 := false
    points := Tab8.ofFn fun _ => Point.atReset, vapourCount := 0, sampled := false
    horn := false, hornCount := 0, beacon := false, beaconCount := 0 }

/-- The mode controller after power-on reset (R175). -/
def Modes.atReset : Modes :=
  { mode := .off, causes := [], idle := none, wakeArm := none, runOn := none }

/-- The port interface after either reset (R3, R174, R177, R183, R184). -/
def Port.atReset : Port :=
  { request := .idle, posted := none, refusal := .none, field := 0, overrun := false, setup := none
    notices := 0, marks := 0, enable := 0, line := false, latch := none
    supRunning := false, supElapsed := 0, hostLost := false, generation := 0, data := 0 }

/-- The machine right after power-on reset with its pins at rest: R39 and the reset clauses of the chapters. -/
def State.reset : State :=
  { pins := Pins.atRest, clock := 0, statusAt := 0, heaterAt := 0, modAt := 0, mem := []
    track := Track.atReset Pins.atRest false
    docket := Docket.atReset 1
    gate := { Gate.atReset with holds := [.modeHold, .noDocket, .pot] }
    outfeed := Outfeed.atReset Pins.atRest
    flux := Flux.atReset 0
    thermal := Thermal.atReset
    pot := Pot.atReset false
    extr := Extr.atReset
    modes := Modes.atReset
    port := Port.atReset
    pending := [] }

end Sys2Proof.Machine
end

