-- ==== Sys2Proof/Machine/Ops.lean ====
section
/-! DEFINITION. Operations every block uses: track positions and clock values, exchange memory, codes of sets and states,
notices, and the deviation flags of a record. -/

namespace Sys2Proof.Machine

open Sys2Proof.Config

/-! ## Track positions (R1, R104) and clock values (2.4) -/

/-- Position `a` is at or after position `b` (R1). -/
def atOrAfter (a b : Pos) : Bool :=
  decide ((a - b).toNat < 2 ^ 31)

/-- Position `a` is strictly after position `b`. -/
def strictlyAfter (a b : Pos) : Bool :=
  atOrAfter a b && a != b

/-- A distance in tenths as a track position. -/
def tenths (n : Nat) : Pos :=
  BitVec.ofNat 32 n

/-- The relative position of R1: P minus the lead, read unsigned. -/
def relative (p lead : Pos) : Nat :=
  (p - lead).toNat

/-- The relative lead or trail of R104: 0 for a position that P is before. -/
def relativeFrom (p from_ : Pos) : Nat :=
  if atOrAfter p from_ then relative p from_ else 0

/-- A length, saturated at 65535 (R13, R17). -/
def saturate16 (n : Nat) : Nat :=
  min n 65535

/-- The milliseconds from clock value `a` to clock value `b`. -/
def elapsed (a b : Clock) : Nat :=
  (b - a).toNat

/-- The milliseconds until the next boundary of a grid of `n` ms: boundaries fall at clock values that are multiples of
`n` (R66, R80, R96). A boundary at the present clock value counts unless it is the latest one taken. -/
def untilBoundary (n : Nat) (taken now : Clock) : Nat :=
  if now.toNat % n = 0 ∧ now ≠ taken then 0
  else min ((now.toNat / n + 1) * n) (2 ^ 32) - now.toNat

/-! ## Exchange memory (chapter 12) -/

/-- What an unlisted word reads as: the header of R39, R188 (part code, layout version, reset cause POWER_ON, E mirror 1),
and 0. The zeros of the live status block, of the slot states and of the rest of the header are R39's and R186's. DESIGN
CHOICE (log entry 4), unsafe: the other words are unpredictable after power-up, and read 0 here. -/
def blankWord (a : Nat) : Word :=
  if a = 0 then partCode
  else if a = 1 then layoutVersion
  else if a = resetCauseAt then 1
  else if a = mirrorEAt then 1
  else 0

/-- The word at address `a`. -/
def Memory.read (m : Memory) (a : Nat) : Word :=
  match m with
  | [] => blankWord a
  | c :: r => if c.1 = a then c.2 else Memory.read r a

/-- The cells of consecutive words from `base`, those that read as an unlisted address left out. -/
def cellsOf (base : Nat) (ws : List Word) : Memory :=
  match ws with
  | [] => []
  | w :: rest => if w = blankWord base then cellsOf (base + 1) rest else (base, w) :: cellsOf (base + 1) rest

/-- Memory with consecutive words written from `base`. -/
def Memory.writeBlock (m : Memory) (base : Nat) (ws : List Word) : Memory :=
  m.filter (fun c => decide (c.1 < base)) ++ cellsOf base ws
    ++ m.filter (fun c => decide (base + ws.length ≤ c.1))

/-- Memory with one word written. -/
def Memory.write (m : Memory) (a : Nat) (w : Word) : Memory :=
  m.writeBlock a [w]

/-- The canonical form: rising addresses inside the 8192 words, and no cell that reads as an unlisted address. -/
abbrev Memory.wf (m : Memory) : Prop :=
  (m.map Prod.fst).Pairwise (· < ·) ∧ ∀ c ∈ m, c.1 < memWords ∧ c.2 ≠ blankWord c.1

/-- The two words of a 32-bit value, low half first (R187). -/
def twoWords (n : Nat) : List Word :=
  [BitVec.ofNat 16 n, BitVec.ofNat 16 (n / 65536)]

/-- The value of two words, low half first (12.1). -/
def Memory.read32 (m : Memory) (a : Nat) : Nat :=
  (m.read a).toNat + 65536 * (m.read (a + 1)).toNat

/-- One write of the host to exchange memory (R186). The part code and the layout version read 2640h and 0001h at all times
after power-on reset (R188), so a write to either changes nothing (DEDUCED, log entry 36). -/
def hostWrite (m : Memory) (w : HostWrite) : Memory :=
  if w.addr.val < 2 then m else m.write w.addr.val w.word

/-- The host's writes to exchange memory, in order (R186). -/
def hostWrites (ws : List HostWrite) (m : Memory) : Memory :=
  ws.foldl hostWrite m

/-! ## Words of fields -/

/-- A number as a word. -/
def wordOf (n : Nat) : Word :=
  BitVec.ofNat 16 n

/-- A signed number as a word (two's complement, 12.1). -/
def wordOfInt (n : Int) : Word :=
  BitVec.ofInt 16 n

/-- A flag as a word (12.5). -/
def wordOfBool (b : Bool) : Word :=
  if b then 1 else 0

/-- The word of a temperature: 7FFFh when absent or faulted (12.1). -/
def wordOfTemp (t : Option Int) : Word :=
  match t with
  | some v => wordOfInt v
  | none => 0x7FFF

/-- A set as a word: bit `k` for the member of index `k` (12.1). -/
def wordOfBits (bits : List Bool) : Word :=
  match bits with
  | [] => 0
  | b :: rest => (wordOfBits rest <<< 1) ||| wordOfBool b

/-! ## Codes -/

def Mode.code (m : Mode) : Nat :=
  match m with
  | .off => 0
  | .warmup => 1
  | .production => 2
  | .economy => 3
  | .cooldown => 4
  | .halted => 5

def GateState.code (g : GateState) : Nat :=
  match g with
  | .closed => 0
  | .opened => 1
  | .late => 2
  | .receiving => 3

def OutfeedState.code (o : OutfeedState) : Nat :=
  match o with
  | .empty => 0
  | .loading => 1
  | .holding => 2
  | .delivering => 3

def ReqState.code (r : ReqState) : Nat :=
  match r with
  | .idle => 0
  | .busy => 1
  | .done => 2
  | .refused => 3

def RefusalCode.code (r : RefusalCode) : Nat :=
  match r with
  | .none => 0
  | .wrongMode => 1
  | .badArgument => 2
  | .setupInvalid => 3
  | .notLoaded => 4
  | .busyLine => 5
  | .notPosted => 6
  | .inUse => 7
  | .causePresent => 8

def Phase.code (p : Phase) : Nat :=
  match p with
  | .none => 0
  | .draining => 1
  | .moving => 2
  | .settling => 3

def WidthState.code (w : WidthState) : Nat :=
  match w with
  | .unreferenced => 0
  | .homing _ => 1
  | .idle => 2
  | .moving => 3
  | .fault => 4

def Stage.code (t : Stage) : Nat :=
  match t with
  | .entering => 0
  | .tracked => 1
  | .exiting => 2

def Feeder.code (f : Feeder) : Nat :=
  match f with
  | .idle => 0
  | .feeding _ => 1
  | .settling _ => 2
  | .jammed => 3

def Drop.code (d : Drop) : Nat :=
  match d with
  | .none => 0
  | .held => 1
  | .recovering => 2

def Annunciation.code (a : Annunciation) : Nat :=
  match a with
  | .normal => 0
  | .activeUnack => 1
  | .activeAck => 2
  | .clearedUnack => 3

def Severity.code (v : Severity) : Nat :=
  match v with
  | .none => 0
  | .warning => 1
  | .alarm => 2

/-- The halt causes in the order of Table 10-3. -/
def allCauses : List HaltCause :=
  [.estop, .stopRequest, .boardLost, .entryJam, .potOvertemp, .potSensor, .potLevel, .conveyorSpeed, .widthDrive,
   .authority, .trackFault, .vapour]

/-- The hold reasons in the order of Table 3-2. -/
def allReasons : List HoldReason :=
  [.modeHold, .listFull, .noDocket, .recipe, .noSlot, .changeover, .flux, .edgeRoom, .x2Extraction, .pot, .zoneFault,
   .hostLost, .outfeed, .spacing]

/-- The inhibit reasons in the order of Table 4-2. -/
def allInhibits : List Inhibit :=
  [.extraction, .vapour, .pressure, .tank, .mode]

/-- The bit of a deviation flag in the traveller's flag word (Table 2-4). -/
def Flag.bit (f : Flag) : Nat :=
  match f with
  | .dwell => 0
  | .waveInterrupted => 1
  | .waveUnstable => 2
  | .lateAdmit => 3
  | .lengthMismatch => 4
  | .lengthChange => 5
  | .overlength => 6
  | .preheatDeviation => 7
  | .topsideLow => 8
  | .topsideHigh => 9
  | .topsideUnmeasured => 10
  | .contactLow => 11
  | .contactHigh => 12
  | .fluxSkipped => 13
  | .fluxIncomplete => 14

/-- The bit of a notice (Table 12-5). -/
def Notice.bit (n : Notice) : Nat :=
  match n with
  | .slotClosed => 0
  | .requestDone => 1
  | .modeChanged => 2
  | .alarmChanged => 3
  | .intruder => 4
  | .trackFault => 5
  | .halted => 6
  | .supervisionExpired => 7
  | .potEvent => 8
  | .fluxEvent => 9
  | .holdChanged => 10

/-- The mask of one bit of a word. -/
def bitMask (k : Nat) : BitVec 16 :=
  (1 : BitVec 16) <<< k

/-- The mask of one notice. -/
def Notice.mask (n : Notice) : BitVec 11 :=
  (1 : BitVec 11) <<< n.bit

/-! ## Notices (R183, R184) -/

/-- An event sets its notice bit pending and removes its read mark (R183). -/
def Port.notify (p : Port) (n : Notice) : Port :=
  { p with notices := p.notices ||| n.mask, marks := p.marks &&& ~~~n.mask }

/-- The event of a notice happens exactly when `b` holds. -/
def Port.notifyIf (p : Port) (b : Bool) (n : Notice) : Port :=
  if b then p.notify n else p

/-- The NOTICE line re-formed: asserted while some bit is both pending and enabled (R184). -/
def Port.formLine (p : Port) : Port :=
  { p with line := (p.notices &&& p.enable) != 0 }

/-! ## Records -/

/-- The record with a deviation flag set. -/
def Record.mark (r : Record) (f : Flag) : Record :=
  { r with flags := r.flags ||| bitMask f.bit }

/-- The record with a deviation flag set where `b` holds. -/
def Record.markIf (r : Record) (b : Bool) (f : Flag) : Record :=
  if b then r.mark f else r

/-- The record carries the deviation flag. -/
def Record.has (r : Record) (f : Flag) : Bool :=
  r.flags.getLsbD f.bit

/-- The record is that of an intruder. -/
def Record.isIntruder (r : Record) : Bool :=
  r.origin == .intruder

/-- The recipe snapshot of a DOCKET or STANDING record; an intruder has none (R11). -/
def Record.recipe? (r : Record) : Option Recipe :=
  if r.isIntruder then none else r.binding.map (·.recipe)

/-- The slot of a DOCKET or STANDING record (R11). -/
def Record.slot? (r : Record) : Option SlotIx :=
  if r.isIntruder then none else r.binding.map (·.slot)

/-- The records with those that satisfy `p` changed by `f`. -/
def mapRecords (p : Record → Bool) (f : Record → Record) (rs : List Record) : List Record :=
  rs.map fun r => if p r then f r else r

/-- The newest record of the list, changed by `f` (the newest is the last, R10). -/
def mapNewest (f : Record → Record) (rs : List Record) : List Record :=
  match rs with
  | [] => []
  | [r] => [f r]
  | r :: rest => r :: mapNewest f rest

/-! ## Counts -/

/-- A transition count after a line or accepted state goes from `a` to `b`: one more, wrapping, at each change. -/
def countChange (c : BitVec 8) (a b : Bool) : BitVec 8 :=
  if a == b then c else c + 1

/-- The product of a duty and a condition: `n` where `b` holds, else 0. -/
def natIf (b : Bool) (n : Nat) : Nat :=
  if b then n else 0

end Sys2Proof.Machine
end

