-- ==== Sys2Proof/Machine/Setup.lean ====
section
/-! DEFINITION. The setup record: its fields by word offset (Table 12-6), its checks (R181), and the working set. -/

namespace Sys2Proof.Machine

open Sys2Proof.Config

/-- The word at an offset, unsigned. -/
def Setup.word (c : Setup) (k : Nat) : Nat :=
  (c.words.getD k 0).toNat

/-- The word at an offset, signed (12.4: temperatures are signed). -/
def Setup.signed (c : Setup) (k : Nat) : Int :=
  (c.words.getD k 0).toInt

/-- The two words at an offset, low half first. -/
def Setup.long (c : Setup) (k : Nat) : Nat :=
  c.word k + 65536 * c.word (k + 1)

/-! ## Fields (Table 12-6) -/

def Setup.countsPerMetre (c : Setup) : Nat := c.long 0
def Setup.minGap (c : Setup) : Nat := c.word 2
def Setup.maxLength (c : Setup) : Nat := c.word 3
def Setup.exitTol (c : Setup) : Nat := c.word 4
def Setup.stopOnFault (c : Setup) : Bool := c.word 5 = 1
def Setup.holdMargin (c : Setup) : Nat := c.word 6
def Setup.barF (c : Setup) : Nat := c.word 7
def Setup.zoneStart (c : Setup) (z : Zone) : Nat := c.word (8 + 2 * z.val)
def Setup.zoneEnd (c : Setup) (z : Zone) : Nat := c.word (9 + 2 * z.val)
def Setup.zoneAhead (c : Setup) (z : Zone) : Nat := c.word (20 + z.val)
def Setup.pyroY (c : Setup) : Nat := c.word 26
def Setup.waveStart (c : Setup) (w : Wave) : Nat := match w with | .chip => c.word 27 | .main => c.word 29
def Setup.waveEnd (c : Setup) (w : Wave) : Nat := match w with | .chip => c.word 28 | .main => c.word 30
def Setup.waveAhead (c : Setup) (w : Wave) : Nat := match w with | .chip => c.word 31 | .main => c.word 32
def Setup.exitX (c : Setup) : Nat := c.word 33
def Setup.rating (c : Setup) (k : Idx8) : Nat := c.word (34 + k.val)
def Setup.budget (c : Setup) : Nat := c.word 42

/-- The place of a loop in the per-loop fields: POT, Z1 to Z6. -/
def loopPlace (l : LoopId) : Nat :=
  match l with
  | .pot => 0
  | .zone z => 1 + z.val

def Setup.kp (c : Setup) (l : LoopId) : Nat := c.word (43 + loopPlace l)
def Setup.ki (c : Setup) (l : LoopId) : Nat := c.word (50 + loopPlace l)
def Setup.settleBand (c : Setup) (l : LoopId) : Nat := c.word (57 + loopPlace l)
def Setup.settleTime (c : Setup) (l : LoopId) : Nat := c.word (64 + loopPlace l)
def Setup.rampRate (c : Setup) : Nat := c.word 71
def Setup.potHard (c : Setup) : Int := c.signed 72
def Setup.zoneHard (c : Setup) : Int := c.signed 73
def Setup.economyOffset (c : Setup) : Int := c.signed 74
def Setup.idleTime (c : Setup) : Nat := c.word 75
def Setup.flow (c : Setup) (lane : Idx8) : Nat := c.word (76 + lane.val)
def Setup.pressureLow (c : Setup) : Nat := c.word 84
def Setup.pressureHigh (c : Setup) : Nat := c.word 85
def Setup.tankLowMark (c : Setup) : Nat := c.long 86
def Setup.levelLowLow (c : Setup) : Nat := c.word 88
def Setup.levelLow (c : Setup) : Nat := c.word 89
def Setup.levelHigh (c : Setup) : Nat := c.word 90
def Setup.levelComp (c : Setup) : Nat := c.word 91
def Setup.shotLength (c : Setup) : Nat := c.word 92
def Setup.maxShots (c : Setup) : Nat := c.word 93
def Setup.minRise (c : Setup) : Nat := c.word 94
def Setup.feedBand (c : Setup) : Nat := c.word 95
def Setup.pumpTol (c : Setup) : Nat := c.word 96
def Setup.contactWidth (c : Setup) : Nat := c.word 97
/-- Flow thresholds and dwells of a channel. -/
def Setup.flowWarn (c : Setup) (h : Channel) : Nat := match h with | .x1 => c.word 98 | .x2 => c.word 102
def Setup.flowAlarm (c : Setup) (h : Channel) : Nat := match h with | .x1 => c.word 99 | .x2 => c.word 103
def Setup.flowWarnDwell (c : Setup) (h : Channel) : Nat := match h with | .x1 => c.word 100 | .x2 => c.word 104
def Setup.flowAlarmDwell (c : Setup) (h : Channel) : Nat := match h with | .x1 => c.word 101 | .x2 => c.word 105
def Setup.filterLimit (c : Setup) : Nat := c.word 106
def Setup.filterDwell (c : Setup) : Nat := c.word 107
def Setup.vapourWarn (c : Setup) : Nat := c.word 108
def Setup.vapourAlarm (c : Setup) : Nat := c.word 109
def Setup.vapourWarnDwell (c : Setup) : Nat := c.word 110
def Setup.vapourAlarmDwell (c : Setup) : Nat := c.word 111
def Setup.escalation (c : Setup) : Nat := c.word 112
def Setup.clearDwell (c : Setup) : Nat := c.word 113
def Setup.fanRunOn (c : Setup) : Nat := c.word 114
def Setup.supervision (c : Setup) : Nat := c.word 115
def Setup.firstSequence (c : Setup) : Word := c.words.getD 116 0

/-! ## Checks (R181) -/

/-- A range check of the one-word field at an offset (Table 11-5). -/
def rangeCheck (k lo hi : Nat) : Nat × (Setup → Bool) :=
  (k, fun c => decide (lo ≤ c.word k ∧ c.word k ≤ hi))

/-- The same range check for consecutive fields. -/
def rangeChecks (k n lo hi : Nat) : List (Nat × (Setup → Bool)) :=
  (List.range n).map fun j => rangeCheck (k + j) lo hi

/-- The check of the field at offset `k` against a field at a lower offset `j`: below it strictly, or not above it. -/
def afterField (j k : Nat) (strict : Bool) : Nat × (Setup → Bool) :=
  (k, fun c => if strict then decide (c.word j < c.word k) else decide (c.word j ≤ c.word k))

/-- The check that the field at offset `k` is strictly below the one at the lower offset `j`. -/
def belowField (j k : Nat) : Nat × (Setup → Bool) :=
  (k, fun c => decide (c.word k < c.word j))

/-- The check that the field at offset `k` is not above the one at the lower offset `j`. -/
def withinField (j k : Nat) : Nat × (Setup → Bool) :=
  (k, fun c => decide (c.word k ≤ c.word j))

/-- The checks of the geometry: offsets 7 to 33 (Table 11-6). An order between two fields is charged to the higher
offset; Z5 and Z6 are ordered against Z1Start, each other's ends, and Z4End. -/
def geometryChecks : List (Nat × (Setup → Bool)) :=
  [(7, fun c => decide (0 < c.word 7)),
   afterField 7 8 true, afterField 8 9 false, afterField 9 10 false, afterField 10 11 false,
   afterField 11 12 false, afterField 12 13 false, afterField 13 14 false, afterField 14 15 false,
   afterField 8 16 false, withinField 15 16, afterField 16 17 false, withinField 15 17,
   afterField 8 18 false, withinField 15 18, afterField 18 19 false, withinField 15 19,
   afterField 15 26 false, afterField 26 27 true, afterField 27 28 true, afterField 28 29 false,
   afterField 29 30 true, afterField 30 33 true]

/-- Every check of R181, in increasing order of the word offset it is charged to. -/
def setupChecks : List (Nat × (Setup → Bool)) :=
  [(0, fun c => decide (1000 ≤ c.countsPerMetre ∧ c.countsPerMetre ≤ 100000)),
   rangeCheck 2 200 5000, rangeCheck 3 500 6000, rangeCheck 4 50 1000, rangeCheck 5 0 1, rangeCheck 6 200 2000]
  ++ geometryChecks
  ++ rangeChecks 34 8 0 12000 ++ [rangeCheck 42 1000 60000]
  ++ rangeChecks 43 7 0 1000 ++ rangeChecks 50 7 0 10000
  ++ rangeChecks 57 7 10 200 ++ rangeChecks 64 7 5 600
  ++ [rangeCheck 71 10 6000,
      (72, fun c => decide (-500 ≤ c.potHard ∧ c.potHard ≤ 6000)),
      (73, fun c => decide (-500 ≤ c.zoneHard ∧ c.zoneHard ≤ 6000)),
      rangeCheck 74 0 1000,
      (75, fun c => c.idleTime = 0 || decide (60 ≤ c.idleTime ∧ c.idleTime ≤ 7200))]
  ++ rangeChecks 76 8 1 2000
  ++ [rangeCheck 84 0 1000, rangeCheck 85 0 1000, afterField 84 85 true,
      (86, fun c => decide (c.tankLowMark ≤ tankMax)),
      rangeCheck 88 0 1000, rangeCheck 89 0 1000, afterField 88 89 true, rangeCheck 90 0 1000, afterField 89 90 true,
      rangeCheck 91 0 500, rangeCheck 92 100 10000, rangeCheck 93 1 20, rangeCheck 94 1 100, rangeCheck 95 0 500,
      rangeCheck 96 1 10, rangeCheck 97 1 2000,
      rangeCheck 98 0 4000, rangeCheck 99 0 4000, belowField 98 99, rangeCheck 100 5 300, rangeCheck 101 5 300,
      rangeCheck 102 0 4000, rangeCheck 103 0 4000, belowField 102 103, rangeCheck 104 5 300, rangeCheck 105 5 300,
      rangeCheck 106 0 4000, rangeCheck 107 5 300,
      rangeCheck 108 1 1000, rangeCheck 109 1 1000, afterField 108 109 true, rangeCheck 110 5 300, rangeCheck 111 5 300,
      rangeCheck 112 10 600, rangeCheck 113 1 60, rangeCheck 114 60 3600,
      (115, fun c => decide (c.supervision ≤ 60))]

/-- The word offset of the first failing field, if one fails (R181). -/
def Setup.firstFailing (c : Setup) : Option Nat :=
  (setupChecks.find? fun k => !k.2 c).map (·.1)

/-- The setup record as exchange memory holds it. -/
def readSetup (m : Memory) : Setup :=
  { words := (List.range setupWords).map fun k => m.read (setupAt + k) }

/-! ## The working set -/

/-- A setup is loaded. -/
def State.loaded (s : State) : Bool :=
  s.port.setup.isSome

/-- The working set; every field reads 0 while no setup is loaded. -/
def State.ws (s : State) : Setup :=
  s.port.setup.getD { words := [] }

end Sys2Proof.Machine
end

