-- ==== Sys2Proof/Machine/Recipe.lean ====
section
/-! DEFINITION. The recipe table (Table 12-8, R31, R32) and the slot array's fields (Table 12-9, R19, R20). -/

namespace Sys2Proof.Machine

open Sys2Proof.Config

/-- The states of a recipe (R31). -/
inductive RecipeState
  | empty
  | editing
  | ready
deriving DecidableEq, Repr

/-- The state of recipe `n`: a code that names none of the three counts as EMPTY (R31). -/
def recipeState (m : Memory) (n : Nat) : RecipeState :=
  let w := m.read (recipeAt n)
  if w = 1 then .editing else if w = 2 then .ready else .empty

/-- Spray window `k` of the recipe at base address `b` (Table 12-8). -/
def readWindow (m : Memory) (b k : Nat) : Window :=
  { start := (m.read (b + 23 + 4 * k)).toNat
    stop := (m.read (b + 24 + 4 * k)).toNat
    lanes := (m.read (b + 25 + 4 * k)).setWidth 8
    duty := (m.read (b + 26 + 4 * k)).toNat }

/-- The working fields of recipe `n`. Its temperatures are signed (Table 2-1; DEDUCED, log entry 10). -/
def readRecipe (m : Memory) (n : Nat) : Recipe :=
  let b := recipeAt n
  let count := (m.read (b + 22)).toNat
  { revision := m.read (b + 1)
    cls := { width := (m.read (b + 10)).toNat, speed := (m.read (b + 11)).toNat, pot := (m.read (b + 12)).toInt }
    zones := Tab6.ofFn fun z => (m.read (b + 13 + z.val)).toInt
    zoneTol := (m.read (b + 19)).toInt
    topMin := (m.read (b + 20)).toInt
    topMax := (m.read (b + 21)).toInt
    windowCount := count
    windows := (List.range (min count 6)).map fun k => readWindow m b k
    chipRpm := (m.read (b + 47)).toNat
    mainRpm := (m.read (b + 48)).toNat
    contactMin := (m.read (b + 49)).toNat
    contactMax := (m.read (b + 50)).toNat }

/-- A spray window passes: offsets in range and in order, at least one of the eight lanes, duty 1 to 16 (Table 2-3). -/
def Window.passes (w : Window) : Bool :=
  decide (w.start ≤ 600 ∧ w.stop ≤ 600 ∧ w.start < w.stop ∧ w.lanes ≠ 0 ∧ 1 ≤ w.duty ∧ w.duty ≤ 16)

/-- A pair of bounds, each 0 (not checked) or in a range, the lower not above the upper when both are set. -/
def boundsPass (lo hi top : Int) : Bool :=
  decide ((lo = 0 ∨ (1 ≤ lo ∧ lo ≤ top)) ∧ (hi = 0 ∨ (1 ≤ hi ∧ hi ≤ top)) ∧ (lo = 0 ∨ hi = 0 ∨ lo ≤ hi))

/-- A recipe passes the field checks of R32, judged against the working set; the bounds of the hard limits are checked
only while a setup is loaded. -/
def Recipe.passes (r : Recipe) (setup : Option Setup) : Bool :=
  let belowPot := match setup with | some c => decide (r.cls.pot < c.potHard) | none => true
  let zoneOk := fun (t : Int) =>
    decide (t = 0) || (decide (1 ≤ t) && match setup with | some c => decide (t < c.zoneHard) | none => true)
  decide (500 ≤ r.cls.width ∧ r.cls.width ≤ 4600)
  && decide (200 ≤ r.cls.speed ∧ r.cls.speed ≤ 3000)
  && decide (1 ≤ r.cls.pot) && belowPot
  && r.zones.toList.all zoneOk
  && decide (1 ≤ r.zoneTol ∧ r.zoneTol ≤ 500)
  && boundsPass r.topMin r.topMax 6000
  && decide (r.windowCount ≤ 6)
  && r.windows.all Window.passes
  && decide (r.chipRpm ≤ 1500) && decide (r.mainRpm ≤ 1500)
  && boundsPass r.contactMin r.contactMax 65534

/-- The setpoint of zone `z`. -/
def Recipe.zone (r : Recipe) (z : Zone) : Int :=
  r.zones.get z

/-- The rpm of a wave. -/
def Recipe.rpm (r : Recipe) (w : Wave) : Nat :=
  match w with
  | .chip => r.chipRpm
  | .main => r.mainRpm

/-! ## Slots -/

/-- The states of a slot (R19). -/
inductive SlotState
  | free
  | posted
  | admitted
  | done
  | rejected
deriving DecidableEq, Repr

/-- The state of slot `n`: a code that names none of the five counts as FREE (R19). -/
def slotState (m : Memory) (n : SlotIx) : SlotState :=
  let w := m.read (slotAt n)
  if w = 1 then .posted else if w = 2 then .admitted else if w = 3 then .done else if w = 4 then .rejected else .free

def slotSequence (m : Memory) (n : SlotIx) : Word := m.read (slotAt n + 1)
def slotRecipe (m : Memory) (n : SlotIx) : Word := m.read (slotAt n + 2)
def slotSkipFlux (m : Memory) (n : SlotIx) : Bool := (m.read (slotAt n + 3)).getLsbD 0
def slotLength (m : Memory) (n : SlotIx) : Nat := (m.read (slotAt n + 4)).toNat
def slotTol (m : Memory) (n : SlotIx) : Nat := (m.read (slotAt n + 5)).toNat

/-- The slots, in index order. -/
def allSlots : List SlotIx :=
  (List.range 64).map fun k => Fin.ofNat 64 k

/-- The spraying window count of a board: 0 under SKIP_FLUX (R64). -/
def NextBoard.sprays (b : NextBoard) : Nat :=
  if b.skipFlux then 0 else b.recipe.windowCount

end Sys2Proof.Machine
end

