-- ==== Sys2Proof/Machine/Modes.lean ====
section
/-! DEFINITION. The mode controller's shared operations (chapter 10): a change of line mode, a halt cause joining the set;
and the passage of time on the line clock. -/

namespace Sys2Proof.Machine

open Sys2Proof.Config

/-- The state with a notice's event having happened (R183). -/
def State.notify (s : State) (n : Notice) : State :=
  { s with port := s.port.notify n }

/-- A mode that a halt cause takes to HALTED (R170). -/
def Mode.runs (m : Mode) : Bool :=
  match m with
  | .warmup => true
  | .production => true
  | .economy => true
  | .cooldown => true
  | .off => false
  | .halted => false

/-- A mode in which the conveyor may run (R5). -/
def Mode.conveys (m : Mode) : Bool :=
  match m with
  | .warmup => true
  | .production => true
  | .cooldown => true
  | .off => false
  | .economy => false
  | .halted => false

/-- A mode in which outfeed motion is permitted (R155). -/
def Mode.outfeedMoves (m : Mode) : Bool :=
  m.runs

/-- A mode in which a changeover and the width drive run (3.6, R57). -/
def Mode.changesOver (m : Mode) : Bool :=
  match m with
  | .warmup => true
  | .production => true
  | .off => false
  | .economy => false
  | .cooldown => false
  | .halted => false

/-- The feeder at entry to a mode: OFF and HALTED cut a running shot short (R125). -/
def Feeder.atMode (f : Feeder) (m : Mode) : Feeder :=
  match f, m with
  | .feeding _, .off => .idle
  | .feeding _, .halted => .idle
  | f, _ => f

/-- The gate's class and changeover at entry to a mode (R51, R56). -/
def Gate.atMode (g : Gate) (m : Mode) : Gate :=
  match m with
  | .off => { g with lineClass := none, phase := .none, target := none }
  | .economy => { g with phase := .none, target := none }
  | .cooldown => { g with phase := .none, target := none }
  | .warmup => g
  | .production => g
  | .halted => g

/-- The run-on timer at entry to a mode: it starts at entry to OFF and stops at exit from OFF (R138). -/
def runOnAt (s : State) (m : Mode) : Option Nat :=
  match m with
  | .off => some (1000 * s.ws.fanRunOn)
  | _ => none

/-- The line mode becomes `m`: notice MODE_CHANGED, and the effects of the entry (R163, R51, R56, R125, R138, R167).
At an exit from ECONOMY the wake arming becomes none (DESIGN CHOICE, log entry 48). Nothing happens where the mode is `m`
already. -/
def State.enterMode (s : State) (m : Mode) : State :=
  if s.modes.mode = m then s
  else
    { s with
      modes :=
        { s.modes with
          mode := m
          runOn := runOnAt s m
          wakeArm := if m = .economy then some s.pins.upstream else none }
      gate := s.gate.atMode m
      pot := { s.pot with feeder := s.pot.feeder.atMode m }
      port := s.port.notify .modeChanged }

/-- A block raises a halt cause (R170): a cause already in the set changes nothing; otherwise it joins, notice HALTED is
set, and a running line halts. -/
def State.raiseCause (s : State) (c : HaltCause) : State :=
  if c ∈ s.modes.causes then s
  else
    let s1 := { s with modes := { s.modes with causes := s.modes.causes ++ [c] }, port := s.port.notify .halted }
    if s1.modes.mode.runs then s1.enterMode .halted else s1

/-- The cause is raised exactly when `b` holds. -/
def State.raiseIf (s : State) (b : Bool) (c : HaltCause) : State :=
  if b then s.raiseCause c else s

/-- `n` milliseconds pass: the line clock and every timer move (R122, R123, R138, R139, R166, R174, R188). A timer that
runs down stops at 0, one that runs up stops at its end; what its end does is a command of its own. -/
def State.advance (s : State) (n : Nat) : State :=
  { s with
    clock := s.clock + BitVec.ofNat 32 n
    modes :=
      { s.modes with
        idle := s.modes.idle.map fun e => min (e + n) (1000 * s.ws.idleTime)
        runOn := s.modes.runOn.map fun r => r - n }
    extr :=
      { s.extr with
        grace1 := s.extr.grace1.map fun r => r - n
        grace2 := s.extr.grace2.map fun r => r - n
        sampled := s.extr.sampled && n == 0 }
    pot :=
      { s.pot with
        feedTest := s.pot.feedTest && n == 0
        feeder :=
          match s.pot.feeder with
          | .feeding r => .feeding (r - n)
          | .settling r => .settling (r - n)
          | f => f }
    port :=
      { s.port with
        supElapsed :=
          if s.port.supRunning then min (s.port.supElapsed + n) (1000 * s.ws.supervision) else s.port.supElapsed } }

/-- The block that stands over the heaters: the permit of R92. -/
def State.permit (s : State) : Bool :=
  s.thermal.auth && s.modes.mode != .off && !s.pins.estop

end Sys2Proof.Machine
end

