-- ==== Sys2Proof/Machine/Docket.lean ====
section
/-! DEFINITION. The docket unit's operations (chapter 2): the expected sequence, the slot scan, rejection, the standing slot,
the offer, the binding of a slot at admission, and the traveller. -/

namespace Sys2Proof.Machine

open Sys2Proof.Config

/-- E takes a value, and the header mirror with it (R21). A setting of E to the value it holds counts as a change: the mirror is
written then too (DESIGN CHOICE, log entry 54). -/
def State.setExpected (s : State) (e : Word) : State :=
  { s with docket := { s.docket with expected := e }, mem := s.mem.write mirrorEAt e }

/-- Memory with the closed-slot count advanced by one (R37). -/
def countClosed (m : Memory) : Memory :=
  m.write closedCountAt (m.read closedCountAt + 1)

/-- The nineteen part-written result words of a slot, all zero but the outcome and the reject reason (R36, R40). -/
def emptyResult (outcome reason : Word) : List Word :=
  [0, outcome, reason, 0, 0, 0, 0, 0, 0, 0, 0, 0, 0, 0, 0, 0, 0, 0, 0]

/-- A slot's result words, then its state word (R35, R36). -/
def writeResult (m : Memory) (n : SlotIx) (result : List Word) (state : Word) : Memory :=
  (m.writeBlock (slotAt n + 16) result).write (slotAt n) state

/-- The reasons for rejecting a slot (R36), coded as Table 12-9 has them. -/
inductive RejectReason
  | stale
  | duplicate
  | badRecipe
  | cancelled
deriving DecidableEq, Repr

/-- The code of a reject reason. -/
def RejectReason.code (r : RejectReason) : Word :=
  match r with
  | .stale => 1
  | .duplicate => 2
  | .badRecipe => 3
  | .cancelled => 4

/-- The docket unit rejects a slot (R36, R37). -/
def State.rejectSlot (s : State) (n : SlotIx) (r : RejectReason) : State :=
  { s with
    mem := countClosed (writeResult s.mem n (emptyResult 0 r.code) 4)
    port := s.port.notify .slotClosed }

/-- The slots rejected one after the other. -/
def State.rejectSlots (s : State) (ns : List SlotIx) (r : RejectReason) : State :=
  ns.foldl (fun s n => s.rejectSlot n r) s

/-- A sequence number lies behind E (2.4). -/
def isStale (e sequence : Word) : Bool :=
  decide (1 ≤ (e - sequence).toNat ∧ (e - sequence).toNat ≤ 32767)

/-- The unheld slots whose state word reads POSTED (R22). -/
def postedSlots (s : State) : List SlotIx :=
  allSlots.filter fun n => !s.docket.held.contains n && slotState s.mem n == .posted

/-- The docket unit's findings: candidate, next board, and the reasons NO_DOCKET, RECIPE and NO_SLOT (R26). -/
def State.findings (s : State) (candidate : Option SlotIx) (next : Option NextBoard)
    (noDocket recipeHold noSlot : Bool) : State :=
  { s with
    docket :=
      { s.docket with
        candidate := candidate, next := next, noDocket := noDocket, recipeHold := recipeHold, noSlot := noSlot } }

/-- What the third step of the scan finds of a recipe index (R25). -/
inductive Verdict
  | bad
  | editing
  | ready (r : Recipe)
deriving DecidableEq, Repr

/-- The check of a recipe index and its recipe (R25, R31, R32). -/
def judgeRecipe (m : Memory) (setup : Option Setup) (index : Nat) : Verdict :=
  if 15 < index then .bad
  else
    match recipeState m index with
    | .empty => .bad
    | .editing => .editing
    | .ready => if (readRecipe m index).passes setup then .ready (readRecipe m index) else .bad

/-- The slot scan (R23 to R25), repeated at most `fuel` times. -/
def State.slotScan (fuel : Nat) (s : State) : State :=
  match fuel with
  | 0 => s.findings none none true false false
  | k + 1 =>
    let posted := postedSlots s
    let e := s.docket.expected
    let s1 := s.rejectSlots (posted.filter fun n => isStale e (slotSequence s.mem n)) .stale
    match posted.filter fun n => slotSequence s.mem n == e with
    | [] => s1.findings none none true false false
    | n :: others =>
      let s2 := s1.rejectSlots others .duplicate
      match judgeRecipe s2.mem s2.port.setup (slotRecipe s2.mem n).toNat with
      | .bad => State.slotScan k ((s2.rejectSlot n .badRecipe).setExpected (e + 1))
      | .editing => s2.findings (some n) none false true false
      | .ready r => s2.findings (some n) (some { recipe := r, skipFlux := slotSkipFlux s2.mem n }) false false false

/-- The slot that a standing board takes: the lowest unheld, unoffered slot that reads FREE (R29). -/
def standingSlot (s : State) : Option SlotIx :=
  allSlots.find? fun n =>
    slotState s.mem n == .free && !s.docket.held.contains n && (s.docket.offer.map (·.slot)) != some n

/-- The docket unit re-forms its findings (R22, R26): by the scan in the DOCKET source, by the standing recipe in the
STANDING source. While the gate is OPEN or LATE the offer is complete, and nothing is re-formed. -/
def State.reformDocket (s : State) : State :=
  match s.gate.state with
  | .opened => s
  | .late => s
  | _ =>
    match s.docket.source with
    | .docket => if s.loaded then s.slotScan 65 else s.findings none none true false false
    | .standing n =>
      match judgeRecipe s.mem s.port.setup n.val with
      | .ready r =>
        s.findings none (if s.loaded then some { recipe := r, skipFlux := false } else none)
          (!s.loaded) false (standingSlot s).isNone
      | _ => s.findings none none (!s.loaded) true (standingSlot s).isNone

/-- The next board of the hold reasons (R41): the offer's while the gate is OPEN or LATE, else the reported one. -/
def State.nextBoard (s : State) : Option NextBoard :=
  match s.gate.state with
  | .opened => s.docket.offer.map fun o => { recipe := o.recipe, skipFlux := o.skipFlux }
  | .late => s.docket.offer.map fun o => { recipe := o.recipe, skipFlux := o.skipFlux }
  | _ => s.docket.next

/-- The next class the docket unit reports (R26). -/
def State.nextClass (s : State) : Option LineClass :=
  s.nextBoard.map (·.recipe.cls)

/-- The offer fixed at the entry to OPEN (R33). -/
def State.makeOffer (s : State) : Option Offer :=
  match s.docket.source, s.docket.next with
  | .docket, some b =>
    s.docket.candidate.map fun n =>
      { slot := n, origin := .docket, sequence := slotSequence s.mem n, recipeIndex := slotRecipe s.mem n
        skipFlux := slotSkipFlux s.mem n, expectedLength := slotLength s.mem n, lengthTol := slotTol s.mem n
        recipe := b.recipe }
  | .standing k, some b =>
    (standingSlot s).map fun n =>
      { slot := n, origin := .standing, sequence := 0, recipeIndex := BitVec.ofNat 16 k.val
        skipFlux := false, expectedLength := 0, lengthTol := 0, recipe := b.recipe }
  | _, none => none

/-- What the record takes from the offer (R34). -/
def Offer.binding (o : Offer) : Binding :=
  { slot := o.slot, recipe := o.recipe, skipFlux := o.skipFlux
    expectedLength := o.expectedLength, lengthTol := o.lengthTol }

/-- The docket words 1 to 15 and the origin word that a standing admission writes (R34). -/
def standingWords (o : Offer) : List Word :=
  [0, o.recipeIndex, 0, 0, 0, 0, 0, 0, 0, 0, 0, 0, 0, 0, 0, 2]

/-- The docket unit binds the offered slot at the admission (R34): the slot joins the held-slot set and is written
ADMITTED; for DOCKET E advances, for STANDING the docket words are written. The offer goes to the record. -/
def State.bindSlot (s : State) (o : Offer) : State :=
  let s1 := { s with docket := { s.docket with held := s.docket.held ++ [o.slot], offer := none } }
  match o.origin with
  | .standing =>
    { s1 with mem := (s1.mem.writeBlock (slotAt o.slot + 1) (standingWords o)).write (slotAt o.slot) 2 }
  | _ => ({ s1 with mem := s1.mem.write (slotAt o.slot) 2 }).setExpected (s.docket.expected + 1)

/-- The outcome of a closed record (R17), coded as Table 12-9 has it. -/
inductive CloseOutcome
  | completed
  | lost
deriving DecidableEq, Repr

def CloseOutcome.code (o : CloseOutcome) : Word :=
  match o with
  | .completed => 1
  | .lost => 2

/-- The traveller's words 16 to 34 (Table 2-4, Table 12-9). -/
def travellerWords (r : Record) (outcome : CloseOutcome) (exitTime : Clock) (exitLength contact : Nat) : List Word :=
  [match r.origin with | .docket => 1 | .standing => 2 | .intruder => 0,
   outcome.code, 0,
   (r.recipe?.map (·.revision)).getD 0]
  ++ twoWords r.entryTime.toNat ++ twoWords exitTime.toNat
  ++ [wordOf (r.length.getD 0), wordOf exitLength, r.flags, r.zoneMask]
  ++ twoWords (r.flux / 1000)
  ++ [r.skipped, r.incomplete, wordOfTemp r.topside, wordOf contact, wordOf (r.minRpm.getD 0)]

/-- The docket unit writes the traveller and DONE, and the slot leaves the held-slot set (R35, R37). -/
def State.writeTraveller (s : State) (n : SlotIx) (words : List Word) : State :=
  { s with
    mem := countClosed (writeResult s.mem n words 3)
    docket := { s.docket with held := s.docket.held.erase n }
    port := s.port.notify .slotClosed }

end Sys2Proof.Machine
end

