-- ==== Sys2Proof/Machine/Flux.lean ====
section
/-! DEFINITION. The flux unit's operations (chapter 4): the spray edge list, the trailing-edge clamp, lane pulses and their
credit, the tank, the inhibit, and the purge. -/

namespace Sys2Proof.Machine

open Sys2Proof.Config

/-! ## The spray edge list (R62, R63) -/

/-- An edge inserted after every edge of lower or equal position (R62). -/
def insertEdge (e : Edge) (l : List Edge) : List Edge :=
  match l with
  | [] => [e]
  | x :: rest => if atOrAfter e.pos x.pos then x :: insertEdge e rest else e :: x :: rest

/-- The two edges of window `k` of a record (R63). -/
def windowEdges (lead : Pos) (barF : Nat) (ordinal : BitVec 16) (k : Nat) (w : Window) : List Edge :=
  [{ pos := lead + tenths (barF + 10 * w.start), ordinal := ordinal, window := k, opens := true
     lanes := w.lanes, duty := w.duty },
   { pos := lead + tenths (barF + 10 * w.stop), ordinal := ordinal, window := k, opens := false
     lanes := w.lanes, duty := w.duty }]

/-- The edges of windows `k`, `k + 1`, …, inserted in turn (R63). -/
def insertWindows (lead : Pos) (barF : Nat) (ordinal : BitVec 16) (k : Nat) (ws : List Window) (l : List Edge) :
    List Edge :=
  match ws with
  | [] => l
  | w :: rest =>
    insertWindows lead barF ordinal (k + 1) rest ((windowEdges lead barF ordinal k w).foldl (fun l e => insertEdge e l) l)

/-- The spray edges of an admitted board (R63): none under SKIP_FLUX, none without windows. -/
def State.scheduleEdges (s : State) (ordinal : BitVec 16) (lead : Pos) (o : Offer) : State :=
  if o.skipFlux then s
  else
    { s with
      flux := { s.flux with edges := insertWindows lead s.ws.barF ordinal 0 o.recipe.windows s.flux.edges } }

/-- The free entries of the list (R62). -/
def Flux.freeEdges (f : Flux) : Nat :=
  edgeMax - f.edges.length

/-! ## The tank (R69 to R71) -/

/-- The low-mark state for a counter value (R70): ABOVE while no setup is loaded. -/
def lowMark (s : State) (counter : Nat) : Bool :=
  s.loaded && decide (counter < s.ws.tankLowMark)

/-- The tank counter and remainder take new values: the mirror is written at a change of the counter, and the tank
events of R70 set FLUX_EVENT. -/
def State.setTank (s : State) (counter remainder : Nat) : State :=
  { s with
    flux := { s.flux with counter := counter, remainder := remainder, low := lowMark s counter }
    mem := if counter = s.flux.counter then s.mem else s.mem.writeBlock mirrorTankAt (twoWords counter)
    port :=
      s.port.notifyIf
        ((decide (counter = 0) && s.flux.counter != 0) || (lowMark s counter && !s.flux.low)) .fluxEvent }

/-- A credit of `n` nanolitres to the tank (R69). -/
def State.creditTank (s : State) (n : Nat) : State :=
  s.setTank (s.flux.counter - (s.flux.remainder + n) / 1000) ((s.flux.remainder + n) % 1000)

/-! ## Lane pulses (R61, R68) -/

/-- The valve of a lane is open: a pulse of it or a purge runs (R61). -/
def Flux.valveOpen (f : Flux) (lane : Idx8) : Bool :=
  (f.pulses.get lane).isSome || f.purge.isSome

/-- A credit to a record's flux accumulator, a 32-bit count that saturates (R68). -/
def creditRecord (ordinal : BitVec 16) (n : Nat) (rs : List Record) : List Record :=
  mapRecords (fun r => r.ordinal == ordinal) (fun r => { r with flux := min (r.flux + n) (2 ^ 32 - 1) }) rs

/-- The pulse of a lane ends after `ms` milliseconds: the valve closes and flow × ms is credited, to the record that owns
the pulse (unless it is closing, R67) and to the tank (R68). -/
def State.endPulse (s : State) (lane : Idx8) (u : Pulse) (ms : Nat) (toRecord : Bool) : State :=
  let nl := s.ws.flow lane * ms
  ({ s with
      flux := { s.flux with pulses := s.flux.pulses.set lane none }
      track :=
        { s.track with
          records := if toRecord then creditRecord u.ordinal nl s.track.records else s.track.records } }).creditTank nl

/-- The elapsed whole milliseconds of a pulse, at most its length. -/
def pulseElapsed (s : State) (u : Pulse) : Nat :=
  min (elapsed u.start s.clock) u.q

/-- A pulse that satisfies `p` is ended at once with its elapsed milliseconds (R66, R68, R73). -/
def State.cutPulse (s : State) (p : Pulse → Bool) (toRecord : Bool) (lane : Idx8) : State :=
  match s.flux.pulses.get lane with
  | some u => if p u then s.endPulse lane u (pulseElapsed s u) toRecord else s
  | none => s

/-- Every pulse that satisfies `p` is ended at once. -/
def State.cutPulses (s : State) (p : Pulse → Bool) (toRecord : Bool) : State :=
  allIdx8.foldl (fun s lane => s.cutPulse p toRecord lane) s

/-- A window of the active set owns the pulse. -/
def ownedBy (ws : List ActiveWindow) (u : Pulse) : Bool :=
  ws.any fun w => w.ordinal == u.ordinal && w.window == u.window

/-! ## Removal of a record (R67) and the clamp (R65) -/

/-- The flux unit removes a closing record's edges and windows, crediting a running pulse to the tank alone (R67). -/
def State.dropFlux (s : State) (ordinal : BitVec 16) : State :=
  let s1 := s.cutPulses (fun u => u.ordinal == ordinal) false
  { s1 with
    flux :=
      { s1.flux with
        edges := s1.flux.edges.filter fun e => e.ordinal != ordinal
        active := s1.flux.active.filter fun w => w.ordinal != ordinal } }

/-- The active windows of a record that the clamp ends: those that start beyond the board, and, where P has passed the
clamp position, all of them (R65). -/
def clampEnds (s : State) (r : Record) (windows : List Window) (length : Nat) (c : Pos) : List ActiveWindow :=
  s.flux.active.filter fun w =>
    w.ordinal == r.ordinal &&
      (decide (length ≤ 10 * ((windows[w.window]?).map (·.start)).getD 0) || atOrAfter s.track.pos c)

/-- The clamp of one record's edges against clamp position `c` (R65): edges of windows that start beyond the board are
removed; a CLOSE edge beyond `c` moves to `c`, or is removed with its window where P has passed `c`. Several CLOSE edges that move
to `c` go there in the order of the list (DESIGN CHOICE, log entry 57). -/
def clampEdges (s : State) (r : Record) (windows : List Window) (length : Nat) (c : Pos) : List Edge :=
  let beyond := fun (e : Edge) =>
    e.ordinal == r.ordinal && decide (length ≤ 10 * ((windows[e.window]?).map (·.start)).getD 0)
  let kept := s.flux.edges.filter fun e => !beyond e
  let late := fun (e : Edge) => e.ordinal == r.ordinal && !e.opens && strictlyAfter e.pos c
  let ended := fun (e : Edge) =>
    atOrAfter s.track.pos c && s.flux.active.any fun w => w.ordinal == e.ordinal && w.window == e.window
  let moved := (kept.filter fun e => late e && !ended e).map fun e => { e with pos := c }
  moved.foldl (fun l e => insertEdge e l) (kept.filter fun e => !late e)

/-- The trailing-edge clamp of a record whose length has become known (R65). -/
def State.clamp (s : State) (r : Record) (length : Nat) : State :=
  match r.recipe? with
  | none => s
  | some recipe =>
    let c := r.lead + tenths (s.ws.barF + length)
    let ends := clampEnds s r recipe.windows length c
    let edges := clampEdges s r recipe.windows length c
    let s1 := s.cutPulses (ownedBy ends) true
    { s1 with
      flux := { s1.flux with edges := edges, active := s1.flux.active.filter fun w => !ends.contains w } }

/-! ## The purge (R77, R78) -/

/-- The flow through all eight nozzles together, µL/s. -/
def totalFlow (c : Setup) : Nat :=
  (allIdx8.map fun lane => c.flow lane).foldl (· + ·) 0

/-- A running purge credits its whole milliseconds since the latest credit, and its remaining time falls by them (R78). -/
def State.creditPurge (s : State) : State :=
  match s.flux.purge with
  | none => s
  | some g =>
    let ms := min (elapsed g.creditedAt s.clock) g.remaining
    ({ s with
        flux := { s.flux with purge := some { remaining := g.remaining - ms, creditedAt := s.clock } } }).creditTank
      (totalFlow s.ws * ms)

/-- A running purge ends: the final credit is made, the valves close, FLUX_EVENT is set (R78). -/
def State.endPurge (s : State) : State :=
  match s.flux.purge with
  | none => s
  | some _ =>
    let s1 := s.creditPurge
    { s1 with flux := { s1.flux with purge := none }, port := s1.port.notify .fluxEvent }

/-- The relative lead at which a board ends a purge: F − 500, taken as 0 when F is below 500 (R78). -/
def purgeThreshold (c : Setup) : Nat :=
  c.barF - 500

/-- A record lies in the band in which a purge is refused (R77). -/
def inPurgeBand (s : State) (r : Record) : Bool :=
  decide (purgeThreshold s.ws ≤ relative s.track.pos r.lead ∧ relative s.track.pos r.lead ≤ s.ws.barF + 6000)

/-! ## The inhibit (R72 to R74) -/

/-- A point of the alarm table is active at ALARM severity (8.8). -/
def Point.alarming (p : Point) : Bool :=
  p.sev == .alarm

/-- The condition of an inhibit reason (Table 4-2). -/
def inhibited (s : State) (r : Inhibit) : Bool :=
  match r with
  | .extraction =>
    (s.extr.points.get 0).alarming || (s.extr.points.get 2).alarming || (s.extr.points.get 5).alarming
  | .vapour => (s.extr.points.get 7).alarming
  | .pressure => s.flux.pressureFault
  | .tank => decide (s.flux.counter = 0)
  | .mode => s.modes.mode == .halted || s.modes.mode == .off || s.modes.mode == .economy

/-- The inhibit reasons that stand (R72). -/
def inhibitReasons (s : State) : List Inhibit :=
  allInhibits.filter (inhibited s)

/-- The fluxer is inhibited. -/
def Flux.isInhibited (f : Flux) : Bool :=
  !f.inhibit.isEmpty

/-- Every active window is marked incomplete in its record (R73). -/
def markIncomplete (active : List ActiveWindow) (rs : List Record) : List Record :=
  active.foldl
    (fun rs w =>
      mapRecords (fun r => r.ordinal == w.ordinal)
        (fun r => ({ r with incomplete := r.incomplete ||| bitMask w.window }).mark .fluxIncomplete) rs)
    rs

/-- The edge is the CLOSE edge of one of the windows. -/
def closesOneOf (ws : List ActiveWindow) (e : Edge) : Bool :=
  !e.opens && ws.any fun w => w.ordinal == e.ordinal && w.window == e.window

/-- The fluxer becomes inhibited (R73): valves close with their credit, a purge ends, the active windows are marked
incomplete and leave with their CLOSE edges. -/
def State.beginInhibit (s : State) : State :=
  let s1 := (s.cutPulses (fun _ => true) true).endPurge
  { s1 with
    track := { s1.track with records := markIncomplete s1.flux.active s1.track.records }
    flux :=
      { s1.flux with
        edges := s1.flux.edges.filter fun e => !closesOneOf s1.flux.active e
        active := [] } }

/-- The inhibit reasons re-formed; the first to appear acts at once (R72, R73). -/
def State.reformInhibit (s : State) : State :=
  let s1 := if s.flux.inhibit.isEmpty && !(inhibitReasons s).isEmpty then s.beginInhibit else s
  { s1 with flux := { s1.flux with inhibit := inhibitReasons s1 } }

/-! ## The modulation grid (R66, R68, R74) -/

/-- The edges of the list's head that P has reached (R66). -/
def dueEdges (s : State) : List Edge :=
  s.flux.edges.takeWhile fun e => atOrAfter s.track.pos e.pos

/-- The edges that stay after a boundary: those not yet reached, less the CLOSE edges of windows skipped (R74). -/
def laterEdges (s : State) (skipped : List Edge) : List Edge :=
  (s.flux.edges.dropWhile fun e => atOrAfter s.track.pos e.pos).filter fun e =>
    e.opens || !(skipped.any fun k => k.ordinal == e.ordinal && k.window == e.window)

/-- The active window set after the consumption of one edge while the fluxer is not inhibited, or of one CLOSE edge. -/
def consumeEdge (active : List ActiveWindow) (e : Edge) : List ActiveWindow :=
  if e.opens then active ++ [{ ordinal := e.ordinal, window := e.window, lanes := e.lanes, duty := e.duty }]
  else active.filter fun w => !(w.ordinal == e.ordinal && w.window == e.window)

/-- The windows of skipped OPEN edges are marked skipped in their records (R74). -/
def markSkipped (skipped : List Edge) (rs : List Record) : List Record :=
  skipped.foldl
    (fun rs e =>
      mapRecords (fun r => r.ordinal == e.ordinal)
        (fun r => ({ r with skipped := r.skipped ||| bitMask e.window }).mark .fluxSkipped) rs)
    rs

/-- The consumption of the due edges at a modulation boundary (R66, R74). -/
def State.consumeEdges (s : State) : State :=
  let due := dueEdges s
  let skipped := if s.flux.isInhibited then due.filter (·.opens) else []
  let taken := if s.flux.isInhibited then due.filter fun e => !e.opens else due
  { s with
    track := { s.track with records := markSkipped skipped s.track.records }
    flux :=
      { s.flux with
        edges := laterEdges s skipped
        active := taken.foldl consumeEdge s.flux.active } }

/-- The place of a record in the list, oldest first; past the end where no record has the ordinal. -/
def placeOf (rs : List Record) (ordinal : BitVec 16) : Nat :=
  (rs.map (·.ordinal)).idxOf ordinal

/-- Window `b` owns a lane before window `a`: a larger duty, or an equal one of an older record, or of a lower window of
the same record (R68). -/
def ownsBefore (rs : List Record) (b a : ActiveWindow) : Bool :=
  decide (a.duty < b.duty)
    || (a.duty == b.duty
        && (decide (placeOf rs b.ordinal < placeOf rs a.ordinal)
            || (placeOf rs b.ordinal == placeOf rs a.ordinal && decide (b.window < a.window))))

/-- The window that gives a lane its duty (R68). -/
def laneOwner (s : State) (lane : Idx8) : Option ActiveWindow :=
  (s.flux.active.filter fun w => w.lanes.getLsbD lane.val).foldl
    (fun best w =>
      match best with
      | none => some w
      | some a => if ownsBefore s.track.records w a then some w else some a)
    none

/-- The lane duties of a boundary, and the pulses that begin at it: none under an inhibit, a purge or a standing
conveyor reference of 0 (R68). -/
def State.startPulses (s : State) : State :=
  let may := !s.flux.isInhibited && s.flux.purge.isNone && s.track.ref != 0
  { s with
    flux :=
      { s.flux with
        duties := Tab8.ofFn fun lane => ((laneOwner s lane).map (·.duty)).getD 0
        pulses :=
          Tab8.ofFn fun lane =>
            match laneOwner s lane with
            | some w =>
              if may && w.duty != 0 then
                some { start := s.clock, q := w.duty, ordinal := w.ordinal, window := w.window }
              else none
            | none => none } }

/-- A pulse that has run its length when a boundary comes ends normally (R68: q = 16 lasts the whole period). -/
def State.finishPulses (s : State) : State :=
  s.cutPulses (fun _ => true) true

/-- The fluxer is modulating at a sample (R76). -/
def State.modulating (s : State) : Bool :=
  s.flux.purge.isSome || (s.flux.duties.toList.any (· != 0) && s.track.ref != 0)

/-- A flux pressure sample lies in band (R76). -/
def pressureInBand (c : Setup) (sample : Option Int) : Bool :=
  match sample with
  | none => false
  | some v => decide (0 ≤ v ∧ v ≤ 1000 ∧ (c.pressureLow : Int) ≤ v ∧ v ≤ c.pressureHigh)

/-- The next board would spray (R75). -/
def nextSprays (s : State) : Bool :=
  match s.nextBoard with
  | some b => decide (0 < b.sprays)
  | none => false

end Sys2Proof.Machine
end

