-- ==== Sys2Proof/Machine/Thermal.lean ====
section
/-! DEFINITION. The thermal unit's operations (chapter 5): temperature inputs, the pot ramp, the control computation, SETTLED,
the power budget, heater outputs, and the cutting of grants. -/

namespace Sys2Proof.Machine

open Sys2Proof.Config

/-! ## Temperature inputs (R80 to R82) -/

/-- A sample is good: the circuit is closed and the reading lies in −500 to 6000 (R80). -/
def goodSample (reading : Option Int) : Option Int :=
  match reading with
  | some v => if -500 ≤ v ∧ v ≤ 6000 then some v else none
  | none => none

/-- A good sample enters the ring; in a full ring it replaces the oldest (R80). -/
def ringPush (ring : List Int) (v : Int) : List Int :=
  (ring ++ [v]).drop (ring.length + 1 - 4)

/-- The process value: the mean of four samples, truncated toward zero, while the input is GOOD; 7FFFh (none)
otherwise (R80). -/
def Input.pv (i : Input) : Option Int :=
  match i.state with
  | .good => if i.ring.length = 4 then some (i.ring.sum.tdiv 4) else none
  | _ => none

/-- One sample of an input (R81, R82). The changes of state that the counts call for are the commands INPUT_FAULT,
INPUT_RECOVERY and INPUT_FILLING_END. -/
def Input.sample (i : Input) (reading : Option Int) : Input :=
  match i.state, goodSample reading with
  | .filling, some v => { i with seen := i.seen + 1, ring := ringPush i.ring v, good := i.good + 1 }
  | .filling, none => { i with seen := i.seen + 1, good := 0 }
  | .good, some v => { i with ring := ringPush i.ring v, bad := 0 }
  | .good, none => { i with bad := i.bad + 1 }
  | .faulted, some v => { i with ring := ringPush i.ring v, good := i.good + 1 }
  | .faulted, none => { i with ring := [], good := 0 }

/-- The second consecutive bad sample has come (R81). -/
def Input.faultDue (i : Input) : Bool :=
  i.state == .good && decide (2 ≤ i.bad)

/-- The fourth consecutive good sample has come (R81). -/
def Input.recoveryDue (i : Input) : Bool :=
  i.state == .faulted && decide (4 ≤ i.good)

/-- The fourth sample after reset has come (R82). -/
def Input.fillingDue (i : Input) : Bool :=
  i.state == .filling && decide (4 ≤ i.seen)

/-- GOOD to FAULTED: the ring is emptied and the good count becomes 0 (R81). -/
def Input.fault (i : Input) : Input :=
  { i with state := .faulted, ring := [], good := 0 }

/-- FAULTED to GOOD, the ring holding the four good samples (R81). -/
def Input.recover (i : Input) : Input :=
  { i with state := .good, bad := 0 }

/-- FILLING to GOOD if all four samples were good; else to FAULTED, the ring keeping the good samples that follow the
last bad one, and the good count equal to their number (R82). -/
def Input.endFilling (i : Input) : Input :=
  if 4 ≤ i.good then { i with state := .good, bad := 0 }
  else { i with state := .faulted, ring := i.ring.drop (i.ring.length - i.good) }

/-- The input of zone `z`. -/
def zoneInput (z : Zone) : Idx8 :=
  Fin.ofNat 8 z.val

/-- The input of the pot. -/
def potInput : Idx8 := 6

/-- The pyrometer. -/
def pyroInput : Idx8 := 7

/-- The heater output of zone `z` (Table 5-3). -/
def zoneOutput (z : Zone) : Idx8 :=
  Fin.ofNat 8 (z.val + 2)

/-- The pot PV. -/
def Thermal.potPV (t : Thermal) : Option Int :=
  (t.inputs.get potInput).pv

/-- The PV of zone `z`. -/
def Thermal.zonePV (t : Thermal) (z : Zone) : Option Int :=
  (t.inputs.get (zoneInput z)).pv

/-- The PV of a loop. -/
def Thermal.pv (t : Thermal) (l : LoopId) : Option Int :=
  match l with
  | .pot => t.potPV
  | .zone z => t.zonePV z

/-- The record of a loop. -/
def Thermal.loop (t : Thermal) (l : LoopId) : Loop :=
  match l with
  | .pot => t.pot
  | .zone z => t.zones.get z

/-- Zone `z` is faulted: its input is not GOOD, or its limit latch is set (R83, R100). -/
def Thermal.zoneFaulted (t : Thermal) (z : Zone) : Bool :=
  (t.inputs.get (zoneInput z)).state != .good || t.latches.get z

/-- The POT_OVERTEMP condition (R99). -/
def overtemp (s : State) : Bool :=
  s.pins.thermostatOpen ||
    match s.thermal.potPV with
    | some v => s.loaded && decide (s.ws.potHard ≤ v)
    | none => false

/-! ## Targets and SETTLED (R84, R85, R90, R91) -/

/-- A loop's target takes a value: a change clears SETTLED and the settle count at once (R90). -/
def Loop.retarget (l : Loop) (t : Int) : Loop :=
  if l.target = t then l else { l with target := t, settled := false, count := 0 }

/-- A zone's SP equals its target (R84). -/
def Loop.follow (l : Loop) : Loop :=
  { l with sp := l.target }

/-- SETTLED as HEAT_AUTH and a target of 0 impose it (R91). -/
def Loop.formSettled (l : Loop) (auth : Bool) : Loop :=
  if !auth then { l with settled := false, count := 0 }
  else if l.target = 0 then { l with settled := true, count := 0 }
  else l

/-- The class named for the line (R52). -/
def Gate.namedClass (g : Gate) : Option LineClass :=
  match g.phase with
  | .none => g.lineClass
  | .draining => g.lineClass
  | .moving => g.target
  | .settling => g.target

/-- The pot target (R85). -/
def potTarget (s : State) : Int :=
  match s.modes.mode, s.gate.namedClass with
  | .off, _ => 0
  | _, none => 0
  | .economy, some c => max 0 (c.pot - s.ws.economyOffset)
  | _, some c => c.pot

/-- The pot target re-formed, and SETTLED of every loop as R91 imposes it. -/
def State.reformPotTarget (s : State) : State :=
  { s with
    thermal :=
      { s.thermal with
        pot := (s.thermal.pot.retarget (potTarget s)).formSettled s.thermal.auth
        zones := s.thermal.zones.mapIdx fun _ l => l.formSettled s.thermal.auth } }

/-! ## The pot ramp (R86) -/

/-- The pot SP and the ramp remainder after a heater period boundary (R86). -/
def rampPot (rate : Nat) (target sp : Int) (remainder : Nat) (pv : Option Int) : Int × Nat :=
  if target = 0 then (0, 0)
  else if sp = 0 then
    match pv with
    | some v => (if v < target then v else target, 0)
    | none => (0, 0)
  else if sp = target then (sp, remainder)
  else
    let move : Int := (((remainder + rate) / 60 : Nat) : Int)
    let rest := (remainder + rate) % 60
    if sp < target then
      if target ≤ sp + move then (target, 0) else (sp + move, rest)
    else
      if sp - move ≤ target then (target, 0) else (sp - move, rest)

/-! ## The control computation (R87 to R89) -/

/-- A number clamped to a range. -/
def clampInt (lo hi x : Int) : Int :=
  max lo (min hi x)

/-- What one loop's computation gives: the integral and the request. -/
structure Control where
  integral : Int
  request : Nat
deriving DecidableEq, Repr

/-- One loop's computation at a boundary (R87 to R89), from its gains, its record (whose grant and request are those of
the period that ends), its PV and HEAT_AUTH. -/
def controlLoop (kp ki : Nat) (l : Loop) (pv : Option Int) (auth : Bool) : Control :=
  if l.sp = 0 then { integral := 0, request := 0 }
  else
    match pv with
    | none => { integral := l.integral, request := 0 }
    | some v =>
      let e := clampInt (-2000) 2000 (l.sp - v)
      let p := ((kp : Int) * e).tdiv 10
      let trial := clampInt 0 100000 (l.integral + ((ki : Int) * e).tdiv 10)
      let u' := p + trial.tdiv 100
      let holds :=
        !auth || (decide (1000 < u') && decide (0 < e)) || (decide (u' < 0) && decide (e < 0))
          || (decide (0 < e) && decide (l.grant < l.request))
      let a := if holds then l.integral else trial
      { integral := a, request := (clampInt 0 1000 (p + a.tdiv 100)).toNat }

/-- The loop's record after the computation: the ended period's request and grant become the previous ones. -/
def Loop.computed (l : Loop) (c : Control) : Loop :=
  { l with integral := c.integral, request := c.request, prevRequest := l.request, prevGrant := l.grant }

/-! ## The SETTLED test (R90) -/

/-- The settle test of one loop at a boundary (R90). SETTLED is set by the command LOOP_SETTLED once the count has reached
the settle time. -/
def Loop.settleTest (l : Loop) (pv : Option Int) (band : Nat) : Loop :=
  match pv with
  | none => { l with count := 0, settled := false }
  | some v =>
    let d := (l.target - v).natAbs
    { l with
      count := if l.target ≠ 0 ∧ l.sp = l.target ∧ d ≤ band then l.count + 1 else 0
      settled := l.settled && decide (d ≤ 2 * band) }

/-- The settle test under R91: none for a target of 0 or without HEAT_AUTH. -/
def Loop.settleStep (l : Loop) (pv : Option Int) (band : Nat) (auth : Bool) : Loop :=
  if auth && l.target != 0 then l.settleTest pv band else l.formSettled auth

/-! ## The power budget (R93 to R95) -/

/-- The pot's grant out of the whole budget, in milliwatts (R93). -/
def potGrant (budget d rating : Nat) : Nat :=
  if d * rating ≤ 1000 * budget then d else d * (1000 * budget) / (d * rating)

/-- What is left for the zones (R93). -/
def zonesLeft (budget grant rating : Nat) : Nat :=
  1000 * budget - grant * rating

/-- The zones' total (R94). -/
def zonesTotal (d rating : Tab6 Nat) : Nat :=
  (allZones.map fun z => d.get z * rating.get z).foldl (· + ·) 0

/-- The grant of one zone out of what is left (R94). -/
def zoneGrant (left total d : Nat) : Nat :=
  if total ≤ left then d else d * left / total

/-- The allocation of R93 and R94: the pot first, then the zones in proportion. -/
def allocate (budget potD potRating : Nat) (zoneD zoneRating : Tab6 Nat) : Nat × Tab6 Nat :=
  let g := potGrant budget potD potRating
  let left := zonesLeft budget g potRating
  let total := zonesTotal zoneD zoneRating
  (g, Tab6.ofFn fun z => zoneGrant left total (zoneD.get z))

/-- The halt-cause set holds a cause that keeps the pot grant at 0 (R93). -/
def potBarred (s : State) : Bool :=
  s.modes.causes.contains .estop || s.modes.causes.contains .potOvertemp || s.modes.causes.contains .potSensor

/-- The pot's two ratings together. -/
def potRating (c : Setup) : Nat :=
  c.rating 0 + c.rating 1

/-- The pot's eligible request (R93). -/
def potEligible (s : State) (request : Nat) : Nat :=
  if !s.permit || (s.thermal.inputs.get potInput).state != .good || overtemp s || potBarred s
      || potRating s.ws == 0 then 0
  else request

/-- A zone's eligible request (R93). -/
def zoneEligible (s : State) (z : Zone) (request : Nat) : Nat :=
  if !s.permit || s.thermal.zoneFaulted z || s.ws.rating (zoneOutput z) == 0 then 0 else request

/-- A loop takes its grant; BUDGET_LIMITED marks a grant below the eligible request (R95). -/
def Loop.granted (l : Loop) (grant eligible : Nat) : Loop :=
  { l with grant := grant, limited := decide (grant < eligible) }

/-! ## Heater outputs (R97, R98) -/

/-- The grant that drives output `k` (R97). -/
def Thermal.outputGrant (t : Thermal) (k : Idx8) : Nat :=
  match k with
  | 0 => t.pot.grant
  | 1 => t.pot.grant
  | 2 => (t.zones.get 0).grant
  | 3 => (t.zones.get 1).grant
  | 4 => (t.zones.get 2).grant
  | 5 => (t.zones.get 3).grant
  | 6 => (t.zones.get 4).grant
  | 7 => (t.zones.get 5).grant

/-- Output `k` is on at `m` ms after the boundary: from 125 × k for its grant, modulo 1000; never with rating 0 (R97). -/
def outputOn (rating grant : Nat) (k : Idx8) (m : Nat) : Bool :=
  rating != 0 && decide ((m + 1000 - 125 * k.val) % 1000 < grant)

/-- Output `k` as R97 has it at `m` ms of the running period. -/
def outputAt (s : State) (k : Idx8) (m : Nat) : Bool :=
  outputOn (s.ws.rating k) (s.thermal.outputGrant k) k m

/-- The pot outputs are cut (R98): no permit, pot input not GOOD, POT_OVERTEMP, or HALTED with a barring cause. -/
def potCut (s : State) : Bool :=
  !s.permit || (s.thermal.inputs.get potInput).state != .good || overtemp s
    || (s.modes.mode == .halted && potBarred s)

/-- Zone `z`'s output is cut (R98). -/
def zoneCut (s : State) (z : Zone) : Bool :=
  !s.permit || s.thermal.zoneFaulted z

/-- Output `k` is cut. -/
def outputCut (s : State) (k : Idx8) : Bool :=
  match k with
  | 0 => potCut s
  | 1 => potCut s
  | 2 => zoneCut s 0
  | 3 => zoneCut s 1
  | 4 => zoneCut s 2
  | 5 => zoneCut s 3
  | 6 => zoneCut s 4
  | 7 => zoneCut s 5

/-- A cut loop's grant is 0 for the rest of the period (R98). Its BUDGET_LIMITED mark stands until the next allocation forms it
(R95; DESIGN CHOICE, log entry 45). -/
def Loop.cutIf (l : Loop) (cut : Bool) : Loop :=
  if cut then { l with grant := 0 } else l

/-- Grants cut between boundaries, with their outputs switched off (R98). -/
def State.cutGrants (s : State) : State :=
  { s with
    thermal :=
      { s.thermal with
        pot := s.thermal.pot.cutIf (potCut s)
        zones := s.thermal.zones.mapIdx fun z l => l.cutIf (zoneCut s z)
        outputs := s.thermal.outputs.mapIdx fun k on => on && !outputCut s k } }

/-! ## The boundary (R96) -/

/-- The ramp of the pot SP (R86). -/
def State.rampStep (s : State) : State :=
  let r := rampPot s.ws.rampRate s.thermal.pot.target s.thermal.pot.sp s.thermal.ramp s.thermal.potPV
  { s with thermal := { s.thermal with pot := { s.thermal.pot with sp := r.1 }, ramp := r.2 } }

/-- The control computation of every loop (R87 to R89). -/
def State.controlStep (s : State) : State :=
  { s with
    thermal :=
      { s.thermal with
        pot :=
          s.thermal.pot.computed
            (controlLoop (s.ws.kp .pot) (s.ws.ki .pot) s.thermal.pot s.thermal.potPV s.thermal.auth)
        zones :=
          s.thermal.zones.mapIdx fun z l =>
            l.computed (controlLoop (s.ws.kp (.zone z)) (s.ws.ki (.zone z)) l (s.thermal.zonePV z) s.thermal.auth) } }

/-- The SETTLED test of every loop (R90, R91). -/
def State.settleStep (s : State) : State :=
  { s with
    thermal :=
      { s.thermal with
        pot := s.thermal.pot.settleStep s.thermal.potPV (s.ws.settleBand .pot) s.thermal.auth
        zones :=
          s.thermal.zones.mapIdx fun z l =>
            l.settleStep (s.thermal.zonePV z) (s.ws.settleBand (.zone z)) s.thermal.auth } }

/-- The allocation of the budget to every loop (R93 to R95). -/
def State.allocateStep (s : State) : State :=
  let potD := potEligible s s.thermal.pot.request
  let zoneD := Tab6.ofFn fun z => zoneEligible s z (s.thermal.zones.get z).request
  let g := allocate s.ws.budget potD (potRating s.ws) zoneD (Tab6.ofFn fun z => s.ws.rating (zoneOutput z))
  { s with
    thermal :=
      { s.thermal with
        pot := s.thermal.pot.granted g.1 potD
        zones := s.thermal.zones.mapIdx fun z l => l.granted (g.2.get z) (zoneD.get z) } }

/-- The outputs at the boundary itself (R97). -/
def State.outputStep (s : State) : State :=
  { s with thermal := { s.thermal with outputs := Tab8.ofFn fun k => outputAt s k 0 } }

/-- The thermal unit's operation at a heater period boundary, in its order (R96). -/
def State.heaterBoundary (s : State) : State :=
  s.rampStep.controlStep.settleStep.allocateStep.outputStep

end Sys2Proof.Machine
end

