-- ==== Sys2Proof/Machine/Preheat.lean ====
section
/-! DEFINITION. The preheat functions (chapter 6): the governing board, zone targets, deviation marking and the top-side
capture. -/

namespace Sys2Proof.Machine

open Sys2Proof.Config

/-- The relative lead of a record as chapter 6 forms it (R104). -/
def relLead (s : State) (r : Record) : Nat :=
  relativeFrom s.track.pos r.lead

/-- The relative trail is absent or below `limit` (R104). -/
def trailBefore (s : State) (r : Record) (limit : Nat) : Bool :=
  match r.trail with
  | none => true
  | some t => decide (relativeFrom s.track.pos t < limit)

/-- The record lies over the stretch from `a` to `b` (R104). -/
def overStretch (s : State) (r : Record) (a b : Nat) : Bool :=
  decide (a ≤ relLead s r) && trailBefore s r b

/-- The record is a candidate for zone `z` (R104). -/
def zoneCandidate (s : State) (z : Zone) (r : Record) : Bool :=
  !r.isIntruder && overStretch s r (s.ws.zoneStart z - s.ws.zoneAhead z) (s.ws.zoneEnd z)

/-- The record overlaps zone `z` (R104). -/
def zoneOverlap (s : State) (z : Zone) (r : Record) : Bool :=
  !r.isIntruder && overStretch s r (s.ws.zoneStart z) (s.ws.zoneEnd z)

/-- The record's setpoint for zone `z`, 0 for an intruder. -/
def Record.zone (r : Record) (z : Zone) : Int :=
  (r.recipe?.map (·.zone z)).getD 0

/-- The governing board of zone `z`: in PRODUCTION and COOLDOWN the oldest candidate, else none (R105, R108, R109). -/
def zoneGovernor (s : State) (z : Zone) : Option Record :=
  match s.modes.mode with
  | .production => s.track.records.find? (zoneCandidate s z)
  | .cooldown => s.track.records.find? (zoneCandidate s z)
  | _ => none

/-- The target of zone `z` (Table 6-3). -/
def zoneTarget (s : State) (z : Zone) : Int :=
  match s.modes.mode with
  | .production => ((zoneGovernor s z).map (·.zone z)).getD (s.thermal.zones.get z).target
  | .cooldown => ((zoneGovernor s z).map (·.zone z)).getD 0
  | .warmup => (s.nextBoard.map (·.recipe.zone z)).getD (s.thermal.zones.get z).target
  | _ => 0

/-- A zone's loop with its target, its SP and SETTLED after it, and its governing board (R84, R90, R91, R105). Where the target
becomes 0 with HEAT_AUTH ENABLED, R107 clears SETTLED and R91 lets it read set: it ends set (DESIGN CHOICE, log entry 51). -/
def Loop.reform (l : Loop) (target : Int) (auth : Bool) (governing : Option (BitVec 16)) : Loop :=
  { ((l.retarget target).follow.formSettled auth) with governing := governing }

/-- Zone targets and governing boards re-formed; SP follows at once (R107, R84), SETTLED as R91 imposes it. -/
def State.reformZones (s : State) : State :=
  { s with
    thermal :=
      { s.thermal with
        zones :=
          s.thermal.zones.mapIdx fun z l =>
            l.reform (zoneTarget s z) s.thermal.auth ((zoneGovernor s z).map (·.ordinal)) } }

/-! ## Deviation marking (R110, R111) -/

/-- Zone `z` joins the record's deviation mask. -/
def Record.deviates (r : Record) (z : Zone) : Record :=
  ({ r with zoneMask := r.zoneMask ||| bitMask z.val }).mark .preheatDeviation

/-- The test of a record against a zone it overlaps fails at a boundary (R110). -/
def deviationFails (s : State) (z : Zone) (r : Record) : Bool :=
  zoneOverlap s z r && r.zone z != 0 &&
    (s.thermal.zoneFaulted z ||
      match s.thermal.zonePV z with
      | some v => decide (((r.recipe?.map (·.zoneTol)).getD 0) < ((v - r.zone z).natAbs : Int))
      | none => true)

/-- The deviation tests of a heater period boundary (R110). -/
def State.markDeviations (s : State) : State :=
  { s with
    track :=
      { s.track with
        records :=
          s.track.records.map fun r =>
            allZones.foldl (fun q z => if deviationFails s z r then q.deviates z else q) r } }

/-- Zone `z` becomes faulted: every overlapping record that needs it is marked (R111). -/
def State.markZoneFault (s : State) (z : Zone) : State :=
  { s with
    track :=
      { s.track with
        records := mapRecords (fun r => zoneOverlap s z r && r.zone z != 0) (fun r => r.deviates z) s.track.records } }

/-! ## The ZONE_FAULT hold (R112) -/

/-- ZONE_FAULT stands (R112). -/
def zoneFaultHold (s : State) : Bool :=
  match s.nextBoard with
  | none => false
  | some b =>
    allZones.any fun z =>
      b.recipe.zone z != 0 && (s.thermal.zoneFaulted z || s.ws.rating (zoneOutput z) == 0)

/-! ## The top-side capture (R113 to R115) -/

/-- The record has had its capture (R113). -/
def Record.captured (r : Record) : Bool :=
  r.topside.isSome || r.has .topsideUnmeasured

/-- A stored value against the topside window (R114). -/
def Record.topsideTest (r : Record) (v : Int) : Record :=
  match r.recipe? with
  | none => r
  | some c =>
    (r.markIf (c.topMin != 0 && decide (v < c.topMin)) .topsideLow).markIf
      (c.topMax != 0 && decide (c.topMax < v)) .topsideHigh

/-- The capture of one record (R113, R114). -/
def Record.capture (r : Record) (pv : Option Int) : Record :=
  match pv with
  | some v => ({ r with topside := some v }).topsideTest v
  | none => r.mark .topsideUnmeasured

/-- The record has reached its capture point: Y plus half its length (R113). -/
def captureDue (s : State) (r : Record) : Bool :=
  !r.isIntruder && !r.captured &&
    match r.length with
    | some l => decide (s.ws.pyroY + l / 2 ≤ relLead s r)
    | none => false

/-- The capture of one record where it is due, and then the test at X (R113, R115). -/
def topsideStep (s : State) (r : Record) : Record :=
  let r1 := if captureDue s r then r.capture ((s.thermal.inputs.get pyroInput).pv) else r
  if !r1.isIntruder && !r1.captured && decide (s.ws.exitX ≤ relLead s r1) then r1.mark .topsideUnmeasured else r1

/-- The top-side step of every record. -/
def State.topside (s : State) : State :=
  { s with track := { s.track with records := s.track.records.map (topsideStep s) } }

end Sys2Proof.Machine
end

