-- ==== Sys2Proof/Machine/Pot.lean ====
section
/-! DEFINITION. The pot unit's operations (chapter 7): the waves' candidates and overlaps, pump targets and references,
PUMP_STABLE, the wave drop's stretch, the level and its flags, the feeder, and contact time. -/

namespace Sys2Proof.Machine

open Sys2Proof.Config

/-! ## Candidates, overlaps and targets (R126, R132) -/

/-- The record is a candidate for wave `w` (R126). -/
def waveCandidate (s : State) (w : Wave) (r : Record) : Bool :=
  !r.isIntruder && overStretch s r (s.ws.waveStart w - s.ws.waveAhead w) (s.ws.waveEnd w)

/-- The record overlaps wave `w`, whatever its origin (R126). -/
def waveOverlap (s : State) (w : Wave) (r : Record) : Bool :=
  overStretch s r (s.ws.waveStart w) (s.ws.waveEnd w)

/-- The record overlaps either wave (R130). -/
def anyOverlap (s : State) (r : Record) : Bool :=
  waveOverlap s .chip r || waveOverlap s .main r

/-- The record lies in the wave stretch (R132). -/
def inWaveStretch (s : State) (r : Record) : Bool :=
  overStretch s r (s.ws.waveStart .chip - s.ws.waveAhead .chip) (s.ws.waveEnd .main)

/-- The record's snapshot rpm for wave `w`, 0 for an intruder. -/
def Record.rpm (r : Record) (w : Wave) : Nat :=
  (r.recipe?.map (·.rpm w)).getD 0

/-- The governing board of wave `w`: in PRODUCTION and COOLDOWN the oldest candidate, else none (R126). -/
def waveGovernor (s : State) (w : Wave) : Option Record :=
  match s.modes.mode with
  | .production => s.track.records.find? (waveCandidate s w)
  | .cooldown => s.track.records.find? (waveCandidate s w)
  | _ => none

/-- The pump of a wave. -/
def Pot.pump (p : Pot) (w : Wave) : Pump :=
  match w with
  | .chip => p.chip
  | .main => p.main

/-- The target of a wave's pump (R126). -/
def pumpTarget (s : State) (w : Wave) : Nat :=
  match s.modes.mode with
  | .production => ((waveGovernor s w).map (·.rpm w)).getD (s.pot.pump w).target
  | .cooldown =>
    ((waveGovernor s w).map (·.rpm w)).getD (if s.track.records.isEmpty then 0 else (s.pot.pump w).target)
  | .warmup => (s.nextBoard.map (·.recipe.rpm w)).getD (s.pot.pump w).target
  | _ => 0

/-- The targets and governing boards of both pumps re-formed (R126). -/
def State.reformPumpTargets (s : State) : State :=
  { s with
    pot :=
      { s.pot with
        chip :=
          { s.pot.chip with target := pumpTarget s .chip, governing := (waveGovernor s .chip).map (·.ordinal) }
        main :=
          { s.pot.main with target := pumpTarget s .main, governing := (waveGovernor s .main).map (·.ordinal) } } }

/-! ## References and PUMP_STABLE (R127, R128) -/

/-- The pump's reference takes a value: a change clears PUMP_STABLE and its count (R128). -/
def Pump.refer (p : Pump) (r : Nat) : Pump :=
  if p.ref = r then p else { p with ref := r, stable := false, count := 0, refMoved := true }

/-- The reference of R127: the target, except while the wave drop holds it at 0. -/
def Pump.follow (p : Pump) (d : Drop) : Pump :=
  p.refer (if d = .held then 0 else p.target)

/-- Both references re-formed (R127). -/
def State.reformPumpRefs (s : State) : State :=
  { s with pot := { s.pot with chip := s.pot.chip.follow s.pot.drop, main := s.pot.main.follow s.pot.drop } }

/-- The test of PUMP_STABLE: the measured speed is within the tolerance of the reference (R128). -/
def Pump.passes (p : Pump) (m tol : Nat) : Bool :=
  decide (((m : Int) - p.ref).natAbs * 100 ≤ tol * p.ref)

/-- One pump at a status interval end (R127, R128): the measured speed, at most 1500, then the test. A window that began
before the latest reference change, or the short one after a port reset, is not counted. PUMP_STABLE is set by the
command PUMP_STABLE_SET. -/
def Pump.sample (p : Pump) (rpm tol : Nat) (short : Bool) : Pump :=
  if short then { p with refMoved := false }
  else
    let m := min rpm 1500
    if p.passes m tol then { p with measured := m, count := if p.refMoved then 0 else p.count + 1, refMoved := false }
    else { p with measured := m, count := 0, stable := false, refMoved := false }

/-- Both pumps at a status interval end. -/
def State.samplePumps (s : State) (chipRpm mainRpm : Nat) : State :=
  { s with
    pot :=
      { s.pot with
        chip := s.pot.chip.sample chipRpm s.ws.pumpTol s.pot.shortWindow
        main := s.pot.main.sample mainRpm s.ws.pumpTol s.pot.shortWindow
        shortWindow := false } }

/-- PUMP_STABLE of the pump is due (R128). -/
def Pump.stableDue (p : Pump) : Bool :=
  !p.stable && decide (2 ≤ p.count)

/-! ## The wave entry test (R129) -/

/-- The pump of a wave fails the test of R129. -/
def Pump.unsteady (p : Pump) : Bool :=
  p.target != 0 && (!p.stable || p.ref != p.target)

/-- The record reaches WStart at this step of P, moving forward (R129). -/
def reachesWave (s : State) (w : Wave) (r : Record) : Bool :=
  !r.isIntruder && s.ws.waveStart w == relLead s r && s.ws.waveStart w != 0

/-- The test of one record against one wave. -/
def waveEntry (s : State) (w : Wave) (r : Record) : Record :=
  r.markIf (reachesWave s w r && (s.pot.pump w).unsteady) .waveUnstable

/-- The wave entry tests of a forward step of P (R129). -/
def State.waveEntries (s : State) : State :=
  { s with
    track := { s.track with records := s.track.records.map fun r => waveEntry s .main (waveEntry s .chip r) } }

/-! ## The level (R117 to R119) -/

/-- A level reading is good: closed circuit, 0 to 1000 (R117). -/
def goodLevel (reading : Option Int) : Option Int :=
  match reading with
  | some v => if 0 ≤ v ∧ v ≤ 1000 then some v else none
  | none => none

/-- The corrected level: raw + trunc(comp × m / 1000) (R117). -/
def correctedLevel (comp m : Nat) (raw : Int) : Int :=
  raw + ((comp * m / 1000 : Nat) : Int)

/-- The number of consecutive samples that change a flag (R118). -/
def flagDwell (f : LevelFlag) : Nat :=
  match f with
  | .high => 20
  | .low => 20
  | .lowlow => 2

/-- The level flag of a name. -/
def Pot.flag (p : Pot) (f : LevelFlag) : Level :=
  match f with
  | .high => p.high
  | .low => p.low
  | .lowlow => p.lowlow

/-- The pot with a level flag replaced. -/
def Pot.setFlag (p : Pot) (f : LevelFlag) (l : Level) : Pot :=
  match f with
  | .high => { p with high := l }
  | .low => { p with low := l }
  | .lowlow => { p with lowlow := l }

/-- The level lies where the flag stands: above HIGH, below LOW, below LOWLOW (R118). -/
def flagLevel (c : Setup) (f : LevelFlag) (v : Int) : Bool :=
  match f with
  | .high => decide ((c.levelHigh : Int) < v)
  | .low => decide (v < c.levelLow)
  | .lowlow => decide (v < c.levelLowLow)

/-- One judged sample of a flag: the dwell count runs over samples that count toward the change (R118). -/
def Level.judge (l : Level) (stands : Bool) : Level :=
  { l with count := if stands == l.set then 0 else l.count + 1 }

/-- A corrected level judged against the three flags (R118); none is judged while no setup is loaded. -/
def Pot.judgeLevel (p : Pot) (setup : Option Setup) (v : Int) : Pot :=
  match setup with
  | none => p
  | some c =>
    { p with
      high := p.high.judge (flagLevel c .high v)
      low := p.low.judge (flagLevel c .low v)
      lowlow := p.lowlow.judge (flagLevel c .lowlow v) }

/-- The dwell counts of the three flags at 0 (R118). -/
def Pot.clearDwells (p : Pot) : Pot :=
  { p with high := { p.high with count := 0 }, low := { p.low with count := 0 }, lowlow := { p.lowlow with count := 0 } }

/-- The feeder at a level fault (R125): a shot is cut short, a settling ends without a test. -/
def Feeder.atLevelFault (f : Feeder) : Feeder :=
  match f with
  | .feeding _ => .idle
  | .settling _ => .idle
  | f => f

/-- The level input becomes FAULTED (R117, R118, R125). -/
def Pot.faultLevel (p : Pot) : Pot :=
  { p.clearDwells with levelGood := false, levelRun := 0, feeder := p.feeder.atLevelFault }

/-- The level sample of a status interval end (R117). The return to GOOD is the command LEVEL_INPUT_RECOVERED. -/
def State.sampleLevel (s : State) (reading : Option Int) : State :=
  match goodLevel reading, s.pot.levelGood with
  | some raw, true =>
    let v := correctedLevel s.ws.levelComp s.pot.main.measured raw
    { s with pot := ({ s.pot with level := v }).judgeLevel s.port.setup v }
  | some raw, false =>
    { s with
      pot :=
        { s.pot with
          level := correctedLevel s.ws.levelComp s.pot.main.measured raw
          levelRun := min (s.pot.levelRun + 1) 4 } }
  | none, true => { s with pot := s.pot.faultLevel, port := s.port.notify .potEvent }
  | none, false => { s with pot := { s.pot with levelRun := 0 } }

/-- The dwell of a flag's change is met (R118). -/
def flagDue (s : State) (f : LevelFlag) : Bool :=
  s.pot.levelGood && decide (flagDwell f ≤ (s.pot.flag f).count)

/-! ## The feeder (R121 to R124) -/

/-- The pot is hot enough for wire: PV valid, SP nonzero, PV at or above SP − feed band (R121). -/
def hotEnough (s : State) : Bool :=
  match s.thermal.potPV with
  | some v => s.thermal.pot.sp != 0 && decide (s.thermal.pot.sp - s.ws.feedBand ≤ v)
  | none => false

/-- The conditions of a shot start (R121). -/
def shotDue (s : State) : Bool :=
  s.pot.feeder == .idle && s.pot.low.set && !s.pot.high.set && s.pot.levelGood && hotEnough s
    && decide (s.pot.history.length < s.ws.maxShots) && s.modes.mode.runs

/-- The settling test (R123): the rise judged, the miss count and the next feeder state. -/
def Pot.settleFeed (p : Pot) (minRise : Nat) : Pot :=
  if (minRise : Int) ≤ p.level - p.shotLevel.getD 0 then { p with misses := 0, feeder := .idle, feedTest := true }
  else if 3 ≤ p.misses + 1 then { p with misses := 3, feeder := .jammed }
  else { p with misses := p.misses + 1, feeder := .idle, feedTest := true }

/-- The oldest shot of the history has reached its age (R124). -/
def shotExpired (s : State) : Bool :=
  match s.pot.history with
  | t :: _ => decide (shotAge ≤ elapsed t s.clock)
  | [] => false

/-! ## Contact time (R133, R134) -/

/-- A minimum sample takes a new value if it is absent or greater. -/
def minSample (old : Option Nat) (v : Nat) : Option Nat :=
  some (min (old.getD v) v)

/-- The contact samples of a status interval end (R133): the conveyor speed, 0 where negative, and the main pump's. -/
def State.sampleContact (s : State) : State :=
  { s with
    track :=
      { s.track with
        records :=
          mapRecords (fun r => !r.isIntruder && r.rpm .main != 0 && waveOverlap s .main r)
            (fun r =>
              { r with
                minSpeed := minSample r.minSpeed s.track.measured.toNat
                minRpm := minSample r.minRpm s.pot.main.measured })
            s.track.records } }

/-- The contact time of R134, from the wave contact width and the minimum speed sample. -/
def contactTime (width : Nat) (minSpeed : Option Nat) : Nat :=
  match minSpeed with
  | none => 0
  | some 0 => 65535
  | some v => min (width * 6000 / v) 65535

/-- The contact window test (R134); a contact time of 0 is not tested. -/
def Record.contactTest (r : Record) (t : Nat) : Record :=
  match r.recipe? with
  | none => r
  | some c =>
    (r.markIf (t != 0 && c.contactMin != 0 && decide (t < c.contactMin)) .contactLow).markIf
      (t != 0 && c.contactMax != 0 && decide (c.contactMax < t)) .contactHigh

end Sys2Proof.Machine
end

