-- ==== Sys2Proof/Machine/Extraction.lean ====
section
/-! DEFINITION. The extraction monitor's operations (chapter 8): the alarm points, their judgement by dwell counts, the steps
of annunciation, horn and beacon, and the fans. -/

namespace Sys2Proof.Machine

open Sys2Proof.Config

/-! ## The alarm points (Table 8-3) -/

/-- The kinds of alarm point. -/
inductive PointKind
  | flow (h : Channel)
  | fan (h : Channel)
  | filter
  | sensor (h : Channel)
  | vapour
deriving DecidableEq, Repr

/-- The kind of point `k` (Table 8-3). -/
def pointKind (k : Idx8) : PointKind :=
  match k with
  | 0 => .flow .x1
  | 1 => .flow .x2
  | 2 => .fan .x1
  | 3 => .fan .x2
  | 4 => .filter
  | 5 => .sensor .x1
  | 6 => .sensor .x2
  | 7 => .vapour

/-- The point has both severities (Table 8-3). -/
def PointKind.escalates (k : PointKind) : Bool :=
  match k with
  | .flow _ => true
  | .vapour => true
  | .fan _ => false
  | .filter => false
  | .sensor _ => false

/-- A point is active (R147). -/
def Point.active (p : Point) : Bool :=
  p.ann == .activeUnack || p.ann == .activeAck

/-! ## Inputs (R141) -/

/-- An analogue reading in 0 to `top`, or none where it is out of range (R141). -/
def inRange (top : Nat) (reading : Option Int) : Option Nat :=
  match reading with
  | some v => if 0 ≤ v ∧ v ≤ top then some v.toNat else none
  | none => none

/-- The duct pressure of a channel. -/
def Extr.duct (x : Extr) (h : Channel) : Option Nat :=
  match h with
  | .x1 => x.x1
  | .x2 => x.x2

/-- The feedback of a channel's fan. -/
def Extr.feedback (x : Extr) (h : Channel) : Bool :=
  match h with
  | .x1 => x.feedback1
  | .x2 => x.feedback2

/-- The start grace of a channel. -/
def Extr.grace (x : Extr) (h : Channel) : Option Nat :=
  match h with
  | .x1 => x.grace1
  | .x2 => x.grace2

/-- Every input of a sensor point is in range (R144). -/
def Extr.sensorsGood (x : Extr) (h : Channel) : Bool :=
  match h with
  | .x1 => x.x1.isSome && x.filter.isSome && x.vapour.isSome
  | .x2 => x.x2.isSome

/-- The fan turns by command and its grace has ended: the channel's flow and fan points are judged (R139, R144). That the
flow points wait for the command follows R140's last sentence (DEDUCED, log entry 11). -/
def Extr.spinning (x : Extr) (h : Channel) : Bool :=
  x.fan && (x.grace h).isNone

/-! ## Judgement (R142 to R146) -/

/-- What one sample counts for: a warning, an alarm, a clear. -/
structure Judgement where
  warn : Bool
  alarm : Bool
  clear : Bool
deriving DecidableEq, Repr

/-- The judgement of a flow point (R142, R146). -/
def judgeFlow (c : Setup) (h : Channel) (p : Nat) : Judgement :=
  { warn := decide (p < c.flowWarn h), alarm := decide (p < c.flowAlarm h), clear := decide (11 * c.flowWarn h ≤ 10 * p) }

/-- The judgement of the filter point (R143, R146). -/
def judgeFilter (c : Setup) (p : Nat) : Judgement :=
  { warn := decide (c.filterLimit < p), alarm := false, clear := decide (10 * p ≤ 9 * c.filterLimit) }

/-- The judgement of the vapour point (R143, R146). -/
def judgeVapour (c : Setup) (v : Nat) : Judgement :=
  { warn := decide (c.vapourWarn < v), alarm := decide (c.vapourAlarm < v), clear := decide (10 * v ≤ 9 * c.vapourWarn) }

/-- The judgement of the latest sample for a point, or none where it is not judged (R139, R141, R144). -/
def judgement (x : Extr) (setup : Option Setup) (k : PointKind) : Option Judgement :=
  match k with
  | .flow h => if x.spinning h then setup.bind fun c => (x.duct h).map (judgeFlow c h) else none
  | .fan h =>
    if x.spinning h then some { warn := false, alarm := !x.feedback h, clear := x.feedback h } else none
  | .filter => setup.bind fun c => x.filter.map (judgeFilter c)
  | .sensor h => some { warn := false, alarm := !x.sensorsGood h, clear := x.sensorsGood h }
  | .vapour => setup.bind fun c => x.vapour.map (judgeVapour c)

/-- A count of consecutive samples. -/
def countIf (b : Bool) (n : Nat) : Nat :=
  if b then n + 1 else 0

/-- A point at a status interval end: its dwell counts run by the judgement, the clear count while it is active, the
escalation count while it stays active at WARNING (R141, R145, R146). -/
def Point.sample (p : Point) (j : Option Judgement) (escalates : Bool) : Point :=
  let esc := if p.active && p.sev == .warning && escalates then p.escCount + 1 else p.escCount
  match j with
  | none => { p with warnCount := 0, alarmCount := 0, clearCount := 0, escCount := esc }
  | some g =>
    { p with
      warnCount := countIf g.warn p.warnCount
      alarmCount := countIf g.alarm p.alarmCount
      clearCount := countIf (p.active && g.clear) p.clearCount
      escCount := esc }

/-- The extraction sample of a status interval end: the readings, then the whole table judged on them, and the vapour halt
count (R141, R151). -/
def State.sampleExtraction (s : State) (i : Readings) : State :=
  let x : Extr :=
    { s.extr with
      x1 := inRange 4000 i.x1, x2 := inRange 4000 i.x2, filter := inRange 4000 i.filter, vapour := inRange 1000 i.vapour
      fifth := i.fifth, feedback1 := i.feedback1, feedback2 := i.feedback2 }
  { s with
    extr :=
      { x with
        points := x.points.mapIdx fun k p => p.sample (judgement x s.port.setup (pointKind k)) (pointKind k).escalates
        sampled := true
        vapourCount := if (x.points.get 7).alarming then x.vapourCount + 1 else x.vapourCount } }

/-! ## Dwells (R141 to R146) -/

/-- The samples of a dwell given in tenths of a second (R141). -/
def dwellSamples (d : Nat) : Nat :=
  (100 * d + 249) / 250

/-- The samples of a point's warning dwell, for a point that has the severity. -/
def warnDwell (c : Setup) (k : PointKind) : Option Nat :=
  match k with
  | .flow h => some (dwellSamples (c.flowWarnDwell h))
  | .filter => some (dwellSamples c.filterDwell)
  | .vapour => some (dwellSamples c.vapourWarnDwell)
  | .fan _ => none
  | .sensor _ => none

/-- The samples of a point's alarm dwell, for a point that has the severity: 20 for a fan point, 4 for a sensor point
(R144). -/
def alarmDwell (c : Setup) (k : PointKind) : Option Nat :=
  match k with
  | .flow h => some (dwellSamples (c.flowAlarmDwell h))
  | .vapour => some (dwellSamples c.vapourAlarmDwell)
  | .fan _ => some 20
  | .sensor _ => some 4
  | .filter => none

/-- The samples of the clear dwell: 1 s while no setup is loaded (R141, R146). -/
def clearSamples (s : State) : Nat :=
  if s.loaded then 4 * s.ws.clearDwell else 4

/-- A count has met a dwell. -/
def dwellMet (count : Nat) (dwell : Option Nat) : Bool :=
  match dwell with
  | some n => decide (0 < count ∧ n ≤ count)
  | none => false

/-- The alarm dwell of point `k` is met. -/
def alarmMet (s : State) (k : Idx8) : Bool :=
  dwellMet (s.extr.points.get k).alarmCount (alarmDwell s.ws (pointKind k))

/-- The warning dwell of point `k` is met. -/
def warnMet (s : State) (k : Idx8) : Bool :=
  dwellMet (s.extr.points.get k).warnCount (warnDwell s.ws (pointKind k))

/-- The point is active at WARNING and can reach ALARM. -/
def atWarning (s : State) (k : Idx8) : Bool :=
  (s.extr.points.get k).active && (s.extr.points.get k).sev == .warning && (pointKind k).escalates

/-- The clear dwell of point `k` is met (R146). -/
def clearDue (s : State) (k : Idx8) : Bool :=
  (s.extr.points.get k).active && decide (clearSamples s ≤ (s.extr.points.get k).clearCount)
    && decide (0 < (s.extr.points.get k).clearCount)

/-- Point `k` is due to become active (R142 to R144). -/
def activationDue (s : State) (k : Idx8) : Bool :=
  !(s.extr.points.get k).active && (alarmMet s k || warnMet s k)

/-- Point `k` is due to rise by its alarm dwell (R142, R143). -/
def riseDue (s : State) (k : Idx8) : Bool :=
  atWarning s k && alarmMet s k

/-- Point `k` is due to rise by escalation, at the sample at which its count reaches the escalation time: the clear comes
first where both are due (R145). The count reaches it whether or not the point's input is in range (DESIGN CHOICE, log
entry 41). -/
def escalationDue (s : State) (k : Idx8) : Bool :=
  s.extr.sampled && atWarning s k && s.loaded && decide (4 * s.ws.escalation ≤ (s.extr.points.get k).escCount) && !clearDue s k

/-! ## Annunciation (R147, R148) -/

/-- The point becomes active (R147). -/
def Point.activate (p : Point) (sev : Severity) (value : Word) (now : Clock) : Point :=
  { p with
    ann := .activeUnack, sev := sev, value := value, lastChange := now
    activations := if p.activations = 0xFFFF then 0xFFFF else p.activations + 1
    escCount := 0 }

/-- The point rises to ALARM (R145, R147). -/
def Point.rise (p : Point) (now : Clock) : Point :=
  { p with ann := .activeUnack, sev := .alarm, lastChange := now, escCount := 0 }

/-- The point clears (R146, R147). -/
def Point.clear (p : Point) (now : Clock) : Point :=
  { p with
    ann := if p.ann = .activeAck then .normal else .clearedUnack
    sev := .none, lastChange := now, warnCount := 0, alarmCount := 0, clearCount := 0, escCount := 0 }

/-- The acknowledge transition (R147, R148). -/
def Point.acknowledge (p : Point) (now : Clock) : Point :=
  match p.ann with
  | .activeUnack => { p with ann := .activeAck, lastChange := now }
  | .clearedUnack => { p with ann := .normal, lastChange := now }
  | .normal => p
  | .activeAck => p

/-- The activation value: the input reading for the flow, filter and vapour points, 0 for the others (R147). -/
def activationValue (x : Extr) (k : PointKind) : Word :=
  match k with
  | .flow h => wordOf ((x.duct h).getD 0)
  | .filter => wordOf (x.filter.getD 0)
  | .vapour => wordOf (x.vapour.getD 0)
  | .fan _ => 0
  | .sensor _ => 0

/-- The state with point `k` changed and notice ALARM_CHANGED (R147). -/
def State.changePoint (s : State) (k : Idx8) (f : Point → Point) : State :=
  { s with
    extr := { s.extr with points := s.extr.points.set k (f (s.extr.points.get k)) }
    port := s.port.notify .alarmChanged }

/-- Point `k` becomes active at the severity its dwells give (R142). -/
def State.activatePoint (s : State) (k : Idx8) : State :=
  s.changePoint k fun p =>
    p.activate (if alarmMet s k then .alarm else .warning) (activationValue s.extr (pointKind k)) s.clock

/-- Point `k` rises to ALARM. -/
def State.risePoint (s : State) (k : Idx8) : State :=
  s.changePoint k fun p => p.rise s.clock

/-- Point `k` clears; with point 7 the vapour halt count becomes 0 (R151). -/
def State.clearPoint (s : State) (k : Idx8) : State :=
  let s1 := s.changePoint k fun p => p.clear s.clock
  { s1 with extr := { s1.extr with vapourCount := if k = 7 then 0 else s1.extr.vapourCount } }

/-- Each point that a mask names is acknowledged; a change sets notice ALARM_CHANGED (R148). -/
def State.acknowledgePoints (s : State) (mask : Word) : State :=
  let points :=
    s.extr.points.mapIdx fun k p => if mask.getLsbD k.val then p.acknowledge s.clock else p
  { s with
    extr := { s.extr with points := points }
    port := s.port.notifyIf (points != s.extr.points) .alarmChanged }

/-! ## Fans (R137 to R140) -/

/-- The fans are commanded on (R137). -/
def fanCommand (s : State) : Bool :=
  s.modes.mode != .off || s.modes.runOn.isSome

/-- The flow and fan points, which a fan commanded off clears (R140). -/
def fanPoint (k : PointKind) : Bool :=
  match k with
  | .flow _ => true
  | .fan _ => true
  | .filter => false
  | .sensor _ => false
  | .vapour => false

/-- A point at the change of its fan's command to off: an active one clears, every dwell count becomes 0 (R140). -/
def Point.fanOff (p : Point) (now : Clock) : Point :=
  if p.active then p.clear now else { p with warnCount := 0, alarmCount := 0, clearCount := 0, escCount := 0 }

/-- The points after both fans are commanded off. -/
def Extr.fanOffPoints (x : Extr) (now : Clock) : Tab8 Point :=
  x.points.mapIdx fun k p => if fanPoint (pointKind k) then p.fanOff now else p

/-- Some flow or fan point is active. -/
def Extr.anyFanPoint (x : Extr) : Bool :=
  allIdx8.any fun k => fanPoint (pointKind k) && (x.points.get k).active

/-- The extraction monitor after the fan commands take the value `on` (R137, R139, R140). -/
def Extr.command (x : Extr) (on : Bool) (now : Clock) : Extr :=
  match x.fan, on with
  | false, true => { x with fan := true, grace1 := some graceTime, grace2 := some graceTime }
  | true, false => { x with fan := false, grace1 := none, grace2 := none, points := x.fanOffPoints now }
  | _, _ => x

/-- The fan commands re-formed (R137). -/
def State.reformFans (s : State) : State :=
  { s with
    extr := s.extr.command (fanCommand s) s.clock
    port := s.port.notifyIf (s.extr.fan && !fanCommand s && s.extr.anyFanPoint) .alarmChanged }

/-! ## Horn and beacon (R149) -/

/-- HORN is asserted: some point is ACTIVE_UNACK at ALARM. -/
def hornOn (ps : Tab8 Point) : Bool :=
  ps.toList.any fun p => p.ann == .activeUnack && p.sev == .alarm

/-- BEACON is asserted: some point is active. -/
def beaconOn (ps : Tab8 Point) : Bool :=
  ps.toList.any Point.active

/-- HORN and BEACON re-formed, with their transition counts (R149). -/
def State.reformHorn (s : State) : State :=
  { s with
    extr :=
      { s.extr with
        horn := hornOn s.extr.points
        hornCount := countChange s.extr.hornCount s.extr.horn (hornOn s.extr.points)
        beacon := beaconOn s.extr.points
        beaconCount := countChange s.extr.beaconCount s.extr.beacon (beaconOn s.extr.points) } }

end Sys2Proof.Machine
end

