-- ==== Sys2Proof/Machine/Outfeed.lean ====
section
/-! DEFINITION. The outfeed unit's operations (chapter 9): its state, the handshake, the stop request, the drive, and the
entry to EMPTY. -/

namespace Sys2Proof.Machine

open Sys2Proof.Config

/-- The outfeed enters EMPTY: the stop request is lowered, and a board at the exit eye takes it on to LOADING (R154,
R158). -/
def State.enterEmpty (s : State) : State :=
  { s with
    outfeed :=
      { s.outfeed with
        state := if s.track.exitEye.accepted then .loading else .empty
        stop := false } }

/-- The outfeed's answer to an exit-eye leading edge (R154). -/
def State.outfeedEdge (s : State) : State :=
  { s with
    outfeed := { s.outfeed with state := if s.outfeed.state = .empty then .loading else s.outfeed.state } }

/-- The state after the handshake (R157): a take, a withdrawal, or the end of permitted motion. -/
def handshake (st : OutfeedState) (permitted ready : Bool) : OutfeedState :=
  match st with
  | .holding => if permitted && ready then .delivering else .holding
  | .delivering => if permitted && ready then .delivering else .holding
  | .empty => .empty
  | .loading => .loading

/-- BOARD_AVAILABLE_OUT (R156). -/
def boardAvailable (st : OutfeedState) (permitted : Bool) : Bool :=
  permitted && (st == .holding || st == .delivering)

/-- The exit candidate: the oldest record that is not EXITING (R15). -/
def exitCandidate (rs : List Record) : Option Record :=
  rs.find? fun r => r.stage != .exiting

/-- Some record is EXITING. -/
def anyExiting (rs : List Record) : Bool :=
  rs.any fun r => r.stage == .exiting

/-- The exit candidate has reached the back-pressure position, X − hold margin (R158). -/
def backPressure (s : State) : Bool :=
  !anyExiting s.track.records &&
    match exitCandidate s.track.records with
    | some r => decide (s.ws.exitX - s.ws.holdMargin ≤ relLead s r)
    | none => false

/-- The first condition of the stop request, in state `st`: the next board has come up to an occupied outfeed (R158). -/
def nextBoardNear (s : State) (st : OutfeedState) : Bool :=
  st != .empty && backPressure s

/-- The second condition of the stop request, in state `st`: a held board's tail is still at the exit eye (R158). -/
def heldTail (s : State) (st : OutfeedState) : Bool :=
  st == .holding && s.track.exitEye.accepted

/-- The test of the first condition, at a change of P (R158). -/
def State.testBackPressure (s : State) : State :=
  { s with outfeed := { s.outfeed with stop := s.outfeed.stop || nextBoardNear s s.outfeed.state } }

/-- The test of both conditions, at a change of the outfeed state or of the exit eye's accepted state (R158). -/
def State.testStop (s : State) : State :=
  { s with
    outfeed :=
      { s.outfeed with
        stop := s.outfeed.stop || nextBoardNear s s.outfeed.state || heldTail s s.outfeed.state } }

/-- The outfeed's answer to an end sensor event (R154, R158). -/
def State.outfeedSensor (s : State) (blocked : Bool) : State :=
  match s.outfeed.state, blocked with
  | .empty, true => ({ s with outfeed := { s.outfeed with state := .holding } }).testStop
  | .loading, true => ({ s with outfeed := { s.outfeed with state := .holding } }).testStop
  | .holding, false => s.enterEmpty
  | .delivering, false => s.enterEmpty
  | _, _ => s

/-- The handshake, BOARD_AVAILABLE_OUT and the stop request re-formed (R156 to R158). The second condition of the request is
tested where the handshake changes the state. The truth of the first changes with P, the state and the list alone, so its
test here is the test at each such change. -/
def State.reformOutfeed (s : State) : State :=
  let st := handshake s.outfeed.state s.modes.mode.outfeedMoves s.pins.downstream
  let av := boardAvailable st s.modes.mode.outfeedMoves
  { s with
    outfeed :=
      { s.outfeed with
        state := st
        available := av
        availableCount := countChange s.outfeed.availableCount s.outfeed.available av
        stop :=
          st != .empty
            && (s.outfeed.stop || nextBoardNear s st || (st != s.outfeed.state && heldTail s st)) } }

/-- The drive command (R155). -/
def driveCommand (st : OutfeedState) (permitted exitBlocked running : Bool) : Bool :=
  permitted &&
    match st with
    | .empty => running
    | .loading => !exitBlocked || running
    | .holding => false
    | .delivering => true

/-- The drive command re-formed (R155). -/
def State.reformDrive (s : State) : State :=
  { s with
    outfeed :=
      { s.outfeed with
        drive :=
          driveCommand s.outfeed.state s.modes.mode.outfeedMoves s.track.exitEye.accepted (s.track.ref != 0) } }

/-- The OUTFEED hold reason (R160). -/
def outfeedHold (s : State) : Bool :=
  s.outfeed.state != .empty && !s.pins.downstream

end Sys2Proof.Machine
end

