-- ==== Sys2Proof/Machine/Conveyor.lean ====
section
/-! DEFINITION. The conveyor: its stop requests and reference (R5, R9), the measured speed and its supervision (R6 to R8), the
wave drop that the reference starts and ends (R130 to R132), and the width drive (section 3.7). -/

namespace Sys2Proof.Machine

open Sys2Proof.Config

/-! ## The width drive (R57 to R60) -/

/-- The width drive is in motion, and its stop request stands (Table 3-3). -/
def Width.inMotion (w : Width) : Bool :=
  match w.state with
  | .homing _ => true
  | .moving => true
  | .unreferenced => false
  | .idle => false
  | .fault => false

/-- Motion stops at once: a HOMING drive becomes UNREFERENCED, a MOVING drive IDLE where it stands (R57). -/
def Width.halt (w : Width) : Width :=
  match w.state with
  | .homing _ => { w with state := .unreferenced, pos := 0, travel := 0 }
  | .moving => { w with state := .idle }
  | .unreferenced => w
  | .idle => w
  | .fault => w

/-- The named width reaches a MOVING drive: a new target, and the move completes at once where it equals the position
(R59). -/
def Width.retarget (w : Width) (named : Option Nat) : Width :=
  match w.state, named with
  | .moving, some t =>
    if t = w.target then w
    else { w with target := t, state := if w.pos = t then .idle else .moving }
  | _, _ => w

/-- The width drive may move: WARMUP or PRODUCTION, the list empty, the outfeed EMPTY (R57). -/
def widthMayMove (s : State) : Bool :=
  s.modes.mode.changesOver && s.track.records.isEmpty && s.outfeed.state == .empty

/-- The named width (R52). -/
def namedWidth (s : State) : Option Nat :=
  s.gate.namedClass.map (·.width)

/-- The width drive follows the mode, the list, the outfeed and the named width (R57, R59). -/
def State.reformWidth (s : State) : State :=
  { s with
    gate :=
      { s.gate with
        width := if widthMayMove s then s.gate.width.retarget (namedWidth s) else s.gate.width.halt } }

/-- The direction of the motion: `true` is outward, none while the drive stands or has arrived. -/
def Width.outward (w : Width) : Option Bool :=
  match w.state with
  | .homing o => some o
  | .moving => if w.pos = w.target then none else some (decide (w.pos < w.target))
  | .unreferenced => none
  | .idle => none
  | .fault => none

/-- The limit switch that the motion supervises reads active (R58, R59). -/
def limitDue (s : State) : Bool :=
  match s.gate.width.outward with
  | some true => s.pins.limitMax
  | some false => s.pins.limitMin
  | none => false

/-- The drive goes to FAULT and WIDTH_DRIVE is raised (R58, R59). -/
def State.faultWidth (s : State) : State :=
  ({ s with
      gate :=
        { s.gate with width := { s.gate.width with state := .fault, pos := 0, travel := 0 } } }).raiseCause .widthDrive

/-- One step of the stepper (R58, R59): the position follows in tenths toward the target; while HOMING the travel of the
leg grows. -/
def Width.step (w : Width) : Width :=
  match w.state with
  | .homing _ => { w with travel := w.travel + 1 }
  | .moving =>
    if w.pos < w.target then { w with pos := w.pos + 1 }
    else if w.target < w.pos then { w with pos := w.pos - 1 }
    else w
  | .unreferenced => w
  | .idle => w
  | .fault => w

/-- Motion begins (R57): homing from UNREFERENCED, outward first where the home switch reads active (R58); a move from
IDLE to a named width that differs (R59). -/
def Width.begin (w : Width) (homeActive : Bool) (named : Option Nat) : Width :=
  match w.state, named with
  | .unreferenced, _ => { w with state := .homing homeActive, travel := 0 }
  | .idle, some t => if w.pos = t then w else { w with state := .moving, target := t }
  | _, _ => w

/-- Motion is due to begin (R57). -/
def motionDue (s : State) : Bool :=
  widthMayMove s && s.gate.width.begin s.pins.homeActive (namedWidth s) != s.gate.width

/-- The home switch has become active during the inward leg (R58). -/
def homingDone (s : State) : Bool :=
  s.gate.width.state == .homing false

/-- Homing travel has passed its limit (R58). -/
def homingExceeded (s : State) : Bool :=
  match s.gate.width.state with
  | .homing true => s.pins.homeActive && decide (homeOutward ≤ s.gate.width.travel)
  | .homing false => !s.pins.homeActive && decide (homeInward ≤ s.gate.width.travel)
  | _ => false

/-- The position has reached the move target (R59). -/
def moveDone (s : State) : Bool :=
  s.gate.width.state == .moving && s.gate.width.pos == s.gate.width.target

/-! ## The reference (R5) -/

/-- The speed named for the line, 0 while no class is named (R5, R52). -/
def namedSpeed (s : State) : Nat :=
  (s.gate.namedClass.map (·.speed)).getD 0

/-- The conveyor run demand: the reference of R5 without the wave-stable wait (R131). -/
def runDemand (s : State) : Nat :=
  if s.modes.mode.conveys && s.gate.lineClass.isSome && !s.outfeed.stop && !s.gate.width.inMotion then namedSpeed s
  else 0

/-- The conveyor speed reference of R5. -/
def conveyorRef (s : State) : Nat :=
  if s.pot.drop = .none then runDemand s else 0

/-! ## The wave drop (R130 to R132) -/

/-- The drop moves between HELD and RECOVERING on the run demand (R131). -/
def Drop.follow (d : Drop) (demand : Nat) : Drop :=
  match d with
  | .none => .none
  | .held => if demand = 0 then .held else .recovering
  | .recovering => if demand = 0 then .held else .recovering

/-- The drop follows the run demand, and the references follow the drop (R127, R131). -/
def State.followDrop (s : State) : State :=
  ({ s with pot := { s.pot with drop := s.pot.drop.follow (runDemand s) } }).reformPumpRefs

/-- Both waves are steady: PUMP_STABLE, and references equal to targets (R132). -/
def Pot.steady (p : Pot) : Bool :=
  p.chip.stable && p.main.stable && p.chip.ref == p.chip.target && p.main.ref == p.main.target

/-- No record lies in the wave stretch (R132). -/
def stretchEmpty (s : State) : Bool :=
  s.track.records.all fun r => !inWaveStretch s r

/-- The drop ends: waves steady while RECOVERING, or the stretch empty (R132). -/
def State.endDrop (s : State) : State :=
  let ends := stretchEmpty s || (s.pot.drop == .recovering && s.pot.steady)
  { s with pot := { s.pot with drop := if ends then .none else s.pot.drop } }

/-- A conveyor stop: the reference goes from nonzero to 0 (R9). -/
def conveyorStops (s : State) : Bool :=
  s.track.ref != 0 && conveyorRef s == 0

/-- The stop starts a wave drop (R130). -/
def dropStarts (s : State) : Bool :=
  conveyorStops s && s.pot.drop == .none && s.track.records.any (anyOverlap s)

/-- The marks of a conveyor stop on one record (R9, R130). -/
def stopMarks (s : State) (r : Record) : Record :=
  (r.markIf (conveyorStops s && !r.isIntruder) .dwell).markIf
    (dropStarts s && !r.isIntruder && anyOverlap s r) .waveInterrupted

/-- The reference takes its value (R5): a change clears SPEED_STABLE and restarts both window counts (R7, R8). -/
def Track.refer (t : Track) (r : Nat) : Track :=
  if t.ref = r then t else { t with ref := r, refMoved := true, speedStable := false, passes := 0, misses := 0 }

/-- The reference re-formed, with the marks and the wave drop of a stop (R5, R9, R130). -/
def State.reformRef (s : State) : State :=
  { s with
    track := ({ s.track with records := s.track.records.map (stopMarks s) }).refer (conveyorRef s)
    pot := { s.pot with drop := if dropStarts s then .held else s.pot.drop } }

/-- The wave drop, the reference and the pump references re-formed together (R5, R127, R130 to R132). -/
def State.reformConveyor (s : State) : State :=
  s.followDrop.endDrop.reformRef.reformPumpRefs

/-! ## The measured speed (R6 to R8) -/

/-- The measured speed of a net count: trunc(240000 × n / C), 0 while no setup is loaded (R6). -/
def measuredSpeed (c : Nat) (net : Int) : Int :=
  (240000 * net).tdiv c

/-- The test of SPEED_STABLE (R7). -/
def speedPasses (m : Int) (r : Nat) : Bool :=
  decide ((m - r).natAbs * 50 ≤ r)

/-- The deviation test (R8). -/
def speedDeviates (m : Int) (r : Nat) : Bool :=
  r != 0 && decide (r < (m - r).natAbs * 10)

/-- The speed window of a status interval end (R6 to R8). The first window after a port reset measures nothing and counts
for nothing; a window in which the reference changed counts for nothing. -/
def Track.window (t : Track) (c : Nat) : Track :=
  if t.shortWindow then { t with net := 0, shortWindow := false, refMoved := false }
  else
    let m := measuredSpeed c t.net
    { t with
      net := 0
      refMoved := false
      measured := m
      speedStable := t.speedStable && speedPasses m t.ref
      passes := if speedPasses m t.ref && !t.refMoved then t.passes + 1 else 0
      misses := if speedDeviates m t.ref && !t.refMoved then t.misses + 1 else 0 }

/-- SPEED_STABLE is due (R7). -/
def Track.stableDue (t : Track) : Bool :=
  !t.speedStable && decide (4 ≤ t.passes)

/-- CONVEYOR_SPEED is due (R8). -/
def Track.speedFault (t : Track) : Bool :=
  decide (12 ≤ t.misses)

end Sys2Proof.Machine
end

