-- ==== Sys2Proof/Machine/Gate.lean ====
section
/-! DEFINITION. The entry gate (chapter 3): the hold set, the line class and its changeover, and the gate evaluation. -/

namespace Sys2Proof.Machine

open Sys2Proof.Config

/-! ## The hold set (R41, R42) -/

/-- SPACING stands (R42). -/
def spacingHold (s : State) : Bool :=
  s.track.entryEye.accepted
    || (match s.track.records.getLast? with | some r => r.stage == .entering | none => false)
    || match s.track.lastTrail with | some t => !atOrAfter s.track.pos (t + tenths s.ws.minGap) | none => false

/-- EDGE_ROOM stands (Table 3-2). -/
def edgeRoomHold (s : State) : Bool :=
  match s.nextBoard with
  | some b => decide (s.flux.freeEdges < 2 * b.sprays)
  | none => false

/-- CHANGEOVER stands (R56). A next class that is reported while there is no line class differs from it, so the hold stands
(DESIGN CHOICE, log entry 37). -/
def changeoverHold (s : State) : Bool :=
  s.gate.phase != .none || match s.nextClass with | some c => s.gate.lineClass != some c | none => false

/-- X2_EXTRACTION stands (R150). -/
def x2Hold (s : State) : Bool :=
  (s.extr.points.get 1).alarming || (s.extr.points.get 3).alarming || (s.extr.points.get 6).alarming

/-- The docket unit's three reasons are reported: they are withdrawn while the gate is OPEN or LATE (R26). -/
def docketReports (s : State) : Bool :=
  s.gate.state != .opened && s.gate.state != .late

/-- The truth of each reason (Table 3-2). -/
def holdStands (s : State) (r : HoldReason) : Bool :=
  match r with
  | .modeHold => s.modes.mode != .production
  | .listFull => decide (listMax ≤ s.track.records.length)
  | .noDocket => docketReports s && s.docket.noDocket
  | .recipe => docketReports s && s.docket.recipeHold
  | .noSlot => docketReports s && s.docket.noSlot
  | .changeover => changeoverHold s
  | .flux => s.flux.purge.isSome || (s.flux.isInhibited && nextSprays s)
  | .edgeRoom => edgeRoomHold s
  | .x2Extraction => x2Hold s
  | .pot => !s.thermal.pot.settled || !s.pot.levelGood
  | .zoneFault => zoneFaultHold s
  | .hostLost => s.port.hostLost
  | .outfeed => outfeedHold s
  | .spacing => spacingHold s

/-- The hold set that the conditions form (R41). -/
def formHolds (s : State) : List HoldReason :=
  allReasons.filter (holdStands s)

/-- The hold set re-formed, with notice HOLD_CHANGED where it differs (R41). The gate has now been told of the outfeed state
(R160). -/
def State.takeHolds (s : State) : State :=
  { s with
    gate := { s.gate with holds := formHolds s, told := s.outfeed.state }
    port := s.port.notifyIf (formHolds s != s.gate.holds) .holdChanged }

/-! ## Gate states (R44 to R47) -/

/-- The gate with a new state, and ENTRY_READY asserted exactly in OPEN (R44). -/
def Gate.enter (g : Gate) (st : GateState) : Gate :=
  { g with
    state := st
    ready := st == .opened
    readyCount := countChange g.readyCount g.ready (st == .opened)
    lateLimit := if st = .late then g.lateLimit else none
    lateWaits := st == .late && g.lateWaits }

/-- The gate goes to CLOSED and the offer is dropped (R33, R45, R47). Until the next scan the slot of a dropped DOCKET offer stays
the candidate, and its class the next class, as last scanned (DESIGN CHOICE, log entry 59). -/
def State.closeGate (s : State) : State :=
  { s with gate := s.gate.enter .closed, docket := { s.docket with offer := none } }

/-- The gate goes to LATE with its late limit (R45). -/
def State.lateGate (s : State) : State :=
  { s with gate := ({ s.gate with lateLimit := some (s.track.pos + tenths lateDistance) }).enter .late }

/-- The gate opens on the offer that the docket unit fixes (R33, R44). -/
def State.openGate (s : State) : State :=
  match s.makeOffer with
  | some o => { s with gate := s.gate.enter .opened, docket := { s.docket with offer := some o } }
  | none => s

/-- A mode in which LATE ends at an evaluation (R47). -/
def Mode.endsLate (m : Mode) : Bool :=
  match m with
  | .economy => true
  | .off => true
  | .halted => true
  | .warmup => false
  | .production => false
  | .cooldown => false

/-- The transition that the gate state and the hold set call for (R44, R45, R47). -/
def State.gateTransition (s : State) : State :=
  match s.gate.state with
  | .closed => if s.gate.holds.isEmpty then s.openGate else s
  | .opened =>
    if s.gate.holds.isEmpty then s else if s.modes.mode.endsLate then s.closeGate else s.lateGate
  | .late => if s.modes.mode.endsLate then s.closeGate else s
  | .receiving => s

/-! ## The line class and the changeover (R51 to R56) -/

/-- In WARMUP without a line class, the first reported class becomes it (R51). -/
def State.takeClass (s : State) : State :=
  { s with
    gate :=
      { s.gate with
        lineClass :=
          if s.modes.mode = .warmup ∧ s.gate.lineClass = none then s.nextClass else s.gate.lineClass } }

/-- The named class reaches the pot target, the width drive and the conveyor (R52). -/
def State.nameClass (s : State) : State :=
  s.reformPotTarget.reformWidth.reformConveyor

/-- The changeover ends without effect (R53). -/
def Gate.noChange (g : Gate) : Gate :=
  { g with phase := .none, target := none }

/-- The width drive is IDLE, referenced, and at the target width (R54). -/
def widthAt (s : State) (t : LineClass) : Bool :=
  s.gate.width.state == .idle && s.gate.width.pos == t.width

/-- Speed and pot are stable (R55). -/
def classStable (s : State) : Bool :=
  s.track.speedStable && s.thermal.pot.settled

/-- DRAINING is complete: list empty and outfeed EMPTY (R53). -/
def drained (s : State) : Bool :=
  s.track.records.isEmpty && s.outfeed.state == .empty

/-- The phase NONE at an evaluation (R53). -/
def State.phaseNone (s : State) : State :=
  match s.gate.lineClass, s.nextClass with
  | some c, some n => if n = c then s else { s with gate := { s.gate with phase := .draining, target := some n } }
  | _, _ => s

/-- The phase DRAINING at an evaluation (R53). -/
def State.phaseDraining (s : State) : State :=
  match s.nextClass with
  | none => { s with gate := s.gate.noChange }
  | some n =>
    if s.gate.lineClass = some n then { s with gate := s.gate.noChange }
    else if drained s then ({ s with gate := { s.gate with phase := .moving, target := some n } }).nameClass
    else { s with gate := { s.gate with target := some n } }

/-- The target that MOVING and SETTLING keep or take (R54, R55). -/
def State.retargetClass (s : State) : State :=
  match s.nextClass with
  | none => s
  | some n =>
    if s.gate.target = some n then s else ({ s with gate := { s.gate with target := some n } }).nameClass

/-- The phase MOVING at an evaluation (R54). -/
def State.phaseMoving (s : State) : State :=
  let s1 := s.retargetClass
  match s1.gate.target with
  | some t => if widthAt s1 t then { s1 with gate := { s1.gate with phase := .settling } } else s1
  | none => s1

/-- The phase SETTLING at an evaluation (R55). -/
def State.phaseSettling (s : State) : State :=
  let s1 := s.retargetClass
  match s1.gate.target with
  | some t =>
    if s1.gate.width.pos ≠ t.width then { s1 with gate := { s1.gate with phase := .moving } }
    else if classStable s1 then
      { s1 with gate := { s1.gate with lineClass := some t, phase := .none, target := none } }
    else s1
  | none => s1

/-- One evaluation of the phase (R53 to R55): in WARMUP and PRODUCTION only (R56). -/
def State.phaseStep (s : State) : State :=
  if s.modes.mode.changesOver then
    match s.gate.phase with
    | .none => s.phaseNone
    | .draining => s.phaseDraining
    | .moving => s.phaseMoving
    | .settling => s.phaseSettling
  else s

/-- The phase evaluated until it stands still, at most `fuel` times (R55; DEDUCED, log entry 9). -/
def State.changeover (fuel : Nat) (s : State) : State :=
  match fuel with
  | 0 => s
  | k + 1 =>
    let t := s.phaseStep
    if t.gate.phase = s.gate.phase then t else State.changeover k t

/-- A condition that ends a phase holds (section 3.6). -/
def phaseDue (s : State) : Bool :=
  s.modes.mode.changesOver &&
    match s.gate.phase, s.gate.target with
    | .draining, _ => drained s
    | .moving, some t => widthAt s t
    | .settling, some _ => classStable s
    | _, _ => false

/-! ## The gate evaluation (R43) -/

/-- The whole evaluation (R43). -/
def State.gateEval (s : State) : State :=
  ((s.reformDocket.takeClass.changeover 8).takeHolds).gateTransition

/-- LATE stands in a mode that ends it (R47, R50). -/
def lateEnds (s : State) : Bool :=
  s.gate.state == .late && s.modes.mode.endsLate

/-- The outfeed state has changed since the latest evaluation: the outfeed unit reports it to the gate, whether or not the truth
of OUTFEED changes with it (R154, R160; DEDUCED, log entry 58). -/
def outfeedReports (s : State) : Bool :=
  s.outfeed.state != s.gate.told

/-- The changeover where a condition that ends its phase holds, and an evaluation where a reason's truth has changed or the
mode ends LATE (R41, R47, R50, section 3.6). -/
def State.gateFollow (s : State) : State :=
  let s1 := if phaseDue s then s.changeover 8 else s
  if formHolds s1 = s1.gate.holds ∧ lateEnds s1 = false then s1 else s1.gateEval

/-- The gate's part in a step: a whole evaluation after a report of the outfeed (R160), in which the slot scan comes before the
changeover (R43); otherwise what the reasons and the phase call for. -/
def State.gateStage (s : State) : State :=
  if outfeedReports s then s.gateEval else s.gateFollow

end Sys2Proof.Machine
end

