-- ==== Sys2Proof/Machine/Settle.lean ====
section
/-! DEFINITION. What follows inside every step: each block re-forms what depends on what has changed, in one order, and the
gate evaluates where a reason's truth has changed (R41, and the "re-formed at each change" clauses of the chapters). -/

namespace Sys2Proof.Machine

/-- COOLDOWN is complete: the list empty and the outfeed EMPTY (R169). -/
def cooldownDone (s : State) : Bool :=
  s.modes.mode == .cooldown && drained s

/-- The line drops to ECONOMY: PRODUCTION with HOST_LOST and an empty list (R167). -/
def hostLostEconomy (s : State) : Bool :=
  s.modes.mode == .production && s.port.hostLost && s.track.records.isEmpty

/-- The mode changes that conditions call for (R167, R169). -/
def State.modeStage (s : State) : State :=
  if cooldownDone s then s.enterMode .off
  else if hostLostEconomy s then s.enterMode .economy
  else s

/-- The idle timer runs: PRODUCTION, empty list, UPSTREAM_AVAILABLE deasserted, an idle time (R166). -/
def idleRuns (s : State) : Bool :=
  s.modes.mode == .production && s.track.records.isEmpty && !s.pins.upstream && s.ws.idleTime != 0

/-- The idle timer re-formed: it starts at 0, and lapses to stopped (R166). -/
def State.reformIdle (s : State) : State :=
  { s with modes := { s.modes with idle := if idleRuns s then some (s.modes.idle.getD 0) else none } }

/-- The expected exit position of a record. -/
def expectedExit (s : State) (r : Record) : Pos :=
  r.lead + tenths s.ws.exitX

/-- A position lies in the exit window of a record (R15). -/
def inExitWindow (s : State) (r : Record) (p : Pos) : Bool :=
  atOrAfter p (expectedExit s r - tenths s.ws.exitTol) && atOrAfter (expectedExit s r + tenths s.ws.exitTol) p

/-- P has passed the exit window of a record (R16). -/
def pastExit (s : State) (r : Record) : Bool :=
  strictlyAfter s.track.pos (expectedExit s r + tenths s.ws.exitTol)

/-- A pending change to blocked, with the position it began at. -/
def Qualifier.toBlocked (q : Qualifier) : Option Pos :=
  if q.accepted then none else q.pendingAt

/-- The pending entry change that defers the close of a LATE gate at its limit `l`: it began before `l` (R47). -/
def entryDefers (s : State) (l : Pos) : Bool :=
  s.track.entryEye.toBlocked.any fun p => !atOrAfter p l

/-- The pending exit change that defers the test of R16 for the candidate `r`: it began inside the window. -/
def exitDefers (s : State) (r : Record) : Bool :=
  s.track.exitEye.toBlocked.any (inExitWindow s r)

/-- The gate waits: P has reached the late limit, now or before, and a pending change defers the close (R47). An accepted
change that R12 discards ends the wait, and P alone then decides (DESIGN CHOICE, log entry 44). -/
def lateWaiting (s : State) : Bool :=
  s.gate.state == .late && s.gate.lateLimit.any fun l => (s.gate.lateWaits || atOrAfter s.track.pos l) && entryDefers s l

/-- The exit test waits: P has passed the candidate's window, now or before, and a pending change defers the close (R16). -/
def lostWaiting (s : State) : Bool :=
  (exitCandidate s.track.records).any fun r => (s.track.lostWaits || pastExit s r) && exitDefers s r

/-- The two waits re-formed: a count that takes P back ends neither (R16, R47). -/
def State.reformWaits (s : State) : State :=
  { s with
    gate := { s.gate with lateWaits := lateWaiting s }
    track := { s.track with lostWaits := lostWaiting s } }

/-- The NOTICE line re-formed (R184). -/
def State.reformLine (s : State) : State :=
  { s with port := s.port.formLine }

/-- The flux inhibit re-formed, and the grants that an event cuts (R72, R98). -/
def State.reformGuards (s : State) : State :=
  s.reformInhibit.cutGrants

/-- The targets re-formed (R85, R107, R126). -/
def State.reformTargets (s : State) : State :=
  s.reformZones.reformPumpTargets.reformPotTarget

/-- The outfeed, the width drive, the conveyor and the drive re-formed (R5, R57, R155 to R158). -/
def State.reformMotion (s : State) : State :=
  s.reformOutfeed.reformWidth.reformConveyor.reformDrive

/-- Every block re-forms once. -/
def State.reform (s : State) : State :=
  s.modeStage.reformFans.reformHorn.reformGuards.reformTargets.reformMotion.reformWaits.reformIdle.reformLine

/-- One pass: re-form, then the gate. -/
def State.pass (s : State) : State :=
  s.reform.gateStage

/-- The state after a step's consequences: two passes, since a gate transition changes what the blocks read, and a last
re-forming. -/
def State.settle (s : State) : State :=
  s.pass.pass.reform

/-- The same with a gate evaluation that the event itself calls for (R43). -/
def State.settleEval (s : State) : State :=
  s.reform.gateEval.settle

end Sys2Proof.Machine
end

