-- ==== Sys2Proof/Machine/Track.lean ====
section
/-! DEFINITION. The track unit's events (chapter 1): the step of P, the entry and exit edges with the gate's part in them
(R46 to R49), the close of a record, and the sticky flags. -/

namespace Sys2Proof.Machine

open Sys2Proof.Config

/-! ## Sticky flags (R18) -/

/-- What follows the setting of a sticky track flag (R18). -/
def State.trackFault (s : State) : State :=
  (s.notify .trackFault).raiseIf s.ws.stopOnFault .trackFault

/-- LIST_OVERFLOW is set (R12, R18). -/
def State.setOverflow (s : State) : State :=
  ({ s with track := { s.track with overflow := true } }).trackFault

/-- PHANTOM is set (R12, R15, R18). -/
def State.setPhantom (s : State) : State :=
  ({ s with track := { s.track with phantom := true } }).trackFault

/-! ## The step of P (R2) -/

/-- What a step of P by a tenth brings (R107, R113, R126, R127, R129, R158); a stop request that it raises stops the
conveyor at that position (R159). -/
def State.afterMove (s : State) (forward : Bool) : State :=
  let s1 := s.reformZones.reformPumpTargets.reformPumpRefs
  let s2 := if forward then s1.waveEntries else s1
  s2.topside.testBackPressure.reformConveyor

/-- The position one tenth on (R2). -/
def nextTenth (d : Direction) (p : Pos) : Pos :=
  match d with
  | .forward => p + 1
  | .backward => p - 1

/-- P moves by one tenth (R2). -/
def State.moveTenth (s : State) (forward : Bool) : State :=
  ({ s with
      track := { s.track with pos := if forward then s.track.pos + 1 else s.track.pos - 1 } }).afterMove forward

/-- `n` steps of P. -/
def State.moveTenths (n : Nat) (s : State) (forward : Bool) : State :=
  match n with
  | 0 => s
  | k + 1 => State.moveTenths k (s.moveTenth forward) forward

/-- The relative lead of record `r`, read unsigned (R1), reaches F − 500 by the move of P from `a` to `b` (R78): it was below
and is no longer (DEDUCED, log entry 30). -/
def reachesBar (c : Setup) (r : Record) (a b : Pos) : Bool :=
  decide (relative a r.lead < purgeThreshold c ∧ purgeThreshold c ≤ relative b r.lead)

/-- A board comes up to the spray bar at one of the `n` tenths that P moves from `p` (R78). -/
def boardAtBar (s : State) (n : Nat) (p : Pos) (dir : Direction) : Bool :=
  match n with
  | 0 => false
  | k + 1 => s.track.records.any (reachesBar s.ws · p (nextTenth dir p)) || boardAtBar s k (nextTenth dir p) dir

/-- A running purge ends where a board comes up to the bar (R78). -/
def State.approachBar (s : State) (n : Nat) (p : Pos) (dir : Direction) : State :=
  if boardAtBar s n p dir then s.endPurge else s

/-- The tenths and the accumulator after one count (R2): forward adds 10000 and carries, reverse borrows. -/
def countSteps (dir : Direction) (frac c : Nat) : Nat × Nat :=
  match dir with
  | .forward => ((frac + 10000) / c, (frac + 10000) % c)
  | .backward =>
    if 10000 ≤ frac then (0, frac - 10000)
    else
      let n := (10000 - frac + c - 1) / c
      (n, frac + n * c - 10000)

/-- One encoder count on P, the accumulator and the window's net count (R2, R6). -/
def State.countEncoder (s : State) (dir : Direction) : State :=
  let k := countSteps dir s.track.frac s.ws.countsPerMetre
  let net := match dir with | .forward => s.track.net + 1 | .backward => s.track.net - 1
  (State.moveTenths k.1 { s with track := { s.track with frac := k.2, net := net } } (dir == .forward)).approachBar
    k.1 s.track.pos dir

/-! ## Eye qualifiers (R4) -/

/-- The qualifier of an eye. -/
def Track.eye (t : Track) (e : Eye) : Qualifier :=
  match e with
  | .entry => t.entryEye
  | .exit => t.exitEye

/-- The track with the qualifier of an eye replaced. -/
def Track.setEye (t : Track) (e : Eye) (q : Qualifier) : Track :=
  match e with
  | .entry => { t with entryEye := q }
  | .exit => { t with exitEye := q }

/-- The pins with an eye's raw reading. -/
def Pins.setEye (p : Pins) (e : Eye) (blocked : Bool) : Pins :=
  match e with
  | .entry => { p with entryEye := blocked }
  | .exit => { p with exitEye := blocked }

/-- A raw reading reaches a qualifier (R4, R153): a differing reading starts a pending change at `now`, a return drops
it. -/
def Qualifier.raw (q : Qualifier) (blocked : Bool) (now : BitVec 32) : Qualifier :=
  if blocked == q.accepted then { q with pendingAt := none }
  else { q with pendingAt := some (q.pendingAt.getD now) }

/-- The pending change is accepted (R4, R153). -/
def Qualifier.accept (q : Qualifier) : Qualifier :=
  { accepted := !q.accepted, pendingAt := none, count := q.count + 1 }

/-- The acceptance of a pending eye change is due (R4). -/
def eyeDue (s : State) (e : Eye) : Option Pos :=
  match (s.track.eye e).pendingAt with
  | some p => if atOrAfter s.track.pos (p + tenths eyeDistance) then some p else none
  | none => none

/-! ## The entry leading edge (R12, R46 to R48) -/

/-- The newest record. -/
def Track.newest (t : Track) : Option Record :=
  t.records.getLast?

/-- A new record (Table 1-2). -/
def newRecord (s : State) (p : Pos) (origin : Origin) (binding : Option Binding) (late : Bool) : Record :=
  ({ ordinal := s.track.ordinal + 1, origin := origin, binding := binding
     lead := p, trail := none, length := none, stage := .entering, jam := false
     entryTime := s.clock, exitLead := none, flux := 0, skipped := 0, incomplete := 0, flags := 0, zoneMask := 0
     topside := none, minSpeed := none, minRpm := none } : Record).markIf late .lateAdmit

/-- The record joins the tail of the list (R10, R12). -/
def State.append (s : State) (r : Record) : State :=
  { s with track := { s.track with ordinal := r.ordinal, records := s.track.records ++ [r], owner := true } }

/-- The admission on an offer (R46): append, bind, schedule, then RECEIVING. -/
def State.admitBoard (s : State) (p : Pos) (o : Offer) (late : Bool) : State :=
  let r := newRecord s p o.origin (some o.binding) late
  let s1 := (((s.append r).bindSlot o).scheduleEdges r.ordinal p o)
  { s1 with gate := s1.gate.enter .receiving }

/-- An intruder enters (R48). -/
def State.intrude (s : State) (p : Pos) : State :=
  (s.append (newRecord s p .intruder none false)).notify .intruder

/-- The gate's decision on an edge that the track unit hands over (R46 to R48). A leading edge in RECEIVING cannot arise
while one board is at the eye; it is taken as an intruder (DESIGN CHOICE, log entry 12). -/
def State.handLeading (s : State) (p : Pos) : State :=
  match s.gate.state, s.docket.offer with
  | .opened, some o => s.admitBoard p o false
  | .late, some o => s.admitBoard p o true
  | _, _ => s.intrude p

/-- The edge is out of order: not strictly after the newest lead (R12). -/
def outOfOrder (t : Track) (p : Pos) : Bool :=
  match t.newest with
  | some r => !strictlyAfter p r.lead
  | none => false

/-- The edge creates no record: the most recent accepted leading edge owns none (R13). -/
def State.disown (s : State) : State :=
  { s with track := { s.track with owner := false } }

/-- The append can itself bring a board to the bar, where F is small (R78). -/
def State.appendAtBar (s : State) : State :=
  match s.track.newest with
  | some r => if purgeThreshold s.ws ≤ relative s.track.pos r.lead then s.endPurge else s
  | none => s

/-- An accepted entry-eye leading edge (R12). An edge that R12 discards reaches the gate as SPACING alone, which takes an OPEN
gate to LATE (R42, R45), where R46 says that it stays OPEN (DESIGN CHOICE, log entry 38). An edge that meets both the full list
and the order is LIST_OVERFLOW alone (DESIGN CHOICE, log entry 49). -/
def State.entryLeading (s : State) (p : Pos) : State :=
  if listMax ≤ s.track.records.length then s.disown.setOverflow.settle
  else if outOfOrder s.track p then s.disown.setPhantom.settle
  else (s.handLeading p).appendAtBar.settleEval

/-! ## The entry trailing edge (R13, R49) -/

/-- The edge belongs to the newest record (R13). -/
def trailOwner (t : Track) : Option Record :=
  if t.owner then
    match t.newest with
    | some r => if r.trail.isNone then some r else none
    | none => none
  else none

/-- The record with its trail (R13). -/
def Record.withTrail (r : Record) (t : Pos) (maxLength : Nat) : Record :=
  let l := saturate16 (t - r.lead).toNat
  let q : Record :=
    { r with trail := some t, length := some l, stage := if r.stage = .entering then .tracked else r.stage }
  q.markIf (decide (maxLength < l)) .overlength

/-- The LENGTH_MISMATCH test (R49). -/
def Record.lengthTest (r : Record) : Record :=
  match r.binding, r.length with
  | some b, some l =>
    r.markIf
      (r.origin == .docket && b.expectedLength != 0 && decide (b.lengthTol < ((l : Int) - b.expectedLength).natAbs))
      .lengthMismatch
  | _, _ => r

/-- The newest record takes its trail, its clamp and, where due, its capture (R13, R65, R113). -/
def State.takeTrail (s : State) (t : Pos) : State :=
  match trailOwner s.track with
  | some r =>
    let r1 := r.withTrail t s.ws.maxLength
    (({ s with
        track := { s.track with records := mapNewest (fun q => q.withTrail t s.ws.maxLength) s.track.records } }).clamp
      r1 (r1.length.getD 0)).topside
  | none => s

/-- The gate's part in a trailing edge (R49). -/
def State.handTrailing (s : State) : State :=
  match s.gate.state with
  | .receiving =>
    { s with
      track := { s.track with records := mapNewest Record.lengthTest s.track.records }
      gate := s.gate.enter .closed }
  | .closed => s
  | .opened => s
  | .late => s

/-- An accepted entry-eye trailing edge (R13, R42, R49). -/
def State.entryTrailing (s : State) (t : Pos) : State :=
  ((({ s with track := { s.track with lastTrail := some t } }).takeTrail t).handTrailing).settleEval

/-! ## The close of a record (R17) -/

/-- The record with its contact flags, as the traveller takes it (R17 step 2, R134). -/
def closing (s : State) (r : Record) : Record :=
  r.contactTest (contactTime s.ws.contactWidth r.minSpeed)

/-- Steps 2 to 4: the traveller of an admitted board, or the notice of an intruder (R17, R134, R136). -/
def State.reportClose (s : State) (r : Record) (outcome : CloseOutcome) (exitLength : Nat) : State :=
  match r.slot? with
  | some n =>
    s.writeTraveller n
      (travellerWords (closing s r) outcome s.clock exitLength (contactTime s.ws.contactWidth r.minSpeed))
  | none => s.notify .intruder

/-- The record is EXITING. -/
def exiting (r : Record) : Bool :=
  r.stage == .exiting

/-- The record is not EXITING: the oldest such record is the exit candidate (R15). -/
def notExiting (r : Record) : Bool :=
  r.stage != .exiting

/-- Step 6: the oldest record that `p` names leaves the list (R17). Where it was the newest, the edge that created it has
no record left (R13). -/
def State.removeRecord (s : State) (p : Record → Bool) : State :=
  { s with
    track :=
      { s.track with
        records := s.track.records.eraseP p
        owner := s.track.owner && (s.track.records.eraseP p).getLast? == s.track.newest } }

/-- A record closes (R17): `r` is the oldest record that `p` names, with the flags of its close. -/
def State.closeRecord (s : State) (p : Record → Bool) (r : Record) (outcome : CloseOutcome) (exitLength : Nat) : State :=
  ((s.reportClose r outcome exitLength).dropFlux r.ordinal).removeRecord p

/-! ## The exit edges (R15 to R17) -/

/-- The candidate becomes EXITING (R15). -/
def State.matchExit (s : State) (r : Record) (p : Pos) : State :=
  { s with
    track :=
      { s.track with
        records :=
          mapRecords (fun q => q.ordinal == r.ordinal) (fun q => { q with stage := .exiting, exitLead := some p })
            s.track.records } }

/-- An accepted exit-eye leading edge (R15, R154). -/
def State.exitLeading (s : State) (p : Pos) : State :=
  let s1 :=
    match exitCandidate s.track.records with
    | some r => if inExitWindow s r p then s.matchExit r p else s.setPhantom
    | none => s.setPhantom
  s1.outfeedEdge.testStop.settle

/-- The exit length of a record (R17). -/
def exitLength (r : Record) (q : Pos) : Nat :=
  saturate16 (q - r.exitLead.getD q).toNat

/-- The LENGTH_CHANGE test (R17). -/
def Record.exitTest (r : Record) (l tol : Nat) : Record :=
  match r.length with
  | some known => r.markIf (decide (tol < ((l : Int) - known).natAbs)) .lengthChange
  | none => r

/-- An accepted exit-eye trailing edge (R16, R17). -/
def State.exitTrailing (s : State) (q : Pos) : State :=
  (match s.track.records.find? exiting with
   | some r => s.closeRecord exiting (r.exitTest (exitLength r q) s.ws.exitTol) .completed (exitLength r q)
   | none => s).settle

/-- The candidate's window has passed without a match, and no pending exit change lies inside it (R16). -/
def lostDue (s : State) (r : Record) : Bool :=
  pastExit s r && !exitDefers s r

/-- The candidate that is lost. -/
def lostCandidate (s : State) : Option Record :=
  match exitCandidate s.track.records with
  | some r => if lostDue s r then some r else none
  | none => none

/-- Lost records close one after the other (R16). -/
def State.closeLost (fuel : Nat) (s : State) : State :=
  match fuel with
  | 0 => s
  | k + 1 =>
    match lostCandidate s with
    | some r => State.closeLost k (s.closeRecord notExiting r .lost 0)
    | none => s

/-- After the closes of R16: the mode changes that the shorter list brings (R167, R169), then the halt cause. -/
def State.raiseLost (s : State) : State :=
  s.modeStage.raiseCause .boardLost

/-- The closes of R16 and what they bring. -/
def State.loseBoards (s : State) : State :=
  if (lostCandidate s).isSome then (s.closeLost listMax).raiseLost else s

/-- The change that the exit test waited for is dropped: the candidate closes LOST at once, and the records after it are
tested (R16). -/
def State.loseWaiting (s : State) : State :=
  match exitCandidate s.track.records with
  | some r => ((s.closeRecord notExiting r .lost 0).closeLost listMax).raiseLost
  | none => s

/-! ## Entry jam (R14) and the late limit (R47) -/

/-- The record has not cleared the entry eye in three board lengths (R14). -/
def jamDue (s : State) (r : Record) : Bool :=
  r.stage == .entering && !r.jam && atOrAfter s.track.pos (r.lead + tenths (3 * s.ws.maxLength))

/-- ENTRY_JAM is due: a trailing edge accepted at the same step of P comes first (R14). -/
def jamNow (s : State) : Bool :=
  (eyeDue s .entry).isNone && s.track.records.any (jamDue s)

/-- The jam marks are set (R14). -/
def State.markJam (s : State) : State :=
  { s with
    track := { s.track with records := mapRecords (jamDue s) (fun r => { r with jam := true }) s.track.records } }

/-- The late limit is reached, and no pending entry change from before it defers the close (R47). -/
def lateDue (s : State) : Bool :=
  s.gate.state == .late &&
    match s.gate.lateLimit with
    | some l =>
      atOrAfter s.track.pos l && !entryDefers s l
    | none => false

end Sys2Proof.Machine
end

