-- ==== Sys2Proof/Machine/Status.lean ====
section
/-! DEFINITION. The live status block (Table 12-7, R185), the header at resets and at status interval ends (Table 12-2), and
the register window's reads (Table 12-5, R176). -/

namespace Sys2Proof.Machine

open Sys2Proof.Config

/-! ## The block's rows -/

/-- A row of `n` words: its items from the first offset, the words beyond them 0 (12.5, R186). -/
def row (n : Nat) (ws : List Word) : List Word :=
  ws.take n ++ List.replicate (n - ws.length) 0

/-- The three words of a class, 0 when absent. -/
def classWords (c : Option LineClass) : List Word :=
  match c with
  | some c => [wordOf c.width, wordOf c.speed, wordOfInt c.pot]
  | none => [0, 0, 0]

/-- A slot, FFFFh when none. -/
def slotWord (n : Option SlotIx) : Word :=
  match n with
  | some n => wordOf n.val
  | none => 0xFFFF

/-- An ordinal, FFFFh when none. -/
def governorWord (o : Option (BitVec 16)) : Word :=
  o.getD 0xFFFF

/-- The source and the standing recipe index, 0 in the DOCKET source (DESIGN CHOICE, log entry 40). -/
def sourceWords (src : Source) : List Word :=
  match src with
  | .docket => [0, 0]
  | .standing n => [1, wordOf n.val]

/-- Offsets 001h to 01Fh: modes and gate. -/
def statusModes (s : State) : List Word :=
  row 31
    ([wordOf s.modes.mode.code, wordOf s.gate.state.code, wordOfBits (allReasons.map fun r => s.gate.holds.contains r),
      wordOf s.gate.phase.code]
     ++ classWords s.gate.lineClass ++ classWords s.gate.namedClass ++ classWords s.gate.target
     ++ [wordOfBits (allCauses.map fun c => s.modes.causes.contains c)]
     ++ sourceWords s.docket.source
     ++ [slotWord s.docket.candidate, slotWord (s.docket.offer.map (·.slot))]
     ++ twoWords ((s.gate.lateLimit.map BitVec.toNat).getD 0))

/-- The measured speed as a signed word. Of a value outside the signed 16-bit range the spec states no word: it is free (DESIGN
CHOICE, log entry 64). -/
def speedWord (m : Int) (now : Clock) : Word :=
  if -32768 ≤ m ∧ m ≤ 32767 then wordOfInt m else Config.speedBeyond m now

/-- Offsets 020h to 02Fh: track and width. -/
def statusTrack (s : State) : List Word :=
  row 15
    (twoWords s.track.pos.toNat
     ++ [wordOf s.track.ref, speedWord s.track.measured s.clock, wordOfBool s.track.speedStable,
         wordOfBits [s.track.overflow, s.track.phantom],
         wordOf s.gate.width.state.code, wordOf s.gate.width.pos])
  ++ [wordOf s.track.records.length]

/-- One entry of the in-flight view. -/
def viewWords (s : State) (r : Record) : List Word :=
  [r.ordinal, slotWord r.slot?, wordOf r.stage.code] ++ twoWords (relative s.track.pos r.lead)
    ++ [wordOf (r.length.getD 0)]

/-- Offsets 040h to 09Fh: the in-flight view. -/
def statusView (s : State) : List Word :=
  row 96 (s.track.records.flatMap (viewWords s))

/-- The seven words of a loop. -/
def loopWords (l : Loop) (pv : Option Int) (governor : Word) : List Word :=
  [wordOfInt l.target, wordOfInt l.sp, wordOfTemp pv, wordOf l.request, wordOf l.grant,
   wordOfBits [l.settled, l.limited], governor]

/-- Offsets 0A0h to 0D0h: the loops. The pot's seventh word is not used. -/
def statusLoops (s : State) : List Word :=
  loopWords s.thermal.pot s.thermal.potPV 0
  ++ allZones.flatMap fun z =>
      loopWords (s.thermal.zones.get z) (s.thermal.zonePV z) (governorWord (s.thermal.zones.get z).governing)

/-- The five words of a pump. -/
def pumpWords (p : Pump) : List Word :=
  [wordOf p.target, wordOf p.ref, wordOf p.measured, wordOfBool p.stable, governorWord p.governing]

/-- Offsets 0E0h to 0FFh: the pot unit. -/
def statusPot (s : State) : List Word :=
  row 32
    ([wordOfBool (!s.pot.levelGood), if s.pot.levelGood then wordOfInt s.pot.level else 0x7FFF,
      wordOfBits [s.pot.high.set, s.pot.low.set, s.pot.lowlow.set],
      wordOf s.pot.feeder.code, wordOf s.pot.misses, wordOf s.pot.history.length]
     ++ pumpWords s.pot.chip ++ pumpWords s.pot.main ++ [wordOf s.pot.drop.code])

/-- The purge time remaining, 0 while no purge runs. -/
def Flux.purgeLeft (f : Flux) : Nat :=
  (f.purge.map (·.remaining)).getD 0

/-- Offsets 100h to 11Fh: the flux unit. -/
def statusFlux (s : State) : List Word :=
  row 32
    ([wordOfBits (allInhibits.map fun r => s.flux.inhibit.contains r), wordOfBool s.flux.pressureFault]
     ++ s.flux.duties.toList.map wordOf
     ++ [wordOfBits (allIdx8.map s.flux.valveOpen), wordOf s.flux.freeEdges]
     ++ twoWords s.flux.counter ++ [wordOf s.flux.purgeLeft])

/-- The six words of an alarm point. -/
def pointWords (p : Point) : List Word :=
  [wordOf p.ann.code, wordOf p.sev.code, p.value] ++ twoWords p.lastChange.toNat ++ [p.activations]

/-- Offsets 120h to 14Fh: the alarm table. -/
def statusAlarms (s : State) : List Word :=
  s.extr.points.toList.flatMap pointWords

/-- An extraction reading, 7FFFh out of range (R141). -/
def readingWord (r : Option Nat) : Word :=
  match r with
  | some v => wordOf v
  | none => 0x7FFF

/-- Offsets 150h to 15Fh: the extraction monitor. The fifth reading, which the table does not name, stands last of the five, as it
comes (R141; DESIGN CHOICE, log entry 8). -/
def statusExtraction (s : State) : List Word :=
  row 16
    ([wordOfBool s.extr.fan, wordOfBool s.extr.fan, wordOfBool s.extr.feedback1, wordOfBool s.extr.feedback2,
      wordOfBool s.extr.grace1.isSome, wordOfBool s.extr.grace2.isSome]
     ++ twoWords (s.modes.runOn.getD 0)
     ++ [readingWord s.extr.x1, readingWord s.extr.x2, readingWord s.extr.filter, readingWord s.extr.vapour,
         s.extr.fifth, wordOfBool s.extr.horn, wordOfBool s.extr.beacon])

/-- A transition count, in the low byte of a word. -/
def countWord (c : BitVec 8) : Word :=
  c.setWidth 16

/-- Offsets 160h to 17Fh: the outfeed, the timers and the transition counts. The supervision timer, for which Table 12-7 gives no
unit, stands in milliseconds elapsed (DESIGN CHOICE, log entry 63). -/
def statusOutfeed (s : State) : List Word :=
  row 32
    ([wordOf s.outfeed.state.code, wordOfBool s.outfeed.drive, wordOfBool s.outfeed.stop]
     ++ twoWords (s.modes.idle.getD 0) ++ twoWords s.port.supElapsed
     ++ [wordOfBool s.port.hostLost,
         countWord s.gate.readyCount, countWord s.gate.upstreamCount, countWord s.outfeed.availableCount,
         countWord s.outfeed.readyCount, countWord s.track.entryEye.count, countWord s.track.exitEye.count,
         countWord s.outfeed.sensor.count, countWord s.extr.hornCount, countWord s.extr.beaconCount])

/-- The generation count while a refresh runs: the least odd value greater than the present one (R185). -/
def oddGeneration (g : Word) : Word :=
  if g.getLsbD 0 then g + 2 else g + 1

/-- The generation count after a whole refresh: one higher (R185). -/
def nextGeneration (g : Word) : Word :=
  oddGeneration g + 1

/-- The 512 words of the block as a refresh writes them (Table 12-7). -/
def statusBlock (s : State) : List Word :=
  [nextGeneration s.port.generation] ++ statusModes s ++ statusTrack s ++ row 16 [] ++ statusView s ++ statusLoops s
    ++ [wordOfTemp (s.thermal.inputs.get pyroInput).pv] ++ row 14 [] ++ statusPot s ++ statusFlux s ++ statusAlarms s
    ++ statusExtraction s ++ statusOutfeed s ++ row 128 []

/-- The line clock is written into the header (R188). The words 0009h to 003Fh, not used, are written 0 at power-on reset only
(R186; DESIGN CHOICE, log entry 42). -/
def State.writeClock (s : State) : State :=
  { s with mem := s.mem.writeBlock clockAt (twoWords s.clock.toNat) }

/-- The refresh of the live status block (R185). The generation count goes on from the part's own, which no host write reaches
(R185, R186; DEDUCED, log entry 43). -/
def State.refresh (s : State) : State :=
  { s with
    mem := s.mem.writeBlock Config.statusAt (statusBlock s)
    port := { s.port with generation := nextGeneration s.port.generation } }

/-- The word by whose bit word `j` of the block is written: the low word of a two-word field, which is written in one operation
(R187), and any other word itself. -/
def fieldWord (j : Nat) : Nat :=
  if (j - 1) ∈ Config.statusLowWords then j - 1 else j

/-- The 512 words of the block after a refresh that has been cut short: the odd count, the words written so far, a two-word field
whole or not at all, and the others as they stood (R185, R187). -/
def tornBlock (s : State) (written : BitVec 512) : List Word :=
  (statusBlock s).mapIdx fun j v =>
    if j = 0 then oddGeneration s.port.generation
    else if written.getLsbD (fieldWord j) then v
    else s.mem.read (Config.statusAt + j)

/-- A refresh that a port reset cuts short (R185): it ran only where a status interval end is due at this moment, which is then
taken (DESIGN CHOICE, log entry 52). -/
def State.tearRefresh (s : State) (cut : Option (BitVec 512)) : State :=
  if untilBoundary statusPeriod s.statusAt s.clock = 0 then
    match cut with
    | none => s
    | some written =>
      { s with
        mem := s.mem.writeBlock Config.statusAt (tornBlock s written)
        port := { s.port with generation := oddGeneration s.port.generation }
        statusAt := s.clock }
  else s

/-- The header of a power-on reset, its 64 words (R39, R188). -/
def headerAtPowerOn : List Word :=
  row 64 [partCode, layoutVersion, 1, 1, 0, 0, 0, 0, 0]

/-! ## The register window -/

/-- The eight registers of Table 11-2, PART_ID and POS by half. -/
inductive Register
  | partId (half : Half)
  | mode
  | request
  | notice
  | noticeEn
  | pos (half : Half)
  | hostAlive
  | heatAuth
deriving DecidableEq, Repr

/-- The MODE register (Table 12-5). -/
def modeWord (s : State) : Word :=
  wordOf (s.modes.mode.code + 16 * s.gate.state.code + 256 * s.outfeed.state.code + natIf s.loaded 32768)

/-- The REQUEST register (Table 12-5). -/
def requestWord (p : Port) : Word :=
  wordOf (p.request.code + natIf p.overrun 8 + 16 * p.refusal.code + 256 * p.field.toNat)

/-- A half of a track position. -/
def posHalf (p : Pos) (h : Half) : Word :=
  match h with
  | .lo => p.setWidth 16
  | .hi => (p >>> 16).setWidth 16

/-- The other half. -/
def otherHalf (h : Half) : Half :=
  match h with
  | .lo => .hi
  | .hi => .lo

/-- What a read of a POS half returns, and the latch it leaves (R3). -/
def readPos (s : State) (h : Half) : Word × Option (Half × Word) :=
  match s.port.latch with
  | some (k, v) => if k = h then (v, none) else (posHalf s.track.pos h, some ((otherHalf h), posHalf s.track.pos (otherHalf h)))
  | none => (posHalf s.track.pos h, some ((otherHalf h), posHalf s.track.pos (otherHalf h)))

/-- The value that a read of each register returns (R176, Table 12-5). -/
def readRegister (s : State) (r : Register) : Word :=
  match r with
  | .partId .lo => partCode
  | .partId .hi => revision
  | .mode => modeWord s
  | .request => requestWord s.port
  | .notice => s.port.notices.setWidth 16
  | .noticeEn => s.port.enable.setWidth 16
  | .pos h => (readPos s h).1
  | .hostAlive => 0
  | .heatAuth => if s.thermal.auth then authCode else noAuthCode

end Sys2Proof.Machine
end

