-- ==== Sys2Proof/Machine/Port.lean ====
section
/-! DEFINITION. The request handshake (R177, R178) and the decision of each request by its block (Table 11-4). -/

namespace Sys2Proof.Machine

open Sys2Proof.Config

/-! ## The handshake (R177, R178) -/

/-- The answer to a post: accepted, or refused with a code and a field index. -/
inductive Answer
  | done
  | refused (code : RefusalCode) (field : BitVec 8)
deriving DecidableEq, Repr

/-- A write to REQUEST is a post (R177). -/
def Port.post (p : Port) (code : Word) : Port :=
  { p with request := .busy, posted := some code, overrun := false, refusal := .none, field := 0 }

/-- The answer to a post, with notice REQUEST_DONE (R177). -/
def Port.answer (p : Port) (a : Answer) : Port :=
  match a with
  | .done => ({ p with request := .done, refusal := .none, field := 0 }).notify .requestDone
  | .refused code field => ({ p with request := .refused, refusal := code, field := field }).notify .requestDone

/-- The state after a post is answered, with the NOTICE line re-formed (R177, R184). -/
def State.answer (s : State) (a : Answer) : State :=
  { s with port := (s.port.answer a).formLine }

/-- The port takes the post of `code` (R178): the record's code word must equal it, then the request's block decides. -/
def State.takePost (s : State) (code : Word) (decision : State → Answer × State) : State :=
  if s.mem.read requestAt = code then (decision s).2.answer (decision s).1 else s.answer (.refused .badArgument 0)

/-- A request of `code` (R177, R178): the host's writes to exchange memory, then the post where the port is free, then the
taking. While BUSY the waiting post is taken if it is of this code; a write of another code sets OVERRUN. -/
def State.request (s : State) (code : Word) (writes : List HostWrite) (decision : State → Answer × State) : State :=
  let s1 := { s with mem := hostWrites writes s.mem }
  if s1.port.request = .busy then
    if s1.port.posted = some code then s1.takePost code decision
    else { s1 with port := { s1.port with overrun := true } }
  else ({ s1 with port := s1.port.post code }).takePost code decision

/-- The first argument of the request record (Table 12-3). -/
def argument1 (s : State) : Word :=
  s.mem.read (requestAt + 1)

/-- The second argument. -/
def argument2 (s : State) : Word :=
  s.mem.read (requestAt + 2)

/-- A refusal without effect. -/
def refuse (s : State) (code : RefusalCode) : Answer × State :=
  (.refused code 0, s)

/-- An acceptance with its effect. -/
def accept (t : State) : Answer × State :=
  (.done, t)

/-! ## LOAD_SETUP (R180 to R182) -/

/-- The dwell counts of an alarm point at an accepted setup (R141). -/
def Point.atSetup (p : Point) : Point :=
  { p with warnCount := 0, alarmCount := 0, clearCount := 0 }

/-- The level flags at an accepted setup (R118). -/
def Pot.atSetup (p : Pot) : Pot :=
  { p with high := ⟨false, 0⟩, low := ⟨false, 0⟩, lowlow := ⟨false, 0⟩ }

/-- The port at an accepted setup: loaded, HOST_LOST withdrawn, supervision afresh (R174, R182). -/
def Port.atSetup (p : Port) (c : Setup) : Port :=
  { p with setup := some c, hostLost := false, supElapsed := 0, supRunning := c.supervision != 0 }

/-- The blocks take a new working set (R182). A first sequence from 1 sets E and writes its mirror, also where E holds that value
(R21; DESIGN CHOICE, log entry 54). -/
def State.takeSetup (s : State) (c : Setup) : State :=
  let s1 : State :=
    { s with
      track := { s.track with frac := 0 }
      flux := { s.flux with low := decide (s.flux.counter < c.tankLowMark) }
      pot := s.pot.atSetup
      extr := { s.extr with points := s.extr.points.mapIdx fun _ p => p.atSetup, sampled := false }
      modes := { s.modes with runOn := s.modes.runOn.map fun r => min r (1000 * c.fanRunOn) }
      port := s.port.atSetup c }
  if c.firstSequence = 0 then s1 else s1.setExpected c.firstSequence

/-- LOAD_SETUP (R180). In the STANDING source the NO_DOCKET that stood for want of a setup stays until the next evaluation, which
R26 names and R41 does not ask for here (DESIGN CHOICE, log entry 60). -/
def decideLoadSetup (s : State) : Answer × State :=
  if s.modes.mode ≠ .off then refuse s .wrongMode
  else if !s.track.records.isEmpty then refuse s .busyLine
  else
    match (readSetup s.mem).firstFailing with
    | some k => (.refused .setupInvalid (BitVec.ofNat 8 k), s)
    | none => accept (s.takeSetup (readSetup s.mem)).settle

/-! ## The mode controller's requests (R164, R167 to R169, R171 to R173) -/

/-- START (R164), with the line class of R51. -/
def decideStart (s : State) : Answer × State :=
  if s.modes.mode ≠ .off then refuse s .wrongMode
  else if !s.loaded then refuse s .notLoaded
  else if s.pins.estop || !s.modes.causes.isEmpty then refuse s .causePresent
  else
    let s1 := { s with gate := { s.gate with lineClass := s.nextClass } }
    accept (s1.enterMode .warmup).settle

/-- SHUTDOWN (R169). -/
def decideShutdown (s : State) : Answer × State :=
  match s.modes.mode with
  | .warmup => accept (s.enterMode .cooldown).settle
  | .production => accept (s.enterMode .cooldown).settle
  | .economy => accept (s.enterMode .cooldown).settle
  | .halted => accept (s.enterMode .off).settle
  | .off => refuse s .wrongMode
  | .cooldown => refuse s .wrongMode

/-- STOP (R171). -/
def decideStop (s : State) : Answer × State :=
  if s.modes.mode = .off then refuse s .wrongMode else accept (s.raiseCause .stopRequest).settle

/-- ECONOMY (R167). -/
def decideEconomy (s : State) : Answer × State :=
  if s.modes.mode = .warmup ∨ s.modes.mode = .production then
    if s.track.records.isEmpty then accept (s.enterMode .economy).settle else refuse s .busyLine
  else refuse s .wrongMode

/-- WAKE (R168). -/
def decideWake (s : State) : Answer × State :=
  if s.modes.mode = .economy then accept (s.enterMode .warmup).settle else refuse s .wrongMode

/-! ## CLEAR (R172, R173) -/

/-- The standing condition of a halt cause (Table 10-3). -/
def causeStands (s : State) (c : HaltCause) : Bool :=
  match c with
  | .estop => s.pins.estop
  | .stopRequest => false
  | .boardLost => false
  | .entryJam => s.pins.entryEye
  | .potOvertemp => overtemp s || s.thermal.potPV.isNone
  | .potSensor => (s.thermal.inputs.get potInput).state != .good
  | .potLevel => s.pot.lowlow.set
  | .conveyorSpeed => false
  | .widthDrive => s.pins.limitMin || s.pins.limitMax
  | .authority => false
  | .trackFault => false
  | .vapour => (s.extr.points.get 7).alarming

/-- A JAMMED feeder at CLEAR (R125). The test of the shot conditions that its return to IDLE brings (R121) is made after the whole
CLEAR, so it sees the WARMUP of step 3 where CLEAR ends HALTED (DESIGN CHOICE, log entry 61). -/
def Pot.atClear (p : Pot) : Pot :=
  if p.feeder = .jammed then { p with feeder := .idle, misses := 0, feedTest := true } else p

/-- A zone limit latch stays set at CLEAR (R101): it is released where the input is GOOD below the zone hard limit. -/
def latchStays (s : State) (z : Zone) : Bool :=
  match s.thermal.zonePV z with
  | some v => !(s.loaded && decide (v < s.ws.zoneHard))
  | none => true

/-- The width drive at CLEAR (R60). -/
def Width.atClear (w : Width) (limits : Bool) : Width :=
  if w.state = .fault ∧ limits = false then { w with state := .unreferenced } else w

/-- A LOADING outfeed is stalled: exit eye and end sensor accepted clear (R161). -/
def stalled (s : State) : Bool :=
  s.outfeed.state == .loading && !s.track.exitEye.accepted && !s.outfeed.sensor.accepted

/-- Step 1 of CLEAR: the latched faults whose conditions are gone (R173). -/
def State.releaseFaults (s : State) : State :=
  let s1 : State :=
    { s with
      pot := s.pot.atClear
      flux := { s.flux with pressureFault := s.flux.pressureFault && !s.flux.pressureInBand }
      thermal := { s.thermal with latches := s.thermal.latches.mapIdx fun z l => l && latchStays s z }
      gate := { s.gate with width := s.gate.width.atClear (s.pins.limitMin || s.pins.limitMax) } }
  if stalled s1 then s1.enterEmpty else s1

/-- Step 2 of CLEAR: the causes whose condition is absent leave the set (R172). -/
def State.removeCauses (s : State) : State :=
  { s with modes := { s.modes with causes := s.modes.causes.filter (causeStands s) } }

/-- Step 3 of CLEAR (R173). -/
def State.leaveHalt (s : State) : State :=
  if s.modes.mode = .halted ∧ s.modes.causes.isEmpty then s.enterMode .warmup else s

/-- CLEAR (R173). -/
def decideClear (s : State) : Answer × State :=
  accept s.releaseFaults.removeCauses.leaveHalt.settle

/-! ## The docket unit's requests (R27, R28, R38) -/

/-- The gate stands OPEN or LATE. -/
def offering (s : State) : Bool :=
  s.gate.state == .opened || s.gate.state == .late

/-- SET_SOURCE (R28), IN_USE before BAD_ARGUMENT (log entry 22). A request that names the current standing recipe after that
recipe has become EMPTY or fails its checks is refused, where R28 also accepts a request naming the current source (DESIGN
CHOICE, log entry 35). -/
def decideSetSource (s : State) : Answer × State :=
  if offering s then refuse s .inUse
  else if argument1 s = 0 then
    if s.docket.source = .docket then accept s
    else accept ({ s with docket := { s.docket with source := .docket } }).settleEval
  else if argument1 s = 1 then
    match judgeRecipe s.mem s.port.setup (argument2 s).toNat with
    | .bad => refuse s .badArgument
    | _ =>
      if s.docket.source = .standing (Fin.ofNat 16 (argument2 s).toNat) then accept s
      else
        accept
          ({ s with
              docket := { s.docket with source := .standing (Fin.ofNat 16 (argument2 s).toNat) } }).settleEval
  else refuse s .badArgument

/-- SET_SEQUENCE (R27): E and its mirror take the argument, also where E holds it (R21; DESIGN CHOICE, log entry 54). -/
def decideSetSequence (s : State) : Answer × State :=
  if offering s then refuse s .inUse else accept (s.setExpected (argument1 s)).settleEval

/-- CANCEL_DOCKET (R38). -/
def decideCancelDocket (s : State) : Answer × State :=
  if 63 < (argument1 s).toNat then refuse s .badArgument
  else
    let n : SlotIx := Fin.ofNat 64 (argument1 s).toNat
    if offering s && (s.docket.offer.map (·.slot)) == some n then refuse s .inUse
    else if s.docket.held.contains n then refuse s .inUse
    else if slotState s.mem n = .posted then accept (s.rejectSlot n .cancelled).settle
    else refuse s .notPosted

/-! ## The remaining requests (R71, R77, R148, R179) -/

/-- ACK_ALARMS (R148). -/
def decideAckAlarms (s : State) : Answer × State :=
  if 255 < (argument1 s).toNat then refuse s .badArgument
  else accept (s.acknowledgePoints (argument1 s)).settle

/-- The declared volume: a 32-bit argument, low half first (Table 12-4). -/
def refillVolume (s : State) : Nat :=
  s.mem.read32 (requestAt + 1)

/-- The tank takes a declared volume, and the mirror with it (R70, R71). -/
def State.refill (s : State) (volume : Nat) : State :=
  let s1 := s.setTank volume 0
  { s1 with
    flux := { s1.flux with bound := volume }
    mem := s1.mem.writeBlock mirrorTankAt (twoWords volume) }

/-- FLUX_REFILLED (R71). -/
def decideFluxRefilled (s : State) : Answer × State :=
  if refillVolume s = 0 ∨ tankMax < refillVolume s then refuse s .badArgument
  else if s.flux.tankEmpty then refuse s .causePresent
  else accept (s.refill (refillVolume s)).settle

/-- The purge starts: lane pulses end with their credit, all valves open (R77). -/
def State.startPurge (s : State) (duration : Nat) : State :=
  let s1 := s.cutPulses (fun _ => true) true
  { s1 with flux := { s1.flux with purge := some { remaining := duration, creditedAt := s1.clock } } }

/-- PURGE_FLUXER (R77). -/
def decidePurgeFluxer (s : State) : Answer × State :=
  let d := (argument1 s).toNat
  if d < 100 ∨ 10000 < d then refuse s .badArgument
  else if !s.modes.mode.changesOver then refuse s .wrongMode
  else if s.flux.purge.isSome then refuse s .busyLine
  else if s.track.records.any (inPurgeBand s) then refuse s .busyLine
  else if s.flux.isInhibited then refuse s .causePresent
  else accept (s.startPurge d).settle

/-- CLEAR_TRACK_FLAGS (R179). -/
def decideClearTrackFlags (s : State) : Answer × State :=
  accept { s with track := { s.track with overflow := false, phantom := false } }

end Sys2Proof.Machine
end

