-- ==== Sys2Proof/Machine/Resets.lean ====
section
/-! DEFINITION. The two resets: POWER_ON_RESET and PORT_RESET. -/

namespace Sys2Proof.Machine

open Sys2Proof.Config

/-- What follows either reset at reset exit: the hold set is formed from the conditions present (R41), with the outfeed state that
stands (R162), and an E-STOP input
that is active raises ESTOP (R171, R175). A thermostat contact that reads open raises POT_OVERTEMP at the first status interval
end (R99; DESIGN CHOICE, log entry 46). -/
def State.resetExit (s : State) : State :=
  ({ s with gate := { s.gate with holds := formHolds s, told := s.outfeed.state } }).raiseIf s.pins.estop .estop

/-- Every slot state word is written FREE (R39). -/
def freeSlots (m : Memory) : Memory :=
  allSlots.foldl (fun m n => m.write (slotAt n) 0) m

/-- Exchange memory after power-on reset (R39, R186, R188): the power-up contents, with the header, the slot states and
the live status block written. -/
def powerOnMemory (powerUp : List HostWrite) : Memory :=
  freeSlots (((hostWrites powerUp []).writeBlock 0 headerAtPowerOn).writeBlock Config.statusAt (row statusWords []))

/-- The blocks after power-on reset, with the pins that stand at reset exit. -/
def State.powerOn (s : State) (powerUp : List HostWrite) : State :=
  { State.reset with
    pins := s.pins
    mem := powerOnMemory powerUp
    track := Track.atReset s.pins false
    outfeed := Outfeed.atReset s.pins
    pending := s.pending }

/-- POWER_ON_RESET (R39). The operand gives the words that are unpredictable after power-up. -/
def execPowerOnReset (powerUp : List HostWrite) (s : State) : Host.Outcome State Fault Refusal :=
  .next (s.powerOn powerUp).resetExit

/-- An alarm point after a port reset: its activation count is unchanged (R152). -/
def Point.atPortReset (p : Point) : Point :=
  { Point.atReset with activations := p.activations }

/-- The extraction monitor after a port reset (R138, R152). -/
def Extr.atPortReset (x : Extr) : Extr :=
  { x with
    fan := true, grace1 := some graceTime, grace2 := some graceTime
    points := x.points.mapIdx fun _ p => p.atPortReset
    vapourCount := 0, sampled := false, horn := false, hornCount := 0, beacon := false, beaconCount := 0 }

/-- A slot that reads ADMITTED is closed ABORTED_RESET (R37, R40). -/
def State.abortSlot (s : State) (n : SlotIx) : State :=
  if slotState s.mem n = .admitted then
    { s with
      mem := countClosed (writeResult s.mem n (emptyResult 3 0) 3)
      port := s.port.notify .slotClosed }
  else s

/-- The tank counter restored from its mirror, a value above 50,000,000 taken as 50,000,000 (R69). -/
def mirroredTank (m : Memory) : Nat :=
  min (m.read32 mirrorTankAt) tankMax

/-- The blocks after a port reset, from the memory it preserves (R40 and the reset clauses of the chapters). The mirror is
written with a counter that R69 has capped (DESIGN CHOICE, log entry 21). -/
def State.portRebuild (s : State) : State :=
  { s with
    mem := (s.mem.write resetCauseAt 2).writeBlock mirrorTankAt (twoWords (mirroredTank s.mem))
    track := Track.atReset s.pins true
    docket := Docket.atReset (s.mem.read mirrorEAt)
    gate := Gate.atReset
    outfeed := Outfeed.atReset s.pins
    flux := Flux.atReset (mirroredTank s.mem)
    thermal := Thermal.atReset
    pot := Pot.atReset true
    extr := s.extr.atPortReset
    modes := { Modes.atReset with runOn := some resetRunOn }
    port := { Port.atReset with generation := s.port.generation } }

/-- PORT_RESET (R40): a refresh that runs may be cut short, how far it has come being free (R185; log entry 52); running pulses
are credited to the tank alone (R67), the blocks are rebuilt, ADMITTED slots are closed. -/
def execPortReset (s : State) : Host.Outcome State Fault Refusal :=
  let s1 := s.tearRefresh (refreshCut s.clock s.port.generation)
  .next (allSlots.foldl State.abortSlot (s1.cutPulses (fun _ => true) false).portRebuild).resetExit

end Sys2Proof.Machine
end

