-- ==== Sys2Proof/Machine/TrackEvents.lean ====
section
/-! DEFINITION. The track unit's commands: ENCODER_COUNT, EYE_RAW_CHANGE, EYE_CHANGE_ACCEPTED, ENTRY_JAM, BOARD_LOST,
LATE_LIMIT_REACHED, SPEED_STABLE_SET, CONVEYOR_SPEED. A command that names an event of the part's own changes nothing
where the event's condition does not hold (DESIGN CHOICE, log entry 13). -/

namespace Sys2Proof.Machine

/-- ENCODER_COUNT (R2): discarded while no setup is loaded. -/
def execEncoderCount (dir : Direction) (s : State) : Host.Outcome State Fault Refusal :=
  .next (if s.loaded then (s.countEncoder dir).settle else s)

/-- The raw reading of an eye reaches the pin and the qualifier (R4). -/
def State.rawEye (s : State) (e : Eye) (blocked : Bool) : State :=
  { s with
    pins := s.pins.setEye e blocked
    track := s.track.setEye e ((s.track.eye e).raw blocked s.track.pos) }

/-- The reading drops a pending change. -/
def dropsPending (s : State) (e : Eye) (blocked : Bool) : Bool :=
  (s.track.eye e).pendingAt.isSome && blocked == (s.track.eye e).accepted

/-- What a dropped change had deferred comes at once, wherever P has gone since (R16, R47). A gate evaluation follows the close of
the LATE gate, so that the gate may open again in the same operation (DESIGN CHOICE, log entry 55). -/
def State.afterDrop (s : State) (e : Eye) : State :=
  match e with
  | .entry => if (s.gate.state == .late && s.gate.lateWaits) || lateDue s then s.closeGate.settleEval else s
  | .exit =>
    if s.track.lostWaits && (exitCandidate s.track.records).isSome then s.loseWaiting.settle
    else if (lostCandidate s).isSome then s.loseBoards.settle
    else s

/-- EYE_RAW_CHANGE (R4). -/
def execEyeRawChange (eye : Eye) (blocked : Bool) (s : State) : Host.Outcome State Fault Refusal :=
  .next (if dropsPending s eye blocked then (s.rawEye eye blocked).afterDrop eye else s.rawEye eye blocked)

/-- The change is accepted and its edge delivered with the captured position (R4, R12, R13, R15, R17). -/
def State.acceptEye (s : State) (e : Eye) (p : Pos) : State :=
  let s1 := { s with track := s.track.setEye e (s.track.eye e).accept }
  match e, (s.track.eye e).accepted with
  | .entry, false => s1.entryLeading p
  | .entry, true => s1.entryTrailing p
  | .exit, false => s1.exitLeading p
  | .exit, true => s1.exitTrailing p

/-- EYE_CHANGE_ACCEPTED (R4): P has reached the pending position plus 20 tenths. -/
def execEyeChangeAccepted (eye : Eye) (s : State) : Host.Outcome State Fault Refusal :=
  .next (match eyeDue s eye with | some p => s.acceptEye eye p | none => s)

/-- ENTRY_JAM (R14). -/
def execEntryJam (s : State) : Host.Outcome State Fault Refusal :=
  .next (if jamNow s then (s.markJam.raiseCause .entryJam).settle else s)

/-- BOARD_LOST (R16). -/
def execBoardLost (s : State) : Host.Outcome State Fault Refusal :=
  .next (if (lostCandidate s).isSome then s.loseBoards.settle else s)

/-- LATE_LIMIT_REACHED (R47). -/
def execLateLimitReached (s : State) : Host.Outcome State Fault Refusal :=
  .next (if lateDue s then s.closeGate.settleEval else s)

/-- SPEED_STABLE_SET (R7). -/
def execSpeedStableSet (s : State) : Host.Outcome State Fault Refusal :=
  .next
    (if s.track.stableDue then ({ s with track := { s.track with speedStable := true } }).settle else s)

/-- CONVEYOR_SPEED (R8). -/
def execConveyorSpeed (s : State) : Host.Outcome State Fault Refusal :=
  .next
    (if s.track.speedFault then
      (({ s with track := { s.track with misses := 0 } }).raiseCause .conveyorSpeed).settle
    else s)

end Sys2Proof.Machine
end

