-- ==== Sys2Proof/Machine/Interval.lean ====
section
/-! DEFINITION. STATUS_INTERVAL_END: the samples, computations and raises of a status interval end, the gate evaluation, the
header clock and the refresh, in the order of log entry 7. -/

namespace Sys2Proof.Machine

open Sys2Proof.Config

/-- The pins and exchange memory at the interval end: the sampled levels, and the host's writes (R186). Changes that no row names
reach their pins here: a closing of the thermostat contact (R99; DESIGN CHOICE, log entry 50), a limit switch that reads inactive
again, and a home switch that becomes active outside homing (R58, R60; DESIGN CHOICE, log entry 56). -/
def State.present (s : State) (i : Readings) (writes : List HostWrite) : State :=
  { s with
    pins :=
      { s.pins with
        readings := i, thermostatOpen := i.thermostatOpen, homeActive := i.homeActive
        limitMin := i.limitMin, limitMax := i.limitMax }
    mem := hostWrites writes s.mem }

/-- The clock at the interval end (2.4). -/
def State.toInterval (s : State) : State :=
  let s1 := s.advance (untilBoundary statusPeriod s.statusAt s.clock)
  { s1 with statusAt := s1.clock }

/-- The speed window ends (R6 to R8). -/
def State.sampleSpeed (s : State) : State :=
  { s with track := s.track.window s.ws.countsPerMetre }

/-- The temperature samples (R80 to R82). -/
def State.sampleInputs (s : State) (temps : Tab8 (Option Int)) : State :=
  { s with thermal := { s.thermal with inputs := s.thermal.inputs.mapIdx fun k i => i.sample (temps.get k) } }

/-- Zone `z`'s PV is valid and at or above the zone hard limit (R100). -/
def overZoneLimit (s : State) (z : Zone) : Bool :=
  s.loaded && match s.thermal.zonePV z with | some v => decide (s.ws.zoneHard ≤ v) | none => false

/-- The limit latch of one zone at a sample (R100, R111). -/
def State.latchZone (s : State) (z : Zone) : State :=
  let s1 := if !s.thermal.zoneFaulted z && overZoneLimit s z then s.markZoneFault z else s
  { s1 with
    thermal := { s1.thermal with latches := s1.thermal.latches.set z (s1.thermal.latches.get z || overZoneLimit s z) } }

/-- The limit latches of all zones at a sample (R100). At a second consecutive bad sample the input is still GOOD, and the test
uses the PV formed before, as the test of R99 does (DESIGN CHOICE, log entry 47). -/
def State.latchZones (s : State) : State :=
  allZones.foldl State.latchZone s

/-- The flux pressure sample (R76), judged in band against the working set of the sample. A CLEAR after a LOAD_SETUP uses that
judgement (DESIGN CHOICE, log entry 39). -/
def State.samplePressure (s : State) (pressure : Option Int) : State :=
  { s with
    flux :=
      { s.flux with
        pressureInBand := pressureInBand s.ws pressure
        pressureCount :=
          if !pressureInBand s.ws pressure && s.modulating then s.flux.pressureCount + 1 else 0 } }

/-- The tank low switch sample (R70): empty sets counter, mirror and remainder to 0. -/
def State.sampleTank (s : State) (isEmpty : Bool) : State :=
  let s1 := if isEmpty then s.setTank 0 0 else s
  { s1 with
    flux := { s1.flux with tankEmpty := isEmpty }
    mem := if isEmpty then s1.mem.writeBlock mirrorTankAt (twoWords 0) else s1.mem }

/-- Every sample of the interval end, in the order of log entry 7. -/
def State.sampleAll (s : State) (i : Readings) : State :=
  let s1 := ((s.sampleSpeed.sampleInputs i.temps).latchZones.sampleExtraction i).samplePumps i.chipRpm i.mainRpm
  let s2 := (((s1.sampleLevel i.level).samplePressure i.pressure).sampleTank i.tankEmpty).sampleContact
  { s2 with pot := { s2.pot with feedTest := true } }

/-- The causes that are raised again at each interval end while their condition stands (R83, R99, R119, R171). -/
def State.intervalRaises (s : State) : State :=
  let s1 := s.raiseIf s.pins.estop .estop
  let s2 := s1.raiseIf ((s1.thermal.inputs.get potInput).state == .faulted) .potSensor
  let s3 := s2.raiseIf (overtemp s2) .potOvertemp
  s3.raiseIf s3.pot.lowlow.set .potLevel

/-- STATUS_INTERVAL_END (R185 and the rules of its samples). -/
def execStatusIntervalEnd (inputs : Readings) (writes : List HostWrite) (s : State) :
    Host.Outcome State Fault Refusal :=
  .next ((((s.toInterval.present inputs writes).sampleAll inputs).intervalRaises).settleEval.writeClock.refresh)

end Sys2Proof.Machine
end

