-- ==== Sys2Proof/Machine/ThermalEvents.lean ====
section
/-! DEFINITION. The thermal unit's commands: INPUT_FAULT, INPUT_RECOVERY, INPUT_FILLING_END, HEATER_PERIOD_BOUNDARY,
LOOP_SETTLED, HEATER_OUTPUT_SWITCH, THERMOSTAT_CONTACT_OPEN, HEAT_AUTH_ENABLE, HEAT_AUTH_DISABLE, HEAT_AUTH_INVALID. -/

namespace Sys2Proof.Machine

open Sys2Proof.Config

/-- The thermal unit with an input's record replaced. -/
def Thermal.setInput (t : Thermal) (k : Idx8) (i : Input) : Thermal :=
  { t with inputs := t.inputs.set k i }

/-- The zone of an input, none for the pot and the pyrometer. -/
def inputZone (k : Idx8) : Option Zone :=
  if h : k.val < 6 then some ⟨k.val, h⟩ else none

/-- The zone marks that an input's fault brings, where the zone was not faulted before (R111). -/
def State.markInputFault (s : State) (k : Idx8) : State :=
  match inputZone k with
  | some z => if s.thermal.zoneFaulted z then s else s.markZoneFault z
  | none => s

/-- INPUT_FAULT (R81, R83, R111). -/
def execInputFault (input : Idx8) (s : State) : Host.Outcome State Fault Refusal :=
  .next
    (if (s.thermal.inputs.get input).faultDue then
      let s1 := s.markInputFault input
      let s2 := { s1 with thermal := s1.thermal.setInput input (s1.thermal.inputs.get input).fault }
      (s2.raiseIf (input == potInput) .potSensor).settle
    else s)

/-- The limit latch of the zone of an input whose sample has made it GOOD (R100). The zone was faulted by its input until
this sample and stays faulted by the latch, so no record is marked again (R111). -/
def State.latchInput (s : State) (k : Idx8) : State :=
  match inputZone k with
  | some z =>
    { s with
      thermal := { s.thermal with latches := s.thermal.latches.set z (s.thermal.latches.get z || overZoneLimit s z) } }
  | none => s

/-- The limit tests of the sample that makes an input GOOD: the zone's latch (R100), the pot's POT_OVERTEMP (R99). -/
def State.testLimit (s : State) (k : Idx8) : State :=
  (s.latchInput k).raiseIf (k == potInput && overtemp s) .potOvertemp

/-- INPUT_RECOVERY (R81, R83), with the limit tests of the sample (R99, R100). -/
def execInputRecovery (input : Idx8) (s : State) : Host.Outcome State Fault Refusal :=
  .next
    (if (s.thermal.inputs.get input).recoveryDue then
      (({ s with thermal := s.thermal.setInput input (s.thermal.inputs.get input).recover }).testLimit input).settle
    else s)

/-- INPUT_FILLING_END (R82, R83), with the limit tests of the sample (R99, R100). -/
def execInputFillingEnd (input : Idx8) (s : State) : Host.Outcome State Fault Refusal :=
  .next
    (if (s.thermal.inputs.get input).fillingDue then
      let i := (s.thermal.inputs.get input).endFilling
      let s1 := { s with thermal := s.thermal.setInput input i }
      ((s1.raiseIf (input == potInput && i.state == .faulted) .potSensor).testLimit input).settle
    else s)

/-- The clock at the heater period boundary (2.4, R96). -/
def State.toHeaterBoundary (s : State) : State :=
  let s1 := s.advance (untilBoundary 1000 s.heaterAt s.clock)
  { s1 with heaterAt := s1.clock }

/-- HEATER_PERIOD_BOUNDARY (R96, R110). -/
def execHeaterPeriodBoundary (s : State) : Host.Outcome State Fault Refusal :=
  .next (s.toHeaterBoundary.heaterBoundary.markDeviations).settle

/-- The loop's settle count has reached its settle time (R90). -/
def settledDue (s : State) (l : LoopId) : Bool :=
  s.thermal.auth && (s.thermal.loop l).target != 0 && !(s.thermal.loop l).settled
    && decide (0 < (s.thermal.loop l).count ∧ s.ws.settleTime l ≤ (s.thermal.loop l).count)

/-- The thermal unit with a loop's SETTLED flag set. -/
def Thermal.markSettled (t : Thermal) (l : LoopId) : Thermal :=
  match l with
  | .pot => { t with pot := { t.pot with settled := true } }
  | .zone z => { t with zones := t.zones.set z { t.zones.get z with settled := true } }

/-- LOOP_SETTLED (R90). -/
def execLoopSettled (loop : LoopId) (s : State) : Host.Outcome State Fault Refusal :=
  .next (if settledDue s loop then ({ s with thermal := s.thermal.markSettled loop }).settle else s)

/-- The milliseconds of the running heater period. -/
def periodTime (s : State) : Nat :=
  elapsed s.heaterAt s.clock

/-- Output `k` switches at `m` ms of the period. -/
def switchesAt (s : State) (k : Idx8) (m : Nat) : Bool :=
  decide (periodTime s ≤ m ∧ m < 1000) && outputAt s k m != s.thermal.outputs.get k

/-- The moments of a period at which output `k` may switch: now, the start of its stretch, its end (R97). -/
def switchMoments (s : State) (k : Idx8) : List Nat :=
  [periodTime s, 125 * k.val, (125 * k.val + s.thermal.outputGrant k) % 1000]

/-- The next moment of the running period at which output `k` switches. -/
def nextSwitch (s : State) (k : Idx8) : Option Nat :=
  ((switchMoments s k).filter (switchesAt s k)).min?

/-- HEATER_OUTPUT_SWITCH (R97). -/
def execHeaterOutputSwitch (output : Idx8) (s : State) : Host.Outcome State Fault Refusal :=
  .next
    (match nextSwitch s output with
     | some m =>
       let s1 := s.advance (m - periodTime s)
       { s1 with
         thermal := { s1.thermal with outputs := s1.thermal.outputs.set output (outputAt s output m) } }
     | none => s)

/-- THERMOSTAT_CONTACT_OPEN (R99). -/
def execThermostatContactOpen (s : State) : Host.Outcome State Fault Refusal :=
  .next ((({ s with pins := { s.pins with thermostatOpen := true } }).raiseCause .potOvertemp).settle)

/-- HEAT_AUTH takes a value (R102). -/
def State.setAuth (s : State) (on : Bool) : State :=
  { s with thermal := { s.thermal with auth := on } }

/-- HEAT_AUTH_ENABLE (R102): a write of the value held changes nothing. -/
def execHeatAuthEnable (s : State) : Host.Outcome State Fault Refusal :=
  .next (if s.thermal.auth then s else (s.setAuth true).settle)

/-- HEAT_AUTH_DISABLE (R102). -/
def execHeatAuthDisable (s : State) : Host.Outcome State Fault Refusal :=
  .next (if s.thermal.auth then (s.setAuth false).settle else s)

/-- HEAT_AUTH_INVALID (R102). The two valid codes are not invalid writes, and are no command of this row. -/
def execHeatAuthInvalid (value : Word) (s : State) : Host.Outcome State Fault Refusal :=
  .next
    (if value = authCode ∨ value = noAuthCode then s
    else ((s.setAuth false).raiseCause .authority).settle)

end Sys2Proof.Machine
end

