-- ==== Sys2Proof/Machine/PotEvents.lean ====
section
/-! DEFINITION. The pot unit's commands: LEVEL_INPUT_RECOVERED, LEVEL_FLAG_CHANGE, PUMP_STABLE_SET, FEEDER_SHOT_START,
FEEDER_SHOT_COMPLETE, FEEDER_SETTLING_COMPLETE, SHOT_HISTORY_EXPIRY. -/

namespace Sys2Proof.Machine

open Sys2Proof.Config

/-- The level input is due to return to GOOD (R117). -/
def levelRecoveryDue (s : State) : Bool :=
  !s.pot.levelGood && decide (4 ≤ s.pot.levelRun)

/-- LEVEL_INPUT_RECOVERED (R117): the input is GOOD, and the latest sample's corrected level is judged. -/
def execLevelInputRecovered (s : State) : Host.Outcome State Fault Refusal :=
  .next
    (if levelRecoveryDue s then
      ({ s with
          pot := ({ s.pot with levelGood := true }).judgeLevel s.port.setup s.pot.level
          port := s.port.notify .potEvent }).settle
    else s)

/-- A level flag changes, with its dwell count at 0 (R118). -/
def Level.toggle (l : Level) : Level :=
  { set := !l.set, count := 0 }

/-- The feeder when HIGH becomes set: a running shot ends as complete (R122). -/
def Feeder.atHigh (f : Feeder) (highSet : Bool) : Feeder :=
  match f, highSet with
  | .feeding _, true => .settling settlingTime
  | f, _ => f

/-- The pot after a level flag's change (R118, R122). -/
def Pot.changeFlag (p : Pot) (f : LevelFlag) : Pot :=
  let q := p.setFlag f (p.flag f).toggle
  { q with feeder := q.feeder.atHigh (f == .high && q.high.set) }

/-- LEVEL_FLAG_CHANGE (R118, R119, R122). -/
def execLevelFlagChange (flag : LevelFlag) (s : State) : Host.Outcome State Fault Refusal :=
  .next
    (if flagDue s flag then
      let s1 := { s with pot := s.pot.changeFlag flag, port := s.port.notify .potEvent }
      (s1.raiseIf (flag == .lowlow && s1.pot.lowlow.set) .potLevel).settle
    else s)

/-- The pot with PUMP_STABLE of a wave's pump set. -/
def Pot.markStable (p : Pot) (w : Wave) : Pot :=
  match w with
  | .chip => { p with chip := { p.chip with stable := true } }
  | .main => { p with main := { p.main with stable := true } }

/-- PUMP_STABLE_SET (R128, R132). -/
def execPumpStableSet (wave : Wave) (s : State) : Host.Outcome State Fault Refusal :=
  .next
    (if (s.pot.pump wave).stableDue then ({ s with pot := s.pot.markStable wave }).settle else s)

/-- A shot starts (R121, R124). -/
def Pot.startShot (p : Pot) (now : Clock) (length : Nat) : Pot :=
  { p with
    feeder := .feeding length, shotLevel := some p.level, history := p.history ++ [now], feedTest := false }

/-- FEEDER_SHOT_START (R121): at an interval end or a return of the feeder to IDLE, as `feedTest` notes. -/
def execFeederShotStart (s : State) : Host.Outcome State Fault Refusal :=
  .next
    (if s.pot.feedTest && shotDue s then { s with pot := s.pot.startShot s.clock s.ws.shotLength } else s)

/-- The time until a running shot is complete: at once where HIGH is set (R122). -/
def shotLeft (s : State) : Option Nat :=
  match s.pot.feeder with
  | .feeding r => some (if s.pot.high.set then 0 else r)
  | .idle => none
  | .settling _ => none
  | .jammed => none

/-- FEEDER_SHOT_COMPLETE (R122). -/
def execFeederShotComplete (s : State) : Host.Outcome State Fault Refusal :=
  .next
    (match shotLeft s with
     | some r =>
       let s1 := s.advance r
       { s1 with pot := { s1.pot with feeder := .settling settlingTime } }
     | none => s)

/-- The time until the feeder's settling is complete (R123). -/
def settlingLeft (s : State) : Option Nat :=
  match s.pot.feeder with
  | .settling r => some r
  | .idle => none
  | .feeding _ => none
  | .jammed => none

/-- FEEDER_SETTLING_COMPLETE (R123). -/
def execFeederSettlingComplete (s : State) : Host.Outcome State Fault Refusal :=
  .next
    (match settlingLeft s with
     | some r =>
       let s1 := s.advance r
       let p : Pot := s1.pot.settleFeed s1.ws.minRise
       State.reformLine { s1 with pot := p, port := s1.port.notifyIf (p.feeder == .jammed) .potEvent }
     | none => s)

/-- SHOT_HISTORY_EXPIRY (R124): the oldest entry leaves at its age. -/
def execShotHistoryExpiry (s : State) : Host.Outcome State Fault Refusal :=
  .next
    (match s.pot.history with
     | t :: rest =>
       let s1 := s.advance (shotAge - elapsed t s.clock)
       { s1 with pot := { s1.pot with history := rest } }
     | [] => s)

end Sys2Proof.Machine
end

