-- ==== Sys2Proof/Machine/FluxEvents.lean ====
section
/-! DEFINITION. The flux unit's commands: FLUX_PRESSURE, MODULATION_BOUNDARY, LANE_PULSE_END, PURGE_DURATION_COMPLETE. -/

namespace Sys2Proof.Machine

open Sys2Proof.Config

/-- FLUX_PRESSURE is due (R76). -/
def pressureDue (s : State) : Bool :=
  !s.flux.pressureFault && decide (4 ≤ s.flux.pressureCount)

/-- FLUX_PRESSURE (R76): the latch, with notice FLUX_EVENT. -/
def execFluxPressure (s : State) : Host.Outcome State Fault Refusal :=
  .next
    (if pressureDue s then
      ({ s with
          flux := { s.flux with pressureFault := true }
          port := s.port.notify .fluxEvent }).settle
    else s)

/-- The clock at the modulation boundary (R66). -/
def State.toModulation (s : State) : State :=
  let s1 := s.advance (untilBoundary modPeriod s.modAt s.clock)
  { s1 with modAt := s1.clock }

/-- MODULATION_BOUNDARY (R66, R68, R74, R78): a pulse that has run its whole period ends, a purge is credited, due edges are
consumed, and the lanes open. -/
def execModulationBoundary (s : State) : Host.Outcome State Fault Refusal :=
  .next (s.toModulation.finishPulses.creditPurge.consumeEdges.startPulses).settle

/-- The valve of a lane stays open after its pulse, which has run the whole period and been credited: the boundary of that
moment closes it, where the lane does not open again (R68; DESIGN CHOICE, log entry 53). -/
def State.holdValve (s : State) (lane : Idx8) (u : Pulse) : State :=
  if modPeriod ≤ u.q then
    { s with flux := { s.flux with pulses := s.flux.pulses.set lane (some { u with q := 0 }) } }
  else s

/-- LANE_PULSE_END (R68): the pulse has run its q ms. A valve that a whole period holds open has no pulse to end. -/
def execLanePulseEnd (lane : Idx8) (s : State) : Host.Outcome State Fault Refusal :=
  .next
    (match s.flux.pulses.get lane with
     | some u =>
       if u.q = 0 then s
       else (((s.advance (u.q - elapsed u.start s.clock)).endPulse lane u u.q true).holdValve lane u).settle
     | none => s)

/-- The time a purge still has to run. -/
def purgeTime (s : State) (g : Purge) : Nat :=
  g.remaining - elapsed g.creditedAt s.clock

/-- PURGE_DURATION_COMPLETE (R78). -/
def execPurgeDurationComplete (s : State) : Host.Outcome State Fault Refusal :=
  .next
    (match s.flux.purge with
     | some g => (s.advance (purgeTime s g)).endPurge.settle
     | none => s)

end Sys2Proof.Machine
end

