-- ==== Sys2Proof/Machine/AlarmEvents.lean ====
section
/-! DEFINITION. The extraction monitor's commands: ALARM_ACTIVATION, ALARM_SEVERITY_RISE, ALARM_ESCALATION, ALARM_CLEAR,
VAPOUR_HALT, RUN_ON_TIMER_EXPIRY, START_GRACE_END. -/

namespace Sys2Proof.Machine

/-- ALARM_ACTIVATION (R142 to R144, R147). -/
def execAlarmActivation (point : Idx8) (s : State) : Host.Outcome State Fault Refusal :=
  .next (if activationDue s point then (s.activatePoint point).settle else s)

/-- ALARM_SEVERITY_RISE (R142, R143, R147). -/
def execAlarmSeverityRise (point : Idx8) (s : State) : Host.Outcome State Fault Refusal :=
  .next (if riseDue s point then (s.risePoint point).settle else s)

/-- ALARM_ESCALATION (R145, R147). -/
def execAlarmEscalation (point : Idx8) (s : State) : Host.Outcome State Fault Refusal :=
  .next (if escalationDue s point then (s.risePoint point).settle else s)

/-- ALARM_CLEAR (R146, R147, R151). -/
def execAlarmClear (point : Idx8) (s : State) : Host.Outcome State Fault Refusal :=
  .next (if clearDue s point then (s.clearPoint point).settle else s)

/-- VAPOUR_HALT (R151): 120 interval ends with point 7 active at ALARM. -/
def execVapourHalt (s : State) : Host.Outcome State Fault Refusal :=
  .next (if 120 ≤ s.extr.vapourCount then (s.raiseCause .vapour).settle else s)

/-- RUN_ON_TIMER_EXPIRY (R137, R138, R140). -/
def execRunOnTimerExpiry (s : State) : Host.Outcome State Fault Refusal :=
  .next
    (match s.modes.runOn with
     | some r =>
       let s1 := s.advance r
       ({ s1 with modes := { s1.modes with runOn := none } }).settle
     | none => s)

/-- The extraction monitor with a channel's grace ended. -/
def Extr.endGrace (x : Extr) (h : Channel) : Extr :=
  match h with
  | .x1 => { x with grace1 := none }
  | .x2 => { x with grace2 := none }

/-- START_GRACE_END (R139). -/
def execStartGraceEnd (channel : Channel) (s : State) : Host.Outcome State Fault Refusal :=
  .next
    (match s.extr.grace channel with
     | some r =>
       let s1 := s.advance r
       { s1 with extr := s1.extr.endGrace channel }
     | none => s)

end Sys2Proof.Machine
end

