-- ==== Sys2Proof/Machine/WidthEvents.lean ====
section
/-! DEFINITION. The width drive's commands: WIDTH_MOTION_START, HOMING_COMPLETE, HOMING_TRAVEL_EXCEEDED, WIDTH_MOVE_COMPLETE,
WIDTH_LIMIT_ACTIVE, WIDTH_STEPPER_STEP, HOME_SWITCH_INACTIVE. -/

namespace Sys2Proof.Machine

open Sys2Proof.Config

/-- The drive begins its motion (R57). -/
def State.beginMotion (s : State) : State :=
  { s with gate := { s.gate with width := s.gate.width.begin s.pins.homeActive (namedWidth s) } }

/-- A supervised limit switch that reads active faults the drive (R58, R59). -/
def State.superviseLimit (s : State) : State :=
  if limitDue s then s.faultWidth else s

/-- WIDTH_MOTION_START (R57 to R59). -/
def execWidthMotionStart (s : State) : Host.Outcome State Fault Refusal :=
  .next (if motionDue s then s.beginMotion.superviseLimit.settle else s)

/-- The width position is known: IDLE at 500 tenths (R58). -/
def Width.home (w : Width) : Width :=
  { w with state := .idle, pos := homeWidth, travel := 0 }

/-- HOMING_COMPLETE (R58): the home switch becomes active during the inward leg. -/
def execHomingComplete (s : State) : Host.Outcome State Fault Refusal :=
  .next
    (if homingDone s then
      ({ s with
          pins := { s.pins with homeActive := true }
          gate := { s.gate with width := s.gate.width.home } }).settle
    else s)

/-- HOMING_TRAVEL_EXCEEDED (R58). -/
def execHomingTravelExceeded (s : State) : Host.Outcome State Fault Refusal :=
  .next (if homingExceeded s then s.faultWidth.settle else s)

/-- WIDTH_MOVE_COMPLETE (R59). -/
def execWidthMoveComplete (s : State) : Host.Outcome State Fault Refusal :=
  .next
    (if moveDone s then
      ({ s with gate := { s.gate with width := { s.gate.width with state := .idle } } }).settle
    else s)

/-- The pins with the limit switch of an end active. -/
def Pins.setLimit (p : Pins) (e : RailEnd) : Pins :=
  match e with
  | .minimum => { p with limitMin := true }
  | .maximum => { p with limitMax := true }

/-- WIDTH_LIMIT_ACTIVE (R58, R59): the switch reads active; the drive faults where its motion supervises that end. -/
def execWidthLimitActive (railEnd : RailEnd) (s : State) : Host.Outcome State Fault Refusal :=
  .next
    (let s1 := { s with pins := s.pins.setLimit railEnd }
     if s.gate.width.outward = some (railEnd == .maximum) then s1.faultWidth.settle else s1)

/-- WIDTH_STEPPER_STEP (R58, R59). -/
def execWidthStepperStep (s : State) : Host.Outcome State Fault Refusal :=
  .next { s with gate := { s.gate with width := s.gate.width.step } }

/-- The drive turns inward when the home switch reads inactive during the outward leg (R58). -/
def Width.turnInward (w : Width) : Width :=
  if w.state = .homing true then { w with state := .homing false, travel := 0 } else w

/-- HOME_SWITCH_INACTIVE (R58). -/
def execHomeSwitchInactive (s : State) : Host.Outcome State Fault Refusal :=
  .next
    (let s1 : State :=
       { s with
         pins := { s.pins with homeActive := false }
         gate := { s.gate with width := s.gate.width.turnInward } }
     if limitDue s1 then s1.faultWidth.settle else s1)

end Sys2Proof.Machine
end

