-- ==== Sys2Proof/Machine/LineEvents.lean ====
section
/-! DEFINITION. The commands of the lines and of the mode controller: ESTOP_INPUT_ACTIVE, ESTOP_INPUT_RELEASE,
UPSTREAM_AVAILABLE_CHANGE, END_SENSOR_RAW_CHANGE, END_SENSOR_EVENT, DOWNSTREAM_READY_CHANGE, IDLE_TIMER_EXPIRY,
SUPERVISION_EXPIRED, WARMUP_COMPLETE. -/

namespace Sys2Proof.Machine

open Sys2Proof.Config

/-- ESTOP_INPUT_ACTIVE (R92, R98, R171). -/
def execEstopInputActive (s : State) : Host.Outcome State Fault Refusal :=
  .next ((({ s with pins := { s.pins with estop := true } }).raiseCause .estop).settle)

/-- ESTOP_INPUT_RELEASE (R92): the permit may return; grants stay 0 until the next heater period boundary. -/
def execEstopInputRelease (s : State) : Host.Outcome State Fault Refusal :=
  .next { s with pins := { s.pins with estop := false } }

/-- A new assertion of UPSTREAM_AVAILABLE wakes an ECONOMY line (R168). -/
def State.wakeOn (s : State) (asserted : Bool) : State :=
  if asserted && s.modes.mode == .economy then s.enterMode .warmup else s

/-- UPSTREAM_AVAILABLE_CHANGE (R44, R166, R168). A level that has not changed is no change. -/
def execUpstreamAvailableChange (asserted : Bool) (s : State) : Host.Outcome State Fault Refusal :=
  .next
    (if s.pins.upstream = asserted then s
    else
      (({ s with
          pins := { s.pins with upstream := asserted }
          gate := { s.gate with upstreamCount := s.gate.upstreamCount + 1 } }).wakeOn asserted).settle)

/-- END_SENSOR_RAW_CHANGE (R153). -/
def execEndSensorRawChange (blocked : Bool) (s : State) : Host.Outcome State Fault Refusal :=
  .next
    { s with
      pins := { s.pins with endSensor := blocked }
      outfeed := { s.outfeed with sensor := s.outfeed.sensor.raw blocked s.clock } }

/-- The change of the end sensor is accepted, and its event delivered (R153, R154). -/
def State.acceptSensor (s : State) : State :=
  ({ s with outfeed := { s.outfeed with sensor := s.outfeed.sensor.accept } }).outfeedSensor
    (!s.outfeed.sensor.accepted)

/-- END_SENSOR_EVENT (R153, R154): 20 ms after the pending change began. -/
def execEndSensorEvent (s : State) : Host.Outcome State Fault Refusal :=
  .next
    (match s.outfeed.sensor.pendingAt with
     | some t => (s.advance (sensorTime - elapsed t s.clock)).acceptSensor.settle
     | none => s)

/-- DOWNSTREAM_READY_CHANGE (R157). A level that has not changed is no change. -/
def execDownstreamReadyChange (asserted : Bool) (s : State) : Host.Outcome State Fault Refusal :=
  .next
    (if s.pins.downstream = asserted then s
    else
      ({ s with
          pins := { s.pins with downstream := asserted }
          outfeed := { s.outfeed with readyCount := s.outfeed.readyCount + 1 } }).settle)

/-- The time until the idle timer reaches the idle time. -/
def idleLeft (s : State) : Option Nat :=
  s.modes.idle.map fun e => 1000 * s.ws.idleTime - e

/-- IDLE_TIMER_EXPIRY (R166): the mode becomes ECONOMY. -/
def execIdleTimerExpiry (s : State) : Host.Outcome State Fault Refusal :=
  .next
    (match idleLeft s with
     | some r => if s.modes.mode = .production then ((s.advance r).enterMode .economy).settle else s
     | none => s)

/-- The supervision timer reaches its period (R174). -/
def Port.expire (p : Port) : Port :=
  ({ p with hostLost := true, supRunning := false }).notify .supervisionExpired

/-- SUPERVISION_EXPIRED (R174). -/
def execSupervisionExpired (s : State) : Host.Outcome State Fault Refusal :=
  .next
    (if s.port.supRunning then
      let s1 := s.advance (1000 * s.ws.supervision - s.port.supElapsed)
      ({ s1 with port := s1.port.expire }).settle
    else s)

/-- The width drive is IDLE at the named width (R165). -/
def widthReady (s : State) : Bool :=
  s.gate.width.state == .idle && namedWidth s == some s.gate.width.pos

/-- Every loop is SETTLED as the completion condition asks: the pot, and every zone with a nonzero target (R165). -/
def loopsReady (s : State) : Bool :=
  s.thermal.pot.settled && s.thermal.zones.toList.all fun l => l.target == 0 || l.settled

/-- The WARMUP completion condition (R165). -/
def warmupReady (s : State) : Bool :=
  s.modes.mode == .warmup && s.gate.lineClass.isSome && (s.gate.phase == .none || s.gate.phase == .draining)
    && widthReady s && s.track.ref == namedSpeed s && s.track.speedStable && loopsReady s
    && s.pot.levelGood && !s.pot.low.set && !(s.extr.points.toList.any Point.alarming) && s.thermal.auth

/-- WARMUP_COMPLETE (R165). -/
def execWarmupComplete (s : State) : Host.Outcome State Fault Refusal :=
  .next (if warmupReady s then (s.enterMode .production).settle else s)

end Sys2Proof.Machine
end

