-- ==== Sys2Proof/Machine/Requests.lean ====
section
/-! DEFINITION. The host's requests, one command each (Table 12-4), UNKNOWN_REQUEST and REQUEST_OVERRUN. -/

namespace Sys2Proof.Machine

/-- LOAD_SETUP (R180 to R182). -/
def execLoadSetup (writes : List HostWrite) (s : State) : Host.Outcome State Fault Refusal :=
  .next (s.request 0x0001 writes decideLoadSetup)

/-- START (R164). -/
def execStart (writes : List HostWrite) (s : State) : Host.Outcome State Fault Refusal :=
  .next (s.request 0x0002 writes decideStart)

/-- SHUTDOWN (R169). -/
def execShutdown (writes : List HostWrite) (s : State) : Host.Outcome State Fault Refusal :=
  .next (s.request 0x0003 writes decideShutdown)

/-- STOP (R171). -/
def execStop (writes : List HostWrite) (s : State) : Host.Outcome State Fault Refusal :=
  .next (s.request 0x0004 writes decideStop)

/-- CLEAR (R173). -/
def execClear (writes : List HostWrite) (s : State) : Host.Outcome State Fault Refusal :=
  .next (s.request 0x0005 writes decideClear)

/-- ECONOMY (R167). -/
def execEconomy (writes : List HostWrite) (s : State) : Host.Outcome State Fault Refusal :=
  .next (s.request 0x0006 writes decideEconomy)

/-- WAKE (R168). -/
def execWake (writes : List HostWrite) (s : State) : Host.Outcome State Fault Refusal :=
  .next (s.request 0x0007 writes decideWake)

/-- SET_SOURCE (R28). -/
def execSetSource (writes : List HostWrite) (s : State) : Host.Outcome State Fault Refusal :=
  .next (s.request 0x0008 writes decideSetSource)

/-- SET_SEQUENCE (R27). -/
def execSetSequence (writes : List HostWrite) (s : State) : Host.Outcome State Fault Refusal :=
  .next (s.request 0x0009 writes decideSetSequence)

/-- CANCEL_DOCKET (R38). -/
def execCancelDocket (writes : List HostWrite) (s : State) : Host.Outcome State Fault Refusal :=
  .next (s.request 0x000A writes decideCancelDocket)

/-- ACK_ALARMS (R148). -/
def execAckAlarms (writes : List HostWrite) (s : State) : Host.Outcome State Fault Refusal :=
  .next (s.request 0x000B writes decideAckAlarms)

/-- FLUX_REFILLED (R71). -/
def execFluxRefilled (writes : List HostWrite) (s : State) : Host.Outcome State Fault Refusal :=
  .next (s.request 0x000C writes decideFluxRefilled)

/-- PURGE_FLUXER (R77). -/
def execPurgeFluxer (writes : List HostWrite) (s : State) : Host.Outcome State Fault Refusal :=
  .next (s.request 0x000D writes decidePurgeFluxer)

/-- CLEAR_TRACK_FLAGS (R179). -/
def execClearTrackFlags (writes : List HostWrite) (s : State) : Host.Outcome State Fault Refusal :=
  .next (s.request 0x000E writes decideClearTrackFlags)

/-- A code names a request of Table 12-4. -/
def knownCode (code : Word) : Bool :=
  decide (1 ≤ code.toNat ∧ code.toNat ≤ 14)

/-- A request of no name is refused BAD_ARGUMENT, and no block sees it (R178). -/
def decideUnknown (s : State) : Answer × State :=
  refuse s .badArgument

/-- UNKNOWN_REQUEST (R178). A code that names a request is no command of this row. -/
def execUnknownRequest (code : Word) (writes : List HostWrite) (s : State) : Host.Outcome State Fault Refusal :=
  .next (if knownCode code then s else s.request code writes decideUnknown)

/-- REQUEST_OVERRUN (R177): a write to REQUEST while BUSY is ignored and sets OVERRUN; in any other state the same write is
a post, which then waits to be taken. -/
def execRequestOverrun (code : Word) (s : State) : Host.Outcome State Fault Refusal :=
  .next
    { s with
      port := if s.port.request = .busy then { s.port with overrun := true } else s.port.post code }

end Sys2Proof.Machine
end

