-- ==== Sys2Proof/Machine/Registers.lean ====
section
/-! DEFINITION. The register accesses that have a row of their own: NOTICE_READ, NOTICE_WRITE, NOTICE_EN_WRITE, POS_READ,
HOST_ALIVE_WRITE, IGNORED_REGISTER_WRITE. -/

namespace Sys2Proof.Machine

/-- A read of NOTICE marks every pending bit (R183). -/
def Port.readNotice (p : Port) : Port :=
  { p with marks := p.marks ||| p.notices }

/-- A write of NOTICE clears each read-marked bit written 0, and removes every mark (R183). -/
def Port.writeNotice (p : Port) (value : Word) : Port :=
  { p with notices := p.notices &&& (value.setWidth 11 ||| ~~~p.marks), marks := 0 }

/-- NOTICE_READ (R176, R183). -/
def execNoticeRead (s : State) : Host.Outcome State Fault Refusal :=
  .next { s with port := { s.port.readNotice with data := readRegister s .notice } }

/-- NOTICE_WRITE (R183, R184). -/
def execNoticeWrite (value : Word) (s : State) : Host.Outcome State Fault Refusal :=
  .next { s with port := (s.port.writeNotice value).formLine }

/-- NOTICE_EN_WRITE (R184): bits above the eleven are ignored. -/
def execNoticeEnWrite (value : Word) (s : State) : Host.Outcome State Fault Refusal :=
  .next { s with port := ({ s.port with enable := value.setWidth 11 }).formLine }

/-- POS_READ (R3). -/
def execPosRead (half : Half) (s : State) : Host.Outcome State Fault Refusal :=
  .next { s with port := { s.port with latch := (readPos s half).2, data := (readPos s half).1 } }

/-- HOST_ALIVE_WRITE (R174), of any value: while no setup is loaded it changes nothing. -/
def execHostAliveWrite (_value : Word) (s : State) : Host.Outcome State Fault Refusal :=
  .next
    (if s.loaded then
      ({ s with
          port :=
            { s.port with
              supElapsed := 0, supRunning := s.ws.supervision != 0, hostLost := false } }).settle
    else s)

/-- IGNORED_REGISTER_WRITE (R176): no effect on any state. -/
def execIgnoredRegisterWrite (_reg : ReadOnlyReg) (_value : Word) (s : State) : Host.Outcome State Fault Refusal :=
  .next s

end Sys2Proof.Machine
end

