-- ==== Sys2Proof/Machine/Due.lean ====
section
/-! DEFINITION. The part's own events: which one is due at the present moment (log entry 1), in the order the model takes them
where several are due. -/

namespace Sys2Proof.Machine

open Sys2Proof.Config

/-- The command of a posted code that waits to be taken (R178). -/
def waitingRequest (code : Word) : Instr :=
  match code.toNat with
  | 1 => .loadSetup []
  | 2 => .start []
  | 3 => .shutdown []
  | 4 => .stop []
  | 5 => .clear []
  | 6 => .economy []
  | 7 => .wake []
  | 8 => .setSource []
  | 9 => .setSequence []
  | 10 => .cancelDocket []
  | 11 => .ackAlarms []
  | 12 => .fluxRefilled []
  | 13 => .purgeFluxer []
  | 14 => .clearTrackFlags []
  | _ => .unknownRequest code []

/-- An event with its condition. -/
abbrev Due := Bool × Instr

/-- The waiting post. -/
def duePost (s : State) : List Due :=
  match s.port.posted with
  | some code => [(s.port.request == .busy, waitingRequest code)]
  | none => []

/-- The events of the track and the gate. -/
def dueTrack (s : State) : List Due :=
  [((eyeDue s .entry).isSome, .eyeChangeAccepted .entry), ((eyeDue s .exit).isSome, .eyeChangeAccepted .exit),
   (jamNow s, .entryJam), ((lostCandidate s).isSome, .boardLost), (lateDue s, .lateLimitReached),
   (s.track.speedFault, .conveyorSpeed), (s.track.stableDue, .speedStableSet)]

/-- The events of the temperature inputs and the loops. -/
def dueThermal (s : State) : List Due :=
  (allIdx8.flatMap fun k =>
    [((s.thermal.inputs.get k).faultDue, .inputFault k), ((s.thermal.inputs.get k).recoveryDue, .inputRecovery k),
     ((s.thermal.inputs.get k).fillingDue, .inputFillingEnd k)])
  ++ (settledDue s .pot, .loopSettled .pot) :: allZones.map fun z => (settledDue s (.zone z), .loopSettled (.zone z))

/-- A running time has come to its end. -/
def ended (left : Option Nat) : Bool :=
  left == some 0

/-- The events of the pot unit. -/
def duePot (s : State) : List Due :=
  [(levelRecoveryDue s, .levelInputRecovered),
   (flagDue s .high, .levelFlagChange .high), (flagDue s .low, .levelFlagChange .low),
   (flagDue s .lowlow, .levelFlagChange .lowlow),
   (s.pot.chip.stableDue, .pumpStableSet .chip), (s.pot.main.stableDue, .pumpStableSet .main),
   (ended (shotLeft s), .feederShotComplete), (ended (settlingLeft s), .feederSettlingComplete),
   (shotExpired s, .shotHistoryExpiry), (s.pot.feedTest && shotDue s, .feederShotStart)]

/-- The events of the extraction monitor. Where at one interval end point 7's clear dwell is met and the vapour halt count reaches
120, the clear is taken first, so VAPOUR is not raised (R151; DESIGN CHOICE, log entry 62). -/
def dueAlarms (s : State) : List Due :=
  (allIdx8.flatMap fun k =>
    [(clearDue s k, .alarmClear k), (riseDue s k, .alarmSeverityRise k), (escalationDue s k, .alarmEscalation k),
     (activationDue s k, .alarmActivation k)])
  ++ [(decide (120 ≤ s.extr.vapourCount) && !s.modes.causes.contains .vapour, .vapourHalt),
      (ended s.modes.runOn, .runOnTimerExpiry),
      (ended s.extr.grace1, .startGraceEnd .x1), (ended s.extr.grace2, .startGraceEnd .x2)]

/-- The events of the width drive. -/
def dueWidth (s : State) : List Due :=
  [(s.gate.width.outward == some false && s.pins.limitMin, .widthLimitActive .minimum),
   (s.gate.width.outward == some true && s.pins.limitMax, .widthLimitActive .maximum),
   (homingExceeded s, .homingTravelExceeded), (homingDone s && s.pins.homeActive, .homingComplete),
   (s.gate.width.state == .homing true && !s.pins.homeActive, .homeSwitchInactive),
   (moveDone s, .widthMoveComplete), (motionDue s, .widthMotionStart)]

/-- The end sensor's pending change has lasted its time (R153). -/
def sensorDue (s : State) : Bool :=
  match s.outfeed.sensor.pendingAt with
  | some t => decide (sensorTime ≤ elapsed t s.clock)
  | none => false

/-- The events of the lines and the mode controller. -/
def dueLines (s : State) : List Due :=
  [(sensorDue s, .endSensorEvent),
   (s.modes.mode == .production && ended (idleLeft s), .idleTimerExpiry),
   (s.port.supRunning && decide (1000 * s.ws.supervision ≤ s.port.supElapsed), .supervisionExpired),
   (warmupReady s, .warmupComplete)]

/-- A lane pulse has run its length (R68). -/
def pulseDue (s : State) (lane : Idx8) : Bool :=
  match s.flux.pulses.get lane with
  | some u => decide (0 < u.q ∧ u.q ≤ elapsed u.start s.clock)
  | none => false

/-- The purge has run its duration (R78). -/
def purgeDue (s : State) : Bool :=
  match s.flux.purge with
  | some g => purgeTime s g == 0
  | none => false

/-- The events of the flux unit. -/
def dueFlux (s : State) : List Due :=
  (pressureDue s, .fluxPressure) :: (purgeDue s, .purgeDurationComplete)
    :: allIdx8.map fun lane => (pulseDue s lane, .lanePulseEnd lane)

/-- What the field presents at an interval end of the part's own: the latest readings, and the switches and the thermostat
contact as they stand (R58 to R60, R99; a contact that closes, a switch that no row names: DESIGN CHOICE, log entries 50 and 56). -/
def Pins.present (p : Pins) : Readings :=
  { p.readings with
    thermostatOpen := p.thermostatOpen, homeActive := p.homeActive, limitMin := p.limitMin, limitMax := p.limitMax }

/-- The boundaries of the three grids and the heater outputs at the present moment (2.4, R97). -/
def dueBoundaries (s : State) : List Due :=
  [(untilBoundary statusPeriod s.statusAt s.clock == 0, .statusIntervalEnd s.pins.present []),
   (untilBoundary 1000 s.heaterAt s.clock == 0, .heaterPeriodBoundary),
   (untilBoundary modPeriod s.modAt s.clock == 0, .modulationBoundary)]
  ++ allIdx8.map fun k => (nextSwitch s k == some (periodTime s), .heaterOutputSwitch k)

/-- The first event that is due. -/
def dueNow (s : State) : Option Instr :=
  ((duePost s ++ dueTrack s ++ dueThermal s ++ duePot s ++ dueAlarms s ++ dueWidth s ++ dueLines s ++ dueFlux s
      ++ dueBoundaries s).find? Prod.fst).map Prod.snd

end Sys2Proof.Machine
end

