-- ==== Sys2Proof/Machine/Dispatch.lean ====
section
/-! DEFINITION. The dispatch: one arm per command. -/

namespace Sys2Proof.Machine

def exec (i : Instr) (s : State) : Host.Outcome State Fault Refusal :=
  match i with
  | .powerOnReset powerUp => Sys2Proof.Machine.execPowerOnReset powerUp s
  | .portReset => Sys2Proof.Machine.execPortReset s
  | .encoderCount dir => Sys2Proof.Machine.execEncoderCount dir s
  | .eyeRawChange eye blocked => Sys2Proof.Machine.execEyeRawChange eye blocked s
  | .eyeChangeAccepted eye => Sys2Proof.Machine.execEyeChangeAccepted eye s
  | .entryJam => Sys2Proof.Machine.execEntryJam s
  | .boardLost => Sys2Proof.Machine.execBoardLost s
  | .lateLimitReached => Sys2Proof.Machine.execLateLimitReached s
  | .statusIntervalEnd inputs writes => Sys2Proof.Machine.execStatusIntervalEnd inputs writes s
  | .inputFault input => Sys2Proof.Machine.execInputFault input s
  | .inputRecovery input => Sys2Proof.Machine.execInputRecovery input s
  | .inputFillingEnd input => Sys2Proof.Machine.execInputFillingEnd input s
  | .speedStableSet => Sys2Proof.Machine.execSpeedStableSet s
  | .conveyorSpeed => Sys2Proof.Machine.execConveyorSpeed s
  | .levelInputRecovered => Sys2Proof.Machine.execLevelInputRecovered s
  | .levelFlagChange flag => Sys2Proof.Machine.execLevelFlagChange flag s
  | .pumpStableSet wave => Sys2Proof.Machine.execPumpStableSet wave s
  | .fluxPressure => Sys2Proof.Machine.execFluxPressure s
  | .alarmActivation point => Sys2Proof.Machine.execAlarmActivation point s
  | .alarmSeverityRise point => Sys2Proof.Machine.execAlarmSeverityRise point s
  | .alarmEscalation point => Sys2Proof.Machine.execAlarmEscalation point s
  | .alarmClear point => Sys2Proof.Machine.execAlarmClear point s
  | .vapourHalt => Sys2Proof.Machine.execVapourHalt s
  | .heaterPeriodBoundary => Sys2Proof.Machine.execHeaterPeriodBoundary s
  | .loopSettled loop => Sys2Proof.Machine.execLoopSettled loop s
  | .heaterOutputSwitch output => Sys2Proof.Machine.execHeaterOutputSwitch output s
  | .modulationBoundary => Sys2Proof.Machine.execModulationBoundary s
  | .lanePulseEnd lane => Sys2Proof.Machine.execLanePulseEnd lane s
  | .purgeDurationComplete => Sys2Proof.Machine.execPurgeDurationComplete s
  | .feederShotStart => Sys2Proof.Machine.execFeederShotStart s
  | .feederShotComplete => Sys2Proof.Machine.execFeederShotComplete s
  | .feederSettlingComplete => Sys2Proof.Machine.execFeederSettlingComplete s
  | .shotHistoryExpiry => Sys2Proof.Machine.execShotHistoryExpiry s
  | .widthMotionStart => Sys2Proof.Machine.execWidthMotionStart s
  | .homingComplete => Sys2Proof.Machine.execHomingComplete s
  | .homingTravelExceeded => Sys2Proof.Machine.execHomingTravelExceeded s
  | .widthMoveComplete => Sys2Proof.Machine.execWidthMoveComplete s
  | .widthLimitActive railEnd => Sys2Proof.Machine.execWidthLimitActive railEnd s
  | .thermostatContactOpen => Sys2Proof.Machine.execThermostatContactOpen s
  | .estopInputActive => Sys2Proof.Machine.execEstopInputActive s
  | .estopInputRelease => Sys2Proof.Machine.execEstopInputRelease s
  | .upstreamAvailableChange asserted => Sys2Proof.Machine.execUpstreamAvailableChange asserted s
  | .endSensorRawChange blocked => Sys2Proof.Machine.execEndSensorRawChange blocked s
  | .endSensorEvent => Sys2Proof.Machine.execEndSensorEvent s
  | .downstreamReadyChange asserted => Sys2Proof.Machine.execDownstreamReadyChange asserted s
  | .idleTimerExpiry => Sys2Proof.Machine.execIdleTimerExpiry s
  | .runOnTimerExpiry => Sys2Proof.Machine.execRunOnTimerExpiry s
  | .startGraceEnd channel => Sys2Proof.Machine.execStartGraceEnd channel s
  | .supervisionExpired => Sys2Proof.Machine.execSupervisionExpired s
  | .warmupComplete => Sys2Proof.Machine.execWarmupComplete s
  | .loadSetup writes => Sys2Proof.Machine.execLoadSetup writes s
  | .start writes => Sys2Proof.Machine.execStart writes s
  | .shutdown writes => Sys2Proof.Machine.execShutdown writes s
  | .stop writes => Sys2Proof.Machine.execStop writes s
  | .clear writes => Sys2Proof.Machine.execClear writes s
  | .economy writes => Sys2Proof.Machine.execEconomy writes s
  | .wake writes => Sys2Proof.Machine.execWake writes s
  | .setSource writes => Sys2Proof.Machine.execSetSource writes s
  | .setSequence writes => Sys2Proof.Machine.execSetSequence writes s
  | .cancelDocket writes => Sys2Proof.Machine.execCancelDocket writes s
  | .ackAlarms writes => Sys2Proof.Machine.execAckAlarms writes s
  | .fluxRefilled writes => Sys2Proof.Machine.execFluxRefilled writes s
  | .purgeFluxer writes => Sys2Proof.Machine.execPurgeFluxer writes s
  | .clearTrackFlags writes => Sys2Proof.Machine.execClearTrackFlags writes s
  | .unknownRequest code writes => Sys2Proof.Machine.execUnknownRequest code writes s
  | .requestOverrun code => Sys2Proof.Machine.execRequestOverrun code s
  | .noticeRead => Sys2Proof.Machine.execNoticeRead s
  | .noticeWrite value => Sys2Proof.Machine.execNoticeWrite value s
  | .noticeEnWrite value => Sys2Proof.Machine.execNoticeEnWrite value s
  | .posRead half => Sys2Proof.Machine.execPosRead half s
  | .hostAliveWrite value => Sys2Proof.Machine.execHostAliveWrite value s
  | .heatAuthEnable => Sys2Proof.Machine.execHeatAuthEnable s
  | .heatAuthDisable => Sys2Proof.Machine.execHeatAuthDisable s
  | .heatAuthInvalid value => Sys2Proof.Machine.execHeatAuthInvalid value s
  | .ignoredRegisterWrite reg value => Sys2Proof.Machine.execIgnoredRegisterWrite reg value s
  | .widthStepperStep => Sys2Proof.Machine.execWidthStepperStep s
  | .homeSwitchInactive => Sys2Proof.Machine.execHomeSwitchInactive s

end Sys2Proof.Machine
end

