-- ==== Sys2Proof/Safety.lean ====
section
/-! DEFINITION. What holds at every moment of a run: the spec's rules about the whole machine, each as a property of the state;
and what the consequences of a step (`State.settle`) never touch. -/

namespace Sys2Proof.Machine

open Sys2Proof.Config

/-! ## What the consequences of a step leave alone -/

/-- A word of exchange memory that no consequence of a step writes: not the E mirror, the tank mirror or the closed-slot count
of the header, and not a slot's state word or its result words 16 to 34 (Tables 12-2 and 12-9). -/
def quietWord (a : Nat) : Prop :=
  (a < 3 ∨ 6 < a) ∧ (a < 0x1000 ∨ (1 ≤ a % 64 ∧ a % 64 < 16) ∨ 35 ≤ a % 64)

/-- `t` is a state that the consequences of a step may make of `s`: everything that no re-forming rule names is as in `s`. -/
structure Keeps (s t : State) : Prop where
  /-- The pins, the clock and the queue are untouched. -/
  pins : t.pins = s.pins
  clock : t.clock = s.clock
  statusAt : t.statusAt = s.statusAt
  heaterAt : t.heaterAt = s.heaterAt
  modAt : t.modAt = s.modAt
  pending : t.pending = s.pending
  /-- The track unit, but for the reference, what depends on it, and the flux, incomplete mask and flags of the records. -/
  trackPos : t.track.pos = s.track.pos
  trackFrac : t.track.frac = s.track.frac
  trackEntryEye : t.track.entryEye = s.track.entryEye
  trackExitEye : t.track.exitEye = s.track.exitEye
  trackNet : t.track.net = s.track.net
  trackShortWindow : t.track.shortWindow = s.track.shortWindow
  trackMeasured : t.track.measured = s.track.measured
  trackOrdinal : t.track.ordinal = s.track.ordinal
  trackOwner : t.track.owner = s.track.owner
  trackOverflow : t.track.overflow = s.track.overflow
  trackPhantom : t.track.phantom = s.track.phantom
  trackLastTrail : t.track.lastTrail = s.track.lastTrail
  /-- The docket unit's source and held slots; the handover's transition counts; the end sensor. -/
  docketSource : t.docket.source = s.docket.source
  docketHeld : t.docket.held = s.docket.held
  gateUpstreamCount : t.gate.upstreamCount = s.gate.upstreamCount
  outfeedSensor : t.outfeed.sensor = s.outfeed.sensor
  outfeedReadyCount : t.outfeed.readyCount = s.outfeed.readyCount
  /-- The flux unit, but for its lists, its pulses, the purge, the tank and the inhibit. -/
  fluxDuties : t.flux.duties = s.flux.duties
  fluxTankEmpty : t.flux.tankEmpty = s.flux.tankEmpty
  fluxBound : t.flux.bound = s.flux.bound
  fluxPressureFault : t.flux.pressureFault = s.flux.pressureFault
  fluxPressureCount : t.flux.pressureCount = s.flux.pressureCount
  fluxPressureInBand : t.flux.pressureInBand = s.flux.pressureInBand
  /-- The temperature inputs, the limit latches, HEAT_AUTH and the ramp; of a loop its integral, its requests and its previous grant. -/
  thermalInputs : t.thermal.inputs = s.thermal.inputs
  thermalLatches : t.thermal.latches = s.thermal.latches
  thermalAuth : t.thermal.auth = s.thermal.auth
  thermalRamp : t.thermal.ramp = s.thermal.ramp
  thermalPotSp : t.thermal.pot.sp = s.thermal.pot.sp
  thermalPotIntegral : t.thermal.pot.integral = s.thermal.pot.integral
  thermalPotRequest : t.thermal.pot.request = s.thermal.pot.request
  thermalPotPrevRequest : t.thermal.pot.prevRequest = s.thermal.pot.prevRequest
  thermalPotPrevGrant : t.thermal.pot.prevGrant = s.thermal.pot.prevGrant
  thermalPotLimited : t.thermal.pot.limited = s.thermal.pot.limited
  /-- The level, its flags and the shots; of a pump its measured speed. -/
  potLevelGood : t.pot.levelGood = s.pot.levelGood
  potLevelRun : t.pot.levelRun = s.pot.levelRun
  potLevel : t.pot.level = s.pot.level
  potHigh : t.pot.high = s.pot.high
  potLow : t.pot.low = s.pot.low
  potLowlow : t.pot.lowlow = s.pot.lowlow
  potShotLevel : t.pot.shotLevel = s.pot.shotLevel
  potMisses : t.pot.misses = s.pot.misses
  potHistory : t.pot.history = s.pot.history
  potFeedTest : t.pot.feedTest = s.pot.feedTest
  potShortWindow : t.pot.shortWindow = s.pot.shortWindow
  potChipMeasured : t.pot.chip.measured = s.pot.chip.measured
  potMainMeasured : t.pot.main.measured = s.pot.main.measured
  /-- The extraction readings, the vapour halt count and the note of a sample. -/
  extrX1 : t.extr.x1 = s.extr.x1
  extrX2 : t.extr.x2 = s.extr.x2
  extrFilter : t.extr.filter = s.extr.filter
  extrVapour : t.extr.vapour = s.extr.vapour
  extrFifth : t.extr.fifth = s.extr.fifth
  extrFeedback1 : t.extr.feedback1 = s.extr.feedback1
  extrFeedback2 : t.extr.feedback2 = s.extr.feedback2
  extrVapourCount : t.extr.vapourCount = s.extr.vapourCount
  extrSampled : t.extr.sampled = s.extr.sampled
  /-- The halt causes. -/
  modesCauses : t.modes.causes = s.modes.causes
  /-- The port, but for the notices and the line. -/
  portSetup : t.port.setup = s.port.setup
  portRequest : t.port.request = s.port.request
  portPosted : t.port.posted = s.port.posted
  portRefusal : t.port.refusal = s.port.refusal
  portField : t.port.field = s.port.field
  portOverrun : t.port.overrun = s.port.overrun
  portEnable : t.port.enable = s.port.enable
  portLatch : t.port.latch = s.port.latch
  portSupRunning : t.port.supRunning = s.port.supRunning
  portSupElapsed : t.port.supElapsed = s.port.supElapsed
  portHostLost : t.port.hostLost = s.port.hostLost
  portGeneration : t.port.generation = s.port.generation
  portData : t.port.data = s.port.data
  /-- The records, in their order, but for flux, incomplete mask and flags. -/
  trackRecords :
    t.track.records.map (fun r => { r with flux := 0, incomplete := 0, flags := 0 }) =
      s.track.records.map (fun r => { r with flux := 0, incomplete := 0, flags := 0 })
  /-- Of a zone's loop, its integral, its requests, its previous grant and its BUDGET_LIMITED mark. -/
  zones : ∀ z : Zone,
    (t.thermal.zones.get z).integral = (s.thermal.zones.get z).integral ∧
    (t.thermal.zones.get z).request = (s.thermal.zones.get z).request ∧
    (t.thermal.zones.get z).prevRequest = (s.thermal.zones.get z).prevRequest ∧
    (t.thermal.zones.get z).prevGrant = (s.thermal.zones.get z).prevGrant ∧
    (t.thermal.zones.get z).limited = (s.thermal.zones.get z).limited
  /-- Exchange memory, but for the words that a close, a new E or a tank credit writes. -/
  memory : ∀ a, quietWord a → t.mem.read a = s.mem.read a
  /-- The canonical form of memory. -/
  memoryForm : s.mem.wf → t.mem.wf

/-! ## Words of the statements -/

/-- A write to REQUEST is a post that is taken: the port is free, and the code word of the request record, after the host's
writes, is the written code (R177, R178; that the row carries the writes and takes the post is log entries 5 and 14). -/
def Posts (s : State) (code : Word) (ws : List HostWrite) : Prop :=
  s.port.request ≠ .busy ∧ (hostWrites ws s.mem).read 0x0040 = code

/-- The state in which the block of a taken post decides: the host's writes made, the request BUSY (R177). -/
def State.withPost (s : State) (code : Word) (ws : List HostWrite) : State :=
  { s with mem := hostWrites ws s.mem, port := s.port.post code }

/-- A qualifier's pending change at `p` has travelled its twenty tenths (R4). -/
def EyeReady (s : State) (e : Eye) (p : Pos) : Prop :=
  (s.track.eye e).pendingAt = some p ∧ atOrAfter s.track.pos (p + 20) = true

/-- The host's memory writes that a command carries (log entry 5). -/
def carriedWrites (c : Instr) : List HostWrite :=
  match c with
  | .powerOnReset ws => ws
  | .statusIntervalEnd _ ws => ws
  | .loadSetup ws => ws
  | .start ws => ws
  | .shutdown ws => ws
  | .stop ws => ws
  | .clear ws => ws
  | .economy ws => ws
  | .wake ws => ws
  | .setSource ws => ws
  | .setSequence ws => ws
  | .cancelDocket ws => ws
  | .ackAlarms ws => ws
  | .fluxRefilled ws => ws
  | .purgeFluxer ws => ws
  | .clearTrackFlags ws => ws
  | .unknownRequest _ ws => ws
  | _ => []

/-- The code of a request of Table 12-4. -/
def requestCode (c : Instr) : Option Word :=
  match c with
  | .loadSetup _ => some 1
  | .start _ => some 2
  | .shutdown _ => some 3
  | .stop _ => some 4
  | .clear _ => some 5
  | .economy _ => some 6
  | .wake _ => some 7
  | .setSource _ => some 8
  | .setSequence _ => some 9
  | .cancelDocket _ => some 10
  | .ackAlarms _ => some 11
  | .fluxRefilled _ => some 12
  | .purgeFluxer _ => some 13
  | .clearTrackFlags _ => some 14
  | _ => none

/-- The notice is pending (R183). -/
def Pending (s : State) (n : Notice) : Prop :=
  s.port.notices.getLsbD n.bit = true

/-- R170: what the raise of a halt cause in `s` leaves in `t`: a cause already in the set changes nothing; otherwise it joins,
notice HALTED is pending, and a line that ran is HALTED. -/
structure Halts (s t : State) (c : HaltCause) : Prop where
  causes : t.modes.causes = if c ∈ s.modes.causes then s.modes.causes else s.modes.causes ++ [c]
  mode : s.modes.mode.runs = true → c ∉ s.modes.causes → t.modes.mode = .halted
  notice : c ∉ s.modes.causes → Pending t .halted

/-- The state with the halt-cause set of `t`: the frame of a command that may raise a cause. -/
def State.causesOf (s t : State) : State :=
  { s with modes := { s.modes with causes := t.modes.causes } }

/-- What a step of P or a close leaves of a record: who it is and where it lies. -/
def Record.place (r : Record) : BitVec 16 × Origin × Option Binding × Pos × Option Pos × Stage :=
  (r.ordinal, r.origin, r.binding, r.lead, r.trail, r.stage)

/-! ## The rules about the whole machine -/

/-- R5: the reference is the named speed in WARMUP, PRODUCTION and COOLDOWN with a line class and no stop request (of the
outfeed, of the width drive, or the wave-stable wait), and 0 in every other case. -/
def ReferenceFormed (s : State) : Prop :=
  s.track.ref =
    if (s.modes.mode = .warmup ∨ s.modes.mode = .production ∨ s.modes.mode = .cooldown) ∧ s.gate.lineClass ≠ none
        ∧ s.outfeed.stop = false ∧ s.gate.width.inMotion = false ∧ s.pot.drop = .none then
      (s.gate.namedClass.map (·.speed)).getD 0
    else 0

/-- R127: a pump's reference is its target, and 0 while the wave drop is HELD. -/
def PumpsFormed (s : State) : Prop :=
  ∀ w : Wave, (s.pot.pump w).ref = if s.pot.drop = .held then 0 else (s.pot.pump w).target

/-- R92: the heating permit is absent. -/
def NotPermitted (s : State) : Prop :=
  s.thermal.auth = false ∨ s.modes.mode = .off ∨ s.pins.estop = true

/-- R98: a cut of the pot's outputs stands: its input is not GOOD, POT_OVERTEMP stands, or the line is HALTED with one of the
three causes. -/
def PotCut (s : State) : Prop :=
  (s.thermal.inputs.get potInput).state ≠ .good ∨ overtemp s = true ∨
    (s.modes.mode = .halted ∧
      (.estop ∈ s.modes.causes ∨ .potOvertemp ∈ s.modes.causes ∨ .potSensor ∈ s.modes.causes))

/-- R98: a cut of a zone's output stands: the zone is faulted, by its input or its limit latch. -/
def ZoneCut (s : State) (z : Zone) : Prop :=
  (s.thermal.inputs.get (zoneInput z)).state ≠ .good ∨ s.thermal.latches.get z = true

/-- R92 and R98: where heating is not permitted, or a loop's fault stands, its grant is 0 and its outputs are off. -/
structure HeatersCut (s : State) : Prop where
  permit : NotPermitted s →
    s.thermal.pot.grant = 0 ∧ (∀ z, (s.thermal.zones.get z).grant = 0) ∧ ∀ k, s.thermal.outputs.get k = false
  pot : PotCut s → s.thermal.pot.grant = 0 ∧ s.thermal.outputs.get 0 = false ∧ s.thermal.outputs.get 1 = false
  zone : ∀ z, ZoneCut s z → (s.thermal.zones.get z).grant = 0 ∧ s.thermal.outputs.get (zoneOutput z) = false

/-- The power that the grants stand for, in milliwatts: the sum over the eight outputs of grant times rating (R95). -/
def grantedPower (s : State) : Nat :=
  (allIdx8.map fun k => s.thermal.outputGrant k * s.ws.rating k).sum

/-- R95: the granted power is at most the budget. -/
def WithinBudget (s : State) : Prop :=
  grantedPower s ≤ 1000 * s.ws.budget

/-- The range rules of one loop (R87, R88, R95). -/
def Loop.InRange (l : Loop) : Prop :=
  l.grant ≤ l.request ∧ l.request ≤ 1000 ∧ 0 ≤ l.integral ∧ l.integral ≤ 100000

/-- Every loop lies in range. -/
def LoopsInRange (s : State) : Prop :=
  s.thermal.pot.InRange ∧ ∀ z, (s.thermal.zones.get z).InRange

/-- R170: in a running mode the halt-cause set is empty. -/
def HaltFormed (s : State) : Prop :=
  s.modes.mode.runs = true → s.modes.causes = []

/-- R33, R44, R45 and R47: ENTRY_READY exactly in OPEN, the hold set empty in OPEN, a late limit exactly in LATE, an offer
exactly in OPEN and LATE. -/
structure GateFormed (s : State) : Prop where
  ready : s.gate.ready = true ↔ s.gate.state = .opened
  holds : s.gate.state = .opened → s.gate.holds = []
  late : s.gate.lateLimit ≠ none ↔ s.gate.state = .late
  offer : s.docket.offer ≠ none ↔ s.gate.state = .opened ∨ s.gate.state = .late

/-- R137 and R138: the fans are commanded on in every mode but OFF, and in OFF while the run-on timer runs; the run-on timer
runs in OFF only. -/
structure FansFormed (s : State) : Prop where
  fan : s.extr.fan = true ↔ s.modes.mode ≠ .off ∨ s.modes.runOn ≠ none
  runOn : s.modes.runOn ≠ none → s.modes.mode = .off

/-- R149: the horn sounds exactly while a point is ACTIVE_UNACK at ALARM, the beacon while a point is active. -/
structure AnnunciatorsFormed (s : State) : Prop where
  horn : s.extr.horn = true ↔
    ∃ k, (s.extr.points.get k).ann = .activeUnack ∧ (s.extr.points.get k).sev = .alarm
  beacon : s.extr.beacon = true ↔
    ∃ k, (s.extr.points.get k).ann = .activeUnack ∨ (s.extr.points.get k).ann = .activeAck

/-- R155, R156 and R158: BOARD_AVAILABLE_OUT, the drive command, and no stop request in EMPTY. Outfeed motion is permitted in
every mode but OFF and HALTED. -/
structure OutfeedFormed (s : State) : Prop where
  available : s.outfeed.available = true ↔
    (s.outfeed.state = .holding ∨ s.outfeed.state = .delivering) ∧ s.modes.mode ≠ .off ∧ s.modes.mode ≠ .halted
  drive : s.outfeed.drive = true ↔
    (s.modes.mode ≠ .off ∧ s.modes.mode ≠ .halted) ∧
      (s.outfeed.state = .delivering ∨ (s.outfeed.state = .empty ∧ s.track.ref ≠ 0) ∨
        (s.outfeed.state = .loading ∧ (s.track.exitEye.accepted = false ∨ s.track.ref ≠ 0)))
  stop : s.outfeed.state = .empty → s.outfeed.stop = false

/-- R158: the next board has come up to the exit: no record is EXITING, and the oldest lies at or beyond X − hold margin. -/
def NextBoardNear (s : State) : Prop :=
  (∀ r ∈ s.track.records, r.stage ≠ .exiting) ∧
    ∃ r, s.track.records.head? = some r ∧ s.ws.exitX - s.ws.holdMargin ≤ relativeFrom s.track.pos r.lead

/-- R158, first condition: the stop request stands where the next board has come up to an occupied outfeed. -/
def NextBoardHeld (s : State) : Prop :=
  s.outfeed.state ≠ .empty → NextBoardNear s → s.outfeed.stop = true

/-- R158: what the command `c`, no reset, does to the stop request from `s` to `t`. A raised one stands until the outfeed enters
EMPTY, from where a board at the exit eye takes it on to LOADING, with the test of the first condition; a change that leaves a
held board's tail at the exit eye raises it (the second condition); and it is raised by the two conditions alone (within an
encoder count at any of its tenths, as the statement of that command says). -/
structure StopRequestStep (c : Instr) (s t : State) : Prop where
  stands : s.outfeed.stop = true →
    t.outfeed.stop = true ∨ t.outfeed.state = .empty ∨ (t.outfeed.state = .loading ∧ s.outfeed.state ≠ .loading)
  reloaded : s.outfeed.state = .holding ∨ s.outfeed.state = .delivering → t.outfeed.state = .loading →
    (t.outfeed.stop = true ↔ NextBoardNear t)
  tail : t.outfeed.state = .holding → t.track.exitEye.accepted = true →
    s.outfeed.state ≠ .holding ∨ s.track.exitEye.accepted = false → t.outfeed.stop = true
  raised : (∀ d, c ≠ .encoderCount d) → s.outfeed.stop = false → t.outfeed.stop = true →
    NextBoardNear t ∨
      ((t.outfeed.state = .holding ∨ t.outfeed.state = .delivering) ∧ t.track.exitEye.accepted = true)

/-- R184: the NOTICE line is asserted exactly while some bit is both pending and enabled. -/
def NoticeLineFormed (s : State) : Prop :=
  s.port.line = true ↔ ∃ k : Fin 11, s.port.notices.getLsbD k = true ∧ s.port.enable.getLsbD k = true

/-- R72: an inhibit reason stands exactly while its condition of Table 4-2 holds. -/
structure InhibitFormed (s : State) : Prop where
  extraction : .extraction ∈ s.flux.inhibit ↔
    (s.extr.points.get 0).sev = .alarm ∨ (s.extr.points.get 2).sev = .alarm ∨ (s.extr.points.get 5).sev = .alarm
  vapour : .vapour ∈ s.flux.inhibit ↔ (s.extr.points.get 7).sev = .alarm
  pressure : .pressure ∈ s.flux.inhibit ↔ s.flux.pressureFault = true
  tank : .tank ∈ s.flux.inhibit ↔ s.flux.counter = 0
  mode : .mode ∈ s.flux.inhibit ↔
    s.modes.mode = .halted ∨ s.modes.mode = .off ∨ s.modes.mode = .economy

/-- R166, R167 and R174: when the idle timer runs, when the wake arm is held, and when the supervision timer may run. -/
structure TimersFormed (s : State) : Prop where
  idle : s.modes.idle ≠ none ↔
    s.modes.mode = .production ∧ s.track.records = [] ∧ s.pins.upstream = false ∧ s.ws.idleTime ≠ 0
  wakeArm : s.modes.wakeArm ≠ none ↔ s.modes.mode = .economy
  supervision : s.port.supRunning = true → s.port.hostLost = false ∧ s.ws.supervision ≠ 0

/-! ### The mode and the notices -/

/-- R165: the WARMUP completion condition. -/
structure WarmupMet (s : State) : Prop where
  lineClass : s.gate.lineClass ≠ none
  phase : s.gate.phase = .none ∨ s.gate.phase = .draining
  width : s.gate.width.state = .idle ∧ s.gate.namedClass.map (·.width) = some s.gate.width.pos
  speed : s.track.ref = (s.gate.namedClass.map (·.speed)).getD 0 ∧ s.track.speedStable = true
  loops : s.thermal.pot.settled = true ∧
    ∀ z, (s.thermal.zones.get z).target = 0 ∨ (s.thermal.zones.get z).settled = true
  level : s.pot.levelGood = true ∧ s.pot.low.set = false
  alarms : ∀ k, (s.extr.points.get k).sev ≠ .alarm
  auth : s.thermal.auth = true

/-- R169: the in-flight list is empty and the outfeed EMPTY. -/
def MachineEmpty (s : State) : Prop :=
  s.track.records = [] ∧ s.outfeed.state = .empty

/-- R167 and R169: no COOLDOWN stands with an empty machine, no PRODUCTION with HOST_LOST and an empty list. -/
structure ModeStands (s : State) : Prop where
  cooldown : s.modes.mode = .cooldown → ¬ MachineEmpty s
  production : s.modes.mode = .production → s.port.hostLost = true → s.track.records ≠ []

/-- R163: the commands and conditions on which the command `c`, no reset, may take the line from mode `a` in `s` to another mode
`b` in `t`; two transitions of the table may fall into one command, where the first meets the condition of the second. -/
def ModeMay (c : Instr) (s t : State) (a b : Mode) : Prop :=
  match a, b with
  | .off, .warmup => (∃ ws, c = .start ws) ∧ s.loaded = true ∧ s.pins.estop = false ∧ s.modes.causes = []
  | .warmup, .production => c = .warmupComplete ∧ WarmupMet s
  | .warmup, .economy =>
    t.track.records = [] ∧
      ((∃ ws, c = .economy ws) ∨ (c = .warmupComplete ∧ WarmupMet s ∧ t.port.hostLost = true))
  | .production, .economy =>
    (c = .idleTimerExpiry ∧ s.modes.idle ≠ none) ∨
      (t.track.records = [] ∧ ((∃ ws, c = .economy ws) ∨ t.port.hostLost = true))
  | .economy, .warmup => (∃ ws, c = .wake ws) ∨ (c = .upstreamAvailableChange true ∧ s.pins.upstream = false)
  | .warmup, .cooldown => ∃ ws, c = .shutdown ws
  | .production, .cooldown => ∃ ws, c = .shutdown ws
  | .economy, .cooldown => ∃ ws, c = .shutdown ws
  | .warmup, .off => (∃ ws, c = .shutdown ws) ∧ MachineEmpty t
  | .production, .off => (∃ ws, c = .shutdown ws) ∧ MachineEmpty t
  | .economy, .off => (∃ ws, c = .shutdown ws) ∧ MachineEmpty t
  | .cooldown, .off => MachineEmpty t
  | .warmup, .halted => ∃ x ∈ t.modes.causes, x ∉ s.modes.causes
  | .production, .halted => ∃ x ∈ t.modes.causes, x ∉ s.modes.causes
  | .economy, .halted => ∃ x ∈ t.modes.causes, x ∉ s.modes.causes
  | .cooldown, .halted => ∃ x ∈ t.modes.causes, x ∉ s.modes.causes
  | .halted, .warmup => (∃ ws, c = .clear ws) ∧ t.modes.causes = []
  | .halted, .off => ∃ ws, c = .shutdown ws
  | _, _ => False

/-- R163: what the command `c`, no reset, does to the mode from `s` to `t`: a change is one of the table's, on its cause, and
leaves MODE_CHANGED pending. -/
structure ModeStep (c : Instr) (s t : State) : Prop where
  move : t.modes.mode ≠ s.modes.mode → ModeMay c s t s.modes.mode t.modes.mode
  notice : t.modes.mode ≠ s.modes.mode → Pending t .modeChanged

/-- R183: what the command `c`, no reset, does to the notice register from `s` to `t`: a pending bit is cleared by NOTICE_WRITE
alone, a read mark is set by NOTICE_READ alone, and a bit whose event makes it pending has no mark. -/
structure NoticeStep (c : Instr) (s t : State) : Prop where
  kept : (∀ v, c ≠ .noticeWrite v) → ∀ k, s.port.notices.getLsbD k = true → t.port.notices.getLsbD k = true
  marked : c ≠ .noticeRead → ∀ k, t.port.marks.getLsbD k = true → s.port.marks.getLsbD k = true
  fresh : ∀ k, s.port.notices.getLsbD k = false → t.port.notices.getLsbD k = true → t.port.marks.getLsbD k = false

/-- R10: the in-flight list holds at most 16 records. -/
def ListBounded (s : State) : Prop :=
  s.track.records.length ≤ 16

/-- R30: the held slots are those of the non-intruder records, each once; the offered slot is not yet one of them. -/
structure HeldFormed (s : State) : Prop where
  slots : s.docket.held = s.track.records.filterMap Record.slot?
  nodup : s.docket.held.Nodup
  offered : ∀ o, s.docket.offer = some o → o.slot ∉ s.docket.held ∧ o.origin ≠ .intruder

/-- R69 and R71: the tank counter lies within the volume of the latest refill, that within 50,000,000 µL, the remainder below
one microlitre. -/
def TankBounded (s : State) : Prop :=
  s.flux.counter ≤ s.flux.bound ∧ s.flux.bound ≤ 50000000 ∧ s.flux.remainder < 1000

/-- R70: the low-mark state is BELOW exactly while a setup is loaded and the counter is less than its tank low mark. -/
def LowFormed (s : State) : Prop :=
  s.flux.low = true ↔ s.loaded = true ∧ s.flux.counter < s.ws.tankLowMark

/-- R70: what the command `c`, no reset, does at the tank from `s` to `t`: a counter that comes to 0, and a low-mark state that
goes to BELOW other than at LOAD_SETUP, leave FLUX_EVENT pending. -/
structure TankStep (c : Instr) (s t : State) : Prop where
  zero : s.flux.counter ≠ 0 → t.flux.counter = 0 → Pending t .fluxEvent
  below : (∀ ws, c ≠ .loadSetup ws) → s.flux.low = false → t.flux.low = true → Pending t .fluxEvent

/-- R70: the tank events of a consumption from `s` to `t`: the low-mark state is re-formed, and FLUX_EVENT is set by the counter
that comes to 0 or the state that goes to BELOW, by nothing else. -/
structure TankEvents (s t : State) : Prop where
  low : LowFormed t
  event : Pending t .fluxEvent ↔ Pending s .fluxEvent ∨ (s.flux.counter ≠ 0 ∧ t.flux.counter = 0) ∨
    (s.flux.low = false ∧ t.flux.low = true)

/-- R188: the part code and the layout version read so at all times. -/
def HeaderFormed (s : State) : Prop :=
  s.mem.read 0 = 0x2640 ∧ s.mem.read 1 = 1

/-- R182: the working set of a loaded setup has passed every check of R181. -/
def SetupChecked (s : State) : Prop :=
  ∀ c ∈ s.port.setup, c.firstFailing = none

/-! ### The targets -/

/-- R105 to R109, Table 6-3, for zone `z`: the governing board is the oldest candidate in PRODUCTION and COOLDOWN and none in
every other mode; the target is its setpoint, the next recipe's in WARMUP, and 0 in COOLDOWN without a candidate and in OFF,
ECONOMY and HALTED; SP equals the target (R84). -/
structure ZoneFormed (s : State) (z : Zone) : Prop where
  governed : ∀ r, s.track.records.find? (zoneCandidate s z) = some r →
    s.modes.mode = .production ∨ s.modes.mode = .cooldown →
    (s.thermal.zones.get z).governing = some r.ordinal ∧ (s.thermal.zones.get z).target = r.zone z
  ungoverned : s.track.records.find? (zoneCandidate s z) = none ∨
      (s.modes.mode ≠ .production ∧ s.modes.mode ≠ .cooldown) →
    (s.thermal.zones.get z).governing = none
  cooldown : s.modes.mode = .cooldown → s.track.records.find? (zoneCandidate s z) = none →
    (s.thermal.zones.get z).target = 0
  warmup : s.modes.mode = .warmup → ∀ b ∈ s.nextBoard, (s.thermal.zones.get z).target = b.recipe.zones.get z
  off : s.modes.mode = .off ∨ s.modes.mode = .economy ∨ s.modes.mode = .halted → (s.thermal.zones.get z).target = 0
  sp : (s.thermal.zones.get z).sp = (s.thermal.zones.get z).target

/-- R126 for the pump of wave `w`: the governing board and the target. -/
structure PumpFormed (s : State) (w : Wave) : Prop where
  governed : ∀ r, s.track.records.find? (waveCandidate s w) = some r →
    s.modes.mode = .production ∨ s.modes.mode = .cooldown →
    (s.pot.pump w).governing = some r.ordinal ∧ (s.pot.pump w).target = r.rpm w
  ungoverned : s.track.records.find? (waveCandidate s w) = none ∨
      (s.modes.mode ≠ .production ∧ s.modes.mode ≠ .cooldown) →
    (s.pot.pump w).governing = none
  cooldown : s.modes.mode = .cooldown → s.track.records = [] → (s.pot.pump w).target = 0
  warmup : s.modes.mode = .warmup → ∀ b ∈ s.nextBoard, (s.pot.pump w).target = b.recipe.rpm w
  off : s.modes.mode = .off ∨ s.modes.mode = .economy ∨ s.modes.mode = .halted → (s.pot.pump w).target = 0

/-- R85, R105 to R109 and R126: every target is what its table says. -/
structure TargetsFormed (s : State) : Prop where
  zones : ∀ z, ZoneFormed s z
  pumps : ∀ w, PumpFormed s w
  pot : s.thermal.pot.target =
    if s.modes.mode = .off then 0
    else
      match s.gate.namedClass with
      | none => 0
      | some c => if s.modes.mode = .economy then max 0 (c.pot - s.ws.economyOffset) else c.pot

/-- Table 6-3 and R126, the rows that hold: what becomes of the targets from `s` to `t` where no rule gives a value. A zone in
PRODUCTION without a candidate, or in WARMUP without a next recipe, keeps its target; so does a pump there, and in COOLDOWN with
records but no candidate. -/
structure TargetsHeld (s t : State) : Prop where
  zone : ∀ z,
    (t.modes.mode = .production ∧ ∀ r ∈ t.track.records, zoneCandidate t z r = false) ∨
        (t.modes.mode = .warmup ∧ s.nextBoard = none ∧ t.nextBoard = none) →
      (t.thermal.zones.get z).target = (s.thermal.zones.get z).target
  pump : ∀ w,
    ((t.modes.mode = .production ∨ (t.modes.mode = .cooldown ∧ t.track.records ≠ [])) ∧
          ∀ r ∈ t.track.records, waveCandidate t w r = false) ∨
        (t.modes.mode = .warmup ∧ s.nextBoard = none ∧ t.nextBoard = none) →
      (t.pot.pump w).target = (s.pot.pump w).target

/-- R91 for one loop: without HEAT_AUTH it is not SETTLED and its count is 0; with it, a target of 0 is SETTLED. -/
def Loop.SettledFormed (l : Loop) (auth : Bool) : Prop :=
  (auth = false → l.settled = false ∧ l.count = 0) ∧ (auth = true → l.target = 0 → l.settled = true)

/-- R91: every loop's SETTLED flag fits HEAT_AUTH and its target. -/
def SettledFormed (s : State) : Prop :=
  s.thermal.pot.SettledFormed s.thermal.auth ∧ ∀ z, (s.thermal.zones.get z).SettledFormed s.thermal.auth

/-- R90 and R91: what a command does to the settle count and the flag of one loop, `l` before and `m` after, with HEAT_AUTH as it
stands after: a change of the target clears both; the flag comes up by LOOP_SETTLED of that loop (`sets`) alone, but for a target
of 0; the count goes on at a heater period boundary (`counts`) alone, by one. -/
structure SettleStep (sets counts auth : Prop) (l m : Loop) : Prop where
  target : m.target ≠ l.target → m.count = 0 ∧ (m.settled = false ∨ (auth ∧ m.target = 0))
  set : l.settled = false → m.settled = true → sets ∨ (auth ∧ m.target = 0)
  count : m.count = l.count ∨ m.count = 0 ∨ (counts ∧ m.count = l.count + 1)

/-- R131 and R132: a drop is HELD without a run demand and RECOVERING with one, and while it lasts a record lies in the wave
stretch and, RECOVERING, the waves are not yet steady. -/
structure DropFormed (s : State) : Prop where
  held : s.pot.drop = .held → runDemand s = 0
  recovering : s.pot.drop = .recovering → runDemand s ≠ 0 ∧
    ¬ ((s.pot.chip.stable = true ∧ s.pot.chip.ref = s.pot.chip.target) ∧
      s.pot.main.stable = true ∧ s.pot.main.ref = s.pot.main.target)
  stretch : s.pot.drop ≠ .none → ∃ r ∈ s.track.records, inWaveStretch s r = true

/-- R9 and R130: what the change of the conveyor reference from a nonzero value in `s` to 0 in `t` leaves on the records: DWELL
on every DOCKET or STANDING one; and where one overlaps a wave and no drop ran, a drop, with WAVE_INTERRUPTED on every one that
overlaps. -/
structure StopMarked (s t : State) : Prop where
  dwell : ∀ r ∈ t.track.records, r.origin ≠ .intruder → r.has .dwell = true
  drop : s.pot.drop = .none → (∃ r ∈ t.track.records, anyOverlap t r = true) → t.pot.drop ≠ .none
  interrupted : s.pot.drop = .none → ∀ r ∈ t.track.records, r.origin ≠ .intruder → anyOverlap t r = true →
    r.has .waveInterrupted = true

/-! ### The gate -/

/-- Table 3-2: the hold set holds exactly the reasons whose conditions hold (R41, R42). -/
structure HoldsFormed (s : State) : Prop where
  modeHold : .modeHold ∈ s.gate.holds ↔ s.modes.mode ≠ .production
  listFull : .listFull ∈ s.gate.holds ↔ 16 ≤ s.track.records.length
  noDocket : .noDocket ∈ s.gate.holds ↔
    s.docket.noDocket = true ∧ s.gate.state ≠ .opened ∧ s.gate.state ≠ .late
  recipe : .recipe ∈ s.gate.holds ↔
    s.docket.recipeHold = true ∧ s.gate.state ≠ .opened ∧ s.gate.state ≠ .late
  noSlot : .noSlot ∈ s.gate.holds ↔ s.docket.noSlot = true ∧ s.gate.state ≠ .opened ∧ s.gate.state ≠ .late
  changeover : .changeover ∈ s.gate.holds ↔
    s.gate.phase ≠ .none ∨ ∃ b ∈ s.nextBoard, s.gate.lineClass ≠ some b.recipe.cls
  flux : .flux ∈ s.gate.holds ↔
    s.flux.purge ≠ none ∨ (s.flux.inhibit ≠ [] ∧ ∃ b ∈ s.nextBoard, b.skipFlux = false ∧ 0 < b.recipe.windowCount)
  edgeRoom : .edgeRoom ∈ s.gate.holds ↔
    ∃ b ∈ s.nextBoard, b.skipFlux = false ∧ 32 - s.flux.edges.length < 2 * b.recipe.windowCount
  x2Extraction : .x2Extraction ∈ s.gate.holds ↔
    (s.extr.points.get 1).sev = .alarm ∨ (s.extr.points.get 3).sev = .alarm ∨ (s.extr.points.get 6).sev = .alarm
  pot : .pot ∈ s.gate.holds ↔ s.thermal.pot.settled = false ∨ s.pot.levelGood = false
  zoneFault : .zoneFault ∈ s.gate.holds ↔
    ∃ b ∈ s.nextBoard, ∃ z, b.recipe.zones.get z ≠ 0 ∧
      ((s.thermal.inputs.get (zoneInput z)).state ≠ .good ∨ s.thermal.latches.get z = true ∨
        s.ws.rating (zoneOutput z) = 0)
  hostLost : .hostLost ∈ s.gate.holds ↔ s.port.hostLost = true
  outfeed : .outfeed ∈ s.gate.holds ↔ s.outfeed.state ≠ .empty ∧ s.pins.downstream = false
  spacing : .spacing ∈ s.gate.holds ↔
    s.track.entryEye.accepted = true ∨ (∃ r ∈ s.track.records.getLast?, r.stage = .entering) ∨
      ∃ q ∈ s.track.lastTrail, atOrAfter s.track.pos (q + tenths s.ws.minGap) = false

/-- R44: a CLOSED gate has a hold reason, for with none it opens. -/
def ClosedHeld (s : State) : Prop :=
  s.gate.state = .closed → s.gate.holds ≠ []

/-- R160: the gate has been told of the outfeed state that stands. The note is the model's own (log entry 58). -/
def OutfeedTold (s : State) : Prop :=
  s.gate.told = s.outfeed.state

/-- R22 to R24 and R26: what a scan in the DOCKET source leaves: no unheld POSTED slot is stale against E, the one that carries E
is the candidate, and NO_DOCKET stands where there is none. -/
structure Scanned (s : State) : Prop where
  stale : ∀ n, slotState s.mem n = .posted → n ∉ s.docket.held →
    (s.docket.expected - s.mem.read (slotAt n + 1)).toNat = 0 ∨
      32767 < (s.docket.expected - s.mem.read (slotAt n + 1)).toNat
  chosen : ∀ n, slotState s.mem n = .posted → n ∉ s.docket.held → s.mem.read (slotAt n + 1) = s.docket.expected →
    s.docket.candidate = some n
  noDocket : s.docket.noDocket = true ↔ s.docket.candidate = none

/-- The exit window of record `r`: position `p` lies from X − T to X + T past its lead (R15). -/
def InExitWindow (s : State) (r : Record) (p : Pos) : Prop :=
  atOrAfter p (r.lead + tenths s.ws.exitX - tenths s.ws.exitTol) = true ∧
    atOrAfter (r.lead + tenths s.ws.exitX + tenths s.ws.exitTol) p = true

/-- P has passed the exit window of record `r` (R16). -/
def PastExit (s : State) (r : Record) : Prop :=
  strictlyAfter s.track.pos (r.lead + tenths s.ws.exitX + tenths s.ws.exitTol) = true

/-- R16 and R47: a wait stands on a pending change to blocked: of the entry eye, in LATE, from before the late limit; of the
exit eye, inside the candidate's window. Where P is at the limit, or past the window, such a change is waited for. -/
structure WaitsFormed (s : State) : Prop where
  late : s.gate.lateWaits = true → s.gate.state = .late ∧ s.track.entryEye.accepted = false ∧
    ∃ l ∈ s.gate.lateLimit, ∃ p ∈ s.track.entryEye.pendingAt, atOrAfter p l = false
  reached : s.gate.state = .late → s.track.entryEye.accepted = false → ∀ l ∈ s.gate.lateLimit,
    ∀ p ∈ s.track.entryEye.pendingAt, atOrAfter s.track.pos l = true → atOrAfter p l = false → s.gate.lateWaits = true
  lost : s.track.lostWaits = true → s.track.exitEye.accepted = false ∧
    ∃ r, (s.track.records.find? fun q => q.stage != .exiting) = some r ∧
      ∃ p ∈ s.track.exitEye.pendingAt, InExitWindow s r p
  passed : s.track.exitEye.accepted = false → ∀ r, (s.track.records.find? fun q => q.stage != .exiting) = some r →
    ∀ p ∈ s.track.exitEye.pendingAt, PastExit s r → InExitWindow s r p → s.track.lostWaits = true

/-- R16 and R47: a wait goes on, whatever P does, until its change is accepted or dropped, its candidate goes, or the gate
leaves LATE. -/
structure WaitsStep (s t : State) : Prop where
  late : s.gate.lateWaits = true → t.gate.state = .late → t.gate.lateLimit = s.gate.lateLimit →
    t.track.entryEye = s.track.entryEye → t.gate.lateWaits = true
  lost : s.track.lostWaits = true → t.track.exitEye = s.track.exitEye → t.port.setup = s.port.setup →
    t.track.records.map Record.place = s.track.records.map Record.place → t.track.lostWaits = true

/-- R33: the offer as it is fixed at the entry to OPEN, from the source, the candidate's slot and the recipe table. -/
structure OfferTaken (s : State) (o : Offer) : Prop where
  docket : s.docket.source = .docket →
    o.origin = .docket ∧ s.docket.candidate = some o.slot ∧ s.mem.read (slotAt o.slot) = 1 ∧
    o.sequence = s.docket.expected ∧ o.sequence = s.mem.read (slotAt o.slot + 1) ∧
    o.recipeIndex = s.mem.read (slotAt o.slot + 2) ∧
    o.skipFlux = (s.mem.read (slotAt o.slot + 3)).getLsbD 0 ∧
    o.expectedLength = (s.mem.read (slotAt o.slot + 4)).toNat ∧ o.lengthTol = (s.mem.read (slotAt o.slot + 5)).toNat
  standing : ∀ k, s.docket.source = .standing k →
    o.origin = .standing ∧ o.recipeIndex = BitVec.ofNat 16 k.val ∧ o.skipFlux = false ∧ o.expectedLength = 0 ∧
    slotState s.mem o.slot = .free ∧
    ∀ n : SlotIx, n < o.slot → slotState s.mem n ≠ .free ∨ n ∈ s.docket.held
  unheld : o.slot ∉ s.docket.held
  recipe : o.recipeIndex.toNat ≤ 15 ∧ s.mem.read (recipeAt o.recipeIndex.toNat) = 2 ∧
    o.recipe = readRecipe s.mem o.recipeIndex.toNat ∧ o.recipe.passes s.port.setup = true

/-- R51, R53 and R56: the phase and the target stand together; a phase other than NONE has a line class, and in DRAINING the
target differs from it; in SETTLING the drive is IDLE at the target width (R54, R55); OFF has no line class; OFF, ECONOMY and
COOLDOWN have no phase. -/
structure ClassFormed (s : State) : Prop where
  target : s.gate.phase = .none ↔ s.gate.target = none
  lineClass : s.gate.phase ≠ .none → s.gate.lineClass ≠ none
  draining : s.gate.phase = .draining → s.gate.target ≠ s.gate.lineClass
  settling : s.gate.phase = .settling →
    s.gate.width.state = .idle ∧ s.gate.target.map (·.width) = some s.gate.width.pos
  off : s.modes.mode = .off → s.gate.lineClass = none
  modes : s.modes.mode = .off ∨ s.modes.mode = .economy ∨ s.modes.mode = .cooldown → s.gate.phase = .none

/-- R53 to R55: what a step from `s` to `t` may do to the changeover: MOVING and SETTLING are entered with the list empty and
the outfeed EMPTY, SETTLING with the rails at the target width, and the line class changes to another one with the rails at its
width, SPEED_STABLE and the pot SETTLED; these stand after the step unless it has gone on to the next changeover, past its
DRAINING, as R55 lets it. -/
structure ChangeoverStep (s t : State) : Prop where
  drained : s.gate.phase = .none ∨ s.gate.phase = .draining → t.gate.phase = .moving ∨ t.gate.phase = .settling →
    t.track.records = [] ∧ t.outfeed.state = .empty
  moved : s.gate.phase ≠ .settling → t.gate.phase = .settling →
    t.gate.width.state = .idle ∧ (t.gate.target.map (·.width)) = some t.gate.width.pos
  settled : ∀ c ∈ s.gate.lineClass, ∀ d ∈ t.gate.lineClass, c ≠ d →
    t.gate.width.pos = d.width ∧
      (t.gate.phase = .none ∨ t.gate.phase = .draining →
        t.gate.width.state = .idle ∧ t.track.speedStable = true ∧ t.thermal.pot.settled = true)

/-! ### Alarms and counts -/

/-- Table 8-3 and R147: the severity of a point is NONE exactly while the point is not active. -/
def SeverityFormed (s : State) : Prop :=
  ∀ k, (s.extr.points.get k).sev = .none ↔
    ((s.extr.points.get k).ann = .normal ∨ (s.extr.points.get k).ann = .clearedUnack)

/-- R44, R149 and R156: a transition count advances at each change of its line, so its low bit is the line's level; the four
output lines start low with their counts 0 at a reset. -/
structure CountsFormed (s : State) : Prop where
  ready : s.gate.readyCount.getLsbD 0 = s.gate.ready
  available : s.outfeed.availableCount.getLsbD 0 = s.outfeed.available
  horn : s.extr.hornCount.getLsbD 0 = s.extr.horn
  beacon : s.extr.beaconCount.getLsbD 0 = s.extr.beacon

/-! ### Lists in order -/

/-- R10: the leads increase strictly from the oldest record to the newest. -/
def ListOrdered (s : State) : Prop :=
  (s.track.records.map (·.lead)).Pairwise fun a b => strictlyAfter b a = true

/-- R1: the half-range comparison orders the pending entry edge and the leads: an edge strictly after the newest lead is
strictly after them all. -/
def LeadsComparable (s : State) : Prop :=
  ∀ p ∈ s.track.entryEye.pendingAt, ∀ n ∈ s.track.records.getLast?, strictlyAfter p n.lead = true →
    ∀ r ∈ s.track.records, strictlyAfter p r.lead = true

/-- R62: the spray edges stand in non-decreasing order of position. -/
def EdgesOrdered (s : State) : Prop :=
  (s.flux.edges.map (·.pos)).Pairwise fun a b => atOrAfter b a = true

/-- R1: the positions that the spray list holds or may take next lie within a quarter of the position range. -/
def EdgesComparable (s : State) : Prop :=
  ∃ b : Pos, (∀ e ∈ s.flux.edges, (e.pos - b).toNat < 2 ^ 30) ∧ (∀ r ∈ s.track.records, (r.lead - b).toNat < 2 ^ 30) ∧
    (∀ p ∈ s.track.entryEye.pendingAt, (p - b).toNat < 2 ^ 30) ∧
    ∀ o ∈ s.docket.offer, ∀ w ∈ o.recipe.windows, w.start ≤ 600 ∧ w.stop ≤ 600

/-- R62 and R66: every spray edge and every active window belongs to a record of the in-flight list. -/
def EdgesOwned (s : State) : Prop :=
  (∀ e ∈ s.flux.edges, ∃ r ∈ s.track.records, r.ordinal = e.ordinal) ∧
    ∀ w ∈ s.flux.active, ∃ r ∈ s.track.records, r.ordinal = w.ordinal

/-- R62 to R64: the spray list holds at most 32 edges, and keeps the room that an offer needs. -/
def EdgesBounded (s : State) : Prop :=
  s.flux.edges.length ≤ 32 ∧
    ∀ o ∈ s.docket.offer, o.skipFlux = false → s.flux.edges.length + 2 * o.recipe.windows.length ≤ 32

/-- R67: a record of ordinal `o` has closed from `s` to `t`. -/
def RecordClosed (s t : State) (o : BitVec 16) : Prop :=
  (t.track.records.map (·.ordinal)).count o < (s.track.records.map (·.ordinal)).count o

/-- R73: the inhibit begins from `s` to `t`. -/
def InhibitBegins (s t : State) : Prop :=
  s.flux.inhibit = [] ∧ t.flux.inhibit ≠ []

/-- R13 and R65: the command `c` accepts the trailing edge of the newest record, of ordinal `o`, and clamps its windows. -/
def ClampsWindows (c : Instr) (s : State) (o : BitVec 16) : Prop :=
  c = .eyeChangeAccepted .entry ∧ s.track.entryEye.accepted = true ∧ s.track.owner = true ∧
    ∃ r, s.track.records.getLast? = some r ∧ r.trail = none ∧ r.ordinal = o

/-- R12: the command `c` appends a record from `s` to `t`. -/
def Appends (c : Instr) (s t : State) : Prop :=
  c = .eyeChangeAccepted .entry ∧ s.track.entryEye.accepted = false ∧ t.track.ordinal = s.track.ordinal + 1

/-- R61 to R68, R73, R77 and R78: what the command `c`, no reset, does to the flux unit's lists, pulses and purge from `s` to
`t`. -/
structure FluxStep (c : Instr) (s t : State) : Prop where
  /-- An edge joins at an admission, of the new record; the clamp moves a CLOSE edge back. -/
  joins : ∀ e ∈ t.flux.edges, e ∈ s.flux.edges ∨ (Appends c s t ∧ e.ordinal = t.track.ordinal) ∨
    (ClampsWindows c s e.ordinal ∧ e.opens = false ∧
      ∃ d ∈ s.flux.edges, e = { d with pos := e.pos } ∧ strictlyAfter d.pos e.pos = true)
  /-- An edge leaves at a boundary, by the clamp, with its record, or, a CLOSE edge, with its active window at an inhibit. -/
  leaves : ∀ e ∈ s.flux.edges, e ∈ t.flux.edges ∨ c = .modulationBoundary ∨ RecordClosed s t e.ordinal ∨
    ClampsWindows c s e.ordinal ∨
    (InhibitBegins s t ∧ e.opens = false ∧ ∃ w ∈ s.flux.active, w.ordinal = e.ordinal ∧ w.window = e.window)
  /-- A window becomes active at a boundary alone. -/
  opens : ∀ w ∈ t.flux.active, w ∈ s.flux.active ∨ c = .modulationBoundary
  /-- It ends at a boundary, by the clamp, with its record, or at an inhibit. -/
  ends : ∀ w ∈ s.flux.active, w ∈ t.flux.active ∨ c = .modulationBoundary ∨ RecordClosed s t w.ordinal ∨
    ClampsWindows c s w.ordinal ∨ InhibitBegins s t
  /-- A pulse starts at a boundary alone; the valve of a pulse of the whole period stays open after it (log entry 53). -/
  starts : ∀ k u, t.flux.pulses.get k = some u → s.flux.pulses.get k = some u ∨ c = .modulationBoundary ∨
    (c = .lanePulseEnd k ∧ ∃ v, s.flux.pulses.get k = some v ∧ 16 ≤ v.q ∧ u = { v with q := 0 })
  /-- It stops at its end, at a boundary, by the clamp, with its record, at an inhibit, or for a purge. -/
  stops : ∀ k u, s.flux.pulses.get k = some u → t.flux.pulses.get k = some u ∨ c = .modulationBoundary ∨
    c = .lanePulseEnd k ∨ RecordClosed s t u.ordinal ∨ ClampsWindows c s u.ordinal ∨ InhibitBegins s t ∨
    ∃ ws, c = .purgeFluxer ws
  /-- A purge starts at PURGE_FLUXER alone; a boundary credits it; it stops at its end, at an inhibit, or where a board comes up
  to the bar. -/
  purge : t.flux.purge = s.flux.purge ∨
    (s.flux.purge = none ∧ ∃ ws, c = .purgeFluxer ws) ∨ (s.flux.purge ≠ none ∧ c = .modulationBoundary) ∨
    (t.flux.purge = none ∧
      (c = .purgeDurationComplete ∨ InhibitBegins s t ∨ (∃ d, c = .encoderCount d) ∨
        (Appends c s t ∧ ∃ r ∈ t.track.records.getLast?, s.ws.barF - 500 ≤ (t.track.pos - r.lead).toNat)))
  /-- Where the inhibit begins, no window stays active, and no pulse and no purge runs. -/
  inhibits : InhibitBegins s t → t.flux.active = [] ∧ (∀ k, t.flux.pulses.get k = none) ∧ t.flux.purge = none

/-- R73: what the consequences of a step do to the flux unit from `a` to `t`: nothing, or, where the inhibit begins, the windows
end with their CLOSE edges, and the pulses and the purge end. -/
structure FluxSettles (a t : State) : Prop where
  still : ¬ InhibitBegins a t → t.flux.edges = a.flux.edges ∧ t.flux.active = a.flux.active ∧
    t.flux.pulses = a.flux.pulses ∧ t.flux.purge = a.flux.purge
  begins : InhibitBegins a t → t.flux.active = [] ∧ (∀ k, t.flux.pulses.get k = none) ∧ t.flux.purge = none ∧
    t.flux.edges =
      a.flux.edges.filter fun e => e.opens || !a.flux.active.any fun w => w.ordinal == e.ordinal && w.window == e.window

/-- R124: the shot history holds at most 20 entries. -/
def HistoryBounded (s : State) : Prop :=
  s.pot.history.length ≤ 20

/-- R124: the shots stand oldest first, and none is older than 600,000 ms. -/
def AgesFormed (s : State) : Prop :=
  (s.pot.history.map fun h => elapsed h s.clock).Pairwise (fun a b => b ≤ a) ∧
    ∀ h ∈ s.pot.history, elapsed h s.clock ≤ 600000

/-- R97: every output stands as its stretch of the running heater period has it. -/
def OutputsFollow (s : State) : Prop :=
  ∀ k, s.thermal.outputs.get k = true ↔
    s.ws.rating k ≠ 0 ∧ (periodTime s + 1000 - 125 * k.val) % 1000 < s.thermal.outputGrant k

/-! ## More words of the statements -/

/-- R104: record `r` lies over the stretch from `a` to `b`: its relative lead has reached `a`, and its relative trail, where it
has one, has not reached `b`. -/
def Over (s : State) (r : Record) (a b : Nat) : Prop :=
  a ≤ relativeFrom s.track.pos r.lead ∧ ∀ q ∈ r.trail, relativeFrom s.track.pos q < b

/-- R104, R126, R130 and R132: what makes a record a candidate, what makes it overlap, and the wave stretch. -/
structure StretchesFormed (s : State) : Prop where
  zone : ∀ z r, zoneCandidate s z r = true ↔
    r.origin ≠ .intruder ∧ Over s r (s.ws.zoneStart z - s.ws.zoneAhead z) (s.ws.zoneEnd z)
  wave : ∀ w r, waveCandidate s w r = true ↔
    r.origin ≠ .intruder ∧ Over s r (s.ws.waveStart w - s.ws.waveAhead w) (s.ws.waveEnd w)
  overlap : ∀ r, anyOverlap s r = true ↔ ∃ w, Over s r (s.ws.waveStart w) (s.ws.waveEnd w)
  stretch : ∀ r, inWaveStretch s r = true ↔
    Over s r (s.ws.waveStart .chip - s.ws.waveAhead .chip) (s.ws.waveEnd .main)

/-- R66, R80 and R96: `next` is the first boundary of the grid of `g` ms at or after `now`: a multiple of `g`, where the present
moment counts unless it is the boundary `taken` last. -/
def NextBoundary (g : Nat) (taken now next : Clock) : Prop :=
  ∃ n, next = now + BitVec.ofNat 32 n ∧ next.toNat % g = 0 ∧ n ≤ g ∧
    ∀ m, m < n → (now + BitVec.ofNat 32 m).toNat % g = 0 → m = 0 ∧ now = taken

/-- A halt cause that joins the list of causes where `b` holds and it is not yet there (R170). -/
def joinCause (b : Bool) (c : HaltCause) (l : List HaltCause) : List HaltCause :=
  if b = true ∧ c ∉ l then l ++ [c] else l

/-- R44, R149 and R156: what a step other than a reset does to the transition counts: one more where its line has changed; of
ENTRY_READY, which an evaluation may assert and another withdraw, at most two. -/
structure CountStep (s t : State) : Prop where
  ready : (t.gate.readyCount - s.gate.readyCount).toNat ≤ 2
  available : t.outfeed.availableCount =
    if t.outfeed.available = s.outfeed.available then s.outfeed.availableCount else s.outfeed.availableCount + 1
  horn : t.extr.hornCount = if t.extr.horn = s.extr.horn then s.extr.hornCount else s.extr.hornCount + 1
  beacon : t.extr.beaconCount = if t.extr.beacon = s.extr.beacon then s.extr.beaconCount else s.extr.beaconCount + 1

/-- R113 to R115: what a move of P by one tenth from `s` to `t` does to the top-side capture of a record, `r` before and `q`
after: at Y plus half the length it takes the pyrometer's PV with the test of R114, or TOPSIDE_UNMEASURED where the input is not
GOOD; at X without a capture, its length known or not, it is TOPSIDE_UNMEASURED; short of both, nothing. -/
structure CaptureStep (s t : State) (r q : Record) : Prop where
  done : r.captured = true ∨ r.origin = .intruder →
    q.topside = r.topside ∧ ∀ f, f = .topsideLow ∨ f = .topsideHigh ∨ f = .topsideUnmeasured → q.has f = r.has f
  measured : r.captured = false → r.origin ≠ .intruder → ∀ l, r.length = some l →
    s.ws.pyroY + l / 2 ≤ relativeFrom t.track.pos r.lead →
    q.topside = (s.thermal.inputs.get 7).pv ∧
    (q.has .topsideUnmeasured = true ↔ (s.thermal.inputs.get 7).pv = none) ∧
    ∀ c, r.recipe? = some c →
      (q.has .topsideLow = true ↔ r.has .topsideLow = true ∨
        ∃ v, q.topside = some v ∧ c.topMin ≠ 0 ∧ v < c.topMin) ∧
      (q.has .topsideHigh = true ↔ r.has .topsideHigh = true ∨
        ∃ v, q.topside = some v ∧ c.topMax ≠ 0 ∧ c.topMax < v)
  unmeasured : r.captured = false → r.origin ≠ .intruder →
    (∀ l, r.length = some l → relativeFrom t.track.pos r.lead < s.ws.pyroY + l / 2) →
    s.ws.exitX ≤ relativeFrom t.track.pos r.lead → q.topside = none ∧ q.has .topsideUnmeasured = true
  waiting : r.captured = false →
    (∀ l, r.length = some l → relativeFrom t.track.pos r.lead < s.ws.pyroY + l / 2) →
    relativeFrom t.track.pos r.lead < s.ws.exitX → q.captured = false

/-- R129: record `r`, in `q` after the forward move of P by one tenth from `s` to `t`, is WAVE_UNSTABLE where its lead has come
to the start of a wave whose pump has a target, and the pump is not PUMP_STABLE or its reference is not its target. -/
def WaveEntryStep (s t : State) (r q : Record) : Prop :=
  q.has .waveUnstable = true ↔ r.has .waveUnstable = true ∨
    (r.origin ≠ .intruder ∧ ∃ w tg, tg = pumpTarget { s with track := { s.track with pos := t.track.pos } } w ∧
      s.ws.waveStart w = relativeFrom t.track.pos r.lead ∧ s.ws.waveStart w ≠ 0 ∧ tg ≠ 0 ∧
      (s.pot.drop = .held ∨ (s.pot.pump w).ref ≠ tg ∨ (s.pot.pump w).stable = false))

/-- What one move of P by a tenth does, from `s` to `t`: P and the places of the records (R2); the targets that no rule gives
stay (R107, R126); the raise of the stop request by
the exit candidate (R158), the reference of R5 with its marks at that tenth (R9, R130, R159); and for each record the capture
(R113 to R115), on a forward move the wave entry (R129). -/
structure TenthStep (forward : Bool) (s t : State) : Prop where
  pos : t.track.pos = if forward then s.track.pos + 1 else s.track.pos - 1
  place : t.track.records.map Record.place = s.track.records.map Record.place
  inputs : t.thermal.inputs = s.thermal.inputs
  setup : t.port.setup = s.port.setup
  stop : t.outfeed.stop = true ↔ s.outfeed.stop = true ∨
    (s.outfeed.state ≠ .empty ∧ (∀ r ∈ s.track.records, r.stage ≠ .exiting) ∧
      ∃ r, s.track.records.head? = some r ∧ s.ws.exitX - s.ws.holdMargin ≤ relativeFrom t.track.pos r.lead)
  targets : TargetsHeld s t
  reference : ReferenceFormed t
  stopped : s.track.ref ≠ 0 → t.track.ref = 0 → StopMarked s t
  records : ∀ (i : Nat) (r q : Record), s.track.records[i]? = some r → t.track.records[i]? = some q →
    CaptureStep s t r q ∧ (forward = true → WaveEntryStep s t r q) ∧
      (forward = false → q.has .waveUnstable = r.has .waveUnstable)

/-- R139 to R146: the sample of point `k` is judged, and counts for a warning, an alarm and a clear as `w`, `a` and `c` say. -/
def Judges (s : State) (k : Idx8) (w a c : Bool) : Prop :=
  match k with
  | 0 => s.extr.fan = true ∧ s.extr.grace1 = none ∧ s.loaded = true ∧ ∃ p, s.extr.x1 = some p ∧
      w = decide (p < s.ws.flowWarn .x1) ∧ a = decide (p < s.ws.flowAlarm .x1) ∧ c = decide (11 * s.ws.flowWarn .x1 ≤ 10 * p)
  | 1 => s.extr.fan = true ∧ s.extr.grace2 = none ∧ s.loaded = true ∧ ∃ p, s.extr.x2 = some p ∧
      w = decide (p < s.ws.flowWarn .x2) ∧ a = decide (p < s.ws.flowAlarm .x2) ∧ c = decide (11 * s.ws.flowWarn .x2 ≤ 10 * p)
  | 2 => s.extr.fan = true ∧ s.extr.grace1 = none ∧ w = false ∧ a = !s.extr.feedback1 ∧ c = s.extr.feedback1
  | 3 => s.extr.fan = true ∧ s.extr.grace2 = none ∧ w = false ∧ a = !s.extr.feedback2 ∧ c = s.extr.feedback2
  | 4 => s.loaded = true ∧ ∃ p, s.extr.filter = some p ∧
      w = decide (s.ws.filterLimit < p) ∧ a = false ∧ c = decide (10 * p ≤ 9 * s.ws.filterLimit)
  | 5 => w = false ∧ a = (s.extr.x1.isNone || s.extr.filter.isNone || s.extr.vapour.isNone) ∧ c = !a
  | 6 => w = false ∧ a = s.extr.x2.isNone ∧ c = !a
  | 7 => s.loaded = true ∧ ∃ v, s.extr.vapour = some v ∧
      w = decide (s.ws.vapourWarn < v) ∧ a = decide (s.ws.vapourAlarm < v) ∧ c = decide (10 * v ≤ 9 * s.ws.vapourWarn)

/-- R141, R145 and R146: a point at a sample, `p` before and `q` after: its dwell counts run by the judgement, the clear count
while it is active, the escalation count of a flow or vapour point while it is active at WARNING. -/
structure PointSampled (t : State) (k : Idx8) (p q : Point) : Prop where
  judged : ∀ w a c, Judges t k w a c →
    q.warnCount = (if w then p.warnCount + 1 else 0) ∧ q.alarmCount = (if a then p.alarmCount + 1 else 0) ∧
    q.clearCount = if c = true ∧ (p.ann = .activeUnack ∨ p.ann = .activeAck) then p.clearCount + 1 else 0
  unjudged : (∀ w a c, ¬ Judges t k w a c) → q.warnCount = 0 ∧ q.alarmCount = 0 ∧ q.clearCount = 0
  escalation : q.escCount =
    if (p.ann = .activeUnack ∨ p.ann = .activeAck) ∧ p.sev = .warning ∧ (k = 0 ∨ k = 1 ∨ k = 7) then p.escCount + 1
    else p.escCount
  rest : q.ann = p.ann ∧ q.sev = p.sev ∧ q.value = p.value ∧ q.lastChange = p.lastChange ∧
    q.activations = p.activations

/-- R141 to R144: the alarm dwell of point `k` is met: the count of a flow or vapour point reaches N = 100 × d / 250, rounded up,
samples for the setup's dwell of d tenths of a second; that of a fan point 20, of a sensor point 4. The filter point has no
ALARM. -/
def AlarmDwellMet (s : State) (k : Idx8) : Prop :=
  let n := (s.extr.points.get k).alarmCount
  match k with
  | 0 => 0 < n ∧ 100 * s.ws.flowAlarmDwell .x1 ≤ 250 * n
  | 1 => 0 < n ∧ 100 * s.ws.flowAlarmDwell .x2 ≤ 250 * n
  | 2 => 20 ≤ n
  | 3 => 20 ≤ n
  | 4 => False
  | 5 => 4 ≤ n
  | 6 => 4 ≤ n
  | 7 => 0 < n ∧ 100 * s.ws.vapourAlarmDwell ≤ 250 * n

/-- R141 to R144: the warning dwell of point `k` is met, in the same way; a fan or sensor point has no WARNING. -/
def WarnDwellMet (s : State) (k : Idx8) : Prop :=
  let n := (s.extr.points.get k).warnCount
  match k with
  | 0 => 0 < n ∧ 100 * s.ws.flowWarnDwell .x1 ≤ 250 * n
  | 1 => 0 < n ∧ 100 * s.ws.flowWarnDwell .x2 ≤ 250 * n
  | 4 => 0 < n ∧ 100 * s.ws.filterDwell ≤ 250 * n
  | 7 => 0 < n ∧ 100 * s.ws.vapourWarnDwell ≤ 250 * n
  | _ => False

/-- R141 and R146: the clear dwell of point `k`, which is active, is met: four times its seconds, 4 samples without a setup. -/
def ClearDwellMet (s : State) (k : Idx8) : Prop :=
  0 < (s.extr.points.get k).clearCount ∧
    (if s.loaded then 4 * s.ws.clearDwell else 4) ≤ (s.extr.points.get k).clearCount

/-- R147: the activation value of point `k` from the sample that stands in `s`: the reading of a flow, filter or vapour point, 0
of the others. -/
def ActivationWord (s : State) (k : Idx8) (v : Word) : Prop :=
  match k with
  | 0 => ∀ p, s.extr.x1 = some p → v = BitVec.ofNat 16 p
  | 1 => ∀ p, s.extr.x2 = some p → v = BitVec.ofNat 16 p
  | 4 => ∀ p, s.extr.filter = some p → v = BitVec.ofNat 16 p
  | 7 => ∀ p, s.extr.vapour = some p → v = BitVec.ofNat 16 p
  | _ => v = 0

/-- Table 8-3: a point that has both severities, active at WARNING. -/
def AtWarning (s : State) (k : Idx8) : Prop :=
  ((s.extr.points.get k).ann = .activeUnack ∨ (s.extr.points.get k).ann = .activeAck) ∧
    (s.extr.points.get k).sev = .warning ∧ (k = 0 ∨ k = 1 ∨ k = 7)

/-- R140: a flow or fan point, `p` before and `q` after its fan is commanded off at `now`: an active one takes the clear
transition (R147), every dwell count becomes 0, and the rest stands. -/
structure FanPointCleared (p q : Point) (now : Clock) : Prop where
  active : p.ann = .activeUnack ∨ p.ann = .activeAck →
    q.ann = (if p.ann = .activeAck then .normal else .clearedUnack) ∧ q.sev = .none ∧ q.lastChange = now
  inactive : p.ann = .normal ∨ p.ann = .clearedUnack →
    q.ann = p.ann ∧ q.sev = p.sev ∧ q.lastChange = p.lastChange
  counts : q.warnCount = 0 ∧ q.alarmCount = 0 ∧ q.clearCount = 0 ∧ q.escCount = 0
  rest : q.value = p.value ∧ q.activations = p.activations

/-- R117, R118 and R125: the level sample `reading` of the interval end from `s` to `t`. -/
structure LevelSampled (s t : State) (reading : Option Int) : Prop where
  good : ∀ v, reading = some v → 0 ≤ v → v ≤ 1000 →
    t.pot.levelGood = s.pot.levelGood ∧
    t.pot.level = v + ((s.ws.levelComp * t.pot.main.measured / 1000 : Nat) : Int) ∧
    (s.pot.levelGood = false → t.pot.levelRun = min (s.pot.levelRun + 1) 4) ∧
    (s.pot.levelGood = true → s.loaded = true →
      t.pot.high = { s.pot.high with
        count := if decide ((s.ws.levelHigh : Int) < t.pot.level) = s.pot.high.set then 0 else s.pot.high.count + 1 } ∧
      t.pot.low = { s.pot.low with
        count := if decide (t.pot.level < s.ws.levelLow) = s.pot.low.set then 0 else s.pot.low.count + 1 } ∧
      t.pot.lowlow = { s.pot.lowlow with
        count := if decide (t.pot.level < s.ws.levelLowLow) = s.pot.lowlow.set then 0 else s.pot.lowlow.count + 1 })
  bad : (∀ v, reading = some v → v < 0 ∨ 1000 < v) →
    t.pot.levelGood = false ∧ t.pot.levelRun = 0 ∧ t.pot.level = s.pot.level ∧
    (s.pot.levelGood = true → Pending t .potEvent ∧ t.pot.high.count = 0 ∧ t.pot.low.count = 0 ∧ t.pot.lowlow.count = 0 ∧
      ∀ n, s.pot.feeder = .feeding n ∨ s.pot.feeder = .settling n → t.pot.feeder = .idle)
  flags : t.pot.high.set = s.pot.high.set ∧ t.pot.low.set = s.pot.low.set ∧ t.pot.lowlow.set = s.pot.lowlow.set

/-- R76: the flux pressure sample `reading` of the interval end from `s` to `t`: the bad samples count while the fluxer is
modulating. -/
structure PressureSampled (s t : State) (reading : Option Int) : Prop where
  band : t.flux.pressureInBand = true ↔ ∃ v, reading = some v ∧ 0 ≤ v ∧ v ≤ 1000 ∧
    (s.ws.pressureLow : Int) ≤ v ∧ v ≤ s.ws.pressureHigh
  count : t.flux.pressureCount =
    if t.flux.pressureInBand = false ∧
        (s.flux.purge ≠ none ∨ ((∃ k, s.flux.duties.get k ≠ 0) ∧ s.track.ref ≠ 0)) then s.flux.pressureCount + 1
    else 0

/-- What the interval end from `s` to `t` does to a record, `r` before and `q` after: the contact samples of R133, and the zone
deviations of R111 where a zone's limit is reached at the sample (R100). -/
structure RecordSampled (s t : State) (r q : Record) : Prop where
  contact : r.origin ≠ .intruder → r.rpm .main ≠ 0 → Over s r (s.ws.waveStart .main) (s.ws.waveEnd .main) →
    q.minSpeed = some (min (r.minSpeed.getD t.track.measured.toNat) t.track.measured.toNat) ∧
    q.minRpm = some (min (r.minRpm.getD t.pot.main.measured) t.pot.main.measured)
  outside : r.origin = .intruder ∨ r.rpm .main = 0 ∨ ¬ Over s r (s.ws.waveStart .main) (s.ws.waveEnd .main) →
    q.minSpeed = r.minSpeed ∧ q.minRpm = r.minRpm
  zones : ∀ z : Zone, q.zoneMask.getLsbD z.val = true ↔ r.zoneMask.getLsbD z.val = true ∨
    ((s.thermal.inputs.get (zoneInput z)).state = .good ∧ s.thermal.latches.get z = false ∧
      t.thermal.latches.get z = true ∧ r.origin ≠ .intruder ∧
      Over s r (s.ws.zoneStart z) (s.ws.zoneEnd z) ∧ r.zone z ≠ 0)

/-- R80: a sample enters the ring, in place of the oldest where the ring is full. -/
def RingTakes (l m : List Int) (v : Int) : Prop :=
  (l.length < 4 → m = l ++ [v]) ∧ (l.length = 4 → m = l.tail ++ [v])

/-- R80 to R82: the sample `reading` of an input, `i` before and `j` after; the changes of its state are commands of their own. -/
structure InputSampled (i j : Input) (reading : Option Int) : Prop where
  good : ∀ v, reading = some v → -500 ≤ v → v ≤ 6000 → RingTakes i.ring j.ring v ∧
    j = { i with
          ring := j.ring
          seen := if i.state = .filling then i.seen + 1 else i.seen
          good := if i.state = .good then i.good else i.good + 1
          bad := if i.state = .good then 0 else i.bad }
  bad : (∀ v, reading = some v → v < -500 ∨ 6000 < v) →
    j = { i with
          ring := if i.state = .faulted then [] else i.ring
          seen := if i.state = .filling then i.seen + 1 else i.seen
          good := if i.state = .good then i.good else 0
          bad := if i.state = .good then i.bad + 1 else i.bad }

/-- R80 and R82: the PV of an input: the mean of its four samples, truncated toward zero, while it is GOOD; 7FFFh otherwise. -/
def PvFormed (i : Input) : Prop :=
  (i.state = .good → i.ring.length = 4 → i.pv = some (i.ring.sum.tdiv 4)) ∧ (i.state ≠ .good → i.pv = none)

/-- R86: the pot SP and the ramp remainder after a boundary, `sp'` and `rem'`, from those before, the target and the PV. -/
structure Ramped (rate : Nat) (target sp : Int) (rem : Nat) (pv : Option Int) (sp' : Int) (rem' : Nat) : Prop where
  off : target = 0 → sp' = 0 ∧ rem' = 0
  blind : target ≠ 0 → sp = 0 → pv = none → sp' = 0 ∧ rem' = 0
  start : target ≠ 0 → sp = 0 → ∀ v, pv = some v → sp' = min v target ∧ rem' = 0
  up : target ≠ 0 → sp ≠ 0 → sp < target → ∀ move : Nat, move = (rem + rate) / 60 →
    sp' = min (sp + move) target ∧ rem' = if sp' = target then 0 else (rem + rate) % 60
  down : target ≠ 0 → sp ≠ 0 → target < sp → ∀ move : Nat, move = (rem + rate) / 60 →
    sp' = max (sp - move) target ∧ rem' = if sp' = target then 0 else (rem + rate) % 60
  still : target ≠ 0 → sp = target → sp' = sp ∧ rem' = rem

/-- R87 to R89: the computation of a loop whose record at the boundary is `l` and whose SP there is `sp`, from its gains, its PV
and HEAT_AUTH: the integral `a` and the request `d`. -/
structure Controlled (kp ki : Nat) (l : Loop) (sp : Int) (pv : Option Int) (auth : Bool) (a : Int) (d : Nat) : Prop where
  off : sp = 0 → d = 0 ∧ a = 0
  blind : sp ≠ 0 → pv = none → d = 0 ∧ a = l.integral
  runs : sp ≠ 0 → ∀ v e p trial u : Int, pv = some v → e = max (-2000) (min 2000 (sp - v)) → p = (kp * e).tdiv 10 →
    trial = max 0 (min 100000 (l.integral + (ki * e).tdiv 10)) → u = p + trial.tdiv 100 →
    a = (if auth = false ∨ (1000 < u ∧ 0 < e) ∨ (u < 0 ∧ e < 0) ∨ (0 < e ∧ l.grant < l.request) then l.integral
      else trial) ∧
    (d : Int) = max 0 (min 1000 (p + a.tdiv 100))

/-- R93: the pot's eligible request at the heater period boundary from `s` to `t`. -/
def PotEligible (s t : State) (d : Nat) : Prop :=
  (s.permit = true ∧ (s.thermal.inputs.get 6).state = .good ∧ overtemp s = false ∧ .estop ∉ s.modes.causes ∧
      .potOvertemp ∉ s.modes.causes ∧ .potSensor ∉ s.modes.causes ∧ s.ws.rating 0 + s.ws.rating 1 ≠ 0 →
    d = t.thermal.pot.request) ∧
  (s.permit = false ∨ (s.thermal.inputs.get 6).state ≠ .good ∨ overtemp s = true ∨ .estop ∈ s.modes.causes ∨
      .potOvertemp ∈ s.modes.causes ∨ .potSensor ∈ s.modes.causes ∨ s.ws.rating 0 + s.ws.rating 1 = 0 →
    d = 0)

/-- R93: a zone's eligible request at the heater period boundary from `s` to `t`. -/
def ZoneEligible (s t : State) (z : Zone) (d : Nat) : Prop :=
  (s.permit = true ∧ (s.thermal.inputs.get (zoneInput z)).state = .good ∧ s.thermal.latches.get z = false ∧
      s.ws.rating (zoneOutput z) ≠ 0 →
    d = (t.thermal.zones.get z).request) ∧
  (s.permit = false ∨ (s.thermal.inputs.get (zoneInput z)).state ≠ .good ∨ s.thermal.latches.get z = true ∨
      s.ws.rating (zoneOutput z) = 0 →
    d = 0)

/-- R93 to R95: the allocation of the heater period boundary from `s` to `t`, the mode unchanged: each loop's grant is its share
of the budget, the pot's out of the whole and the zones' in proportion out of what is left, and BUDGET_LIMITED says whether it is
below the eligible request. -/
def Allocated (s t : State) : Prop :=
  ∀ (d r g : Nat) (e : Tab6 Nat) (left total : Nat), PotEligible s t d → (∀ z, ZoneEligible s t z (e.get z)) →
    r = s.ws.rating 0 + s.ws.rating 1 →
    g = (if d * r ≤ 1000 * s.ws.budget then d else d * (1000 * s.ws.budget) / (d * r)) →
    left = 1000 * s.ws.budget - g * r →
    total = (e.get 0 * s.ws.rating 2) + (e.get 1 * s.ws.rating 3) + (e.get 2 * s.ws.rating 4)
      + (e.get 3 * s.ws.rating 5) + (e.get 4 * s.ws.rating 6) + (e.get 5 * s.ws.rating 7) →
    t.modes.mode = s.modes.mode →
    t.thermal.pot.grant = g ∧
    (t.thermal.pot.limited = true ↔ t.thermal.pot.grant < d) ∧
    ∀ z, (t.thermal.zones.get z).grant = (if total ≤ left then e.get z else e.get z * left / total) ∧
      ((t.thermal.zones.get z).limited = true ↔ (t.thermal.zones.get z).grant < e.get z)

/-- R92 and R98: what the command `c` does to the grants and outputs from `s` to `t`. Between boundaries a grant stays, or a cut
that stands in `t` has made it 0; an output switches on with its stretch alone, and off with it or by such a cut. At a boundary
the grants are allocated. -/
structure GrantStep (c : Instr) (s t : State) : Prop where
  pot : c ≠ .heaterPeriodBoundary →
    t.thermal.pot.grant = s.thermal.pot.grant ∨ (t.thermal.pot.grant = 0 ∧ (NotPermitted t ∨ PotCut t))
  zone : c ≠ .heaterPeriodBoundary → ∀ z, (t.thermal.zones.get z).grant = (s.thermal.zones.get z).grant ∨
    ((t.thermal.zones.get z).grant = 0 ∧ (NotPermitted t ∨ ZoneCut t z))
  on : c ≠ .heaterPeriodBoundary → ∀ k, c ≠ .heaterOutputSwitch k →
    t.thermal.outputs.get k = true → s.thermal.outputs.get k = true
  off : c ≠ .heaterPeriodBoundary → ∀ k, c ≠ .heaterOutputSwitch k →
    s.thermal.outputs.get k = true → t.thermal.outputs.get k = true ∨ NotPermitted t ∨
      ((k = 0 ∨ k = 1) ∧ PotCut t) ∨ ∃ z, k = zoneOutput z ∧ ZoneCut t z
  boundary : c = .heaterPeriodBoundary → Allocated s t

/-- R7, R8 and R128: what the command `c` does to the stability flags from `s` to `t`: one that changes a reference clears its
flag and its window counts; the counts advance at a status interval end alone, and a flag is set by its own command alone. -/
structure StabilityStep (c : Instr) (s t : State) : Prop where
  speed : t.track.ref ≠ s.track.ref → t.track.speedStable = false ∧ t.track.passes = 0 ∧ t.track.misses = 0
  speedSet : s.track.speedStable = false → t.track.speedStable = true → c = .speedStableSet
  speedCounts : (∀ i ws, c ≠ .statusIntervalEnd i ws) →
    (t.track.passes = s.track.passes ∨ t.track.passes = 0) ∧ (t.track.misses = s.track.misses ∨ t.track.misses = 0)
  pump : ∀ w, (t.pot.pump w).ref ≠ (s.pot.pump w).ref → (t.pot.pump w).stable = false ∧ (t.pot.pump w).count = 0
  pumpSet : ∀ w, (s.pot.pump w).stable = false → (t.pot.pump w).stable = true → c = .pumpStableSet w
  pumpCounts : (∀ i ws, c ≠ .statusIntervalEnd i ws) →
    ∀ w, (t.pot.pump w).count = (s.pot.pump w).count ∨ (t.pot.pump w).count = 0

/-- R7 and R8: the speed window that ends at the status interval end from `s` to `t`: the tests of the measured speed m against
the reference r of its end, within 2 % for SPEED_STABLE, beyond 10 % for the deviation. A window in which the reference changed
counts for nothing, and so does the short one after a port reset (R6). Where a consequence of the interval end changes the
reference after the tests, the flag and the counts are clear and the new window knows it. -/
structure SpeedWindow (s t : State) (m : Int) (r : Nat) : Prop where
  short : s.track.shortWindow = true → t.track.refMoved = false → t.track.speedStable = s.track.speedStable ∧
    t.track.passes = s.track.passes ∧ t.track.misses = s.track.misses
  stable : s.track.shortWindow = false → (t.track.speedStable = true ↔
    s.track.speedStable = true ∧ (m - r).natAbs * 50 ≤ r ∧ t.track.refMoved = false)
  passes : s.track.shortWindow = false → t.track.passes =
    if (m - r).natAbs * 50 ≤ r ∧ s.track.refMoved = false ∧ t.track.refMoved = false then s.track.passes + 1 else 0
  misses : s.track.shortWindow = false → t.track.misses =
    if (r ≠ 0 ∧ r < (m - r).natAbs * 10) ∧ s.track.refMoved = false ∧ t.track.refMoved = false then s.track.misses + 1 else 0
  moved : t.track.refMoved = true → t.track.speedStable = false ∧ t.track.passes = 0 ∧ t.track.misses = 0
  still : t.track.refMoved = false → t.track.ref = r
  stopped : (s.modes.mode = .off ∨ s.modes.mode = .economy ∨ s.modes.mode = .halted) → r = 0 → t.track.refMoved = false

/-- R128: the pump window that ends at the status interval end from `s`, the pump `p` before and `q` after: the test of the
measured speed against the tolerance of the reference of its end. As with the speed window, a changed reference and the short
window count for nothing. -/
structure PumpWindow (s : State) (p q : Pump) (tol : Nat) : Prop where
  short : s.pot.shortWindow = true → q.refMoved = false → q.stable = p.stable ∧ q.count = p.count
  stable : s.pot.shortWindow = false → (q.stable = true ↔
    p.stable = true ∧ ((q.measured : Int) - p.ref).natAbs * 100 ≤ tol * p.ref ∧ q.refMoved = false)
  count : s.pot.shortWindow = false → q.count =
    if ((q.measured : Int) - p.ref).natAbs * 100 ≤ tol * p.ref ∧ p.refMoved = false ∧ q.refMoved = false then p.count + 1 else 0
  moved : q.refMoved = true → q.stable = false ∧ q.count = 0
  still : q.refMoved = false → q.ref = p.ref
  stopped : (s.modes.mode = .off ∨ s.modes.mode = .economy ∨ s.modes.mode = .halted) → p.ref = 0 → q.refMoved = false

/-- R90: the settle test of a loop at a boundary, `l` before and `m` after, from the setpoint `sp` of the boundary, the PV and
the settle band. -/
def SettleTested (l m : Loop) (sp : Int) (pv : Option Int) (band : Nat) : Prop :=
  (pv = none → m.count = 0 ∧ m.settled = false) ∧
  ∀ v, pv = some v →
    m.count = (if sp = l.target ∧ (l.target - v).natAbs ≤ band then l.count + 1 else 0) ∧
    m.settled = (l.settled && decide ((l.target - v).natAbs ≤ 2 * band))

/-- The slots that read POSTED in memory `m` and REJECTED in memory `n`: the part rejected them between the two (R36). -/
def rejectedSlots (m n : Memory) : List SlotIx :=
  allSlots.filter fun k => slotState m k == .posted && slotState n k == .rejected

/-- R37: from memory `m` to memory `n` the closed-slot count advances by one for each of `done` slots closed DONE and for each
slot rejected. -/
def CountsCloses (m n : Memory) (done : Nat) : Prop :=
  n.read 6 = m.read 6 + BitVec.ofNat 16 (done + (rejectedSlots m n).length)

/-- R68: what the running pulses that satisfy `p` are credited with when they end now, in nanolitres: flow times the elapsed
milliseconds, at most q. -/
def pulseCredits (s : State) (p : Pulse → Bool) : Nat :=
  (allIdx8.map fun k =>
    match s.flux.pulses.get k with
    | some u => if p u then s.ws.flow k * min (s.clock - u.start).toNat u.q else 0
    | none => 0).sum

/-- R78: what a running purge is credited with now: the flow through all eight nozzles over the milliseconds since its latest
credit, at most what remained. -/
def purgeCredit (s : State) : Nat :=
  match s.flux.purge with
  | some g => (allIdx8.map fun k => s.ws.flow k).sum * min (s.clock - g.creditedAt).toNat g.remaining
  | none => 0

/-- R69: what a credit of `v` nanolitres takes from the tank of `s`, the remainder below one microlitre: the remainder takes it,
each 1000 of it take one from the counter while that is above 0, and the mirror follows a counter that changes. -/
structure TankTakes (s t : State) (v : Nat) : Prop where
  counter : s.flux.remainder < 1000 → t.flux.counter = s.flux.counter - (s.flux.remainder + v) / 1000
  remainder : s.flux.remainder < 1000 → t.flux.remainder = (s.flux.remainder + v) % 1000
  mirror : t.mem.read32 4 = if t.flux.counter = s.flux.counter then s.mem.read32 4 else t.flux.counter % 2 ^ 32

/-- R68 and R69: the flux of a record, `r` before and `q` after the running pulses have ended now: it takes the credits of its
own, and saturates. -/
def FluxCredited (s : State) (r q : Record) : Prop :=
  r.flux < 2 ^ 32 → q.flux = min (r.flux + pulseCredits s fun u => u.ordinal == r.ordinal) (2 ^ 32 - 1)

/-- R65 and R66: the clamp of record `r`, of length `l` and with windows `ws`, against position `p`, from `s` to `t`. -/
structure WindowsClamped (s t : State) (r : Record) (l : Nat) (ws : List Window) (p : Pos) : Prop where
  /-- A window that starts beyond the board is gone, its edges with it. -/
  beyond : ∀ k w, ws[k]? = some w → l ≤ 10 * w.start →
    (∀ e ∈ t.flux.edges, e.ordinal = r.ordinal → e.window ≠ k) ∧ ∀ a ∈ t.flux.active, a.ordinal = r.ordinal → a.window ≠ k
  /-- A later CLOSE edge of another window stands at the clamp position, unless its active window has ended there. -/
  moved : ¬ InhibitBegins s t → ∀ e ∈ s.flux.edges, ∀ w, ws[e.window]? = some w → 10 * w.start < l →
    e.ordinal = r.ordinal → e.opens = false → strictlyAfter e.pos p = true →
    (atOrAfter s.track.pos p = false ∨ ∀ a ∈ s.flux.active, a.ordinal = r.ordinal → a.window ≠ e.window) →
    { e with pos := p } ∈ t.flux.edges
  /-- No CLOSE edge of the record stands beyond it. -/
  short : ∀ e ∈ t.flux.edges, e.ordinal = r.ordinal → e.opens = false → strictlyAfter e.pos p = false
  /-- Nothing else joins; the edge of a window that has ended at the clamp position is gone. -/
  joins : ∀ e ∈ t.flux.edges, e ∈ s.flux.edges ∨ ∃ d ∈ s.flux.edges, e = { d with pos := p } ∧ d.ordinal = r.ordinal ∧
    d.opens = false ∧ strictlyAfter d.pos p = true ∧
    (atOrAfter s.track.pos p = false ∨ ∀ a ∈ s.flux.active, a.ordinal = r.ordinal → a.window ≠ d.window)
  /-- Where P has come to the clamp position, no window of the record stays active. -/
  passed : atOrAfter s.track.pos p = true → ∀ a ∈ t.flux.active, a.ordinal ≠ r.ordinal
  /-- The edges of other records stay, and of this one's other windows the OPEN edges and the CLOSE edges that are not later. -/
  edges : ¬ InhibitBegins s t → ∀ e ∈ s.flux.edges,
    e.ordinal ≠ r.ordinal ∨
        (∃ w, ws[e.window]? = some w ∧ 10 * w.start < l ∧ (e.opens = true ∨ strictlyAfter e.pos p = false)) →
      e ∈ t.flux.edges
  /-- The active windows of other records stay, and those of this one that the clamp does not end. -/
  active : ¬ InhibitBegins s t → ∀ a ∈ s.flux.active,
    a.ordinal ≠ r.ordinal ∨
        (atOrAfter s.track.pos p = false ∧ ∃ w, ws[a.window]? = some w ∧ 10 * w.start < l) →
      a ∈ t.flux.active
  /-- A pulse ends with its window, credited, and no other pulse ends. -/
  pulses : ∀ ended : Pulse → Bool,
    (∀ u, ended u = true ↔ ∃ a ∈ s.flux.active, a.ordinal = u.ordinal ∧ a.window = u.window ∧ a ∉ t.flux.active) →
    ¬ InhibitBegins s t →
    (∀ k, t.flux.pulses.get k = (s.flux.pulses.get k).filter fun u => !ended u) ∧
    TankTakes s t (pulseCredits s ended) ∧
    ∀ (j : Nat) (x q : Record), s.track.records[j]? = some x → t.track.records[j]? = some q → x.flux < 2 ^ 32 →
      q.flux = min (x.flux + pulseCredits s fun u => ended u && u.ordinal == x.ordinal) (2 ^ 32 - 1)

/-- R68: window `w` owns the pulse of `lane` in `s`: it is active, carries the lane, and has the lane's duty; of the windows of
equal duty its record is the oldest, and within the record its index the lowest. -/
def OwnsLane (s : State) (lane : Idx8) (w : ActiveWindow) : Prop :=
  w ∈ s.flux.active ∧ w.lanes.getLsbD lane.val = true ∧ w.duty = s.flux.duties.get lane ∧
    ∀ v ∈ s.flux.active, v.lanes.getLsbD lane.val = true → v.duty = w.duty →
      let age := fun o => (s.track.records.map (·.ordinal)).idxOf o
      age w.ordinal < age v.ordinal ∨ (age w.ordinal = age v.ordinal ∧ w.window ≤ v.window)

/-- R16 (with R17, R37, R67, R167, R169, R170): what the loss of the boards `lost` leaves in `t`: each has left the list, the
held slots and the spray list, its slot reads DONE with outcome LOST and is counted, or, of an intruder, the notice is pending;
the other records keep their places; BOARD_LOST is raised once, after the end of COOLDOWN where the list has become empty. -/
structure LostClosed (s t : State) (lost : List Record) : Prop where
  causes : t.modes.causes = if .boardLost ∈ s.modes.causes then s.modes.causes else s.modes.causes ++ [.boardLost]
  mode : .boardLost ∉ s.modes.causes → Pending t .halted ∧
    (s.modes.mode = .cooldown → t.track.records = [] → s.outfeed.state = .empty → t.modes.mode = .off) ∧
    (s.modes.mode.runs = true →
      s.modes.mode ≠ .cooldown ∨ t.track.records ≠ [] ∨ s.outfeed.state ≠ .empty → t.modes.mode = .halted)
  closed : ∀ q ∈ lost,
    (∀ e ∈ t.flux.edges, e.ordinal ≠ q.ordinal) ∧ (∀ w ∈ t.flux.active, w.ordinal ≠ q.ordinal) ∧
    (q.slot? = none → Pending t .intruder) ∧
    ∀ n, q.slot? = some n →
      t.mem.read (slotAt n) = 3 ∧ t.mem.read (slotAt n + 17) = 2 ∧ t.mem.read (slotAt n + 18) = 0 ∧
      t.mem.read (slotAt n + 25) = 0 ∧ Pending t .slotClosed
  count : CountsCloses s.mem t.mem (lost.filterMap Record.slot?).length
  kept : Keeps
    { s.causesOf t with
      track :=
        { s.track with
          owner := t.track.owner
          records := lost.foldl (fun l _ => l.eraseP fun q => q.stage != .exiting) s.track.records }
      docket := { s.docket with held := (lost.filterMap Record.slot?).foldl List.erase s.docket.held } } t

/-- R47: the gate of `g` after its close out of LATE. -/
def Gate.closedFromLate (g : Gate) : Gate :=
  { g with
    state := .closed, ready := false, lateLimit := none, lateWaits := false
    readyCount := if g.ready then g.readyCount + 1 else g.readyCount }

/-- R58 and R59: the drive of `s` has gone to FAULT in `t`, the move target at `target`, with the halt cause. -/
def WidthFaulted (s t : State) (target : Nat) : Prop :=
  Halts s t .widthDrive ∧ t.gate.width = { state := .fault, pos := 0, target := target, travel := 0 }

/-- R36: slot `n` of memory `m` reads REJECTED with the reason of code `reason`, its other result words 0. -/
def RejectedWith (m : Memory) (n : SlotIx) (reason : Word) : Prop :=
  m.read (slotAt n) = 4 ∧ m.read (slotAt n + 18) = reason ∧
    ∀ k, 16 ≤ k → k < 35 → k ≠ 18 → m.read (slotAt n + k) = 0

end Sys2Proof.Machine
end

