-- ==== Sys2Proof/Certificates/Slice0/Obligations.lean ====
section
/-! DEFINITION. The statements for the provers. A rule number names the rule of the spec a clause formalises; where a statement
rests on a choice of the model, its text says so and names the log entry. A frame is written `Keeps a t`: the state `t` differs
from `a` only in what the re-forming rules of the chapters write (Safety.lean lists it field by field). -/

open Sys2Proof Sys2Proof.Machine Sys2Proof.Config

/-! ## The step -/

/-- A step takes the command at the front of the queue. -/
def Obligations.StepRunsTheFrontCommand : Prop :=
  ∀ (s : State) (c : Instr) (rest : List Instr), s.pending = c :: rest →
    step s = exec c { s with pending := rest }

/-- The model's choice (log entry 1): on an empty queue the first of the part's own events that is due is taken, and where none
is due one millisecond passes: the line clock (R188) and every running timer move, and nothing else. -/
def Obligations.EmptyQueueTakesDueEventOrMillisecond : Prop :=
  ∀ s : State, s.pending = [] →
    (∀ c, dueNow s = some c → step s = exec c s) ∧
    (dueNow s = none → ∃ t, step s = .next t ∧
      t = { s with clock := s.clock + 1, modes := t.modes, extr := t.extr, pot := t.pot, port := t.port } ∧
      t.modes =
        { s.modes with
          idle := s.modes.idle.map fun e => min (e + 1) (1000 * s.ws.idleTime)
          runOn := s.modes.runOn.map fun r => r - 1 } ∧
      t.extr =
        { s.extr with
          grace1 := s.extr.grace1.map fun r => r - 1, grace2 := s.extr.grace2.map fun r => r - 1, sampled := false } ∧
      t.pot = { s.pot with feedTest := false, feeder := t.pot.feeder } ∧
      (∀ r, s.pot.feeder = .feeding r → t.pot.feeder = .feeding (r - 1)) ∧
      (∀ r, s.pot.feeder = .settling r → t.pot.feeder = .settling (r - 1)) ∧
      ((s.pot.feeder = .idle ∨ s.pot.feeder = .jammed) → t.pot.feeder = s.pot.feeder) ∧
      t.port =
        { s.port with
          supElapsed :=
            if s.port.supRunning then min (s.port.supElapsed + 1) (1000 * s.ws.supervision)
            else s.port.supElapsed })

/-! ## Rules that every step keeps -/

/-- Memory keeps its canonical form, which is the model's own (log entry 4); and the part code and the layout version read as
R188 gives them: that a host write to those two words has no effect is the model's reading (log entry 36). -/
def Obligations.MemoryFormIsKept : Prop :=
  ∀ s t : State, step s = .next t → (s.mem.wf → t.mem.wf) ∧ (HeaderFormed s → HeaderFormed t)

/-- After every step: the conveyor speed reference is what R5 says, both pump references are what R127 says, every target and
governing board is what R85, R105 to R109 and R126 say, with the candidates of R104 and R126, and where they give no value (in
PRODUCTION without a candidate, in WARMUP without a next recipe, of a pump in COOLDOWN with records but no candidate) the target
that stood stays, as within an encoder count at each of its tenths; and a wave drop stands as R131 and R132 say. A command that changes a reference clears SPEED_STABLE, or PUMP_STABLE, and its window counts; the counts advance at a
status interval end alone; and either flag comes up by its own command alone (R7, R8, R128). A conveyor stop leaves the marks of
R9 and R130; those of a stop within an encoder count are made at its tenth (log entry 29), as that command's statement says. -/
def Obligations.ReferenceRulesAreKept : Prop :=
  (∀ s t : State, step s = .next t →
    (ReferenceFormed s → ReferenceFormed t) ∧ (PumpsFormed s → PumpsFormed t) ∧
    (TargetsFormed s → TargetsFormed t) ∧ (SetupChecked s → DropFormed s → DropFormed t) ∧
    StretchesFormed t) ∧
  ∀ (c : Instr) (s t : State), exec c s = .next t →
    StabilityStep c s t ∧ ((∀ d, c ≠ .encoderCount d) → GateFormed s → TargetsHeld s t) ∧
    ((∀ d, c ≠ .encoderCount d) → SetupChecked s → s.track.ref ≠ 0 → t.track.ref = 0 → StopMarked s t)

/-- No output is on and no grant stands where heating is not permitted, or where the loop's fault stands (R92, R98), and every
step keeps it so. Between boundaries a command leaves a grant or cuts it to 0, so the grants that a lost permit has cut stay 0
until the next boundary, also where the permit returns; and the boundary allocates normally (R92 to R95). -/
def Obligations.HeaterCutRuleIsKept : Prop :=
  (∀ s t : State, step s = .next t → HeatersCut s → HeatersCut t) ∧
  ∀ (c : Instr) (s t : State), exec c s = .next t → GrantStep c s t

/-- The granted power never exceeds the budget (R95). -/
def Obligations.PowerBudgetIsKept : Prop :=
  ∀ s t : State, step s = .next t → HeatersCut s ∧ WithinBudget s → HeatersCut t ∧ WithinBudget t

/-- Every loop's grant, request and integral stay in range (R87, R88, R95), and SETTLED fits HEAT_AUTH and the target (R91). A
command that changes a loop's target clears its SETTLED and its settle count; a target of 0 apart, SETTLED comes up at LOOP_SETTLED
of that loop alone; and the count goes on at a heater period boundary alone (R90). That SETTLED reads set also where a target has
just become 0 is the model's choice (log entry 51). -/
def Obligations.LoopRangesAreKept : Prop :=
  (∀ s t : State, step s = .next t → (LoopsInRange s → LoopsInRange t) ∧ (SettledFormed s → SettledFormed t)) ∧
  ∀ (c : Instr) (s t : State), exec c s = .next t → c ≠ .portReset → (∀ ws, c ≠ .powerOnReset ws) → ∀ l : LoopId,
    SettleStep (c = .loopSettled l) (c = .heaterPeriodBoundary) (t.thermal.auth = true) (s.thermal.loop l) (t.thermal.loop l)

/-- In a running mode no halt cause stands (R170); the fan commands follow the mode and the run-on timer (R137, R138); the idle
timer, the wake arm and the supervision timer stand where R166, R167 and R174 say; the line class, the changeover phase, its
target and the rails stand together (R51, R53 to R56), and a phase ends only on its conditions (R53 to R55). No COOLDOWN stands
with an empty machine, no PRODUCTION with HOST_LOST and an empty list (R167, R169); and a command, no reset, that changes the mode
takes one of the transitions of R163, on the cause that the table names, and leaves MODE_CHANGED pending. Three clauses are
the model's choice: that the wake arm is held in ECONOMY alone (log entry 48), that a changeover walks through several phases in
one evaluation (log entry 9), and when the values are re-formed (log entry 27). -/
def Obligations.ModeRulesAreKept : Prop :=
  (∀ s t : State, step s = .next t →
    (HaltFormed s → HaltFormed t) ∧ (FansFormed s → FansFormed t) ∧ (TimersFormed s → TimersFormed t) ∧
    (ModeStands s → ModeStands t) ∧ (ClassFormed s → ClassFormed t ∧ ChangeoverStep s t)) ∧
  ∀ (c : Instr) (s t : State), exec c s = .next t → c ≠ .portReset → (∀ ws, c ≠ .powerOnReset ws) → ModeStep c s t

/-- ENTRY_READY, hold set, late limit and offer belong to their gate states (R33, R44, R45, R47); the hold set holds exactly the
reasons of Table 3-2 whose conditions hold (R41, R42), and a CLOSED gate has one (R44). An evaluation sets HOLD_CHANGED exactly
where it changes the hold set, and after every command but the resets that has changed the set the notice is pending (R41). A
gate that opens fixes its offer as R33 says, keeps it in OPEN and LATE, and a gate that goes to LATE has its late limit 50.0 mm
ahead (R45). A command that changes the outfeed state has the gate evaluate, with its slot scan, whether or not OUTFEED's truth
changes with it: where the gate stays CLOSED or RECEIVING, the posted slots stand as a scan leaves them (R22 to R24, R43, R160; that
the report is an evaluation of its own is log entry 58). A pending change that defers the close of R47, or the test of R16, is waited for until it is accepted or dropped,
whatever P does meanwhile. That CHANGEOVER also stands with a next class and no line class is the model's choice (log entry 37),
and so is what ends a wait where the spec names no end (log entry 44). -/
def Obligations.GateRuleIsKept : Prop :=
  (∀ s t : State, step s = .next t →
    (GateFormed s → GateFormed t) ∧ (HoldsFormed s → HoldsFormed t) ∧ (ClosedHeld s → ClosedHeld t) ∧
    (WaitsFormed s → WaitsFormed t ∧ WaitsStep s t) ∧ (OutfeedTold s → OutfeedTold t) ∧
    (GateFormed s → s.gate.state ≠ .opened → t.gate.state = .opened → ∃ o, t.docket.offer = some o ∧ OfferTaken t o) ∧
    (s.gate.state ≠ .late → t.gate.state = .late → t.gate.lateLimit = some (t.track.pos + 500)) ∧
    (s.gate.state = .opened → t.gate.state = .opened ∨ t.gate.state = .late → t.docket.offer = s.docket.offer)) ∧
  (∀ (c : Instr) (s t : State), exec c s = .next t → c ≠ .portReset → (∀ ws, c ≠ .powerOnReset ws) →
    (t.gate.holds ≠ s.gate.holds → Pending t .holdChanged) ∧
    (OutfeedTold s → t.outfeed.state ≠ s.outfeed.state → s.gate.state = .closed ∨ s.gate.state = .receiving →
      t.gate.state = .closed ∨ t.gate.state = .receiving → t.docket.source = .docket → t.loaded = true → Scanned t)) ∧
  ∀ s : State, Pending s.gateEval .holdChanged ↔
    Pending s .holdChanged ∨ s.gateEval.gate.holds ≠ s.gate.holds

/-- HORN and BEACON follow the alarm table (R149); BOARD_AVAILABLE_OUT and the drive command follow the outfeed state and the
mode (R155, R156); the stop request is raised by its two conditions and stands until EMPTY (R158); the NOTICE line follows
NOTICE and NOTICE_EN (R184); the fluxer's inhibit reasons follow their conditions (R72); a point has severity NONE exactly while
it is not active (Table 8-3, R147); the four output lines' transition counts advance with their lines (R44, R149, R156): by how
much in one step is the model's reading, which re-forms each line at the end of the operation (log entry 27). -/
def Obligations.LineRulesAreKept : Prop :=
  (∀ s t : State, step s = .next t →
    (AnnunciatorsFormed s → AnnunciatorsFormed t) ∧ (OutfeedFormed s → OutfeedFormed t) ∧
    (NextBoardHeld s → NextBoardHeld t) ∧ (NoticeLineFormed s → NoticeLineFormed t) ∧
    (InhibitFormed s → InhibitFormed t) ∧
    (SeverityFormed s → SeverityFormed t) ∧ (CountsFormed s → CountsFormed t) ∧
    ((∀ rest, s.pending ≠ .portReset :: rest ∧ ∀ ws, s.pending ≠ .powerOnReset ws :: rest) → CountStep s t)) ∧
  ∀ (c : Instr) (s t : State), exec c s = .next t → c ≠ .portReset → (∀ ws, c ≠ .powerOnReset ws) →
    OutfeedFormed s → NextBoardHeld s → StopRequestStep c s t

/-- The in-flight list never holds more than 16 records, its leads in order (R10, R12), and the held slots are those of its
non-intruder records (R30). -/
def Obligations.ListAndHeldSlotRulesAreKept : Prop :=
  ∀ s t : State, step s = .next t →
    (ListBounded s → ListBounded t) ∧ (HeldFormed s → HeldFormed t) ∧
    (LeadsComparable s → ListOrdered s → ListOrdered t)

/-- The tank counter stays within its bound (R69, R71), and its low-mark state is what R70 says; a command that brings the
counter to 0, or the state to BELOW, leaves FLUX_EVENT pending (R70); the working set has passed its checks (R182); the spray
list stays within its 32 entries and in order, each edge of a record in the list (R62 to R64, R66). An edge joins at an admission
alone, and an edge or an active window leaves at a modulation boundary, by the clamp, with its record or where the inhibit begins
(R63 to R67, R73); a pulse starts at a boundary alone, a purge at PURGE_FLUXER alone (R61, R66, R68, R77, R78). The shot history holds at
most 20 entries (R124), and on an empty queue none is older than its age: that is the model's choice, which takes a due event
before a millisecond passes (log entry 1); that the valve of a pulse of the whole period stays open after its end is log entry 53.
The bound of the counter before the first refill, 0 at power-on, is the model's
reading (log entry 21). -/
def Obligations.TankBoundIsKept : Prop :=
  (∀ s t : State, step s = .next t →
    (TankBounded s → TankBounded t) ∧ (LowFormed s → LowFormed t) ∧ (SetupChecked s → SetupChecked t) ∧
    (SetupChecked s → HistoryBounded s → HistoryBounded t) ∧ (EdgesBounded s → EdgesBounded t) ∧
    (EdgesComparable s → EdgesOrdered s → EdgesOrdered t) ∧ (EdgesOwned s → EdgesOwned t) ∧
    (s.pending = [] → AgesFormed s → AgesFormed t)) ∧
  (∀ (c : Instr) (s t : State), exec c s = .next t → c ≠ .portReset → (∀ ws, c ≠ .powerOnReset ws) →
    TankStep c s t ∧ FluxStep c s t) ∧
  ∀ a : State, FluxSettles a a.settle

/-- The state after power-on reset meets every one of these rules. The model's choice in it: its pins at rest (log entry 2), the
values that the spec leaves open (log entries 21 and 32), what unwritten memory reads as (log entry 4), and CHANGEOVER without a
line class (log entry 37). -/
def Obligations.ResetStateMeetsEveryRule : Prop :=
  State.reset.mem.wf ∧ ReferenceFormed State.reset ∧ PumpsFormed State.reset ∧ HeatersCut State.reset ∧
    WithinBudget State.reset ∧ LoopsInRange State.reset ∧ HaltFormed State.reset ∧ GateFormed State.reset ∧
    FansFormed State.reset ∧ AnnunciatorsFormed State.reset ∧ OutfeedFormed State.reset ∧
    NoticeLineFormed State.reset ∧ InhibitFormed State.reset ∧ TimersFormed State.reset ∧ ListBounded State.reset ∧
    HeldFormed State.reset ∧ TankBounded State.reset ∧ HeaderFormed State.reset ∧ TargetsFormed State.reset ∧
    SettledFormed State.reset ∧ DropFormed State.reset ∧ HoldsFormed State.reset ∧ ClosedHeld State.reset ∧
    ClassFormed State.reset ∧ SeverityFormed State.reset ∧ CountsFormed State.reset ∧ ListOrdered State.reset ∧
    SetupChecked State.reset ∧ HistoryBounded State.reset ∧ EdgesBounded State.reset ∧ EdgesOrdered State.reset ∧
    EdgesOwned State.reset ∧ AgesFormed State.reset ∧ WaitsFormed State.reset ∧ NextBoardHeld State.reset ∧ LowFormed State.reset ∧
    ModeStands State.reset ∧ OutfeedTold State.reset

/-! ## Rules about all commands -/

/-- The track position moves only at an encoder count, the working set changes only at LOAD_SETUP, HEAT_AUTH only at its own
writes, and every one of them at a reset (R2, R180, R102). An alarm point changes at a status interval end, at LOAD_SETUP, at
ACK_ALARMS and at its own four commands; a flow or fan point (0 to 3) also where the fan command goes off, with the clear
transition where it is active and its dwell counts at 0; and a point 4 to 7 at no other moment (R140, R141, R147, R148). -/
def Obligations.PositionSetupAndAuthHaveOneOwner : Prop :=
  ∀ (c : Instr) (s t : State), exec c s = .next t → c ≠ .portReset → (∀ ws, c ≠ .powerOnReset ws) →
    ((∀ d, c ≠ .encoderCount d) → t.track.pos = s.track.pos) ∧
    ((∀ ws, c ≠ .loadSetup ws) → t.port.setup = s.port.setup) ∧
    (c ≠ .heatAuthEnable → c ≠ .heatAuthDisable → (∀ v, c ≠ .heatAuthInvalid v) → t.thermal.auth = s.thermal.auth) ∧
    ∀ k, (∀ i ws, c ≠ .statusIntervalEnd i ws) → (∀ ws, c ≠ .loadSetup ws) → (∀ ws, c ≠ .ackAlarms ws) →
      c ≠ .alarmActivation k → c ≠ .alarmSeverityRise k → c ≠ .alarmEscalation k → c ≠ .alarmClear k →
      t.extr.points.get k = s.extr.points.get k ∨
        (k.val < 4 ∧ s.extr.fan = true ∧ t.extr.fan = false ∧
          FanPointCleared (s.extr.points.get k) (t.extr.points.get k) t.clock)

/-- A halt cause leaves the set, and the line leaves HALTED, only at CLEAR, at SHUTDOWN (the mode alone) and at a reset (R169,
R170, R172). -/
def Obligations.CausesAndHaltedStayUntilTheHostActs : Prop :=
  ∀ (c : Instr) (s t : State), exec c s = .next t → c ≠ .portReset → (∀ ws, c ≠ .powerOnReset ws) →
    (∀ ws, c ≠ .clear ws) →
    (∀ x ∈ s.modes.causes, x ∈ t.modes.causes) ∧
    ((∀ ws, c ≠ .shutdown ws) → s.modes.mode = .halted → t.modes.mode = .halted)

/-- The part never writes the host's records: the request record, the setup record and the recipe table read as before every
command that carries no host write (section 12.1, R31, R178). Which commands carry host writes is the model's choice (log entry
5). -/
def Obligations.HostRecordsAreNeverWritten : Prop :=
  ∀ (c : Instr) (s t : State), exec c s = .next t → (∀ ws, c ≠ .powerOnReset ws) → carriedWrites c = [] →
    ∀ a, (0x0040 ≤ a ∧ a < 0x0160) ∨ (0x0360 ≤ a ∧ a < 0x0960) → t.mem.read a = s.mem.read a

/-! ## The resets -/

/-- Power-on reset (R39): the slot states FREE and no other slot word written, the header, the live status block cleared, the
recipe table and the setup record not written, and the docket unit at its start; the status block and the generation count are 0
(R185). That the command carries the contents of memory at power-up is the model's choice (log entry 5), and what a word outside
them reads as (log entry 4). -/
def Obligations.PowerOnResetWritesHeaderAndSlotStates : Prop :=
  ∀ (ws : List HostWrite) (s : State), ∃ t, exec (.powerOnReset ws) s = .next t ∧
    (∀ n, t.mem.read (slotAt n) = 0) ∧
    (∀ n k, 1 ≤ k → k < 64 → t.mem.read (slotAt n + k) = (hostWrites ws []).read (slotAt n + k)) ∧
    t.mem.read 0 = 0x2640 ∧ t.mem.read 1 = 1 ∧ t.mem.read 2 = 1 ∧ t.mem.read 3 = 1 ∧ t.mem.read 4 = 0 ∧
    t.mem.read 5 = 0 ∧ t.mem.read 6 = 0 ∧ t.mem.read 7 = 0 ∧ t.mem.read 8 = 0 ∧ t.clock = 0 ∧
    (∀ a, 0x0160 ≤ a → a < 0x0360 → t.mem.read a = 0) ∧
    (∀ a, (0x0060 ≤ a ∧ a < 0x0160) ∨ (0x0360 ≤ a ∧ a < 0x0960) → t.mem.read a = (hostWrites ws []).read a) ∧
    t.docket.held = [] ∧ t.docket.offer = none ∧ t.docket.candidate = none ∧ t.docket.source = .docket ∧
    t.docket.expected = 1 ∧ t.port.setup = none ∧ ¬ Pending t .slotClosed ∧ t.flux.counter = 0 ∧
    t.port.generation = 0

/-- Port reset and exchange memory (R37, R40, R67, R69): ADMITTED slots close ABORTED_RESET and are counted, every other slot
and the host's records keep their words, a running pulse is credited to the tank alone, E and the tank counter return from their
mirrors, a tank mirror above 50,000,000 as 50,000,000, the reset cause says PORT_RESET. The status block and the generation
count stand as they were, or, where the reset cuts a refresh short, as far as it had come, the count odd (R185), a two-word
field whole or not at all (R187). The model's choices in it: a refresh can run where a status interval end is due at this
moment, and the free value `refreshCut` says whether and how far it had come (log entry 52); the generation count is kept (log
entry 43); the mirror is written with a capped counter (log entry 21). -/
def Obligations.PortResetClosesAdmittedSlots : Prop :=
  ∀ (s : State) (torn : Option (BitVec 512)),
    torn = (if s.clock.toNat % 250 = 0 ∧ s.clock ≠ s.statusAt then Config.refreshCut s.clock s.port.generation else none) →
    ∃ t, exec .portReset s = .next t ∧
    (∀ n, slotState s.mem n = .admitted →
      t.mem.read (slotAt n) = 3 ∧ t.mem.read (slotAt n + 17) = 3 ∧
      (∀ k, 16 ≤ k → k < 35 → k ≠ 17 → t.mem.read (slotAt n + k) = 0) ∧
      (∀ k, (1 ≤ k ∧ k < 16) ∨ (35 ≤ k ∧ k < 64) → t.mem.read (slotAt n + k) = s.mem.read (slotAt n + k))) ∧
    (∀ n, slotState s.mem n ≠ .admitted → ∀ k, k < 64 → t.mem.read (slotAt n + k) = s.mem.read (slotAt n + k)) ∧
    t.mem.read 2 = 2 ∧ t.mem.read 3 = s.mem.read 3 ∧
    t.mem.read 6 =
      s.mem.read 6 + BitVec.ofNat 16 (allSlots.filter fun n => slotState s.mem n == .admitted).length ∧
    (∀ a, a < 2 ∨ (7 ≤ a ∧ a < 0x0160) ∨ (0x0360 ≤ a ∧ a < 0x1000) → t.mem.read a = s.mem.read a) ∧
    t.port.generation =
      (match torn with
       | none => s.port.generation
       | some _ => if s.port.generation.getLsbD 0 then s.port.generation + 2 else s.port.generation + 1) ∧
    (∀ j, j < 512 → t.mem.read (0x0160 + j) =
      match torn with
      | none => s.mem.read (0x0160 + j)
      | some written =>
        if j = 0 then t.port.generation
        else if written.getLsbD (if j - 1 ∈ Config.statusLowWords then j - 1 else j) then (statusBlock s).getD j 0
        else s.mem.read (0x0160 + j)) ∧
    t.docket.expected = s.mem.read 3 ∧
    (∀ c m, s.flux.remainder < 1000 →
      c = s.flux.counter - (s.flux.remainder + pulseCredits s fun _ => true) / 1000 →
      m = (if c = s.flux.counter then s.mem.read32 4 else c % 2 ^ 32) →
      t.flux.counter = min m 50000000 ∧ t.mem.read32 4 = min m 50000000) ∧
    ((∃ n, slotState s.mem n = .admitted) → Pending t .slotClosed) ∧
    t.clock = s.clock ∧ t.modes.runOn = some 3600000 ∧ t.extr.fan = true ∧
    ∀ k, (t.extr.points.get k).activations = (s.extr.points.get k).activations

/-- What both resets leave of the blocks, field by field: the reset clauses of the chapters (R2 to R8, R10, R11, R18, R22, R26,
R28, R30, R44, R50, R57, R61, R62, R69, R72, R76, R78, R82, R91, R102, R103, R109, R135, R138, R152, R154, R162, R166, R174,
R175, R177, R183, R184). The hold set is that of the conditions present (R41). These values are the model's choice, which the
spec leaves open: width target and travel 0, no shot level, no posted code, `owner` and `refMoved` false, no next board (log
entry 32); the bound of the tank counter (log entry 21); no HOLD_CHANGED at reset exit (log entry 20); no POT_OVERTEMP at reset
exit of an open contact (log entry 46); and in the hold set CHANGEOVER without a line class (log entry 37) and NO_DOCKET without
a setup (log entry 18). The readings that a power-on reset leaves are its choice too (log entry 2) and not stated. -/
def Obligations.ResetsLeaveTheBlocksAtRest : Prop :=
  ∀ (c : Instr) (s : State) (port : Bool),
    (port = true ∧ c = .portReset) ∨ (port = false ∧ ∃ ws, c = .powerOnReset ws) →
    ∃ t, exec c s = .next t ∧ t.pins = s.pins ∧ t.pending = s.pending ∧
      t.track =
        { pos := 0, frac := 0, entryEye := ⟨s.pins.entryEye, none, 0⟩, exitEye := ⟨s.pins.exitEye, none, 0⟩
          ref := 0, net := 0, shortWindow := port, refMoved := false, measured := 0, speedStable := false
          passes := 0, misses := 0, ordinal := 0, records := [], owner := false
          overflow := false, phantom := false, lostWaits := false, lastTrail := none } ∧
      t.docket =
        { expected := t.docket.expected, source := .docket, candidate := none, next := none
          noDocket := true, recipeHold := false, noSlot := false, offer := none, held := [] } ∧
      t.gate =
        { state := .closed, holds := t.gate.holds, lateLimit := none, lateWaits := false, ready := false, readyCount := 0
          upstreamCount := 0, lineClass := none, phase := .none, target := none
          width := { state := .unreferenced, pos := 0, target := 0, travel := 0 }, told := t.outfeed.state } ∧
      HoldsFormed t ∧
      t.outfeed =
        { state := if s.pins.endSensor then .holding else if s.pins.exitEye then .loading else .empty
          sensor := ⟨s.pins.endSensor, none, 0⟩, drive := false, available := false, availableCount := 0
          readyCount := 0, stop := false } ∧
      t.flux.edges = [] ∧ t.flux.active = [] ∧ (∀ k, t.flux.duties.get k = 0) ∧ (∀ k, t.flux.pulses.get k = none) ∧
      t.flux.remainder = 0 ∧ t.flux.bound = t.flux.counter ∧ t.flux.low = false ∧ t.flux.pressureFault = false ∧
      t.flux.pressureCount = 0 ∧ t.flux.purge = none ∧ InhibitFormed t ∧
      (∀ k, t.thermal.inputs.get k = { state := .filling, seen := 0, ring := [], bad := 0, good := 0 }) ∧
      (∀ l, l = t.thermal.pot ∨ (∃ z, l = t.thermal.zones.get z) →
        l = { target := 0, sp := 0, integral := 0, request := 0, grant := 0, prevRequest := 0, prevGrant := 0
              count := 0, settled := false, limited := false, governing := none }) ∧
      t.thermal.ramp = 0 ∧ (∀ z, t.thermal.latches.get z = false) ∧ (∀ k, t.thermal.outputs.get k = false) ∧
      t.thermal.auth = false ∧
      t.pot.levelGood = true ∧ t.pot.levelRun = 0 ∧ t.pot.level = 0 ∧ t.pot.shotLevel = none ∧
      t.pot.high = ⟨false, 0⟩ ∧ t.pot.low = ⟨false, 0⟩ ∧ t.pot.lowlow = ⟨false, 0⟩ ∧ t.pot.feeder = .idle ∧
      t.pot.misses = 0 ∧ t.pot.history = [] ∧
      (∀ w, t.pot.pump w =
        { target := 0, ref := 0, measured := 0, stable := false, count := 0, refMoved := false, governing := none }) ∧
      t.pot.drop = .none ∧ t.pot.shortWindow = port ∧
      t.extr.fan = port ∧ t.extr.grace1 = (if port then some 10000 else none) ∧
      t.extr.grace2 = (if port then some 10000 else none) ∧
      (∀ k, t.extr.points.get k =
        { ann := .normal, sev := .none, value := 0, lastChange := 0
          activations := if port then (s.extr.points.get k).activations else 0
          warnCount := 0, alarmCount := 0, clearCount := 0, escCount := 0 }) ∧
      t.extr.vapourCount = 0 ∧ t.extr.horn = false ∧ t.extr.hornCount = 0 ∧ t.extr.beacon = false ∧
      t.extr.beaconCount = 0 ∧
      t.modes =
        { mode := .off, causes := if s.pins.estop then [.estop] else [], idle := none, wakeArm := none
          runOn := if port then some 3600000 else none } ∧
      t.port =
        { request := .idle, posted := none, refusal := .none, field := 0, overrun := false, setup := none
          notices := t.port.notices, marks := 0, enable := 0, line := false, latch := none, supRunning := false
          supElapsed := 0, hostLost := false, generation := t.port.generation, data := t.port.data } ∧
      (∀ n, Pending t n → n = .slotClosed ∨ n = .halted) ∧ (Pending t .halted ↔ s.pins.estop = true) ∧
      (Pending t .slotClosed ↔ port = true ∧ ∃ n, slotState s.mem n = .admitted)

/-! ## The track -/

/-- ENCODER_COUNT (R2): discarded while no setup is loaded. With one, the accumulator takes 10000 and P takes the carries, both
ways; everything outside the track unit is as the re-forming rules leave it, and of the track unit the eyes, the list's places
and the flags stay. A count of several tenths moves P tenth by tenth, through the states `m 0` to `m n`, and at each tenth each
record takes its top-side capture (R113 to R115) and, forward, its wave entry test (R129), a stop request may be raised (R158),
and the conveyor stops with its marks (R159); the targets that no rule gives stay (R107, R126); and a purge that runs ends exactly
where the inhibit begins or at a tenth that brings a relative lead to F − 500, either way (R78, log entry 30). That these rules are applied at every tenth, and the others once after the count,
is the model's reading (log entry 29). -/
def Obligations.EncoderCountMovesThePosition : Prop :=
  ∀ (s : State) (d : Direction),
    (s.loaded = false → exec (.encoderCount d) s = .next s) ∧
    (s.loaded = true → 0 < s.ws.countsPerMetre → s.track.frac < s.ws.countsPerMetre →
      ∃ t n, exec (.encoderCount d) s = .next t ∧
        (d = .forward →
          t.track.pos = s.track.pos + BitVec.ofNat 32 n ∧
          t.track.frac + n * s.ws.countsPerMetre = s.track.frac + 10000 ∧ t.track.net = s.track.net + 1) ∧
        (d = .backward →
          t.track.pos = s.track.pos - BitVec.ofNat 32 n ∧
          t.track.frac + 10000 = s.track.frac + n * s.ws.countsPerMetre ∧ t.track.net = s.track.net - 1) ∧
        t.track.frac < s.ws.countsPerMetre ∧
        t.track.records.map Record.place = s.track.records.map Record.place ∧
        t.track.entryEye = s.track.entryEye ∧ t.track.exitEye = s.track.exitEye ∧
        t.track.ordinal = s.track.ordinal ∧ t.track.owner = s.track.owner ∧ t.track.overflow = s.track.overflow ∧
        t.track.phantom = s.track.phantom ∧ t.track.lastTrail = s.track.lastTrail ∧
        t.track.measured = s.track.measured ∧
        (∃ m : Nat → State,
          m 0 = { s with track := { s.track with frac := t.track.frac, net := t.track.net } } ∧
          (∀ i, m (i + 1) = (m i).moveTenth (d == .forward)) ∧
          (∀ i, i < n → TenthStep (d == .forward) (m i) (m (i + 1))) ∧
          (∀ (j : Nat) (r q : Record), (m n).track.records[j]? = some r → t.track.records[j]? = some q →
            q.topside = r.topside ∧ (r.has .dwell = true → q.has .dwell = true) ∧
            (r.has .waveInterrupted = true → q.has .waveInterrupted = true) ∧
            ∀ f, f = .topsideLow ∨ f = .topsideHigh ∨ f = .topsideUnmeasured ∨ f = .waveUnstable →
              q.has f = r.has f) ∧
          (GateFormed s → TargetsHeld (m n) t) ∧
          ∀ g, s.flux.purge = some g →
            (InhibitBegins s t ∨ (∃ i, i < n ∧ ∃ r ∈ s.track.records,
                ((m i).track.pos - r.lead).toNat < s.ws.barF - 500 ∧
                  s.ws.barF - 500 ≤ ((m (i + 1)).track.pos - r.lead).toNat) →
              t.flux.purge = none) ∧
            (¬ InhibitBegins s t → (∀ i, i < n → ∀ r ∈ s.track.records,
                s.ws.barF - 500 ≤ ((m i).track.pos - r.lead).toNat ∨
                  ((m (i + 1)).track.pos - r.lead).toNat < s.ws.barF - 500) →
              t.flux.purge = some g)) ∧
        Keeps { s with track := t.track } t)

/-- EYE_RAW_CHANGE (R4): a differing reading starts a pending change at P and an older one stays; a returning reading drops it.
A dropped entry change that had deferred the close of a LATE gate, or that finds P at the late limit, closes the gate at once,
and drops the offer, with a gate evaluation (R47); a dropped exit change that had deferred the loss of the candidate, or that
finds P past its window, closes the candidate LOST, and after it every next record whose window P has passed (R16). Either holds
wherever P has gone since. In every other case nothing else changes. That the gate evaluation follows the close at once is the
model's choice (log entry 55). -/
def Obligations.EyeRawChangeKeepsOnePendingChange : Prop :=
  ∀ (s a : State) (e : Eye) (b drops : Bool),
    a = { s with
          pins := s.pins.setEye e b
          track := s.track.setEye e
            { s.track.eye e with
              pendingAt :=
                if b = (s.track.eye e).accepted then none else some ((s.track.eye e).pendingAt.getD s.track.pos) } } →
    (drops = true ↔ (s.track.eye e).pendingAt ≠ none ∧ b = (s.track.eye e).accepted) →
    ∃ t, exec (.eyeRawChange e b) s = .next t ∧
    (t.track.eye e).accepted = (s.track.eye e).accepted ∧ (t.track.eye e).count = (s.track.eye e).count ∧
    (t.track.eye e).pendingAt =
      (if b = (s.track.eye e).accepted then none else some ((s.track.eye e).pendingAt.getD s.track.pos)) ∧
    t.pins = s.pins.setEye e b ∧ t.track.pos = s.track.pos ∧
    (drops = false → t = a) ∧
    (∀ late, (late = true ↔ s.gate.state = .late ∧
        (s.gate.lateWaits = true ∨ ∃ l, s.gate.lateLimit = some l ∧ atOrAfter s.track.pos l = true)) →
      e = .entry → drops = true →
      (late = false → t = a) ∧
      (late = true → ∃ c : State,
        c = { a with gate := s.gate.closedFromLate, docket := { s.docket with offer := none } } ∧
        t = c.settleEval ∧ Keeps c t)) ∧
    (e = .exit → drops = true →
      ((s.track.records.find? fun q => q.stage != .exiting) = none → t = a) ∧
      ∀ r rest, (s.track.records.filter fun q => q.stage != .exiting) = r :: rest →
        (s.track.lostWaits = false → ¬ PastExit s r → t = a) ∧
        (∀ past : Record → Bool, (∀ q, past q = true ↔ PastExit s q) → s.track.records.length ≤ 16 →
          s.track.lostWaits = true ∨ PastExit s r → LostClosed a t (r :: rest.takeWhile past)))

/-- An entry leading edge in CLOSED (R12, R48): an intruder joins the list, bound to nothing. -/
def Obligations.LeadingEdgeInClosedMakesAnIntruder : Prop :=
  ∀ (s : State) (p : Pos), s.track.entryEye.accepted = false → EyeReady s .entry p → s.track.records.length < 16 →
    (∀ r, s.track.records.getLast? = some r → strictlyAfter p r.lead = true) → s.gate.state = .closed →
    ∃ t, exec (.eyeChangeAccepted .entry) s = .next t ∧
      t.track.records.map Record.place =
        s.track.records.map Record.place ++ [(s.track.ordinal + 1, .intruder, none, p, none, .entering)] ∧
      (t.track.records.getLast?.map fun r => (r.entryTime, r.length, r.topside)) = some (s.clock, none, none) ∧
      t.track.ordinal = s.track.ordinal + 1 ∧ t.track.owner = true ∧
      t.track.entryEye = { accepted := true, pendingAt := none, count := s.track.entryEye.count + 1 } ∧
      t.track.exitEye = s.track.exitEye ∧ t.track.pos = s.track.pos ∧ t.track.overflow = s.track.overflow ∧
      t.track.phantom = s.track.phantom ∧ t.gate.state = .closed ∧ Pending t .intruder ∧
      Keeps
        { s with
          track :=
            { s.track with
              entryEye := t.track.entryEye, ordinal := t.track.ordinal, owner := true
              records := s.track.records ++ t.track.records.getLast?.toList } }
        t

/-- An entry leading edge in OPEN or LATE (R12, R21, R34, R46, R47, R63): the offer's board is admitted, its slot is held and
reads ADMITTED, the gate is RECEIVING, LATE_ADMIT is set exactly in LATE. Without SKIP_FLUX each window of the recipe has its
OPEN and its CLOSE edge in the spray list, and no other edge joins it; a CLOSE edge is said to stand where no window of the new
ordinal is active already. For a DOCKET board E and its mirror advance, where no other posted slot carries the next number; for
a STANDING board the docket words and the origin are written, and E stays in the STANDING source. -/
def Obligations.LeadingEdgeOnAnOfferAdmitsTheBoard : Prop :=
  ∀ (s : State) (p : Pos) (o : Offer), s.track.entryEye.accepted = false → EyeReady s .entry p →
    s.track.records.length < 16 →
    (∀ r, s.track.records.getLast? = some r → strictlyAfter p r.lead = true) →
    (s.gate.state = .opened ∨ s.gate.state = .late) → s.docket.offer = some o → o.origin ≠ .intruder →
    ∃ t, exec (.eyeChangeAccepted .entry) s = .next t ∧
      t.track.records.map Record.place =
        s.track.records.map Record.place ++ [(s.track.ordinal + 1, o.origin, some o.binding, p, none, .entering)] ∧
      (t.track.records.getLast?.map fun r => (r.has .lateAdmit, r.entryTime, r.length, r.topside, r.exitLead, r.jam)) =
        some (s.gate.state == .late, s.clock, none, none, none, false) ∧
      t.track.ordinal = s.track.ordinal + 1 ∧ t.track.owner = true ∧ t.track.pos = s.track.pos ∧
      t.track.entryEye = { accepted := true, pendingAt := none, count := s.track.entryEye.count + 1 } ∧
      t.docket.held = s.docket.held ++ [o.slot] ∧ t.docket.offer = none ∧ t.mem.read (slotAt o.slot) = 2 ∧
      t.gate.state = .receiving ∧ t.gate.ready = false ∧ t.gate.lateLimit = none ∧
      (∀ e ∈ t.flux.edges, e ∈ s.flux.edges ∨ (o.skipFlux = false ∧ ∃ k w, o.recipe.windows[k]? = some w ∧
        (e = ⟨p + BitVec.ofNat 32 (s.ws.barF + 10 * w.start), s.track.ordinal + 1, k, true, w.lanes, w.duty⟩ ∨
          e = ⟨p + BitVec.ofNat 32 (s.ws.barF + 10 * w.stop), s.track.ordinal + 1, k, false, w.lanes, w.duty⟩))) ∧
      (o.skipFlux = false → ∀ k w, o.recipe.windows[k]? = some w →
        ⟨p + BitVec.ofNat 32 (s.ws.barF + 10 * w.start), s.track.ordinal + 1, k, true, w.lanes, w.duty⟩ ∈
            t.flux.edges ∧
        ((∀ a ∈ s.flux.active, a.ordinal ≠ s.track.ordinal + 1) →
          ⟨p + BitVec.ofNat 32 (s.ws.barF + 10 * w.stop), s.track.ordinal + 1, k, false, w.lanes, w.duty⟩ ∈
            t.flux.edges)) ∧
      (o.origin = .docket →
        (∀ n : SlotIx, slotState s.mem n = .posted → n ∉ s.docket.held → n ≠ o.slot →
          s.mem.read (slotAt n + 1) ≠ s.docket.expected + 1) →
        t.docket.expected = s.docket.expected + 1 ∧ t.mem.read 3 = s.docket.expected + 1) ∧
      (o.origin = .standing →
        t.mem.read (slotAt o.slot + 1) = 0 ∧ t.mem.read (slotAt o.slot + 2) = o.recipeIndex ∧
        (∀ k, 3 ≤ k → k < 16 → t.mem.read (slotAt o.slot + k) = 0) ∧ t.mem.read (slotAt o.slot + 16) = 2 ∧
        (s.docket.source ≠ .docket → t.docket.expected = s.docket.expected ∧ t.mem.read 3 = s.mem.read 3)) ∧
      (∀ a, quietWord a → (a < slotAt o.slot ∨ slotAt o.slot + 64 ≤ a ∨ o.origin = .docket) →
        t.mem.read a = s.mem.read a) ∧
      Keeps
        { s with
          track :=
            { s.track with
              entryEye := t.track.entryEye, ordinal := t.track.ordinal, owner := true
              records := s.track.records ++ t.track.records.getLast?.toList }
          docket := { s.docket with held := s.docket.held ++ [o.slot] }, mem := t.mem } t

/-- A leading edge with a full list, or not strictly after the newest lead (R12, R18): no record, the sticky flag, the notice,
and the halt cause where stop-on-track-fault is set. That an edge which meets both is LIST_OVERFLOW alone is the model's choice
(log entry 49). -/
def Obligations.UntrackedLeadingEdgeSetsAStickyFlag : Prop :=
  ∀ (s : State) (p : Pos), s.track.entryEye.accepted = false → EyeReady s .entry p →
    (16 ≤ s.track.records.length ∨ ∃ r, s.track.records.getLast? = some r ∧ strictlyAfter p r.lead = false) →
    ∃ t, exec (.eyeChangeAccepted .entry) s = .next t ∧
      (s.ws.stopOnFault = true → Halts s t .trackFault) ∧
      (s.ws.stopOnFault = false → t.modes.causes = s.modes.causes) ∧ Pending t .trackFault ∧
      Keeps
        { s.causesOf t with
          track :=
            { s.track with
              entryEye := { accepted := true, pendingAt := none, count := s.track.entryEye.count + 1 }
              owner := false
              overflow := s.track.overflow || decide (16 ≤ s.track.records.length)
              phantom := s.track.phantom || decide (s.track.records.length < 16) } } t

/-- An entry trailing edge (R13, R42, R49, R65). Of the newest record: trail, length and stage, OVERLENGTH, in RECEIVING the
LENGTH_MISMATCH test, and the capture that its length brings (R113); a CLOSE edge of it that lies beyond the clamp position stands
there, a window that starts at or beyond the length is gone with its edges, and the edges of other records and earlier ones stay
(R65, R66; that a window whose clamp position P has passed ends at once is log entry 57). Of no record: the list stays. Either way
the trail is kept for SPACING, and a RECEIVING gate goes to CLOSED, where it stays until the gap has passed. -/
def Obligations.TrailingEdgeGivesTheNewestRecordItsLength : Prop :=
  ∀ (s : State) (p : Pos), s.track.entryEye.accepted = true → EyeReady s .entry p →
    ∃ t, exec (.eyeChangeAccepted .entry) s = .next t ∧
      t.track.lastTrail = some p ∧ t.track.pos = s.track.pos ∧
      t.track.entryEye = { accepted := false, pendingAt := none, count := s.track.entryEye.count + 1 } ∧
      (s.gate.state = .receiving → t.gate.state ≠ .receiving) ∧
      (s.gate.state = .receiving → atOrAfter s.track.pos (p + tenths s.ws.minGap) = false → t.gate.state = .closed) ∧
      (∀ rs r l, s.track.owner = true → s.track.records = rs ++ [r] → r.trail = none →
        l = min (p - r.lead).toNat 65535 →
        t.track.records.map Record.place =
          rs.map Record.place ++
            [(r.ordinal, r.origin, r.binding, r.lead, some p, if r.stage = .entering then .tracked else r.stage)] ∧
        t.track.records.map (·.length) = rs.map (·.length) ++ [some l] ∧
        (∀ q, t.track.records.getLast? = some q →
          (q.has .overlength = true ↔ r.has .overlength = true ∨ s.ws.maxLength < l) ∧
          (q.has .lengthMismatch = true ↔ r.has .lengthMismatch = true ∨
            (s.gate.state = .receiving ∧ r.origin = .docket ∧ ∃ b, r.binding = some b ∧ b.expectedLength ≠ 0 ∧
              b.lengthTol < ((l : Int) - b.expectedLength).natAbs))) ∧
        (∀ c, r.recipe? = some c →
          WindowsClamped s t r l c.windows (r.lead + BitVec.ofNat 32 (s.ws.barF + l))) ∧
        (r.recipe? = none → ¬ InhibitBegins s t →
          t.flux.edges = s.flux.edges ∧ t.flux.active = s.flux.active ∧ t.flux.pulses = s.flux.pulses) ∧
        ∀ base,
          base = rs ++
            [{ r with trail := some p, length := some l, stage := if r.stage = .entering then .tracked else r.stage }] →
          (∀ (j : Nat) (q u : Record), base[j]? = some q → t.track.records[j]? = some u → CaptureStep s t q u) ∧
          Keeps
            { s with
              track :=
                { s.track with
                  entryEye := t.track.entryEye, lastTrail := some p
                  records := List.zipWith (fun q u => { q with topside := u.topside }) base t.track.records } } t) ∧
      ((s.track.owner = false ∨ (∀ r, s.track.records.getLast? = some r → r.trail ≠ none)) →
        Keeps { s with track := { s.track with entryEye := t.track.entryEye, lastTrail := some p } } t)

/-- An exit leading edge (R15, R18, R154): matched, the candidate is EXITING; otherwise PHANTOM, with TRACK_FAULT exactly where
stop-on-track-fault is set. An EMPTY outfeed is LOADING either way. -/
def Obligations.ExitLeadingEdgeMatchesTheCandidate : Prop :=
  ∀ (s : State) (p : Pos), s.track.exitEye.accepted = false → EyeReady s .exit p →
    ∃ t, exec (.eyeChangeAccepted .exit) s = .next t ∧
      t.track.exitEye = { accepted := true, pendingAt := none, count := s.track.exitEye.count + 1 } ∧
      t.track.pos = s.track.pos ∧ t.track.entryEye = s.track.entryEye ∧ t.track.ordinal = s.track.ordinal ∧
      (s.outfeed.state = .empty → t.outfeed.state = .loading) ∧
      Keeps
        { s.causesOf t with
          track :=
            { s.track with exitEye := t.track.exitEye, phantom := t.track.phantom, records := t.track.records } } t ∧
      (∀ r, (s.track.records.find? fun q => q.stage != .exiting) = some r →
        (atOrAfter p (r.lead + tenths s.ws.exitX - tenths s.ws.exitTol) = true ∧
            atOrAfter (r.lead + tenths s.ws.exitX + tenths s.ws.exitTol) p = true →
          t.track.records.map (fun q => (q.ordinal, q.stage, q.exitLead)) =
            s.track.records.map (fun q =>
              if q.ordinal = r.ordinal then (q.ordinal, .exiting, some p) else (q.ordinal, q.stage, q.exitLead)) ∧
          t.track.phantom = s.track.phantom ∧ t.modes.causes = s.modes.causes) ∧
        (¬ (atOrAfter p (r.lead + tenths s.ws.exitX - tenths s.ws.exitTol) = true ∧
            atOrAfter (r.lead + tenths s.ws.exitX + tenths s.ws.exitTol) p = true) →
          t.track.records.map Record.place = s.track.records.map Record.place ∧ t.track.phantom = true ∧
          Pending t .trackFault ∧ (s.ws.stopOnFault = true → Halts s t .trackFault) ∧
          (s.ws.stopOnFault = false → t.modes.causes = s.modes.causes))) ∧
      ((s.track.records.find? fun q => q.stage != .exiting) = none →
        t.track.records.map Record.place = s.track.records.map Record.place ∧ t.track.phantom = true ∧
        Pending t .trackFault ∧ (s.ws.stopOnFault = true → Halts s t .trackFault) ∧
        (s.ws.stopOnFault = false → t.modes.causes = s.modes.causes))

/-- An exit trailing edge with a record EXITING (R17, R35, R37, R67, R134, R136): the record leaves the list and the held slots,
its edges leave the spray list, its slot reads DONE with outcome COMPLETED and the traveller's words 16 to 34, and the
closed-slot count advances by it and by each slot that a gate evaluation rejects; an intruder leaves with the notice alone. The
flags word holds the record's flags with the LENGTH_CHANGE test of R17 and the contact test of R134. -/
def Obligations.ExitTrailingEdgeClosesTheRecord : Prop :=
  ∀ (s : State) (p : Pos) (r : Record) (l c : Nat), s.track.exitEye.accepted = true → EyeReady s .exit p →
    (s.track.records.find? fun q => q.stage == .exiting) = some r →
    l = min (p - r.exitLead.getD p).toNat 65535 →
    (r.minSpeed = none → c = 0) → (r.minSpeed = some 0 → c = 65535) →
    (∀ v, r.minSpeed = some v → v ≠ 0 → c = min (s.ws.contactWidth * 6000 / v) 65535) →
    ∃ t, exec (.eyeChangeAccepted .exit) s = .next t ∧
      t.track.records.map Record.place = (s.track.records.eraseP fun q => q.stage == .exiting).map Record.place ∧
      t.track.exitEye = { accepted := false, pendingAt := none, count := s.track.exitEye.count + 1 } ∧
      t.track.pos = s.track.pos ∧ t.track.entryEye = s.track.entryEye ∧ t.track.ordinal = s.track.ordinal ∧
      (s.track.records.getLast? ≠ some r → t.track.owner = s.track.owner) ∧
      (∀ e ∈ t.flux.edges, e.ordinal ≠ r.ordinal) ∧ (∀ w ∈ t.flux.active, w.ordinal ≠ r.ordinal) ∧
      (∀ n, r.slot? = some n →
        t.docket.held = s.docket.held.erase n ∧ t.mem.read (slotAt n) = 3 ∧
        t.mem.read (slotAt n + 16) = (if r.origin = .docket then 1 else 2) ∧ t.mem.read (slotAt n + 17) = 1 ∧
        t.mem.read (slotAt n + 18) = 0 ∧ t.mem.read (slotAt n + 19) = (r.recipe?.map (·.revision)).getD 0 ∧
        t.mem.read32 (slotAt n + 20) = r.entryTime.toNat ∧ t.mem.read32 (slotAt n + 22) = s.clock.toNat ∧
        t.mem.read (slotAt n + 24) = BitVec.ofNat 16 (r.length.getD 0) ∧
        t.mem.read (slotAt n + 25) = BitVec.ofNat 16 l ∧
        (∀ (f : Flag) (v : Bool), v = (t.mem.read (slotAt n + 26)).getLsbD f.bit →
          (f = .lengthChange → (v = true ↔ r.has f = true ∨
            ∃ k, r.length = some k ∧ s.ws.exitTol < ((l : Int) - k).natAbs)) ∧
          (f = .contactLow → (v = true ↔ r.has f = true ∨
            ∃ rc, r.recipe? = some rc ∧ c ≠ 0 ∧ rc.contactMin ≠ 0 ∧ c < rc.contactMin)) ∧
          (f = .contactHigh → (v = true ↔ r.has f = true ∨
            ∃ rc, r.recipe? = some rc ∧ c ≠ 0 ∧ rc.contactMax ≠ 0 ∧ rc.contactMax < c)) ∧
          (f ≠ .lengthChange → f ≠ .contactLow → f ≠ .contactHigh → v = r.has f)) ∧
        t.mem.read (slotAt n + 27) = r.zoneMask ∧
        (r.flux < 2 ^ 32 → t.mem.read32 (slotAt n + 28) = r.flux / 1000) ∧
        t.mem.read (slotAt n + 30) = r.skipped ∧ t.mem.read (slotAt n + 31) = r.incomplete ∧
        (r.topside = none → t.mem.read (slotAt n + 32) = 0x7FFF) ∧
        (∀ v, r.topside = some v → t.mem.read (slotAt n + 32) = BitVec.ofInt 16 v) ∧
        t.mem.read (slotAt n + 33) = BitVec.ofNat 16 c ∧
        t.mem.read (slotAt n + 34) = BitVec.ofNat 16 (r.minRpm.getD 0) ∧
        Pending t .slotClosed) ∧
      (r.slot? = none → t.docket.held = s.docket.held ∧ Pending t .intruder) ∧
      CountsCloses s.mem t.mem (if r.slot? = none then 0 else 1) ∧
      Keeps
        { s with
          track :=
            { s.track with
              exitEye := t.track.exitEye, owner := t.track.owner
              records := s.track.records.eraseP fun q => q.stage == .exiting }
          docket := { s.docket with held := t.docket.held } } t

/-- ENTRY_JAM (R14): where a record is still ENTERING three board lengths past its lead and unmarked, and no accepted trailing
edge comes first, the command completes: every such record is marked, and the line halts. BOARD_LOST (R16, R37, R67, R169,
R170): where the candidate is past its exit window, and no pending exit change lies inside the window, the command completes:
the candidate and every next one that is past its window too close LOST and leave the list, the held slots and the spray list;
the other records keep their places; BOARD_LOST is raised, after the end of COOLDOWN where the list has become empty. -/
def Obligations.EntryJamAndBoardLostHaltTheLine : Prop :=
  ∀ (s : State) (r : Record),
    ((∀ p, ¬ EyeReady s .entry p) → r ∈ s.track.records → r.stage = .entering → r.jam = false →
      atOrAfter s.track.pos (r.lead + tenths (3 * s.ws.maxLength)) = true →
      ∃ t, exec .entryJam s = .next t ∧ Halts s t .entryJam ∧
        Keeps
          { s.causesOf t with
            track :=
              { s.track with
                records :=
                  s.track.records.map fun q =>
                    { q with
                      jam := q.jam ||
                        (q.stage == .entering && atOrAfter s.track.pos (q.lead + tenths (3 * s.ws.maxLength))) } } }
          t) ∧
    ((s.track.records.find? fun q => q.stage != .exiting) = some r →
      ∀ (past : Record → Bool) (lost : List Record),
        (∀ q, past q = true ↔ PastExit s q ∧
          ∀ p, s.track.exitEye.pendingAt = some p → s.track.exitEye.accepted = true ∨ ¬ InExitWindow s q p) →
        past r = true → s.track.records.length ≤ 16 →
        lost = (s.track.records.filter fun q => q.stage != .exiting).takeWhile past →
      ∃ t, exec .boardLost s = .next t ∧ r ∈ lost ∧ LostClosed s t lost)

/-- LATE_LIMIT_REACHED, SPEED_STABLE_SET and CONVEYOR_SPEED (R7, R8, R47): the gate closes, the offer is dropped and a gate
evaluation follows, unless a pending change to blocked from before the limit defers it; the flag comes after four passing
windows, the halt cause after twelve failing ones, with the reference 0 by the halt. -/
def Obligations.LateLimitAndSpeedWindowsAct : Prop :=
  ∀ s : State,
    (∀ l, s.gate.state = .late → s.gate.lateLimit = some l → atOrAfter s.track.pos l = true →
      ((∀ p, s.track.entryEye.pendingAt = some p → s.track.entryEye.accepted = true ∨ atOrAfter p l = true) →
        ∃ a : State, a = { s with gate := s.gate.closedFromLate, docket := { s.docket with offer := none } } ∧
          exec .lateLimitReached s = .next a.settleEval ∧ Keeps a a.settleEval) ∧
      (∀ p, s.track.entryEye.pendingAt = some p → s.track.entryEye.accepted = false → atOrAfter p l = false →
        exec .lateLimitReached s = .next s)) ∧
    (s.track.speedStable = false → 4 ≤ s.track.passes →
      ∃ a : State, a = { s with track := { s.track with speedStable := true } } ∧
        exec .speedStableSet s = .next a.settle ∧ Keeps a a.settle) ∧
    (12 ≤ s.track.misses →
      ∃ t, exec .conveyorSpeed s = .next t ∧ Halts s t .conveyorSpeed ∧
        (s.modes.mode.runs = true → .conveyorSpeed ∉ s.modes.causes → t.track.ref = 0) ∧
        Keeps (s.causesOf t) t)

/-! ## The status interval end -/

/-- STATUS_INTERVAL_END (R6 to R8, R70, R76, R80 to R83, R99, R100, R111, R117, R119, R127, R133, R141 to R146, R151, R171,
R185, R188): the clock stands at the next boundary, every input has taken its sample, the speed and pump windows have ended with
their tests, the causes whose conditions stand are in the set, the hold set is that of the conditions, and exchange memory holds
the clock and a whole refresh of that moment with the part's own next generation count; the host's records are the host's. That
the row carries the clock to its boundary and brings the host's writes is the model's choice (log entries 3 and 5). These
clauses are its choice or its reading too: the order within the row, and that its limit tests use the PV formed before a second
bad sample (log entries 7 and 47); that the flow points are judged only while the fan is on (log entry 11); CHANGEOVER without a
line class (log entry 37); the pressure judged by the setup of its sample (log entry 39); the escalation count that runs while
the input is out of range (log entry 41); the generation count from the part's own (log entry 43); a thermostat contact that
closes reaches the pin here alone (log entry 50), and so do a limit switch that reads inactive again and a home switch that
becomes active outside homing (log entry 56); which windows a changed reference spoils (log entry 28); and in the status block
the unnamed words, the fifth reading last of the five and the standing recipe index 0 in DOCKET (log entries 17, 8 and 40). -/
def Obligations.StatusIntervalEndSamplesAndRefreshes : Prop :=
  ∀ (i : Readings) (ws : List HostWrite) (s : State), ∃ t, exec (.statusIntervalEnd i ws) s = .next t ∧
    NextBoundary 250 s.statusAt s.clock t.clock ∧ t.statusAt = t.clock ∧
    t.pins =
      { s.pins with
        readings := i, thermostatOpen := i.thermostatOpen, homeActive := i.homeActive, limitMin := i.limitMin
        limitMax := i.limitMax } ∧
    (∀ k, InputSampled (s.thermal.inputs.get k) (t.thermal.inputs.get k) (i.temps.get k) ∧
      PvFormed (t.thermal.inputs.get k)) ∧
    (∀ z, t.thermal.latches.get z = true ↔ s.thermal.latches.get z = true ∨
      (s.loaded = true ∧ ∃ v, t.thermal.zonePV z = some v ∧ s.ws.zoneHard ≤ v)) ∧
    t.track.net = 0 ∧ t.track.shortWindow = false ∧
    t.track.measured =
      (if s.track.shortWindow then s.track.measured else (240000 * s.track.net).tdiv s.ws.countsPerMetre) ∧
    t.pot.chip.measured = (if s.pot.shortWindow then s.pot.chip.measured else min i.chipRpm 1500) ∧
    t.pot.main.measured = (if s.pot.shortWindow then s.pot.main.measured else min i.mainRpm 1500) ∧
    SpeedWindow s t t.track.measured s.track.ref ∧
    (∀ w, PumpWindow s (s.pot.pump w) (t.pot.pump w) s.ws.pumpTol) ∧
    LevelSampled s t i.level ∧ PressureSampled s t i.pressure ∧
    t.flux.tankEmpty = i.tankEmpty ∧ (i.tankEmpty = true → t.flux.counter = 0) ∧
    t.extr.x1 = inRange 4000 i.x1 ∧ t.extr.x2 = inRange 4000 i.x2 ∧ t.extr.filter = inRange 4000 i.filter ∧
    t.extr.vapour = inRange 1000 i.vapour ∧ t.extr.feedback1 = i.feedback1 ∧ t.extr.feedback2 = i.feedback2 ∧
    (FansFormed s → ∀ k, PointSampled t k (s.extr.points.get k) (t.extr.points.get k)) ∧
    t.extr.vapourCount =
      (if (s.extr.points.get 7).sev = .alarm then s.extr.vapourCount + 1 else s.extr.vapourCount) ∧
    (∀ (j : Nat) (r q : Record), s.track.records[j]? = some r → t.track.records[j]? = some q → RecordSampled s t r q) ∧
    (∀ c, c ∈ t.modes.causes ↔ c ∈ s.modes.causes ∨ (c = .estop ∧ s.pins.estop = true) ∨
      (c = .potOvertemp ∧ overtemp t = true) ∨ (c = .potSensor ∧ (s.thermal.inputs.get 6).state = .faulted) ∨
      (c = .potLevel ∧ s.pot.lowlow.set = true)) ∧
    (s.modes.mode.runs = true → t.modes.causes ≠ s.modes.causes → t.modes.mode = .halted ∧ Pending t .halted) ∧
    HoldsFormed t ∧
    t.port.generation =
      (if s.port.generation.getLsbD 0 then s.port.generation + 3 else s.port.generation + 2) ∧
    (∀ j, j < 512 → t.mem.read (0x0160 + j) =
      (statusBlock { t with port := { t.port with generation := s.port.generation } }).getD j 0) ∧
    t.mem.read 0x0160 = t.port.generation ∧
    t.mem.read 0x0161 = BitVec.ofNat 16 t.modes.mode.code ∧ t.mem.read 0x0162 = BitVec.ofNat 16 t.gate.state.code ∧
    t.mem.read32 0x0180 = t.track.pos.toNat ∧ t.mem.read32 0x0007 = t.clock.toNat ∧
    CountsCloses (hostWrites ws s.mem) t.mem 0 ∧
    (∀ a, (0x0040 ≤ a ∧ a < 0x0160) ∨ (0x0360 ≤ a ∧ a < 0x0960) → t.mem.read a = (hostWrites ws s.mem).read a) ∧
    t.track.records.map Record.place = s.track.records.map Record.place ∧ t.track.pos = s.track.pos ∧
    t.track.entryEye = s.track.entryEye ∧ t.track.exitEye = s.track.exitEye ∧ t.docket.held = s.docket.held ∧
    t.thermal.auth = s.thermal.auth ∧ t.port.setup = s.port.setup ∧ t.port.request = s.port.request ∧
    t.port.enable = s.port.enable ∧ t.pending = s.pending

/-! ## The thermal unit -/

/-- INPUT_FAULT, INPUT_RECOVERY and INPUT_FILLING_END (R81, R82, R83): what the input's record becomes, and the halt cause of a
pot input that is lost; and of an input that becomes GOOD, the limit tests of its sample: the zone's latch (R100) and the pot's
POT_OVERTEMP (R99). -/
def Obligations.InputStatesFollowTheirCounts : Prop :=
  ∀ (s : State) (k : Idx8) (i : Input), i = s.thermal.inputs.get k →
    (i.state = .good → 2 ≤ i.bad → ∃ t, exec (.inputFault k) s = .next t ∧
      (k = 6 → Halts s t .potSensor) ∧ (k ≠ 6 → t.modes.causes = s.modes.causes) ∧
      (∀ (z : Zone) (j : Nat) (r q : Record), k = zoneInput z → s.thermal.latches.get z = false →
        s.track.records[j]? = some r → t.track.records[j]? = some q →
        (q.zoneMask.getLsbD z.val = true ↔ r.zoneMask.getLsbD z.val = true ∨
          (r.origin ≠ .intruder ∧ Over s r (s.ws.zoneStart z) (s.ws.zoneEnd z) ∧ r.zone z ≠ 0))) ∧
      t.track.records.map Record.place = s.track.records.map Record.place ∧
      Keeps
        { s.causesOf t with
          track := { s.track with records := t.track.records }
          thermal :=
            { s.thermal with inputs := s.thermal.inputs.set k { i with state := .faulted, ring := [], good := 0 } } }
        t) ∧
    ((i.state = .faulted ∧ 4 ≤ i.good) ∨ (i.state = .filling ∧ 4 ≤ i.seen) →
      ∃ t lost hot, exec (if i.state = .faulted then .inputRecovery k else .inputFillingEnd k) s = .next t ∧
        (lost = true ↔ i.state = .filling ∧ i.good < 4) ∧
        (hot = true ↔ s.pins.thermostatOpen = true ∨
          (s.loaded = true ∧ ∃ v, t.thermal.potPV = some v ∧ s.ws.potHard ≤ v)) ∧
        t.modes.causes =
          joinCause (k == 6 && hot) .potOvertemp (joinCause (k == 6 && lost) .potSensor s.modes.causes) ∧
        (t.modes.causes ≠ s.modes.causes → Pending t .halted ∧ (s.modes.mode.runs = true → t.modes.mode = .halted)) ∧
        (∀ z, t.thermal.latches.get z = true ↔ s.thermal.latches.get z = true ∨
          (k = zoneInput z ∧ s.loaded = true ∧ ∃ v, t.thermal.zonePV z = some v ∧ s.ws.zoneHard ≤ v)) ∧
        Keeps
          { s.causesOf t with
            thermal :=
              { s.thermal with
                latches := t.thermal.latches
                inputs :=
                  s.thermal.inputs.set k
                    (if lost = true then { i with state := .faulted, ring := i.ring.drop (i.ring.length - i.good) }
                    else { i with state := .good, bad := 0 }) } }
          t)

/-- The zones' allocation (R94): each eligible request in full where the total fits, else its share rounded down; nothing for a
request of 0 and nothing out of nothing; the granted power within what is left; the largest intermediate product below 2^36. -/
def Obligations.ZoneAllocationSharesWhatIsLeft : Prop :=
  ∀ (left : Nat) (d rating : Tab6 Nat) (total : Nat),
    (∀ z, rating.get z = 0 → d.get z = 0) →
    total = (d.get 0 * rating.get 0) + (d.get 1 * rating.get 1) + (d.get 2 * rating.get 2) + (d.get 3 * rating.get 3)
      + (d.get 4 * rating.get 4) + (d.get 5 * rating.get 5) →
    zonesTotal d rating = total ∧
    (∀ z, (total ≤ left → zoneGrant left total (d.get z) = d.get z) ∧
      (left < total → zoneGrant left total (d.get z) = d.get z * left / total) ∧
      (d.get z = 0 → zoneGrant left total (d.get z) = 0) ∧
      (left = 0 → zoneGrant left total (d.get z) = 0) ∧
      (d.get z ≤ 1000 → left ≤ 1000 * 60000 → d.get z * left < 2 ^ 36)) ∧
    (zoneGrant left total (d.get 0) * rating.get 0) + (zoneGrant left total (d.get 1) * rating.get 1)
      + (zoneGrant left total (d.get 2) * rating.get 2) + (zoneGrant left total (d.get 3) * rating.get 3)
      + (zoneGrant left total (d.get 4) * rating.get 4) + (zoneGrant left total (d.get 5) * rating.get 5) ≤ left

/-- HEATER_PERIOD_BOUNDARY (R86 to R90, R93 to R97, R110): the clock stands at the next boundary, the pot SP has ramped, every
loop has its new integral and request and keeps the ended period's request and grant as the previous ones; while the mode stays,
each loop's grant is its share of the budget by R93 and R94 with its BUDGET_LIMITED mark, and where the target stays too its
settle count and SETTLED are those of R90; each record has its deviation marks, and the outputs stand as their stretches have
them. That the row carries the clock to its boundary is the model's choice (log entry 3). -/
def Obligations.HeaterBoundaryComputesAndAllocates : Prop :=
  ∀ s : State, ∃ t, exec .heaterPeriodBoundary s = .next t ∧
    NextBoundary 1000 s.heaterAt s.clock t.clock ∧ t.heaterAt = t.clock ∧
    Ramped s.ws.rampRate s.thermal.pot.target s.thermal.pot.sp s.thermal.ramp s.thermal.potPV t.thermal.pot.sp
      t.thermal.ramp ∧
    Controlled (s.ws.kp .pot) (s.ws.ki .pot) s.thermal.pot t.thermal.pot.sp s.thermal.potPV s.thermal.auth
      t.thermal.pot.integral t.thermal.pot.request ∧
    t.thermal.pot.prevRequest = s.thermal.pot.request ∧ t.thermal.pot.prevGrant = s.thermal.pot.grant ∧
    (∀ z l, l = s.thermal.zones.get z →
      Controlled (s.ws.kp (.zone z)) (s.ws.ki (.zone z)) l l.sp (s.thermal.zonePV z) s.thermal.auth
        (t.thermal.zones.get z).integral (t.thermal.zones.get z).request ∧
      (t.thermal.zones.get z).prevRequest = l.request ∧ (t.thermal.zones.get z).prevGrant = l.grant) ∧
    grantedPower t ≤ 1000 * s.ws.budget ∧
    Allocated s t ∧
    (TargetsFormed s → s.thermal.auth = true → t.modes.mode = s.modes.mode →
      (s.thermal.pot.target ≠ 0 → t.thermal.pot.target = s.thermal.pot.target →
        SettleTested s.thermal.pot t.thermal.pot t.thermal.pot.sp s.thermal.potPV (s.ws.settleBand .pot)) ∧
      ∀ z, (s.thermal.zones.get z).target ≠ 0 → (t.thermal.zones.get z).target = (s.thermal.zones.get z).target →
        SettleTested (s.thermal.zones.get z) (t.thermal.zones.get z) (s.thermal.zones.get z).sp (s.thermal.zonePV z)
          (s.ws.settleBand (.zone z))) ∧
    (∀ (j : Nat) (r q : Record) (z : Zone), s.track.records[j]? = some r → t.track.records[j]? = some q →
      (q.zoneMask.getLsbD z.val = true ↔ r.zoneMask.getLsbD z.val = true ∨
        (r.origin ≠ .intruder ∧ Over s r (s.ws.zoneStart z) (s.ws.zoneEnd z) ∧ r.zone z ≠ 0 ∧
          ((s.thermal.inputs.get (zoneInput z)).state ≠ .good ∨ s.thermal.latches.get z = true ∨
            s.thermal.zonePV z = none ∨ ∃ v c, s.thermal.zonePV z = some v ∧ r.recipe? = some c ∧
              c.zoneTol < ((v - r.zone z).natAbs : Int)))) ∧
      (q.zoneMask ≠ r.zoneMask → q.has .preheatDeviation = true)) ∧
    OutputsFollow t ∧
    t.track.records.map Record.place = s.track.records.map Record.place ∧
    (∃ n, t.clock = s.clock + BitVec.ofNat 32 n ∧ Keeps
      { s.advance n with
        heaterAt := t.heaterAt, track := { s.track with records := t.track.records }
        thermal := { t.thermal with inputs := s.thermal.inputs, latches := s.thermal.latches, auth := s.thermal.auth } }
      t)

/-- LOOP_SETTLED (R90): the settle count has reached the settle time. -/
def Obligations.SettleCountSetsSettled : Prop :=
  ∀ (s : State) (l : LoopId), s.thermal.auth = true → (s.thermal.loop l).target ≠ 0 →
    (s.thermal.loop l).settled = false → 0 < (s.thermal.loop l).count →
    s.ws.settleTime l ≤ (s.thermal.loop l).count →
    ∃ a : State,
      a = { s with thermal := { s.thermal with pot := a.thermal.pot, zones := a.thermal.zones } } ∧
      a.thermal.loop l = { s.thermal.loop l with settled := true } ∧
      (∀ m, m ≠ l → a.thermal.loop m = s.thermal.loop m) ∧
      exec (.loopSettled l) s = .next a.settle ∧ Keeps a a.settle

/-- HEATER_OUTPUT_SWITCH (R97): at the next moment of the running period at which the output's stretch says otherwise than the
output stands, the output switches, and nothing else but the time changes. So at each moment of a period at which no event is
due, every output stands as its stretch has it. That the row carries the clock to that moment is the model's choice (log entry
3). -/
def Obligations.HeaterOutputSwitchesWithItsStretch : Prop :=
  ∀ s : State,
    (∀ (k : Idx8) (m : Nat), nextSwitch s k = some m →
      ∃ t, exec (.heaterOutputSwitch k) s = .next t ∧ m < 1000 ∧ periodTime s ≤ m ∧
        t = { s.advance (m - periodTime s) with
              thermal := { s.thermal with outputs := s.thermal.outputs.set k (!s.thermal.outputs.get k) } } ∧
        (t.thermal.outputs.get k = true ↔
          s.ws.rating k ≠ 0 ∧ (m + 1000 - 125 * k.val) % 1000 < s.thermal.outputGrant k) ∧
        t.clock = s.clock + BitVec.ofNat 32 (m - periodTime s)) ∧
    (dueNow s = none → periodTime s < 1000 → OutputsFollow s)

/-- THERMOSTAT_CONTACT_OPEN and ESTOP_INPUT_ACTIVE (R92, R98, R99, R171): the halt cause, and the outputs off at once;
ESTOP_INPUT_RELEASE changes the input alone, so the grants wait for a boundary. That the cut loops keep their BUDGET_LIMITED
marks is the model's choice (log entry 45). -/
def Obligations.ThermostatAndEstopCutTheHeaters : Prop :=
  ∀ s : State,
    (∃ t, exec .thermostatContactOpen s = .next t ∧ Halts s t .potOvertemp ∧ t.thermal.pot.grant = 0 ∧
      t.thermal.outputs.get 0 = false ∧ t.thermal.outputs.get 1 = false ∧
      Keeps { s.causesOf t with pins := { s.pins with thermostatOpen := true } } t) ∧
    (∃ t, exec .estopInputActive s = .next t ∧ Halts s t .estop ∧
      t.thermal.pot.grant = 0 ∧ (∀ z, (t.thermal.zones.get z).grant = 0) ∧
      (∀ k, t.thermal.outputs.get k = false) ∧
      (s.modes.mode.runs = true → .estop ∉ s.modes.causes → t.track.ref = 0) ∧
      Keeps { s.causesOf t with pins := { s.pins with estop := true } } t) ∧
    exec .estopInputRelease s = .next { s with pins := { s.pins with estop := false } }

/-- The writes of HEAT_AUTH (R102): A55Ah enables, 5AA5h disables and cuts every output, any other value does so and raises
AUTHORITY; a write of the value held changes nothing; a read returns the value held. That the cut loops keep their
BUDGET_LIMITED marks is the model's choice (log entry 45). -/
def Obligations.HeatAuthWritesActByTheirValue : Prop :=
  ∀ s : State,
    readRegister s .heatAuth = (if s.thermal.auth then 0xA55A else 0x5AA5) ∧
    (s.thermal.auth = true → exec .heatAuthEnable s = .next s) ∧
    (s.thermal.auth = false → ∃ a : State, a = { s with thermal := { s.thermal with auth := true } } ∧
      exec .heatAuthEnable s = .next a.settle ∧ Keeps a a.settle) ∧
    (s.thermal.auth = false → exec .heatAuthDisable s = .next s) ∧
    (s.thermal.auth = true → ∃ t, exec .heatAuthDisable s = .next t ∧
      t.thermal.pot.grant = 0 ∧ (∀ z, (t.thermal.zones.get z).grant = 0) ∧
      (∀ k, t.thermal.outputs.get k = false) ∧ t.thermal.pot.settled = false ∧
      (∀ z, (t.thermal.zones.get z).settled = false) ∧
      Keeps { s with thermal := { s.thermal with auth := false } } t) ∧
    (∀ v : Word, v ≠ 0xA55A → v ≠ 0x5AA5 → ∃ t, exec (.heatAuthInvalid v) s = .next t ∧ Halts s t .authority ∧
      t.thermal.pot.grant = 0 ∧ (∀ z, (t.thermal.zones.get z).grant = 0) ∧
      (∀ k, t.thermal.outputs.get k = false) ∧
      Keeps { s.causesOf t with thermal := { s.thermal with auth := false } } t)

/-! ## The pot unit -/

/-- LEVEL_INPUT_RECOVERED, LEVEL_FLAG_CHANGE and PUMP_STABLE_SET (R117, R118, R119, R122, R128). -/
def Obligations.LevelFlagsAndPumpsFollowTheirCounts : Prop :=
  ∀ s : State,
    (s.pot.levelGood = false → 4 ≤ s.pot.levelRun → ∃ t, exec .levelInputRecovered s = .next t ∧
      t.pot.high.set = s.pot.high.set ∧ t.pot.low.set = s.pot.low.set ∧ t.pot.lowlow.set = s.pot.lowlow.set ∧
      Pending t .potEvent ∧
      Keeps
        { s with
          pot := { s.pot with levelGood := true, high := t.pot.high, low := t.pot.low, lowlow := t.pot.lowlow } }
        t) ∧
    (∀ f : LevelFlag, s.pot.levelGood = true →
      (match f with | .high => 20 | .low => 20 | .lowlow => 2) ≤ (s.pot.flag f).count →
      ∃ t, exec (.levelFlagChange f) s = .next t ∧ Pending t .potEvent ∧
        (f = .lowlow → s.pot.lowlow.set = false → Halts s t .potLevel) ∧
        (f ≠ .lowlow ∨ s.pot.lowlow.set = true → t.modes.causes = s.modes.causes) ∧
        (∀ r, f = .high → s.pot.high.set = false → s.pot.feeder = .feeding r → t.pot.feeder = .settling 10000) ∧
        Keeps { s.causesOf t with pot := s.pot.setFlag f { set := !(s.pot.flag f).set, count := 0 } } t) ∧
    (∀ w : Wave, (s.pot.pump w).stable = false → 2 ≤ (s.pot.pump w).count →
      ∃ a : State, a = { s with pot := { s.pot with chip := a.pot.chip, main := a.pot.main } } ∧
        a.pot.pump w = { s.pot.pump w with stable := true } ∧ (∀ v, v ≠ w → a.pot.pump v = s.pot.pump v) ∧
        exec (.pumpStableSet w) s = .next a.settle ∧ Keeps a a.settle)

/-- The feeder's four commands (R121 to R124): a shot starts at an interval end or a return to IDLE, and at no other moment, is
complete, settles, and leaves the history, each with all it changes. That a row carries the clock to the end of its time, and
the note `feedTest`, are the model's choice (log entries 3 and 1). -/
def Obligations.FeederShotRunsItsCourse : Prop :=
  ∀ s : State,
    (∀ v : Int, s.pot.feeder = .idle → s.pot.low.set = true → s.pot.high.set = false → s.pot.levelGood = true →
      s.thermal.potPV = some v → s.thermal.pot.sp ≠ 0 → s.thermal.pot.sp - s.ws.feedBand ≤ v →
      s.pot.history.length < s.ws.maxShots → s.modes.mode ≠ .off → s.modes.mode ≠ .halted → s.pot.feedTest = true →
      exec .feederShotStart s =
        .next
          { s with
            pot :=
              { s.pot with
                feeder := .feeding s.ws.shotLength, shotLevel := some s.pot.level
                history := s.pot.history ++ [s.clock], feedTest := false } }) ∧
    (s.pot.feedTest = false → exec .feederShotStart s = .next s) ∧
    (∀ r n, s.pot.feeder = .feeding r → n = (if s.pot.high.set then 0 else r) →
      exec .feederShotComplete s =
        .next { s.advance n with pot := { (s.advance n).pot with feeder := .settling 10000 } } ∧
      (s.advance n).clock = s.clock + BitVec.ofNat 32 n) ∧
    (∀ r, s.pot.feeder = .settling r → ∃ t, exec .feederSettlingComplete s = .next t ∧
      (if (s.ws.minRise : Int) ≤ s.pot.level - s.pot.shotLevel.getD 0 then
        t.pot.misses = 0 ∧ t.pot.feeder = .idle
      else if 3 ≤ s.pot.misses + 1 then t.pot.misses = 3 ∧ t.pot.feeder = .jammed ∧ Pending t .potEvent
      else t.pot.misses = s.pot.misses + 1 ∧ t.pot.feeder = .idle) ∧
      t = { s.advance r with
            pot := { s.pot with misses := t.pot.misses, feeder := t.pot.feeder, feedTest := t.pot.feedTest }
            port := { (s.advance r).port with notices := t.port.notices, marks := t.port.marks, line := t.port.line } } ∧
      t.clock = s.clock + BitVec.ofNat 32 r) ∧
    (∀ h rest n, s.pot.history = h :: rest → n = 600000 - (s.clock - h).toNat →
      exec .shotHistoryExpiry s =
        .next { s.advance n with pot := { (s.advance n).pot with history := rest } } ∧
      (s.advance n).clock = s.clock + BitVec.ofNat 32 n)

/-! ## The flux unit -/

/-- FLUX_PRESSURE (R76) latches the fault with its inhibit reason; where it is the first reason, the inhibit begins (R73): no
window stays active, each is incomplete in its record, its CLOSE edge is gone, and every running pulse and purge has ended with
the credit of its elapsed milliseconds, a pulse to its record and the tank, a purge to the tank alone (R68, R69, R78).
PURGE_DURATION_COMPLETE (R78) ends the purge when its time has run, crediting the tank with the flow through all eight nozzles
over what remained, and no board. Each sets FLUX_EVENT. The carry of the clock is the model's choice (log entry 3). -/
def Obligations.FluxPressureLatchesAndPurgeEnds : Prop :=
  ∀ s : State,
    (s.flux.pressureFault = false → 4 ≤ s.flux.pressureCount →
      ∃ t, exec .fluxPressure s = .next t ∧ .pressure ∈ t.flux.inhibit ∧ Pending t .fluxEvent ∧
        (s.flux.inhibit = [] →
          t.flux.active = [] ∧ (∀ k, t.flux.pulses.get k = none) ∧ t.flux.purge = none ∧
          TankTakes s t ((pulseCredits s fun _ => true) + purgeCredit s) ∧
          t.flux.edges =
            s.flux.edges.filter (fun e => e.opens || !s.flux.active.any fun w => w.ordinal == e.ordinal && w.window == e.window) ∧
          ∀ (j : Nat) (r q : Record), s.track.records[j]? = some r → t.track.records[j]? = some q →
            FluxCredited s r q ∧
            (∀ n, n < 16 → (q.incomplete.getLsbD n = true ↔ r.incomplete.getLsbD n = true ∨
              ∃ w ∈ s.flux.active, w.ordinal = r.ordinal ∧ w.window = n)) ∧
            ((∃ w ∈ s.flux.active, w.ordinal = r.ordinal) → q.has .fluxIncomplete = true)) ∧
        Keeps { s with flux := { s.flux with pressureFault := true } } t) ∧
    (∀ g n v, s.flux.purge = some g → g.remaining < 2 ^ 32 → n = g.remaining - (s.clock - g.creditedAt).toNat →
      v = g.remaining * ((s.ws.flow 0) + (s.ws.flow 1) + (s.ws.flow 2) + (s.ws.flow 3) + (s.ws.flow 4) + (s.ws.flow 5)
        + (s.ws.flow 6) + (s.ws.flow 7)) →
      ∃ a : State, exec .purgeDurationComplete s = .next a.settle ∧ Keeps a a.settle ∧
        a.settle.flux.purge = none ∧ Pending a.settle .fluxEvent ∧
        a = { s.advance n with flux := a.flux, mem := a.mem, port := a.port } ∧
        a.clock = s.clock + BitVec.ofNat 32 n ∧ a.flux.purge = none ∧ a.flux.edges = s.flux.edges ∧
        a.flux.active = s.flux.active ∧ a.flux.pulses = s.flux.pulses ∧ TankTakes s a v ∧
        ∀ x, x ≠ 4 → x ≠ 5 → a.mem.read x = s.mem.read x)

/-- LANE_PULSE_END (R68, R69): q ms after its boundary the pulse ends, and flow times q is credited to its record and taken from
the tank, to the nanolitre. After a pulse of the whole period the valve stays open until the boundary of that moment, which
opens the lane again or closes it: the model holds it as a pulse of length 0, which this command leaves alone. The credit sets
FLUX_EVENT where it brings the counter to 0 or below the low mark, and nowhere else (R70). The carry of the clock and the open
valve in between are the model's choice (log entries 3 and 53). -/
def Obligations.LanePulseEndCreditsFlowTimesQ : Prop :=
  ∀ (s : State) (lane : Idx8) (u : Pulse) (n : Nat), s.flux.pulses.get lane = some u →
    n = u.q - (s.clock - u.start).toNat →
    (u.q = 0 → exec (.lanePulseEnd lane) s = .next s) ∧
    (u.q ≠ 0 → ∃ a : State, exec (.lanePulseEnd lane) s = .next a.settle ∧ Keeps a a.settle ∧
      a = { s.advance n with
            flux := a.flux, track := { s.track with records := a.track.records }, mem := a.mem, port := a.port } ∧
      a.clock = s.clock + BitVec.ofNat 32 n ∧
      a.flux.pulses = s.flux.pulses.set lane (if 16 ≤ u.q then some { u with q := 0 } else none) ∧
      a.track.records =
        s.track.records.map (fun r =>
          if r.ordinal = u.ordinal then { r with flux := min (r.flux + s.ws.flow lane * u.q) (2 ^ 32 - 1) } else r) ∧
      TankTakes s a (s.ws.flow lane * u.q) ∧ (LowFormed s → TankEvents s a) ∧
      (∀ x, x ≠ 4 → x ≠ 5 → a.mem.read x = s.mem.read x) ∧
      a.flux.edges = s.flux.edges ∧ a.flux.active = s.flux.active ∧ a.flux.purge = s.flux.purge)

/-- MODULATION_BOUNDARY (R66, R68, R73, R74): the clock stands at the next boundary; the edges that P has reached leave the head
of the list, each OPEN edge bringing its window into the active set and each CLOSE edge taking it out; under an inhibit an OPEN
edge is skipped instead, its window marked in its record and its CLOSE edge dropped; each lane's duty is the largest among the
active windows that carry it, and a lane opens exactly where that duty is above 0, the fluxer is not inhibited, no purge runs
and the conveyor is asked to run; the window that gives the duty owns the pulse, of equal ones that of the oldest record and
there the lowest. A pulse that lasts to the boundary, and a running purge, are credited there (R69, R78), with the tank events
of R70. The carry of the clock to the boundary is the model's choice (log entry 3). -/
def Obligations.ModulationBoundaryFormsDutiesAndOpensLanes : Prop :=
  ∀ (s : State) (due later : List Edge),
    due = (s.flux.edges.takeWhile fun e => atOrAfter s.track.pos e.pos) → s.flux.edges = due ++ later →
    ∃ a : State, exec .modulationBoundary s = .next a.settle ∧ Keeps a a.settle ∧
    NextBoundary 16 s.modAt s.clock a.clock ∧ a.modAt = a.clock ∧
    (s.flux.inhibit = [] →
      a.flux.edges = later ∧
      a.flux.active =
        due.foldl (fun l e =>
          if e.opens then l ++ [⟨e.ordinal, e.window, e.lanes, e.duty⟩]
          else l.filter fun w => !(w.ordinal == e.ordinal && w.window == e.window)) s.flux.active) ∧
    (s.flux.inhibit ≠ [] →
      a.flux.edges =
        later.filter (fun e => e.opens || !due.any fun d => d.opens && d.ordinal == e.ordinal && d.window == e.window) ∧
      a.flux.active =
        s.flux.active.filter (fun w => !due.any fun e => !e.opens && w.ordinal == e.ordinal && w.window == e.window)) ∧
    (∀ (j : Nat) (r q : Record), s.track.records[j]? = some r → a.track.records[j]? = some q →
      (∀ n, n < 16 → (q.skipped.getLsbD n = true ↔ r.skipped.getLsbD n = true ∨
        (s.flux.inhibit ≠ [] ∧ ∃ e ∈ due, e.opens = true ∧ e.ordinal = r.ordinal ∧ e.window = n))) ∧
      (s.flux.inhibit ≠ [] → (∃ e ∈ due, e.opens = true ∧ e.ordinal = r.ordinal) → q.has .fluxSkipped = true)) ∧
    (∀ lane w, w ∈ a.flux.active → w.lanes.getLsbD lane.val = true → w.duty ≤ a.flux.duties.get lane) ∧
    (∀ lane, a.flux.duties.get lane = 0 ∨
      ∃ w ∈ a.flux.active, w.lanes.getLsbD lane.val = true ∧ a.flux.duties.get lane = w.duty) ∧
    (∀ lane, a.flux.pulses.get lane ≠ none ↔
      a.flux.duties.get lane ≠ 0 ∧ s.flux.inhibit = [] ∧ s.flux.purge = none ∧ s.track.ref ≠ 0) ∧
    (∀ lane u, a.flux.pulses.get lane = some u → u.start = a.clock ∧ u.q = a.flux.duties.get lane ∧
      ∃ w, OwnsLane a lane w ∧ u.ordinal = w.ordinal ∧ u.window = w.window) ∧
    a.track.records.map Record.place = s.track.records.map Record.place ∧
    ∃ n, a =
      { s.advance n with
        modAt := a.modAt, flux := a.flux, track := { s.track with records := a.track.records }, mem := a.mem
        port := a.port } ∧ (∀ x, x ≠ 4 → x ≠ 5 → a.mem.read x = s.mem.read x) ∧
      TankTakes s a ((pulseCredits (s.advance n) fun _ => true) + purgeCredit (s.advance n)) ∧
      (LowFormed s → TankEvents s a) ∧
      (∀ (j : Nat) (r q : Record), s.track.records[j]? = some r → a.track.records[j]? = some q →
        FluxCredited (s.advance n) r q) ∧
      a.flux.purge =
        s.flux.purge.map fun g =>
          { remaining := g.remaining - (a.clock - g.creditedAt).toNat, creditedAt := a.clock }

/-! ## The extraction monitor -/

/-- ALARM_ACTIVATION, ALARM_SEVERITY_RISE, ALARM_ESCALATION and ALARM_CLEAR (R141 to R147, R151): each comes with its dwell, as a
number of samples, and then the point's record, and no other point's, takes the step, with the activation value and notice
ALARM_CHANGED. Without its dwell a command changes nothing: the model's choice (log entry 13). An escalation comes at a sample
only, and not where the clear comes with it (R145); `sampled` is the model's note of a sample (log entries 1 and 32). That it comes
also while the point's input is out of range is the model's choice between R141 and R145 (log entry 41). -/
def Obligations.AlarmPointsTakeTheirSteps : Prop :=
  ∀ (s : State) (k : Idx8) (p : Point), FansFormed s → p = s.extr.points.get k →
    (p.ann ≠ .activeUnack → p.ann ≠ .activeAck →
      (AlarmDwellMet s k ∨ WarnDwellMet s k → ∀ sev : Severity, (AlarmDwellMet s k → sev = .alarm) →
        (¬ AlarmDwellMet s k → sev = .warning) →
        ∃ t v, exec (.alarmActivation k) s = .next t ∧ ActivationWord s k v ∧
          t.extr.points =
            s.extr.points.set k
              { p with
                ann := .activeUnack, sev := sev, value := v, lastChange := s.clock
                activations := if p.activations = 0xFFFF then 0xFFFF else p.activations + 1, escCount := 0 } ∧
          Pending t .alarmChanged ∧ Keeps s t) ∧
      (¬ AlarmDwellMet s k → ¬ WarnDwellMet s k → exec (.alarmActivation k) s = .next s)) ∧
    (p.ann = .activeUnack ∨ p.ann = .activeAck → exec (.alarmActivation k) s = .next s) ∧
    (AtWarning s k →
      (AlarmDwellMet s k → ∃ t, exec (.alarmSeverityRise k) s = .next t ∧
        t.extr.points =
          s.extr.points.set k { p with ann := .activeUnack, sev := .alarm, lastChange := s.clock, escCount := 0 } ∧
        Pending t .alarmChanged ∧ Keeps s t) ∧
      (s.extr.sampled = true → s.loaded = true → 4 * s.ws.escalation ≤ p.escCount → ¬ ClearDwellMet s k →
        ∃ t, exec (.alarmEscalation k) s = .next t ∧
        t.extr.points =
          s.extr.points.set k { p with ann := .activeUnack, sev := .alarm, lastChange := s.clock, escCount := 0 } ∧
        Pending t .alarmChanged ∧ Keeps s t)) ∧
    (¬ AtWarning s k ∨ ¬ AlarmDwellMet s k → exec (.alarmSeverityRise k) s = .next s) ∧
    (¬ AtWarning s k ∨ s.extr.sampled = false ∨ s.loaded = false ∨ p.escCount < 4 * s.ws.escalation ∨ ClearDwellMet s k →
      exec (.alarmEscalation k) s = .next s) ∧
    (p.ann = .activeUnack ∨ p.ann = .activeAck → ClearDwellMet s k →
      ∃ t, exec (.alarmClear k) s = .next t ∧
        t.extr.points =
          s.extr.points.set k
            { p with
              ann := if p.ann = .activeAck then .normal else .clearedUnack
              sev := .none, lastChange := s.clock, warnCount := 0, alarmCount := 0, clearCount := 0, escCount := 0 } ∧
        Pending t .alarmChanged ∧
        Keeps { s with extr := { s.extr with vapourCount := if k = 7 then 0 else s.extr.vapourCount } } t) ∧
    ((p.ann = .normal ∨ p.ann = .clearedUnack) ∨ ¬ ClearDwellMet s k → exec (.alarmClear k) s = .next s)

/-- VAPOUR_HALT (R151), RUN_ON_TIMER_EXPIRY (R137, R138, R140) and START_GRACE_END (R139). The carry of the clock to a timer's
end is the model's choice (log entry 3). -/
def Obligations.VapourHaltsAndFanTimersEnd : Prop :=
  ∀ s : State,
    (120 ≤ s.extr.vapourCount → ∃ t, exec .vapourHalt s = .next t ∧ Halts s t .vapour ∧ Keeps (s.causesOf t) t) ∧
    (∀ r, s.modes.mode = .off → s.modes.runOn = some r → s.extr.fan = true →
      ∃ t, exec .runOnTimerExpiry s = .next t ∧ t.modes.runOn = none ∧ t.extr.fan = false ∧ t.modes.mode = .off ∧
        (∀ k : Idx8, k.val < 4 → (t.extr.points.get k).ann ≠ .activeUnack ∧ (t.extr.points.get k).ann ≠ .activeAck) ∧
        (∀ k : Idx8, 4 ≤ k.val → t.extr.points.get k = s.extr.points.get k) ∧
        t.clock = s.clock + BitVec.ofNat 32 r ∧ Keeps (s.advance r) t) ∧
    (∀ h r, s.extr.grace h = some r → ∃ t, exec (.startGraceEnd h) s = .next t ∧ t.extr.grace h = none ∧
      t = { s.advance r with
            extr :=
              { (s.advance r).extr with
                grace1 := if h = .x1 then none else (s.advance r).extr.grace1
                grace2 := if h = .x2 then none else (s.advance r).extr.grace2 } } ∧
      t.clock = s.clock + BitVec.ofNat 32 r)

/-! ## The width drive -/

/-- The width drive (R57, R58, R59). Homing starts outward exactly when the home switch reads active, counts its travel, turns
inward, and finds its position; a move starts to a named width that differs, follows the steps, and completes at its target;
excess homing travel and a supervised limit switch fault the drive and halt the line, the switch also where it reads active as a
leg or a move begins. The switch at the other end is not supervised. That motion begins in WIDTH_MOTION_START alone is the
model's reading (log entry 26). -/
def Obligations.WidthDriveHomesMovesAndFaults : Prop :=
  ∀ s : State,
    (s.gate.width.state = .unreferenced → (s.modes.mode = .warmup ∨ s.modes.mode = .production) →
      s.track.records = [] → s.outfeed.state = .empty →
      (s.pins.homeActive = true → s.pins.limitMax = false) → (s.pins.homeActive = false → s.pins.limitMin = false) →
      ∃ a : State,
        a = { s with gate := { s.gate with width := { s.gate.width with state := .homing s.pins.homeActive, travel := 0 } } } ∧
        exec .widthMotionStart s = .next a.settle ∧ Keeps a a.settle) ∧
    (s.gate.width.state = .unreferenced → (s.modes.mode = .warmup ∨ s.modes.mode = .production) →
      s.track.records = [] → s.outfeed.state = .empty →
      (s.pins.homeActive = true ∧ s.pins.limitMax = true) ∨ (s.pins.homeActive = false ∧ s.pins.limitMin = true) →
      ∃ t, exec .widthMotionStart s = .next t ∧ WidthFaulted s t s.gate.width.target ∧ Keeps (s.causesOf t) t) ∧
    (∀ o, s.gate.width.state = .homing o →
      exec .widthStepperStep s =
        .next { s with gate := { s.gate with width := { s.gate.width with travel := s.gate.width.travel + 1 } } }) ∧
    (s.gate.width.state = .homing true → s.pins.limitMin = false →
      exec .homeSwitchInactive s =
        .next
          { s with
            pins := { s.pins with homeActive := false }
            gate := { s.gate with width := { s.gate.width with state := .homing false, travel := 0 } } }) ∧
    (∀ a : State, a = { s with pins := { s.pins with homeActive := false } } →
      (s.gate.width.state ≠ .homing true →
        (s.gate.width.outward = some true → s.pins.limitMax = false) →
        (s.gate.width.outward = some false → s.pins.limitMin = false) → exec .homeSwitchInactive s = .next a) ∧
      (((s.gate.width.state = .homing true ∨ s.gate.width.outward = some false) ∧ s.pins.limitMin = true) ∨
          (s.gate.width.state ≠ .homing true ∧ s.gate.width.outward = some true ∧ s.pins.limitMax = true) →
        ∃ t, exec .homeSwitchInactive s = .next t ∧ WidthFaulted s t s.gate.width.target ∧
          Keeps (a.causesOf t) t)) ∧
    (s.gate.width.state = .homing false → ∃ t, exec .homingComplete s = .next t ∧
      t.gate.width = { s.gate.width with state := .idle, pos := 500, travel := 0 } ∧
      Keeps { s with pins := { s.pins with homeActive := true } } t) ∧
    (∀ w, s.gate.width.state = .idle → s.gate.namedClass.map (·.width) = some w → s.gate.width.pos ≠ w →
      (s.modes.mode = .warmup ∨ s.modes.mode = .production) → s.track.records = [] → s.outfeed.state = .empty →
      ((s.gate.width.pos < w → s.pins.limitMax = false) → (w < s.gate.width.pos → s.pins.limitMin = false) →
        ∃ a : State,
          a = { s with gate := { s.gate with width := { s.gate.width with state := .moving, target := w } } } ∧
          exec .widthMotionStart s = .next a.settle ∧ Keeps a a.settle) ∧
      ((s.gate.width.pos < w ∧ s.pins.limitMax = true) ∨ (w < s.gate.width.pos ∧ s.pins.limitMin = true) →
        ∃ t, exec .widthMotionStart s = .next t ∧ WidthFaulted s t w ∧ Keeps (s.causesOf t) t)) ∧
    (s.gate.width.state = .moving → s.gate.width.pos ≠ s.gate.width.target →
      exec .widthStepperStep s =
        .next
          { s with
            gate :=
              { s.gate with
                width :=
                  { s.gate.width with
                    pos := if s.gate.width.pos < s.gate.width.target then s.gate.width.pos + 1
                      else s.gate.width.pos - 1 } } }) ∧
    (s.gate.width.state = .moving → s.gate.width.pos = s.gate.width.target →
      ∃ t, exec .widthMoveComplete s = .next t ∧ t.gate.width = { s.gate.width with state := .idle } ∧ Keeps s t) ∧
    (((s.gate.width.state = .homing true ∧ s.pins.homeActive = true ∧ 200 ≤ s.gate.width.travel) ∨
        (s.gate.width.state = .homing false ∧ s.pins.homeActive = false ∧ 4600 ≤ s.gate.width.travel)) →
      ∃ t, exec .homingTravelExceeded s = .next t ∧ WidthFaulted s t s.gate.width.target ∧ Keeps (s.causesOf t) t) ∧
    (∀ e : RailEnd, ∃ t, exec (.widthLimitActive e) s = .next t ∧
      (s.gate.width.outward = some (e == .maximum) →
        WidthFaulted s t s.gate.width.target ∧ Keeps { s.causesOf t with pins := s.pins.setLimit e } t) ∧
      (s.gate.width.outward ≠ some (e == .maximum) → t = { s with pins := s.pins.setLimit e }))

/-! ## The lines -/

/-- UPSTREAM_AVAILABLE_CHANGE and DOWNSTREAM_READY_CHANGE (R44, R157, R168): the level, the transition count, the wake of an
ECONOMY line, the take and the withdrawal; a level that has not changed changes nothing. A withdrawal that leaves a held board's
tail at the exit eye raises the stop request (R158). -/
def Obligations.HandoverLinesCountTheirChanges : Prop :=
  ∀ (s : State) (b : Bool),
    (s.pins.upstream = b → exec (.upstreamAvailableChange b) s = .next s) ∧
    (s.pins.upstream ≠ b → ∃ t, exec (.upstreamAvailableChange b) s = .next t ∧
      (b = true → s.modes.mode = .economy → t.modes.mode = .warmup ∧ Pending t .modeChanged) ∧
      Keeps
        { s with
          pins := { s.pins with upstream := b }, gate := { s.gate with upstreamCount := s.gate.upstreamCount + 1 } }
        t) ∧
    (s.pins.downstream = b → exec (.downstreamReadyChange b) s = .next s) ∧
    (s.pins.downstream ≠ b → ∃ t, exec (.downstreamReadyChange b) s = .next t ∧
      (s.outfeed.state = .holding → b = true → s.modes.mode ≠ .off → s.modes.mode ≠ .halted →
        t.outfeed.state = .delivering) ∧
      (s.outfeed.state = .delivering → b = false → t.outfeed.state = .holding ∧
        (s.track.exitEye.accepted = true → t.outfeed.stop = true)) ∧
      Keeps
        { s with
          pins := { s.pins with downstream := b }
          outfeed := { s.outfeed with readyCount := s.outfeed.readyCount + 1 } } t)

/-- END_SENSOR_RAW_CHANGE and END_SENSOR_EVENT (R153, R154): one pending change, accepted after 20 ms; a blocked sensor takes
EMPTY and LOADING to HOLDING (DELIVERING where the take follows), a cleared one takes HOLDING and DELIVERING to EMPTY, or on to
LOADING where the exit eye is blocked. The stop request is raised by a held board whose tail is at the exit eye, or by the next
board at its position, and lowered at the entry to EMPTY (R158). The carry of the clock is the model's choice (log entry 3). -/
def Obligations.EndSensorQualifiesAndMovesTheOutfeed : Prop :=
  ∀ s : State,
    (∀ b : Bool,
      exec (.endSensorRawChange b) s =
        .next
          { s with
            pins := { s.pins with endSensor := b }
            outfeed :=
              { s.outfeed with
                sensor :=
                  { s.outfeed.sensor with
                    pendingAt :=
                      if b = s.outfeed.sensor.accepted then none
                      else some (s.outfeed.sensor.pendingAt.getD s.clock) } } }) ∧
    (∀ p n, s.outfeed.sensor.pendingAt = some p → n = 20 - (s.clock - p).toNat →
      ∃ t, exec .endSensorEvent s = .next t ∧
        (s.outfeed.sensor.accepted = false → (s.outfeed.state = .empty ∨ s.outfeed.state = .loading) →
          (t.outfeed.state = .holding ∨ t.outfeed.state = .delivering) ∧
          (t.outfeed.stop = true ↔
            s.outfeed.stop = true ∨ s.track.exitEye.accepted = true ∨ NextBoardNear s)) ∧
        (s.outfeed.sensor.accepted = true → (s.outfeed.state = .holding ∨ s.outfeed.state = .delivering) →
          t.outfeed.state = (if s.track.exitEye.accepted then .loading else .empty) ∧
          (t.outfeed.stop = true ↔ s.track.exitEye.accepted = true ∧ NextBoardNear s)) ∧
        t.clock = s.clock + BitVec.ofNat 32 n ∧
        Keeps
          { s.advance n with
            outfeed :=
              { s.outfeed with
                sensor :=
                  { accepted := !s.outfeed.sensor.accepted, pendingAt := none
                    count := s.outfeed.sensor.count + 1 } } } t)

/-- IDLE_TIMER_EXPIRY, SUPERVISION_EXPIRED and WARMUP_COMPLETE (R165, R166, R167, R174). The carry of the clock to a timer's end
is the model's choice (log entry 3), and so is that WARMUP_COMPLETE without its condition changes nothing (log entry 13). -/
def Obligations.TimersAndWarmupChangeTheMode : Prop :=
  ∀ s : State,
    (∀ e n, s.modes.mode = .production → s.modes.idle = some e → n = 1000 * s.ws.idleTime - e →
      ∃ t, exec .idleTimerExpiry s = .next t ∧
        t.modes.mode = .economy ∧ t.modes.wakeArm = some s.pins.upstream ∧ Pending t .modeChanged ∧
        t.clock = s.clock + BitVec.ofNat 32 n ∧ Keeps (s.advance n) t) ∧
    (∀ n, s.port.supRunning = true → n = 1000 * s.ws.supervision - s.port.supElapsed →
      ∃ t, exec .supervisionExpired s = .next t ∧ Pending t .supervisionExpired ∧
        (s.modes.mode = .production → s.track.records = [] → t.modes.mode = .economy) ∧
        t.clock = s.clock + BitVec.ofNat 32 n ∧
        Keeps { s.advance n with port := { (s.advance n).port with hostLost := true, supRunning := false } } t) ∧
    (s.modes.mode = .warmup → WarmupMet s → s.port.hostLost = false ∨ s.track.records ≠ [] →
      ∃ t, exec .warmupComplete s = .next t ∧ t.modes.mode = .production ∧ Pending t .modeChanged ∧ Keeps s t) ∧
    (s.modes.mode ≠ .warmup ∨ ¬ WarmupMet s → exec .warmupComplete s = .next s)

/-! ## The requests

A request row posts its request with the host's writes and has it taken in the same operation: the model's choice and reading (log
entries 5 and 14). -/

/-- The handshake (R177, R178): a post that names no request, or whose code word differs from the record's, is refused
BAD_ARGUMENT and no block sees it; a write while BUSY sets OVERRUN and changes nothing of the post; an answer is DONE or REFUSED
with its code and field, and sets REQUEST_DONE. That a write to REQUEST which finds the port free then waits to be taken is the
model's reading of REQUEST_OVERRUN (log entry 14). -/
def Obligations.RequestHandshakeAnswersEveryPost : Prop :=
  ∀ s : State,
    (∀ c code ws, requestCode c = some code → ws = carriedWrites c →
      (s.port.request ≠ .busy → (hostWrites ws s.mem).read 0x0040 ≠ code →
        exec c s = .next ((s.withPost code ws).answer (.refused .badArgument 0))) ∧
      (s.port.request = .busy → s.port.posted ≠ some code →
        exec c s = .next { s with mem := hostWrites ws s.mem, port := { s.port with overrun := true } })) ∧
    (∀ (code : Word) ws, code = 0 ∨ 14 < code.toNat → s.port.request ≠ .busy →
      exec (.unknownRequest code ws) s = .next ((s.withPost code ws).answer (.refused .badArgument 0))) ∧
    (∀ code, s.port.request = .busy →
      exec (.requestOverrun code) s = .next { s with port := { s.port with overrun := true } }) ∧
    (∀ code, s.port.request ≠ .busy →
      exec (.requestOverrun code) s =
        .next
          { s with
            port :=
              { s.port with request := .busy, posted := some code, overrun := false, refusal := .none, field := 0 } }) ∧
    (∀ a, ∃ p, s.answer a = { s with port := p } ∧ NoticeLineFormed (s.answer a) ∧
      p = { s.port with
            request := p.request, refusal := p.refusal, field := p.field, line := p.line
            notices := s.port.notices ||| 2, marks := s.port.marks &&& ~~~2 } ∧
      (a = .done → p.request = .done ∧ p.refusal = .none ∧ p.field = 0) ∧
      (∀ code field, a = .refused code field → p.request = .refused ∧ p.refusal = code ∧ p.field = field))

/-- LOAD_SETUP (R180, and the effects of R2, R21, R70, R118, R138, R141, R174 and R182): decided by the first case that applies;
a refusal leaves the working set; an acceptance replaces it by the setup record, and the blocks take it: the accumulator, E
where no posted slot moves it on, with its mirror, the low-mark state, the level flags, the alarm dwell counts, the run-on time,
supervision. The model's choices in it: the host's writes come with the row, which posts and takes its request at once (log
entries 5 and 14), the note that the alarm table was sampled at this moment is dropped (log entry 1), and the mirror is written
also where the first sequence is the E that stands (log entry 54). -/
def Obligations.LoadSetupIsDecidedByItsFirstCase : Prop :=
  ∀ (s w : State) (ws : List HostWrite), Posts s 1 ws → w = s.withPost 1 ws →
    (s.modes.mode ≠ .off → exec (.loadSetup ws) s = .next (w.answer (.refused .wrongMode 0))) ∧
    (s.modes.mode = .off → s.track.records ≠ [] →
      exec (.loadSetup ws) s = .next (w.answer (.refused .busyLine 0))) ∧
    (s.modes.mode = .off → s.track.records = [] → ∀ k, (readSetup w.mem).firstFailing = some k →
      exec (.loadSetup ws) s = .next (w.answer (.refused .setupInvalid (BitVec.ofNat 8 k)))) ∧
    (w.port.setup = s.port.setup) ∧
    (s.modes.mode = .off → s.track.records = [] → (readSetup w.mem).firstFailing = none →
      ∃ t, exec (.loadSetup ws) s = .next (t.answer .done) ∧
        Keeps
          { w with
            track := { s.track with frac := 0 }
            pot := { s.pot with high := ⟨false, 0⟩, low := ⟨false, 0⟩, lowlow := ⟨false, 0⟩ }
            extr := { s.extr with sampled := false }
            port :=
              { w.port with
                setup := some (readSetup w.mem), hostLost := false, supElapsed := 0
                supRunning := (readSetup w.mem).supervision != 0 } } t ∧
        t.modes.mode = .off ∧ t.modes.runOn = s.modes.runOn.map (fun r => min r (1000 * (readSetup w.mem).fanRunOn)) ∧
        (s.flux.inhibit ≠ [] → t.flux.low = decide (s.flux.counter < (readSetup w.mem).tankLowMark)) ∧
        (FansFormed s → ∀ k, t.extr.points.get k =
          { s.extr.points.get k with warnCount := 0, alarmCount := 0, clearCount := 0 }) ∧
        (∀ e, e = w.mem.read (0x0060 + 116) → (∀ n, slotState w.mem n ≠ .posted) →
          (e ≠ 0 → t.docket.expected = e ∧ t.mem.read 3 = e) ∧
          (e = 0 → t.docket.expected = s.docket.expected ∧ t.mem.read 3 = w.mem.read 3)))

/-- START and SHUTDOWN (R51, R164, R169): the refusals in their order; START enters WARMUP with the reported class as the line
class, stops the run-on timer, and nothing else but what follows in the blocks; SHUTDOWN takes a running line to COOLDOWN, and
on to OFF where list and outfeed are empty, and HALTED to OFF. That START leaves the wake arming none is the model's choice (log
entry 48). -/
def Obligations.StartAndShutdownChangeTheMode : Prop :=
  ∀ (s w : State) (ws : List HostWrite),
    (Posts s 2 ws → w = s.withPost 2 ws →
      (s.modes.mode ≠ .off → exec (.start ws) s = .next (w.answer (.refused .wrongMode 0))) ∧
      (s.modes.mode = .off → s.loaded = false → exec (.start ws) s = .next (w.answer (.refused .notLoaded 0))) ∧
      (s.modes.mode = .off → s.loaded = true → (s.pins.estop = true ∨ s.modes.causes ≠ []) →
        exec (.start ws) s = .next (w.answer (.refused .causePresent 0))) ∧
      (s.modes.mode = .off → s.loaded = true → s.pins.estop = false → s.modes.causes = [] →
        ∃ a : State,
          a = { w with
                gate := { s.gate with lineClass := s.nextBoard.map fun b => b.recipe.cls }
                modes := { s.modes with mode := .warmup, runOn := none, wakeArm := none }
                port := { w.port with notices := w.port.notices ||| 4, marks := w.port.marks &&& ~~~4 } } ∧
          exec (.start ws) s = .next (a.settle.answer .done) ∧ a.settle.modes.mode = .warmup ∧
          a.settle.modes.runOn = none ∧ a.settle.extr.fan = true ∧ Pending a.settle .modeChanged ∧ Keeps w a.settle)) ∧
    (Posts s 3 ws → w = s.withPost 3 ws →
      ((s.modes.mode = .off ∨ s.modes.mode = .cooldown) →
        exec (.shutdown ws) s = .next (w.answer (.refused .wrongMode 0))) ∧
      ((s.modes.mode = .warmup ∨ s.modes.mode = .production ∨ s.modes.mode = .economy) →
        ∃ t, exec (.shutdown ws) s = .next (t.answer .done) ∧
          t.modes.mode = (if s.track.records = [] ∧ s.outfeed.state = .empty then .off else .cooldown) ∧
          (t.modes.mode = .off → t.modes.runOn = some (1000 * s.ws.fanRunOn)) ∧ Pending t .modeChanged ∧ Keeps w t) ∧
      (s.modes.mode = .halted →
        ∃ t, exec (.shutdown ws) s = .next (t.answer .done) ∧ t.modes.mode = .off ∧
          t.modes.runOn = some (1000 * s.ws.fanRunOn) ∧ Pending t .modeChanged ∧ Keeps w t))

/-- STOP, ECONOMY and WAKE (R171, R167, R168). That the wake arming is held in ECONOMY alone is the model's choice (log entry
48). -/
def Obligations.StopEconomyAndWakeChangeTheMode : Prop :=
  ∀ (s w : State) (ws : List HostWrite),
    (Posts s 4 ws → w = s.withPost 4 ws →
      (s.modes.mode = .off → exec (.stop ws) s = .next (w.answer (.refused .wrongMode 0))) ∧
      (s.modes.mode ≠ .off →
        ∃ t, exec (.stop ws) s = .next (t.answer .done) ∧ Halts w t .stopRequest ∧ Keeps (w.causesOf t) t)) ∧
    (Posts s 6 ws → w = s.withPost 6 ws →
      (s.modes.mode ≠ .warmup → s.modes.mode ≠ .production →
        exec (.economy ws) s = .next (w.answer (.refused .wrongMode 0))) ∧
      ((s.modes.mode = .warmup ∨ s.modes.mode = .production) → s.track.records ≠ [] →
        exec (.economy ws) s = .next (w.answer (.refused .busyLine 0))) ∧
      ((s.modes.mode = .warmup ∨ s.modes.mode = .production) → s.track.records = [] →
        ∃ t, exec (.economy ws) s = .next (t.answer .done) ∧ t.modes.mode = .economy ∧
          t.modes.wakeArm = some s.pins.upstream ∧ t.gate.phase = .none ∧ t.gate.target = none ∧
          Pending t .modeChanged ∧ Keeps w t)) ∧
    (Posts s 7 ws → w = s.withPost 7 ws →
      (s.modes.mode ≠ .economy → exec (.wake ws) s = .next (w.answer (.refused .wrongMode 0))) ∧
      (s.modes.mode = .economy →
        ∃ t, exec (.wake ws) s = .next (t.answer .done) ∧ t.modes.mode = .warmup ∧ t.modes.wakeArm = none ∧
          Pending t .modeChanged ∧ Keeps w t))

/-- CLEAR (R172, R173, with R60, R76, R101, R125, R161): always accepted; each latched fault whose condition is gone is
released, each cause without a standing condition leaves the set, and a HALTED line whose set is empty goes to WARMUP; in any
other mode the mode stays, but that a COOLDOWN whose outfeed CLEAR has emptied ends with an empty list (R161, R169), and that a
standing HOST_LOST takes an empty PRODUCTION line to ECONOMY as it does at any time (R167). That FLUX_PRESSURE is released by
the judgement made at the sample is the model's choice (log entry 39), and so is the moment at which a limit switch that reads
inactive again is seen (log entry 56). -/
def Obligations.ClearReleasesFaultsAndCauses : Prop :=
  ∀ (s w : State) (ws : List HostWrite) (stands : HaltCause → Prop), Posts s 5 ws → w = s.withPost 5 ws →
    (∀ c, stands c ↔
      (c = .estop ∧ s.pins.estop = true) ∨ (c = .entryJam ∧ s.pins.entryEye = true) ∨
      (c = .potOvertemp ∧ (overtemp s = true ∨ s.thermal.potPV = none)) ∨
      (c = .potSensor ∧ (s.thermal.inputs.get 6).state ≠ .good) ∨ (c = .potLevel ∧ s.pot.lowlow.set = true) ∨
      (c = .widthDrive ∧ (s.pins.limitMin = true ∨ s.pins.limitMax = true)) ∨
      (c = .vapour ∧ (s.extr.points.get 7).sev = .alarm)) →
    ∃ t, exec (.clear ws) s = .next (t.answer .done) ∧
      (∀ c, c ∈ t.modes.causes ↔ c ∈ s.modes.causes ∧ stands c) ∧
      (s.modes.mode = .halted → t.modes.mode = .halted ∧ t.modes.causes ≠ [] ∨
        t.modes.mode = .warmup ∧ t.modes.causes = [] ∧ Pending t .modeChanged) ∧
      (s.modes.mode ≠ .halted → t.modes.mode =
        if s.modes.mode = .cooldown ∧ s.track.records = [] ∧ t.outfeed.state = .empty then .off
        else if s.modes.mode = .production ∧ s.track.records = [] ∧ s.port.hostLost = true then .economy
        else s.modes.mode) ∧
      (s.pot.feeder = .jammed → t.pot.feeder = .idle ∧ t.pot.misses = 0) ∧
      (s.pot.feeder ≠ .jammed → t.pot.misses = s.pot.misses) ∧
      t.flux.pressureFault = (s.flux.pressureFault && !s.flux.pressureInBand) ∧
      (∀ z, t.thermal.latches.get z = true ↔ s.thermal.latches.get z = true ∧
        ¬ ∃ v, s.thermal.zonePV z = some v ∧ s.loaded = true ∧ v < s.ws.zoneHard) ∧
      (s.gate.width.state = .fault → s.pins.limitMin = false → s.pins.limitMax = false →
        t.gate.width = { s.gate.width with state := .unreferenced }) ∧
      (s.outfeed.state = .loading → s.track.exitEye.accepted = false → s.outfeed.sensor.accepted = false →
        t.outfeed.state = .empty) ∧
      Keeps
        { w.causesOf t with
          pot := { s.pot with misses := t.pot.misses, feedTest := t.pot.feedTest }
          flux := { s.flux with pressureFault := t.flux.pressureFault }
          thermal := { s.thermal with latches := t.thermal.latches } } t

/-- SET_SOURCE and SET_SEQUENCE (R27, R28): refused IN_USE while the gate is OPEN or LATE; otherwise the source changes to the
one named, where its recipe is there, and E takes the given number with its mirror. With them the docket unit's findings (R22 to
R26, R29). The scan that a new E brings: every unheld POSTED slot behind E is rejected STALE; of those that carry E the lowest
becomes the candidate and the others are rejected DUPLICATE; a candidate whose recipe fails is rejected BAD_RECIPE and E moves
on; else no other slot changes, an EDITING recipe holds RECIPE, a READY one gives the next board; with no slot at E, NO_DOCKET.
In STANDING there is no candidate, RECIPE stands unless the recipe is READY and passes, NO_SLOT unless a slot qualifies. Each
rejection advances the closed-slot count by one (R37). Three clauses are the model's choice or its reading: that IN_USE is
decided first (log entry 22), that NO_DOCKET stands in STANDING without a setup (log entry 18), and that naming the current
STANDING recipe after it has gone bad is refused (log entry 35). So is the mirror written by a SET_SEQUENCE that names the E
that stands (log entry 54). -/
def Obligations.SourceAndSequenceFollowTheHost : Prop :=
  ∀ (s w : State) (ws : List HostWrite),
    (Posts s 8 ws → w = s.withPost 8 ws →
      ((s.gate.state = .opened ∨ s.gate.state = .late) →
        exec (.setSource ws) s = .next (w.answer (.refused .inUse 0))) ∧
      (s.gate.state ≠ .opened → s.gate.state ≠ .late →
        (∀ src, (src = .docket ∧ w.mem.read 0x0041 = 0) ∨
            (∃ n : Fin 16, src = .standing n ∧ w.mem.read 0x0041 = 1 ∧ (w.mem.read 0x0042).toNat = n.val ∧
              judgeRecipe w.mem s.port.setup n.val ≠ .bad) →
          (s.docket.source = src → exec (.setSource ws) s = .next (w.answer .done)) ∧
          (s.docket.source ≠ src →
            ∃ a : State, a = { w with docket := { s.docket with source := src } } ∧
              exec (.setSource ws) s = .next (a.settleEval.answer .done) ∧ Keeps a a.settleEval ∧
              CountsCloses w.mem a.settleEval.mem 0 ∧
              ∀ (n : Fin 16) (d : Docket), src = .standing n → GateFormed s → d = a.settleEval.docket →
                d.expected = s.docket.expected ∧ d.candidate = none ∧ d.noDocket = !s.loaded ∧
                (d.recipeHold = false ↔ ∃ r, judgeRecipe w.mem s.port.setup n.val = .ready r) ∧
                (d.noSlot = false ↔ ∃ k, slotState w.mem k = .free ∧ k ∉ s.docket.held) ∧
                (∀ b, d.next = some b ↔ s.loaded = true ∧ b.skipFlux = false ∧
                  judgeRecipe w.mem s.port.setup n.val = .ready b.recipe))) ∧
        ((1 < (w.mem.read 0x0041).toNat ∨ (w.mem.read 0x0041 = 1 ∧
            (15 < (w.mem.read 0x0042).toNat ∨
              judgeRecipe w.mem s.port.setup (w.mem.read 0x0042).toNat = .bad))) →
          exec (.setSource ws) s = .next (w.answer (.refused .badArgument 0))))) ∧
    (Posts s 9 ws → w = s.withPost 9 ws →
      ((s.gate.state = .opened ∨ s.gate.state = .late) →
        exec (.setSequence ws) s = .next (w.answer (.refused .inUse 0))) ∧
      (s.gate.state ≠ .opened → s.gate.state ≠ .late → ∀ e, e = w.mem.read 0x0041 →
        ∃ a : State,
          a = { w with docket := { s.docket with expected := e }, mem := w.mem.write 3 e } ∧
          exec (.setSequence ws) s = .next (a.settleEval.answer .done) ∧ Keeps a a.settleEval ∧
          CountsCloses w.mem a.settleEval.mem 0 ∧
          ∀ (t : State) (waits stale same : SlotIx → Prop), t = a.settleEval → s.loaded = true → s.docket.source = .docket →
            (∀ n, waits n ↔ slotState w.mem n = .posted ∧ n ∉ s.docket.held) →
            (∀ n, stale n ↔ waits n ∧ 1 ≤ (e - w.mem.read (slotAt n + 1)).toNat ∧
              (e - w.mem.read (slotAt n + 1)).toNat ≤ 32767) →
            (∀ n, same n ↔ waits n ∧ w.mem.read (slotAt n + 1) = e) →
            (∀ n, stale n → RejectedWith t.mem n 1 ∧ Pending t .slotClosed) ∧
            ((∀ n, ¬ same n) → t.docket.candidate = none ∧ t.docket.noDocket = true ∧ t.docket.recipeHold = false ∧
              t.docket.next = none ∧ t.docket.expected = e ∧ t.mem.read 3 = e ∧
              ∀ n, ¬ stale n → ∀ k, k < 64 → t.mem.read (slotAt n + k) = w.mem.read (slotAt n + k)) ∧
            (∀ n v, same n → (∀ m, same m → n ≤ m) →
              v = judgeRecipe w.mem s.port.setup (w.mem.read (slotAt n + 2)).toNat →
              (∀ m, same m → m ≠ n → RejectedWith t.mem m 2) ∧
              (v = .bad → RejectedWith t.mem n 3 ∧
                ((∀ m, waits m → w.mem.read (slotAt m + 1) ≠ e + 1) →
                  t.docket.expected = e + 1 ∧ t.mem.read 3 = e + 1 ∧ t.docket.noDocket = true)) ∧
              (v ≠ .bad → t.docket.candidate = some n ∧ t.docket.noDocket = false ∧ t.docket.expected = e ∧
                t.mem.read 3 = e ∧ (t.docket.recipeHold = true ↔ v = .editing) ∧
                (∀ b, t.docket.next = some b ↔ v = .ready b.recipe ∧
                  b.skipFlux = (w.mem.read (slotAt n + 3)).getLsbD 0) ∧
                ∀ m, m = n ∨ (¬ stale m ∧ ¬ same m) →
                  ∀ k, k < 64 → t.mem.read (slotAt m + k) = w.mem.read (slotAt m + k)))))

/-- CANCEL_DOCKET (R37, R38): BAD_ARGUMENT for no slot, IN_USE for the offered or a held slot, NOT_POSTED for a slot that does
not read POSTED; otherwise the slot is rejected CANCELLED, and it is counted among the closed slots, as is each slot that a gate
evaluation rejects with it. -/
def Obligations.CancelDocketRejectsAPostedSlot : Prop :=
  ∀ (s w : State) (ws : List HostWrite) (n : SlotIx), Posts s 10 ws → w = s.withPost 10 ws →
    (63 < (w.mem.read 0x0041).toNat → exec (.cancelDocket ws) s = .next (w.answer (.refused .badArgument 0))) ∧
    ((w.mem.read 0x0041).toNat = n.val →
      (((s.gate.state = .opened ∨ s.gate.state = .late) ∧ ∃ o, s.docket.offer = some o ∧ o.slot = n) ∨
          n ∈ s.docket.held →
        exec (.cancelDocket ws) s = .next (w.answer (.refused .inUse 0))) ∧
      (((s.gate.state ≠ .opened ∧ s.gate.state ≠ .late) ∨ ∀ o, s.docket.offer = some o → o.slot ≠ n) →
        n ∉ s.docket.held →
        (slotState w.mem n ≠ .posted → exec (.cancelDocket ws) s = .next (w.answer (.refused .notPosted 0))) ∧
        (slotState w.mem n = .posted →
          ∃ t, exec (.cancelDocket ws) s = .next (t.answer .done) ∧ t.mem.read (slotAt n) = 4 ∧
            t.mem.read (slotAt n + 18) = 4 ∧
            (∀ k, 16 ≤ k → k < 35 → k ≠ 18 → t.mem.read (slotAt n + k) = 0) ∧ Pending t .slotClosed ∧
            CountsCloses w.mem t.mem 0 ∧ n ∈ rejectedSlots w.mem t.mem ∧ Keeps w t)))

/-- ACK_ALARMS (R148), FLUX_REFILLED (R70, R71) and PURGE_FLUXER (R77): the refusals in their order, and what the acceptance
does; a refill sets FLUX_EVENT where its volume lies below the low mark and the state was ABOVE, and nowhere else. -/
def Obligations.AlarmAndFluxRequestsAreDecided : Prop :=
  ∀ (s w : State) (ws : List HostWrite),
    (Posts s 11 ws → w = s.withPost 11 ws →
      (255 < (w.mem.read 0x0041).toNat → exec (.ackAlarms ws) s = .next (w.answer (.refused .badArgument 0))) ∧
      ((w.mem.read 0x0041).toNat ≤ 255 → FansFormed s →
        ∃ t, exec (.ackAlarms ws) s = .next (t.answer .done) ∧ Keeps w t ∧
          (t.extr.points ≠ s.extr.points → Pending t .alarmChanged) ∧
          ∀ k p, p = s.extr.points.get k →
            t.extr.points.get k =
              if (w.mem.read 0x0041).getLsbD k.val = true ∧ p.ann = .activeUnack then
                { p with ann := .activeAck, lastChange := s.clock }
              else if (w.mem.read 0x0041).getLsbD k.val = true ∧ p.ann = .clearedUnack then
                { p with ann := .normal, lastChange := s.clock }
              else p)) ∧
    (Posts s 12 ws → w = s.withPost 12 ws → ∀ v, v = w.mem.read32 0x0041 →
      ((v = 0 ∨ 50000000 < v) → exec (.fluxRefilled ws) s = .next (w.answer (.refused .badArgument 0))) ∧
      (v ≠ 0 → v ≤ 50000000 → s.flux.tankEmpty = true →
        exec (.fluxRefilled ws) s = .next (w.answer (.refused .causePresent 0))) ∧
      (v ≠ 0 → v ≤ 50000000 → s.flux.tankEmpty = false →
        ∃ a : State, exec (.fluxRefilled ws) s = .next (a.settle.answer .done) ∧ Keeps a a.settle ∧
          a = { w with
                flux :=
                  { s.flux with
                    counter := v, remainder := 0, bound := v, low := s.loaded && decide (v < s.ws.tankLowMark) }
                mem := a.mem, port := a.port } ∧
          (Pending a .fluxEvent ↔ Pending s .fluxEvent ∨ (s.flux.low = false ∧ a.flux.low = true)) ∧
          a.mem.read32 0x0004 = v ∧ ∀ x, x ≠ 4 → x ≠ 5 → a.mem.read x = w.mem.read x)) ∧
    (Posts s 13 ws → w = s.withPost 13 ws → ∀ d, d = (w.mem.read 0x0041).toNat →
      ((d < 100 ∨ 10000 < d) → exec (.purgeFluxer ws) s = .next (w.answer (.refused .badArgument 0))) ∧
      (100 ≤ d → d ≤ 10000 → s.modes.mode ≠ .warmup → s.modes.mode ≠ .production →
        exec (.purgeFluxer ws) s = .next (w.answer (.refused .wrongMode 0))) ∧
      (100 ≤ d → d ≤ 10000 → (s.modes.mode = .warmup ∨ s.modes.mode = .production) →
        ((s.flux.purge ≠ none ∨ ∃ r ∈ s.track.records, s.ws.barF - 500 ≤ (s.track.pos - r.lead).toNat ∧
            (s.track.pos - r.lead).toNat ≤ s.ws.barF + 6000) →
          exec (.purgeFluxer ws) s = .next (w.answer (.refused .busyLine 0))) ∧
        (s.flux.purge = none → (∀ r ∈ s.track.records, (s.track.pos - r.lead).toNat < s.ws.barF - 500 ∨
            s.ws.barF + 6000 < (s.track.pos - r.lead).toNat) →
          (s.flux.inhibit ≠ [] → exec (.purgeFluxer ws) s = .next (w.answer (.refused .causePresent 0))) ∧
          (s.flux.inhibit = [] →
            ∃ a : State, exec (.purgeFluxer ws) s = .next (a.settle.answer .done) ∧ Keeps a a.settle ∧
              a.flux.purge = some { remaining := d, creditedAt := s.clock } ∧
              (∀ k, a.flux.pulses.get k = none) ∧ (∀ k, a.flux.valveOpen k = true) ∧
              a.flux.edges = s.flux.edges ∧ a.flux.active = s.flux.active ∧
              a.track.records.map Record.place = s.track.records.map Record.place ∧
              a = { w with
                    flux := a.flux, track := { s.track with records := a.track.records }, mem := a.mem
                    port := a.port } ∧
              ∀ x, x ≠ 4 → x ≠ 5 → a.mem.read x = w.mem.read x))))

/-- CLEAR_TRACK_FLAGS (R179): accepted in every mode, with or without a setup; both sticky flags clear, and nothing else but the
answer happens. -/
def Obligations.ClearTrackFlagsClearsBothFlags : Prop :=
  ∀ (s w : State) (ws : List HostWrite), Posts s 14 ws → w = s.withPost 14 ws →
    exec (.clearTrackFlags ws) s =
      .next (({ w with track := { s.track with overflow := false, phantom := false } } : State).answer .done)

/-! ## The registers -/

/-- NOTICE_READ, NOTICE_WRITE and NOTICE_EN_WRITE (R183, R184): a read marks what it returns; a write clears exactly the marked
bits written 0 and removes every mark; the NOTICE line follows at once. No other command, the resets apart, clears a pending bit or
sets a mark, and a bit that a command makes pending has none. That a read puts its value into the field `port.data` is
the model's choice (log entry 23). -/
def Obligations.NoticeRegisterReadsMarksAndClears : Prop :=
  (∀ (c : Instr) (s t : State), exec c s = .next t → c ≠ .portReset → (∀ ws, c ≠ .powerOnReset ws) → NoticeStep c s t) ∧
  ∀ s : State,
    exec .noticeRead s =
      .next
        { s with
          port := { s.port with marks := s.port.marks ||| s.port.notices, data := s.port.notices.setWidth 16 } } ∧
    (∀ v : Word, ∃ t, exec (.noticeWrite v) s = .next t ∧
      (∀ k : Nat, k < 11 → t.port.notices.getLsbD k =
        (s.port.notices.getLsbD k && (v.getLsbD k || !s.port.marks.getLsbD k))) ∧
      NoticeLineFormed t ∧
      t = { s with port := { s.port with notices := t.port.notices, marks := 0, line := t.port.line } }) ∧
    (∀ v : Word, ∃ t, exec (.noticeEnWrite v) s = .next t ∧ NoticeLineFormed t ∧
      t = { s with port := { s.port with enable := v.setWidth 11, line := t.port.line } })

/-- POS (R3): with no half latched, a read returns the named half of P and latches the other half of the same P; a read of the
latched half returns and releases it; a read of the other half takes P afresh. So two reads, one of each half, whatever P does
between them, give one value of P. Writes are ignored, and both resets release the latch. That a read puts its value into the
field `port.data` is the model's choice (log entry 23). -/
def Obligations.PosReadPairIsOneValue : Prop :=
  ∀ (s : State) (h k : Half), k ≠ h →
    ((∀ v, s.port.latch ≠ some (h, v)) →
      exec (.posRead h) s =
        .next { s with port := { s.port with latch := some (k, posHalf s.track.pos k), data := posHalf s.track.pos h } }) ∧
    (∀ v, s.port.latch = some (h, v) →
      exec (.posRead h) s = .next { s with port := { s.port with latch := none, data := v } }) ∧
    (∀ p : Pos, posHalf p .hi ++ posHalf p .lo = p) ∧
    (∀ v, exec (.ignoredRegisterWrite .pos v) s = .next s) ∧
    (∃ t, exec .portReset s = .next t ∧ t.port.latch = none) ∧
    (∀ ws, ∃ t, exec (.powerOnReset ws) s = .next t ∧ t.port.latch = none)

/-- HOST_ALIVE_WRITE (R174): the supervision timer starts afresh and HOST_LOST is withdrawn; without a setup the write changes
nothing. IGNORED_REGISTER_WRITE (R176) has no effect on any state. With them what each register reads (R176, Table 12-5). -/
def Obligations.HostAliveRestartsSupervision : Prop :=
  ∀ (s : State) (v : Word),
    (s.loaded = false → exec (.hostAliveWrite v) s = .next s) ∧
    (s.loaded = true →
      ∃ a : State,
        a = { s with
              port :=
                { s.port with supElapsed := 0, supRunning := s.ws.supervision != 0, hostLost := false } } ∧
        exec (.hostAliveWrite v) s = .next a.settle ∧ Keeps a a.settle) ∧
    (∀ r, exec (.ignoredRegisterWrite r v) s = .next s) ∧
    readRegister s (.partId .lo) = 0x2640 ∧ readRegister s (.partId .hi) = 1 ∧ readRegister s .hostAlive = 0 ∧
    (∀ k : Fin 16, (readRegister s .notice).getLsbD k = s.port.notices.getLsbD k) ∧
    (∀ k : Fin 16, (readRegister s .noticeEn).getLsbD k = s.port.enable.getLsbD k) ∧
    (∃ m g o, (readRegister s .mode).toNat = m + 16 * g + 256 * o + (if s.loaded then 32768 else 0) ∧
      [Mode.off, .warmup, .production, .economy, .cooldown, .halted][m]? = some s.modes.mode ∧
      [GateState.closed, .opened, .late, .receiving][g]? = some s.gate.state ∧
      [OutfeedState.empty, .loading, .holding, .delivering][o]? = some s.outfeed.state) ∧
    (∃ q c, (readRegister s .request).toNat = q + (if s.port.overrun then 8 else 0) + 16 * c + 256 * s.port.field.toNat ∧
      [ReqState.idle, .busy, .done, .refused][q]? = some s.port.request ∧
      [RefusalCode.none, .wrongMode, .badArgument, .setupInvalid, .notLoaded, .busyLine, .notPosted, .inUse,
        .causePresent][c]? = some s.port.refusal)
end

