-- ==== Sys2Proof/Laws/Memory.lean ====
section
/-! SUPPORT. Exchange memory: what a word reads as after a write, and that every memory operation keeps the canonical form. -/

namespace Sys2Proof.Machine

open Sys2Proof.Config

/-! ## Reading -/

theorem Memory.read_of_absent {m : Memory} {a : Nat} (h : ∀ c ∈ m, c.1 ≠ a) : m.read a = blankWord a := by
  induction m with
  | nil => rfl
  | cons c r ih =>
    have hc := h c (by simp)
    simp only [Memory.read, hc, if_false]
    exact ih fun d hd => h d (by simp [hd])

theorem Memory.read_append_of_absent {l r : Memory} {a : Nat} (h : ∀ c ∈ l, c.1 ≠ a) : (l ++ r : Memory).read a = r.read a := by
  induction l with
  | nil => rfl
  | cons c l ih =>
    have hc := h c (by simp)
    simp only [List.cons_append, Memory.read, hc, if_false]
    exact ih fun d hd => h d (by simp [hd])

theorem Memory.read_append_of_absent_right {l r : Memory} {a : Nat} (h : ∀ c ∈ r, c.1 ≠ a) :
    (l ++ r : Memory).read a = l.read a := by
  induction l with
  | nil => rw [List.nil_append, Memory.read_of_absent h]; rfl
  | cons c l ih => simp only [List.cons_append, Memory.read, ih]

theorem Memory.read_filter {m : Memory} {a : Nat} {p : Nat × Word → Bool} (h : ∀ c ∈ m, c.1 = a → p c = true) :
    Memory.read (m.filter p) a = m.read a := by
  induction m with
  | nil => rfl
  | cons c r ih =>
    have hr := ih fun d hd => h d (by simp [hd])
    by_cases hc : c.1 = a
    · simp [h c (by simp) hc, Memory.read, hc]
    · by_cases hp : p c = true
      · simp [hp, Memory.read, hc, hr]
      · simp [hp, Memory.read, hc, hr]

theorem cellsOf_range {base : Nat} {ws : List Word} {c : Nat × Word} (h : c ∈ cellsOf base ws) :
    base ≤ c.1 ∧ c.1 < base + ws.length ∧ c.2 ≠ blankWord c.1 := by
  induction ws generalizing base with
  | nil => simp [cellsOf] at h
  | cons w rest ih =>
    unfold cellsOf at h
    split at h
    · have := ih h
      exact ⟨by omega, by simp; omega, this.2.2⟩
    · rename_i hb
      rcases List.mem_cons.1 h with rfl | h
      · exact ⟨le_refl _, by simp, hb⟩
      · have := ih h
        exact ⟨by omega, by simp; omega, this.2.2⟩

theorem cellsOf_read {base : Nat} {ws : List Word} {a : Nat} (h : base ≤ a) (h' : a < base + ws.length) :
    Memory.read (cellsOf base ws) a = ws.getD (a - base) 0 := by
  induction ws generalizing base with
  | nil => simp at h'; omega
  | cons w rest ih =>
    unfold cellsOf
    by_cases ha : a = base
    · subst ha
      split
      · rename_i hw
        rw [Memory.read_of_absent (fun c hc => by have := cellsOf_range hc; omega)]
        simp [hw]
      · simp [Memory.read]
    · have hlt : base + 1 ≤ a := by omega
      have hlen : a < base + 1 + rest.length := by simp at h'; omega
      have hidx : a - base = (a - (base + 1)) + 1 := by omega
      split
      · rw [ih hlt hlen, hidx]; simp
      · simp only [Memory.read]
        rw [if_neg (by omega : ¬ base = a), ih hlt hlen, hidx]; simp

/-- What a word reads as after consecutive words are written: a written word inside the block, the old word outside. -/
theorem Memory.read_writeBlock (m : Memory) (base : Nat) (ws : List Word) (a : Nat) :
    (m.writeBlock base ws).read a =
      if base ≤ a ∧ a < base + ws.length then ws.getD (a - base) 0 else m.read a := by
  unfold Memory.writeBlock
  by_cases h1 : a < base
  · rw [if_neg (by omega)]
    rw [Memory.read_append_of_absent_right
      (fun c hc => by have := (List.mem_filter.1 hc).2; simp at this; omega)]
    rw [Memory.read_append_of_absent_right (fun c hc => by have := cellsOf_range hc; omega)]
    exact Memory.read_filter fun c _ hc => decide_eq_true (by omega)
  · by_cases h2 : a < base + ws.length
    · rw [if_pos ⟨by omega, h2⟩]
      rw [Memory.read_append_of_absent_right
        (fun c hc => by have := (List.mem_filter.1 hc).2; simp at this; omega)]
      rw [Memory.read_append_of_absent
        (fun c hc => by have := (List.mem_filter.1 hc).2; simp at this; omega)]
      exact cellsOf_read (by omega) h2
    · rw [if_neg (by omega), List.append_assoc]
      rw [Memory.read_append_of_absent
        (fun c hc => by have := (List.mem_filter.1 hc).2; simp at this; omega)]
      rw [Memory.read_append_of_absent (fun c hc => by have := cellsOf_range hc; omega)]
      exact Memory.read_filter fun c _ hc => decide_eq_true (by omega)

theorem Memory.read_write (m : Memory) (a : Nat) (w : Word) (b : Nat) :
    (m.write a w).read b = if b = a then w else m.read b := by
  unfold Memory.write
  rw [Memory.read_writeBlock]
  by_cases h : b = a
  · subst h; simp
  · rw [if_neg (by simp; omega), if_neg h]

/-- A word outside the written block reads as before. -/
theorem Memory.read_writeBlock_of_outside {m : Memory} {base : Nat} {ws : List Word} {a : Nat}
    (h : a < base ∨ base + ws.length ≤ a) : (m.writeBlock base ws).read a = m.read a := by
  rw [Memory.read_writeBlock, if_neg (by omega)]

/-! ## The canonical form -/

theorem cellsOf_sorted (base : Nat) (ws : List Word) : ((cellsOf base ws).map Prod.fst).Pairwise (· < ·) := by
  induction ws generalizing base with
  | nil => simp [cellsOf]
  | cons w rest ih =>
    unfold cellsOf
    split
    · exact ih _
    · simp only [List.map_cons, List.pairwise_cons]
      refine ⟨fun a ha => ?_, ih _⟩
      obtain ⟨c, hc, rfl⟩ := List.mem_map.1 ha
      have := cellsOf_range hc
      omega

/-- A write inside the 8192 words keeps the canonical form. -/
theorem Memory.writeBlock_wf {m : Memory} (hm : m.wf) {base : Nat} {ws : List Word}
    (hr : base + ws.length ≤ memWords) : (m.writeBlock base ws).wf := by
  obtain ⟨hs, hc⟩ := hm
  have hf : ∀ p : Nat × Word → Bool, ((m.filter p).map Prod.fst).Pairwise (· < ·) := fun p =>
    hs.sublist (List.filter_sublist.map _)
  refine ⟨?_, ?_⟩
  · unfold Memory.writeBlock
    rw [List.map_append, List.map_append]
    refine List.pairwise_append.2 ⟨List.pairwise_append.2 ⟨hf _, cellsOf_sorted _ _, ?_⟩, hf _, ?_⟩
    · intro a ha b hb
      obtain ⟨c, hc, rfl⟩ := List.mem_map.1 ha
      obtain ⟨d, hd, rfl⟩ := List.mem_map.1 hb
      have h1 := (List.mem_filter.1 hc).2
      have h2 := cellsOf_range hd
      simp at h1; omega
    · intro a ha b hb
      obtain ⟨d, hd, rfl⟩ := List.mem_map.1 hb
      have h2 := (List.mem_filter.1 hd).2
      simp at h2
      rcases List.mem_append.1 ha with ha | ha
      · obtain ⟨c, hc, rfl⟩ := List.mem_map.1 ha
        have h1 := (List.mem_filter.1 hc).2
        simp at h1; omega
      · obtain ⟨c, hc, rfl⟩ := List.mem_map.1 ha
        have h1 := cellsOf_range hc
        omega
  · intro c h
    unfold Memory.writeBlock at h
    rcases List.mem_append.1 h with h | h
    · rcases List.mem_append.1 h with h | h
      · exact hc c (List.mem_filter.1 h).1
      · have := cellsOf_range h
        exact ⟨by omega, this.2.2⟩
    · exact hc c (List.mem_filter.1 h).1

theorem Memory.write_wf {m : Memory} (hm : m.wf) {a : Nat} {w : Word} (ha : a < memWords) : (m.write a w).wf :=
  Memory.writeBlock_wf hm (by simp; omega)

theorem hostWrite_wf {m : Memory} (hm : m.wf) (w : HostWrite) : (hostWrite m w).wf := by
  unfold hostWrite
  split
  · exact hm
  · exact Memory.write_wf hm w.addr.isLt

theorem hostWrites_wf {m : Memory} (hm : m.wf) (ws : List HostWrite) : (hostWrites ws m).wf := by
  induction ws generalizing m with
  | nil => exact hm
  | cons w ws ih => exact ih (hostWrite_wf hm w)

/-- What a host write does: the word it names holds its value, but the part code and the layout version stay (R188). -/
theorem hostWrite_read (m : Memory) (w : HostWrite) (a : Nat) :
    (hostWrite m w).read a = if a = w.addr.val ∧ 2 ≤ a then w.word else m.read a := by
  unfold hostWrite
  split
  · rw [if_neg (by omega)]
  · rw [Memory.read_write]
    by_cases h : a = w.addr.val
    · rw [if_pos h, if_pos ⟨h, by omega⟩]
    · rw [if_neg h, if_neg (fun e => h e.1)]

theorem hostWrites_header (ws : List HostWrite) (m : Memory) {a : Nat} (ha : a < 2) :
    (hostWrites ws m).read a = m.read a := by
  induction ws generalizing m with
  | nil => rfl
  | cons w ws ih =>
    rw [show hostWrites (w :: ws) m = hostWrites ws (hostWrite m w) from rfl, ih, hostWrite_read, if_neg (by omega)]

theorem Memory.nil_wf : Memory.wf [] := by simp [Memory.wf]

@[simp] theorem twoWords_length (n : Nat) : (twoWords n).length = 2 := rfl
@[simp] theorem emptyResult_length (a b : Word) : (emptyResult a b).length = 19 := rfl
@[simp] theorem row_length (n : Nat) (ws : List Word) : (row n ws).length = n := by
  simp [row]; omega

theorem slotAt_bounds (n : SlotIx) : 0x1000 ≤ slotAt n ∧ slotAt n + 0x40 ≤ memWords := by
  have := n.isLt
  simp [slotAt, memWords]; omega

end Sys2Proof.Machine
end

