-- ==== Sys2Proof/Laws/Kept.lean ====
section
/-! SUPPORT. What the consequences of a step (`State.settle`) never touch: one relation, `Kept`. -/

namespace Sys2Proof.Machine

open Sys2Proof.Config

/-- A record less what the consequences of a step may write: its flux, its incomplete mask, its flags. -/
def Record.core (r : Record) : Record :=
  { r with flux := 0, incomplete := 0, flags := 0 }

/-- A loop less what the consequences of a step may write, its SP aside. -/
def Loop.core (l : Loop) : Loop :=
  { l with target := 0, grant := 0, count := 0, settled := false, governing := none }

/-- A zone's loop less what the consequences of a step may write. -/
def Loop.shell (l : Loop) : Loop :=
  { l with target := 0, sp := 0, grant := 0, count := 0, settled := false, governing := none }

/-- A pump less what the consequences of a step may write. -/
def Pump.core (p : Pump) : Pump :=
  { Pump.atReset with measured := p.measured }

/-- The state less what the consequences of a step may write; exchange memory is `MemKept`'s. -/
def State.core (s : State) : State :=
  { s with
    mem := []
    track :=
      { s.track with
        ref := 0, refMoved := false, speedStable := false, passes := 0, misses := 0, lostWaits := false
        records := s.track.records.map Record.core }
    docket := { Docket.atReset 0 with source := s.docket.source, held := s.docket.held }
    gate := { Gate.atReset with upstreamCount := s.gate.upstreamCount }
    outfeed :=
      { s.outfeed with state := .empty, drive := false, available := false, availableCount := 0, stop := false }
    flux :=
      { s.flux with
        edges := [], active := [], pulses := Tab8.ofFn fun _ => none, counter := 0, remainder := 0, low := false
        inhibit := [], purge := none }
    thermal :=
      { s.thermal with
        pot := s.thermal.pot.core
        zones := s.thermal.zones.mapIdx fun _ l => l.shell
        outputs := Tab8.ofFn fun _ => false }
    pot := { s.pot with feeder := .idle, chip := s.pot.chip.core, main := s.pot.main.core, drop := .none }
    extr :=
      { s.extr with
        fan := false, grace1 := none, grace2 := none, points := Tab8.ofFn fun _ => Point.atReset
        horn := false, hornCount := 0, beacon := false, beaconCount := 0 }
    modes := { Modes.atReset with causes := s.modes.causes }
    port := { s.port with notices := 0, marks := 0, line := false } }

/-- Memory after the consequences of a step: the canonical form kept, quiet words unchanged. -/
structure MemKept (m n : Memory) : Prop where
  wf : m.wf → n.wf
  quiet : ∀ a, quietWord a → n.read a = m.read a

/-- What the consequences of a step keep. -/
structure Kept (s t : State) : Prop where
  core : t.core = s.core
  mem : MemKept s.mem t.mem

theorem MemKept.refl (m : Memory) : MemKept m m := ⟨id, fun _ _ => rfl⟩

theorem MemKept.trans {m n o : Memory} (h : MemKept m n) (g : MemKept n o) : MemKept m o :=
  ⟨fun w => g.wf (h.wf w), fun a q => (g.quiet a q).trans (h.quiet a q)⟩

/-- A block write whose words are none of the quiet ones. -/
theorem MemKept.writeBlock (m : Memory) (base : Nat) (ws : List Word) (hr : base + ws.length ≤ memWords)
    (hq : ∀ a, quietWord a → a < base ∨ base + ws.length ≤ a) : MemKept m (m.writeBlock base ws) :=
  ⟨fun h => Memory.writeBlock_wf h hr, fun a q => Memory.read_writeBlock_of_outside (hq a q)⟩

theorem Kept.refl (s : State) : Kept s s := ⟨rfl, MemKept.refl _⟩

theorem Kept.trans {s t u : State} (h : Kept s t) (g : Kept t u) : Kept s u :=
  ⟨g.core.trans h.core, h.mem.trans g.mem⟩

/-- A stage that leaves memory alone keeps what it keeps of the state. -/
theorem Kept.of_core {s t : State} (h : t.core = s.core) (hm : t.mem = s.mem) : Kept s t :=
  ⟨h, hm ▸ MemKept.refl _⟩

/-! ## Tables -/

@[simp] theorem Tab6.get_mapIdx {α β : Type} (t : Tab6 α) (f : Fin 6 → α → β) (z : Fin 6) :
    (t.mapIdx f).get z = f z (t.get z) := by
  match z with
  | 0 => rfl
  | 1 => rfl
  | 2 => rfl
  | 3 => rfl
  | 4 => rfl
  | 5 => rfl

@[simp] theorem Tab8.get_mapIdx {α β : Type} (t : Tab8 α) (f : Fin 8 → α → β) (k : Fin 8) :
    (t.mapIdx f).get k = f k (t.get k) := by
  match k with
  | 0 => rfl
  | 1 => rfl
  | 2 => rfl
  | 3 => rfl
  | 4 => rfl
  | 5 => rfl
  | 6 => rfl
  | 7 => rfl

@[simp] theorem Tab6.get_ofFn {α : Type} (f : Fin 6 → α) (z : Fin 6) : (Tab6.ofFn f).get z = f z := by
  match z with
  | 0 => rfl
  | 1 => rfl
  | 2 => rfl
  | 3 => rfl
  | 4 => rfl
  | 5 => rfl

@[simp] theorem Tab8.get_ofFn {α : Type} (f : Fin 8 → α) (k : Fin 8) : (Tab8.ofFn f).get k = f k := by
  match k with
  | 0 => rfl
  | 1 => rfl
  | 2 => rfl
  | 3 => rfl
  | 4 => rfl
  | 5 => rfl
  | 6 => rfl
  | 7 => rfl

theorem Tab8.get_set {α : Type} (t : Tab8 α) (i : Fin 8) (x : α) (k : Fin 8) :
    (t.set i x).get k = if k = i then x else t.get k := by
  revert i k; intro i k
  match i, k with
  | ⟨i, hi⟩, ⟨k, hk⟩ => interval_cases i <;> interval_cases k <;> rfl

theorem Tab6.get_set {α : Type} (t : Tab6 α) (i : Fin 6) (x : α) (k : Fin 6) :
    (t.set i x).get k = if k = i then x else t.get k := by
  match i, k with
  | ⟨i, hi⟩, ⟨k, hk⟩ => interval_cases i <;> interval_cases k <;> rfl

/-! ## What `Kept` says of each field -/

theorem Kept.zoneShell {s t : State} (h : Kept s t) (z : Zone) :
    (t.thermal.zones.get z).shell = (s.thermal.zones.get z).shell := by
  have := congrArg (fun u => u.thermal.zones.get z) h.core
  simpa [State.core] using this

theorem Kept.keeps {s t : State} (h : Kept s t) : Keeps s t :=
  { pins := (congrArg (fun u => u.pins) h.core :)
    clock := (congrArg (fun u => u.clock) h.core :)
    statusAt := (congrArg (fun u => u.statusAt) h.core :)
    heaterAt := (congrArg (fun u => u.heaterAt) h.core :)
    modAt := (congrArg (fun u => u.modAt) h.core :)
    pending := (congrArg (fun u => u.pending) h.core :)
    trackPos := (congrArg (fun u => u.track.pos) h.core :)
    trackFrac := (congrArg (fun u => u.track.frac) h.core :)
    trackEntryEye := (congrArg (fun u => u.track.entryEye) h.core :)
    trackExitEye := (congrArg (fun u => u.track.exitEye) h.core :)
    trackNet := (congrArg (fun u => u.track.net) h.core :)
    trackShortWindow := (congrArg (fun u => u.track.shortWindow) h.core :)
    trackMeasured := (congrArg (fun u => u.track.measured) h.core :)
    trackOrdinal := (congrArg (fun u => u.track.ordinal) h.core :)
    trackOwner := (congrArg (fun u => u.track.owner) h.core :)
    trackOverflow := (congrArg (fun u => u.track.overflow) h.core :)
    trackPhantom := (congrArg (fun u => u.track.phantom) h.core :)
    trackLastTrail := (congrArg (fun u => u.track.lastTrail) h.core :)
    docketSource := (congrArg (fun u => u.docket.source) h.core :)
    docketHeld := (congrArg (fun u => u.docket.held) h.core :)
    gateUpstreamCount := (congrArg (fun u => u.gate.upstreamCount) h.core :)
    outfeedSensor := (congrArg (fun u => u.outfeed.sensor) h.core :)
    outfeedReadyCount := (congrArg (fun u => u.outfeed.readyCount) h.core :)
    fluxDuties := (congrArg (fun u => u.flux.duties) h.core :)
    fluxTankEmpty := (congrArg (fun u => u.flux.tankEmpty) h.core :)
    fluxBound := (congrArg (fun u => u.flux.bound) h.core :)
    fluxPressureFault := (congrArg (fun u => u.flux.pressureFault) h.core :)
    fluxPressureCount := (congrArg (fun u => u.flux.pressureCount) h.core :)
    fluxPressureInBand := (congrArg (fun u => u.flux.pressureInBand) h.core :)
    thermalInputs := (congrArg (fun u => u.thermal.inputs) h.core :)
    thermalLatches := (congrArg (fun u => u.thermal.latches) h.core :)
    thermalAuth := (congrArg (fun u => u.thermal.auth) h.core :)
    thermalRamp := (congrArg (fun u => u.thermal.ramp) h.core :)
    thermalPotSp := (congrArg (fun u => u.thermal.pot.sp) h.core :)
    thermalPotIntegral := (congrArg (fun u => u.thermal.pot.integral) h.core :)
    thermalPotRequest := (congrArg (fun u => u.thermal.pot.request) h.core :)
    thermalPotPrevRequest := (congrArg (fun u => u.thermal.pot.prevRequest) h.core :)
    thermalPotPrevGrant := (congrArg (fun u => u.thermal.pot.prevGrant) h.core :)
    thermalPotLimited := (congrArg (fun u => u.thermal.pot.limited) h.core :)
    potLevelGood := (congrArg (fun u => u.pot.levelGood) h.core :)
    potLevelRun := (congrArg (fun u => u.pot.levelRun) h.core :)
    potLevel := (congrArg (fun u => u.pot.level) h.core :)
    potHigh := (congrArg (fun u => u.pot.high) h.core :)
    potLow := (congrArg (fun u => u.pot.low) h.core :)
    potLowlow := (congrArg (fun u => u.pot.lowlow) h.core :)
    potShotLevel := (congrArg (fun u => u.pot.shotLevel) h.core :)
    potMisses := (congrArg (fun u => u.pot.misses) h.core :)
    potHistory := (congrArg (fun u => u.pot.history) h.core :)
    potFeedTest := (congrArg (fun u => u.pot.feedTest) h.core :)
    potShortWindow := (congrArg (fun u => u.pot.shortWindow) h.core :)
    potChipMeasured := (congrArg (fun u => u.pot.chip.measured) h.core :)
    potMainMeasured := (congrArg (fun u => u.pot.main.measured) h.core :)
    extrX1 := (congrArg (fun u => u.extr.x1) h.core :)
    extrX2 := (congrArg (fun u => u.extr.x2) h.core :)
    extrFilter := (congrArg (fun u => u.extr.filter) h.core :)
    extrVapour := (congrArg (fun u => u.extr.vapour) h.core :)
    extrFifth := (congrArg (fun u => u.extr.fifth) h.core :)
    extrFeedback1 := (congrArg (fun u => u.extr.feedback1) h.core :)
    extrFeedback2 := (congrArg (fun u => u.extr.feedback2) h.core :)
    extrVapourCount := (congrArg (fun u => u.extr.vapourCount) h.core :)
    extrSampled := (congrArg (fun u => u.extr.sampled) h.core :)
    modesCauses := (congrArg (fun u => u.modes.causes) h.core :)
    portSetup := (congrArg (fun u => u.port.setup) h.core :)
    portRequest := (congrArg (fun u => u.port.request) h.core :)
    portPosted := (congrArg (fun u => u.port.posted) h.core :)
    portRefusal := (congrArg (fun u => u.port.refusal) h.core :)
    portField := (congrArg (fun u => u.port.field) h.core :)
    portOverrun := (congrArg (fun u => u.port.overrun) h.core :)
    portEnable := (congrArg (fun u => u.port.enable) h.core :)
    portLatch := (congrArg (fun u => u.port.latch) h.core :)
    portSupRunning := (congrArg (fun u => u.port.supRunning) h.core :)
    portSupElapsed := (congrArg (fun u => u.port.supElapsed) h.core :)
    portHostLost := (congrArg (fun u => u.port.hostLost) h.core :)
    portGeneration := (congrArg (fun u => u.port.generation) h.core :)
    portData := (congrArg (fun u => u.port.data) h.core :)
    trackRecords := (congrArg (fun u => u.track.records) h.core :)
    zones := fun z =>
      ⟨(congrArg Loop.integral (h.zoneShell z) :), (congrArg Loop.request (h.zoneShell z) :),
       (congrArg Loop.prevRequest (h.zoneShell z) :), (congrArg Loop.prevGrant (h.zoneShell z) :),
       (congrArg Loop.limited (h.zoneShell z) :)⟩
    memory := h.mem.quiet
    memoryForm := h.mem.wf }

/-! ## Records -/

@[simp] theorem Record.core_markIf (r : Record) (b : Bool) (f : Flag) : (r.markIf b f).core = r.core := by
  unfold Record.markIf; split <;> rfl

theorem core_mapRecords {p : Record → Bool} {f : Record → Record} (hf : ∀ r, (f r).core = r.core) (rs : List Record) :
    (mapRecords p f rs).map Record.core = rs.map Record.core := by
  simp only [mapRecords, List.map_map]
  refine List.map_congr_left fun r _ => ?_
  simp only [Function.comp]
  split
  · exact hf r
  · rfl

theorem core_creditRecord (o : BitVec 16) (n : Nat) (rs : List Record) :
    (creditRecord o n rs).map Record.core = rs.map Record.core :=
  core_mapRecords (f := fun r => { r with flux := min (r.flux + n) (2 ^ 32 - 1) }) (fun _ => rfl) rs

theorem core_markIncomplete (ws : List ActiveWindow) (rs : List Record) :
    (markIncomplete ws rs).map Record.core = rs.map Record.core := by
  unfold markIncomplete
  induction ws generalizing rs with
  | nil => rfl
  | cons w ws ih =>
    rw [List.foldl_cons, ih]
    exact core_mapRecords
      (f := fun r => ({ r with incomplete := r.incomplete ||| bitMask w.window } : Record).mark .fluxIncomplete)
      (fun _ => rfl) rs

@[simp] theorem core_stopMarks (s : State) (r : Record) : (stopMarks s r).core = r.core := by
  simp [stopMarks]

/-! ## Port and loops -/

theorem Port.notifyIf_cases (p : Port) (b : Bool) (n : Notice) :
    p.notifyIf b n = p.notify n ∨ p.notifyIf b n = p := by
  cases b <;> simp [Port.notifyIf]

@[simp] theorem Loop.core_retarget (l : Loop) (t : Int) : (l.retarget t).core = l.core := by
  unfold Loop.retarget; split <;> rfl

@[simp] theorem Loop.sp_retarget (l : Loop) (t : Int) : (l.retarget t).sp = l.sp := by
  unfold Loop.retarget; split <;> rfl

@[simp] theorem Loop.core_formSettled (l : Loop) (a : Bool) : (l.formSettled a).core = l.core := by
  unfold Loop.formSettled; split <;> [rfl; (split <;> rfl)]

@[simp] theorem Loop.sp_formSettled (l : Loop) (a : Bool) : (l.formSettled a).sp = l.sp := by
  unfold Loop.formSettled; split <;> [rfl; (split <;> rfl)]

@[simp] theorem Loop.core_cutIf (l : Loop) (c : Bool) : (l.cutIf c).core = l.core := by
  unfold Loop.cutIf; split <;> rfl

@[simp] theorem Loop.sp_cutIf (l : Loop) (c : Bool) : (l.cutIf c).sp = l.sp := by
  unfold Loop.cutIf; split <;> rfl


@[simp] theorem Loop.shell_retarget (l : Loop) (t : Int) : (l.retarget t).shell = l.shell := by
  unfold Loop.retarget; split <;> rfl

@[simp] theorem Loop.shell_follow (l : Loop) : l.follow.shell = l.shell := rfl

@[simp] theorem Loop.shell_formSettled (l : Loop) (a : Bool) : (l.formSettled a).shell = l.shell := by
  unfold Loop.formSettled; split <;> [rfl; (split <;> rfl)]

@[simp] theorem Loop.shell_cutIf (l : Loop) (c : Bool) : (l.cutIf c).shell = l.shell := by
  unfold Loop.cutIf; split <;> rfl

theorem Loop.shell_governing (l : Loop) (g : Option (BitVec 16)) : ({ l with governing := g } : Loop).shell = l.shell :=
  rfl

end Sys2Proof.Machine
end

