-- ==== Sys2Proof/Laws/Settle.lean ====
section
/-! SUPPORT. Every stage of the consequences of a step keeps what `Kept` names: one lemma per stage, and `settle` whole. -/

namespace Sys2Proof.Machine

open Sys2Proof.Config

/-- A fold of operations that keep. -/
theorem Kept.foldl {α : Type} {f : State → α → State} (hf : ∀ s a, Kept s (f s a)) (l : List α) (s : State) :
    Kept s (l.foldl f s) := by
  induction l generalizing s with
  | nil => exact Kept.refl s
  | cons a l ih => exact (hf s a).trans (ih (f s a))

/-- A choice between two states that are kept. -/
theorem Kept.ite {s t u : State} {c : Prop} [Decidable c] (ht : Kept s t) (hu : Kept s u) :
    Kept s (if c then t else u) := by
  split <;> assumption

/-! ## Modes, fans, horn -/

theorem kept_enterMode (s : State) (m : Mode) : Kept s (s.enterMode m) := by
  unfold State.enterMode
  split
  · exact Kept.refl s
  · refine Kept.of_core ?_ rfl
    cases m <;> simp [State.core, Gate.atMode, Gate.atReset, Port.notify]

theorem kept_modeStage (s : State) : Kept s s.modeStage := by
  unfold State.modeStage
  exact Kept.ite (kept_enterMode s _) (Kept.ite (kept_enterMode s _) (Kept.refl s))

theorem core_notifyIf (s : State) (b : Bool) (n : Notice) :
    ({ s with port := s.port.notifyIf b n } : State).core = s.core := by
  cases b <;> rfl

theorem kept_reformFans (s : State) : Kept s s.reformFans := by
  refine Kept.of_core ?_ rfl
  have : ∀ on now, (s.extr.command on now).x1 = s.extr.x1 ∧ True := fun on now => by
    unfold Extr.command; split <;> exact ⟨rfl, trivial⟩
  unfold State.reformFans
  have h : ({ s with extr := s.extr.command (fanCommand s) s.clock } : State).core = s.core := by
    unfold Extr.command; split <;> rfl
  rw [← h]
  exact core_notifyIf { s with extr := s.extr.command (fanCommand s) s.clock } _ _

theorem kept_reformHorn (s : State) : Kept s s.reformHorn := Kept.of_core rfl rfl

/-! ## Flux -/

theorem kept_setTank (s : State) (c r : Nat) : Kept s (s.setTank c r) := by
  refine ⟨?_, ?_⟩
  · unfold State.setTank
    generalize (decide (c = 0) && s.flux.counter != 0 || lowMark s c && !s.flux.low) = b
    cases b <;> rfl
  · unfold State.setTank
    by_cases h : c = s.flux.counter
    · simp only [if_pos h]; exact MemKept.refl _
    · simp only [if_neg h]
      exact MemKept.writeBlock _ _ _ (by simp [mirrorTankAt, memWords])
        (fun a q => by unfold quietWord at q; simp [mirrorTankAt]; omega)

theorem Kept.creditTank {s t : State} (h : Kept s t) (n : Nat) : Kept s (t.creditTank n) := h.trans (kept_setTank t _ _)

theorem kept_endPulse (s : State) (lane : Idx8) (u : Pulse) (ms : Nat) (b : Bool) : Kept s (s.endPulse lane u ms b) := by
  refine Kept.creditTank ?_ _
  refine Kept.of_core ?_ rfl
  cases b
  · rfl
  · simp [State.core, core_creditRecord]

theorem kept_cutPulse (s : State) (p : Pulse → Bool) (b : Bool) (lane : Idx8) : Kept s (s.cutPulse p b lane) := by
  unfold State.cutPulse
  split
  · exact Kept.ite (kept_endPulse s _ _ _ _) (Kept.refl s)
  · exact Kept.refl s

theorem kept_cutPulses (s : State) (p : Pulse → Bool) (b : Bool) : Kept s (s.cutPulses p b) :=
  Kept.foldl (fun s lane => kept_cutPulse s p b lane) _ s

theorem kept_creditPurge (s : State) : Kept s s.creditPurge := by
  unfold State.creditPurge
  split
  · exact Kept.refl s
  · refine Kept.creditTank ?_ _
    exact Kept.of_core rfl rfl

theorem kept_endPurge (s : State) : Kept s s.endPurge := by
  unfold State.endPurge
  split
  · exact Kept.refl s
  · exact (kept_creditPurge s).trans (Kept.of_core rfl rfl)

theorem kept_beginInhibit (s : State) : Kept s s.beginInhibit := by
  refine ((kept_cutPulses s (fun _ => true) true).trans (kept_endPurge _)).trans (Kept.of_core ?_ rfl)
  unfold State.beginInhibit
  generalize (s.cutPulses (fun _ => true) true).endPurge = t
  simp [State.core, core_markIncomplete]

theorem kept_reformInhibit (s : State) : Kept s s.reformInhibit := by
  unfold State.reformInhibit
  exact (Kept.ite (c := (s.flux.inhibit.isEmpty && !(inhibitReasons s).isEmpty) = true) (kept_beginInhibit s)
    (Kept.refl s)).trans (Kept.of_core rfl rfl)

/-! ## Targets -/

theorem kept_cutGrants (s : State) : Kept s s.cutGrants := by
  refine Kept.of_core ?_ rfl
  simp [State.core, State.cutGrants, Tab6.mapIdx]

theorem kept_reformGuards (s : State) : Kept s s.reformGuards :=
  (kept_reformInhibit s).trans (kept_cutGrants _)

@[simp] theorem Loop.shell_reform (l : Loop) (t : Int) (a : Bool) (g : Option (BitVec 16)) :
    (l.reform t a g).shell = l.shell := by
  rw [Loop.reform, Loop.shell_governing]; simp

theorem kept_reformZones (s : State) : Kept s s.reformZones := by
  refine Kept.of_core ?_ rfl
  simp [State.core, State.reformZones, Tab6.mapIdx]

theorem kept_reformPumpTargets (s : State) : Kept s s.reformPumpTargets := Kept.of_core rfl rfl

theorem kept_reformPotTarget (s : State) : Kept s s.reformPotTarget := by
  refine Kept.of_core ?_ rfl
  simp [State.core, State.reformPotTarget, Tab6.mapIdx]

theorem kept_reformTargets (s : State) : Kept s s.reformTargets :=
  ((kept_reformZones s).trans (kept_reformPumpTargets _)).trans (kept_reformPotTarget _)

/-! ## Motion -/

theorem kept_reformOutfeed (s : State) : Kept s s.reformOutfeed := Kept.of_core rfl rfl

theorem kept_reformWidth (s : State) : Kept s s.reformWidth := Kept.of_core rfl rfl

@[simp] theorem Pump.core_refer (p : Pump) (r : Nat) : (p.refer r).core = p.core := by
  unfold Pump.refer; split <;> rfl

@[simp] theorem Pump.core_follow (p : Pump) (d : Drop) : (p.follow d).core = p.core := Pump.core_refer p _

theorem kept_reformPumpRefs (s : State) : Kept s s.reformPumpRefs := by
  refine Kept.of_core ?_ rfl
  simp [State.core, State.reformPumpRefs]

theorem kept_followDrop (s : State) : Kept s s.followDrop :=
  Kept.trans (Kept.of_core (t := { s with pot := { s.pot with drop := s.pot.drop.follow (runDemand s) } }) rfl rfl)
    (kept_reformPumpRefs _)

theorem kept_endDrop (s : State) : Kept s s.endDrop := Kept.of_core rfl rfl

theorem kept_reformRef (s : State) : Kept s s.reformRef := by
  refine Kept.of_core ?_ rfl
  unfold State.reformRef Track.refer
  split <;> simp [State.core]

theorem kept_reformConveyor (s : State) : Kept s s.reformConveyor :=
  (((kept_followDrop s).trans (kept_endDrop _)).trans (kept_reformRef _)).trans (kept_reformPumpRefs _)

theorem kept_reformDrive (s : State) : Kept s s.reformDrive := Kept.of_core rfl rfl

theorem kept_reformMotion (s : State) : Kept s s.reformMotion :=
  (((kept_reformOutfeed s).trans (kept_reformWidth _)).trans (kept_reformConveyor _)).trans (kept_reformDrive _)

theorem kept_reformIdle (s : State) : Kept s s.reformIdle := Kept.of_core rfl rfl

theorem kept_reformWaits (s : State) : Kept s s.reformWaits := Kept.of_core rfl rfl

theorem kept_reformLine (s : State) : Kept s s.reformLine := Kept.of_core rfl rfl

theorem kept_reform (s : State) : Kept s s.reform :=
  ((((((((kept_modeStage s).trans (kept_reformFans _)).trans (kept_reformHorn _)).trans (kept_reformGuards _)).trans
    (kept_reformTargets _)).trans (kept_reformMotion _)).trans (kept_reformWaits _)).trans (kept_reformIdle _)).trans
    (kept_reformLine _)

/-! ## The docket unit -/

theorem kept_findings (s : State) (c : Option SlotIx) (n : Option NextBoard) (a b d : Bool) :
    Kept s (s.findings c n a b d) := Kept.of_core rfl rfl

theorem kept_setExpected (s : State) (e : Word) : Kept s (s.setExpected e) :=
  ⟨rfl, MemKept.writeBlock _ _ _ (by simp [mirrorEAt, memWords])
    (fun a q => by unfold quietWord at q; simp [mirrorEAt]; omega)⟩

theorem memKept_countClosed (m : Memory) : MemKept m (countClosed m) :=
  MemKept.writeBlock _ _ _ (by simp [closedCountAt, memWords])
    (fun a q => by unfold quietWord at q; simp [closedCountAt]; omega)

theorem memKept_writeResult (m : Memory) (n : SlotIx) (ws : List Word) (w : Word) (h : ws.length = 19) :
    MemKept m (writeResult m n ws w) := by
  have hn := n.isLt
  refine (MemKept.writeBlock m (slotAt n + 16) ws ?_ ?_).trans (MemKept.writeBlock _ (slotAt n) [w] ?_ ?_)
  · simp [slotAt, memWords, h]; omega
  · intro a q; unfold quietWord at q; simp [slotAt, h]; omega
  · simp [slotAt, memWords]; omega
  · intro a q; unfold quietWord at q; simp [slotAt]; omega

theorem kept_rejectSlot (s : State) (n : SlotIx) (r : RejectReason) : Kept s (s.rejectSlot n r) :=
  ⟨rfl, (memKept_writeResult _ _ _ _ rfl).trans (memKept_countClosed _)⟩

theorem kept_rejectSlots (s : State) (ns : List SlotIx) (r : RejectReason) : Kept s (s.rejectSlots ns r) :=
  Kept.foldl (fun s n => kept_rejectSlot s n r) ns s

theorem kept_slotScan (fuel : Nat) (s : State) : Kept s (s.slotScan fuel) := by
  induction fuel generalizing s with
  | zero => exact kept_findings s _ _ _ _ _
  | succ k ih =>
    unfold State.slotScan
    simp only []
    split
    · exact (kept_rejectSlots s _ _).trans (kept_findings _ _ _ _ _ _)
    · split
      · exact (((((kept_rejectSlots s _ _).trans (kept_rejectSlots _ _ _)).trans (kept_rejectSlot _ _ _)).trans
          (kept_setExpected _ _)).trans (ih _))
      · exact ((kept_rejectSlots s _ _).trans (kept_rejectSlots _ _ _)).trans (kept_findings _ _ _ _ _ _)
      · exact ((kept_rejectSlots s _ _).trans (kept_rejectSlots _ _ _)).trans (kept_findings _ _ _ _ _ _)

theorem kept_reformDocket (s : State) : Kept s s.reformDocket := by
  unfold State.reformDocket
  split
  · exact Kept.refl s
  · exact Kept.refl s
  · split
    · exact Kept.ite (kept_slotScan _ s) (kept_findings s _ _ _ _ _)
    · split
      · exact kept_findings s _ _ _ _ _
      · exact kept_findings s _ _ _ _ _

/-! ## The gate -/

theorem kept_takeClass (s : State) : Kept s s.takeClass := Kept.of_core rfl rfl

theorem kept_nameClass (s : State) : Kept s s.nameClass :=
  ((kept_reformPotTarget s).trans (kept_reformWidth _)).trans (kept_reformConveyor _)

theorem Kept.nameClass {s t : State} (h : Kept s t) : Kept s t.nameClass := h.trans (kept_nameClass t)

theorem kept_phaseNone (s : State) : Kept s s.phaseNone := by
  unfold State.phaseNone
  split
  · exact Kept.ite (Kept.refl s) (Kept.of_core rfl rfl)
  · exact Kept.refl s

theorem kept_phaseDraining (s : State) : Kept s s.phaseDraining := by
  unfold State.phaseDraining
  split
  · exact Kept.of_core rfl rfl
  · refine Kept.ite (Kept.of_core rfl rfl) (Kept.ite ?_ (Kept.of_core rfl rfl))
    refine Kept.nameClass ?_
    exact Kept.of_core rfl rfl

theorem kept_retargetClass (s : State) : Kept s s.retargetClass := by
  unfold State.retargetClass
  split
  · exact Kept.refl s
  · refine Kept.ite (Kept.refl s) (Kept.nameClass ?_)
    exact Kept.of_core rfl rfl

theorem kept_phaseMoving (s : State) : Kept s s.phaseMoving := by
  unfold State.phaseMoving
  simp only []
  split
  · exact Kept.ite ((kept_retargetClass s).trans (Kept.of_core rfl rfl)) (kept_retargetClass s)
  · exact kept_retargetClass s

theorem kept_phaseSettling (s : State) : Kept s s.phaseSettling := by
  unfold State.phaseSettling
  simp only []
  split
  · exact Kept.ite ((kept_retargetClass s).trans (Kept.of_core rfl rfl))
      (Kept.ite ((kept_retargetClass s).trans (Kept.of_core rfl rfl)) (kept_retargetClass s))
  · exact kept_retargetClass s

theorem kept_phaseStep (s : State) : Kept s s.phaseStep := by
  unfold State.phaseStep
  split
  · split
    · exact kept_phaseNone s
    · exact kept_phaseDraining s
    · exact kept_phaseMoving s
    · exact kept_phaseSettling s
  · exact Kept.refl s

theorem kept_changeover (fuel : Nat) (s : State) : Kept s (s.changeover fuel) := by
  induction fuel generalizing s with
  | zero => exact Kept.refl s
  | succ k ih =>
    unfold State.changeover
    exact Kept.ite (kept_phaseStep s) ((kept_phaseStep s).trans (ih _))

theorem kept_takeHolds (s : State) : Kept s s.takeHolds :=
  Kept.of_core (core_notifyIf { s with gate := { s.gate with holds := formHolds s, told := s.outfeed.state } } _ _) rfl

theorem kept_closeGate (s : State) : Kept s s.closeGate := Kept.of_core rfl rfl

theorem kept_lateGate (s : State) : Kept s s.lateGate := Kept.of_core rfl rfl

theorem kept_openGate (s : State) : Kept s s.openGate := by
  unfold State.openGate
  split
  · exact Kept.of_core rfl rfl
  · exact Kept.refl s

theorem kept_gateTransition (s : State) : Kept s s.gateTransition := by
  unfold State.gateTransition
  split
  · exact Kept.ite (kept_openGate s) (Kept.refl s)
  · exact Kept.ite (Kept.refl s) (Kept.ite (kept_closeGate s) (kept_lateGate s))
  · exact Kept.ite (kept_closeGate s) (Kept.refl s)
  · exact Kept.refl s

theorem kept_gateEval (s : State) : Kept s s.gateEval :=
  ((((kept_reformDocket s).trans (kept_takeClass _)).trans (kept_changeover _ _)).trans (kept_takeHolds _)).trans
    (kept_gateTransition _)

theorem kept_gateFollow (s : State) : Kept s s.gateFollow := by
  unfold State.gateFollow
  have h : Kept s (if phaseDue s then s.changeover 8 else s) := Kept.ite (kept_changeover 8 s) (Kept.refl s)
  exact Kept.ite h (h.trans (kept_gateEval _))

theorem kept_gateStage (s : State) : Kept s s.gateStage := by
  unfold State.gateStage
  exact Kept.ite (kept_gateEval s) (kept_gateFollow s)

/-! ## The whole -/

theorem kept_pass (s : State) : Kept s s.pass := (kept_reform s).trans (kept_gateStage _)

/-- The consequences of a step keep everything that `Kept` names. -/
theorem kept_settle (s : State) : Kept s s.settle := ((kept_pass s).trans (kept_pass _)).trans (kept_reform _)

/-- The same with a gate evaluation that the event calls for. -/
theorem kept_settleEval (s : State) : Kept s s.settleEval :=
  ((kept_reform s).trans (kept_gateEval _)).trans (kept_settle _)

/-- LATE ends in ECONOMY, OFF and HALTED (R47, R50). -/
theorem lateEnds_iff (s : State) :
    lateEnds s = true ↔ s.gate.state = .late ∧ (s.modes.mode = .economy ∨ s.modes.mode = .off ∨ s.modes.mode = .halted) := by
  unfold lateEnds Mode.endsLate
  cases s.modes.mode <;> simp

/-- What the gate stage can do: nothing, or a changeover and an evaluation. -/
theorem State.gateStage_cases (s : State) :
    s.gateStage = s ∨ s.gateStage = s.gateEval ∨ s.gateStage = s.changeover 8 ∨ s.gateStage = (s.changeover 8).gateEval := by
  unfold State.gateStage State.gateFollow
  by_cases r : outfeedReports s = true
  · exact .inr (.inl (if_pos r))
  · rw [if_neg r]
    by_cases h : phaseDue s = true <;> simp only [h, if_true, Bool.false_eq_true, if_false] <;> split <;> simp

end Sys2Proof.Machine
end

