-- ==== Sys2Proof/Laws/State.lean ====
section
/-! SUPPORT. For each named update of the state, the blocks it leaves alone: one lemma per update, every block equation a
rewrite rule. -/

namespace Sys2Proof.Machine

@[simp] theorem State.blocks_notify (s : State) (n : Notice) :
    (s.notify n).pins = s.pins ∧ (s.notify n).clock = s.clock ∧ (s.notify n).statusAt = s.statusAt ∧
    (s.notify n).heaterAt = s.heaterAt ∧ (s.notify n).modAt = s.modAt ∧ (s.notify n).mem = s.mem ∧
    (s.notify n).track = s.track ∧ (s.notify n).docket = s.docket ∧ (s.notify n).gate = s.gate ∧
    (s.notify n).outfeed = s.outfeed ∧ (s.notify n).flux = s.flux ∧ (s.notify n).thermal = s.thermal ∧
    (s.notify n).pot = s.pot ∧ (s.notify n).extr = s.extr ∧ (s.notify n).modes = s.modes ∧
    (s.notify n).pending = s.pending :=
  ⟨rfl, rfl, rfl, rfl, rfl, rfl, rfl, rfl, rfl, rfl, rfl, rfl, rfl, rfl, rfl, rfl⟩

@[simp] theorem State.blocks_advance (s : State) (n : Nat) :
    (s.advance n).pins = s.pins ∧ (s.advance n).statusAt = s.statusAt ∧ (s.advance n).heaterAt = s.heaterAt ∧
    (s.advance n).modAt = s.modAt ∧ (s.advance n).mem = s.mem ∧ (s.advance n).track = s.track ∧
    (s.advance n).docket = s.docket ∧ (s.advance n).gate = s.gate ∧ (s.advance n).outfeed = s.outfeed ∧
    (s.advance n).flux = s.flux ∧ (s.advance n).thermal = s.thermal ∧ (s.advance n).pending = s.pending :=
  ⟨rfl, rfl, rfl, rfl, rfl, rfl, rfl, rfl, rfl, rfl, rfl, rfl⟩

@[simp] theorem State.blocks_reformFans (s : State) :
    s.reformFans.pins = s.pins ∧ s.reformFans.clock = s.clock ∧ s.reformFans.statusAt = s.statusAt ∧
    s.reformFans.heaterAt = s.heaterAt ∧ s.reformFans.modAt = s.modAt ∧ s.reformFans.mem = s.mem ∧
    s.reformFans.track = s.track ∧ s.reformFans.docket = s.docket ∧ s.reformFans.gate = s.gate ∧
    s.reformFans.outfeed = s.outfeed ∧ s.reformFans.flux = s.flux ∧ s.reformFans.thermal = s.thermal ∧
    s.reformFans.pot = s.pot ∧ s.reformFans.modes = s.modes ∧ s.reformFans.pending = s.pending :=
  ⟨rfl, rfl, rfl, rfl, rfl, rfl, rfl, rfl, rfl, rfl, rfl, rfl, rfl, rfl, rfl⟩

@[simp] theorem State.blocks_reformHorn (s : State) :
    s.reformHorn.pins = s.pins ∧ s.reformHorn.clock = s.clock ∧ s.reformHorn.statusAt = s.statusAt ∧
    s.reformHorn.heaterAt = s.heaterAt ∧ s.reformHorn.modAt = s.modAt ∧ s.reformHorn.mem = s.mem ∧
    s.reformHorn.track = s.track ∧ s.reformHorn.docket = s.docket ∧ s.reformHorn.gate = s.gate ∧
    s.reformHorn.outfeed = s.outfeed ∧ s.reformHorn.flux = s.flux ∧ s.reformHorn.thermal = s.thermal ∧
    s.reformHorn.pot = s.pot ∧ s.reformHorn.modes = s.modes ∧ s.reformHorn.port = s.port ∧
    s.reformHorn.pending = s.pending :=
  ⟨rfl, rfl, rfl, rfl, rfl, rfl, rfl, rfl, rfl, rfl, rfl, rfl, rfl, rfl, rfl, rfl⟩

@[simp] theorem State.blocks_cutGrants (s : State) :
    s.cutGrants.pins = s.pins ∧ s.cutGrants.clock = s.clock ∧ s.cutGrants.statusAt = s.statusAt ∧
    s.cutGrants.heaterAt = s.heaterAt ∧ s.cutGrants.modAt = s.modAt ∧ s.cutGrants.mem = s.mem ∧
    s.cutGrants.track = s.track ∧ s.cutGrants.docket = s.docket ∧ s.cutGrants.gate = s.gate ∧
    s.cutGrants.outfeed = s.outfeed ∧ s.cutGrants.flux = s.flux ∧ s.cutGrants.pot = s.pot ∧
    s.cutGrants.extr = s.extr ∧ s.cutGrants.modes = s.modes ∧ s.cutGrants.port = s.port ∧
    s.cutGrants.pending = s.pending :=
  ⟨rfl, rfl, rfl, rfl, rfl, rfl, rfl, rfl, rfl, rfl, rfl, rfl, rfl, rfl, rfl, rfl⟩

@[simp] theorem State.blocks_reformZones (s : State) :
    s.reformZones.pins = s.pins ∧ s.reformZones.clock = s.clock ∧ s.reformZones.statusAt = s.statusAt ∧
    s.reformZones.heaterAt = s.heaterAt ∧ s.reformZones.modAt = s.modAt ∧ s.reformZones.mem = s.mem ∧
    s.reformZones.track = s.track ∧ s.reformZones.docket = s.docket ∧ s.reformZones.gate = s.gate ∧
    s.reformZones.outfeed = s.outfeed ∧ s.reformZones.flux = s.flux ∧ s.reformZones.pot = s.pot ∧
    s.reformZones.extr = s.extr ∧ s.reformZones.modes = s.modes ∧ s.reformZones.port = s.port ∧
    s.reformZones.pending = s.pending :=
  ⟨rfl, rfl, rfl, rfl, rfl, rfl, rfl, rfl, rfl, rfl, rfl, rfl, rfl, rfl, rfl, rfl⟩

@[simp] theorem State.blocks_reformPumpTargets (s : State) :
    s.reformPumpTargets.pins = s.pins ∧ s.reformPumpTargets.clock = s.clock ∧
    s.reformPumpTargets.statusAt = s.statusAt ∧ s.reformPumpTargets.heaterAt = s.heaterAt ∧
    s.reformPumpTargets.modAt = s.modAt ∧ s.reformPumpTargets.mem = s.mem ∧ s.reformPumpTargets.track = s.track ∧
    s.reformPumpTargets.docket = s.docket ∧ s.reformPumpTargets.gate = s.gate ∧
    s.reformPumpTargets.outfeed = s.outfeed ∧ s.reformPumpTargets.flux = s.flux ∧
    s.reformPumpTargets.thermal = s.thermal ∧ s.reformPumpTargets.extr = s.extr ∧
    s.reformPumpTargets.modes = s.modes ∧ s.reformPumpTargets.port = s.port ∧
    s.reformPumpTargets.pending = s.pending :=
  ⟨rfl, rfl, rfl, rfl, rfl, rfl, rfl, rfl, rfl, rfl, rfl, rfl, rfl, rfl, rfl, rfl⟩

@[simp] theorem State.blocks_reformPotTarget (s : State) :
    s.reformPotTarget.pins = s.pins ∧ s.reformPotTarget.clock = s.clock ∧ s.reformPotTarget.statusAt = s.statusAt ∧
    s.reformPotTarget.heaterAt = s.heaterAt ∧ s.reformPotTarget.modAt = s.modAt ∧ s.reformPotTarget.mem = s.mem ∧
    s.reformPotTarget.track = s.track ∧ s.reformPotTarget.docket = s.docket ∧ s.reformPotTarget.gate = s.gate ∧
    s.reformPotTarget.outfeed = s.outfeed ∧ s.reformPotTarget.flux = s.flux ∧ s.reformPotTarget.pot = s.pot ∧
    s.reformPotTarget.extr = s.extr ∧ s.reformPotTarget.modes = s.modes ∧ s.reformPotTarget.port = s.port ∧
    s.reformPotTarget.pending = s.pending :=
  ⟨rfl, rfl, rfl, rfl, rfl, rfl, rfl, rfl, rfl, rfl, rfl, rfl, rfl, rfl, rfl, rfl⟩

@[simp] theorem State.blocks_reformOutfeed (s : State) :
    s.reformOutfeed.pins = s.pins ∧ s.reformOutfeed.clock = s.clock ∧ s.reformOutfeed.statusAt = s.statusAt ∧
    s.reformOutfeed.heaterAt = s.heaterAt ∧ s.reformOutfeed.modAt = s.modAt ∧ s.reformOutfeed.mem = s.mem ∧
    s.reformOutfeed.track = s.track ∧ s.reformOutfeed.docket = s.docket ∧ s.reformOutfeed.gate = s.gate ∧
    s.reformOutfeed.flux = s.flux ∧ s.reformOutfeed.thermal = s.thermal ∧ s.reformOutfeed.pot = s.pot ∧
    s.reformOutfeed.extr = s.extr ∧ s.reformOutfeed.modes = s.modes ∧ s.reformOutfeed.port = s.port ∧
    s.reformOutfeed.pending = s.pending :=
  ⟨rfl, rfl, rfl, rfl, rfl, rfl, rfl, rfl, rfl, rfl, rfl, rfl, rfl, rfl, rfl, rfl⟩

@[simp] theorem State.blocks_reformWidth (s : State) :
    s.reformWidth.pins = s.pins ∧ s.reformWidth.clock = s.clock ∧ s.reformWidth.statusAt = s.statusAt ∧
    s.reformWidth.heaterAt = s.heaterAt ∧ s.reformWidth.modAt = s.modAt ∧ s.reformWidth.mem = s.mem ∧
    s.reformWidth.track = s.track ∧ s.reformWidth.docket = s.docket ∧ s.reformWidth.outfeed = s.outfeed ∧
    s.reformWidth.flux = s.flux ∧ s.reformWidth.thermal = s.thermal ∧ s.reformWidth.pot = s.pot ∧
    s.reformWidth.extr = s.extr ∧ s.reformWidth.modes = s.modes ∧ s.reformWidth.port = s.port ∧
    s.reformWidth.pending = s.pending :=
  ⟨rfl, rfl, rfl, rfl, rfl, rfl, rfl, rfl, rfl, rfl, rfl, rfl, rfl, rfl, rfl, rfl⟩

@[simp] theorem State.blocks_reformPumpRefs (s : State) :
    s.reformPumpRefs.pins = s.pins ∧ s.reformPumpRefs.clock = s.clock ∧ s.reformPumpRefs.statusAt = s.statusAt ∧
    s.reformPumpRefs.heaterAt = s.heaterAt ∧ s.reformPumpRefs.modAt = s.modAt ∧ s.reformPumpRefs.mem = s.mem ∧
    s.reformPumpRefs.track = s.track ∧ s.reformPumpRefs.docket = s.docket ∧ s.reformPumpRefs.gate = s.gate ∧
    s.reformPumpRefs.outfeed = s.outfeed ∧ s.reformPumpRefs.flux = s.flux ∧ s.reformPumpRefs.thermal = s.thermal ∧
    s.reformPumpRefs.extr = s.extr ∧ s.reformPumpRefs.modes = s.modes ∧ s.reformPumpRefs.port = s.port ∧
    s.reformPumpRefs.pending = s.pending :=
  ⟨rfl, rfl, rfl, rfl, rfl, rfl, rfl, rfl, rfl, rfl, rfl, rfl, rfl, rfl, rfl, rfl⟩

@[simp] theorem State.blocks_followDrop (s : State) :
    s.followDrop.pins = s.pins ∧ s.followDrop.clock = s.clock ∧ s.followDrop.statusAt = s.statusAt ∧
    s.followDrop.heaterAt = s.heaterAt ∧ s.followDrop.modAt = s.modAt ∧ s.followDrop.mem = s.mem ∧
    s.followDrop.track = s.track ∧ s.followDrop.docket = s.docket ∧ s.followDrop.gate = s.gate ∧
    s.followDrop.outfeed = s.outfeed ∧ s.followDrop.flux = s.flux ∧ s.followDrop.thermal = s.thermal ∧
    s.followDrop.extr = s.extr ∧ s.followDrop.modes = s.modes ∧ s.followDrop.port = s.port ∧
    s.followDrop.pending = s.pending :=
  ⟨rfl, rfl, rfl, rfl, rfl, rfl, rfl, rfl, rfl, rfl, rfl, rfl, rfl, rfl, rfl, rfl⟩

@[simp] theorem State.blocks_endDrop (s : State) :
    s.endDrop.pins = s.pins ∧ s.endDrop.clock = s.clock ∧ s.endDrop.statusAt = s.statusAt ∧
    s.endDrop.heaterAt = s.heaterAt ∧ s.endDrop.modAt = s.modAt ∧ s.endDrop.mem = s.mem ∧ s.endDrop.track = s.track ∧
    s.endDrop.docket = s.docket ∧ s.endDrop.gate = s.gate ∧ s.endDrop.outfeed = s.outfeed ∧ s.endDrop.flux = s.flux ∧
    s.endDrop.thermal = s.thermal ∧ s.endDrop.extr = s.extr ∧ s.endDrop.modes = s.modes ∧ s.endDrop.port = s.port ∧
    s.endDrop.pending = s.pending :=
  ⟨rfl, rfl, rfl, rfl, rfl, rfl, rfl, rfl, rfl, rfl, rfl, rfl, rfl, rfl, rfl, rfl⟩

@[simp] theorem State.blocks_reformRef (s : State) :
    s.reformRef.pins = s.pins ∧ s.reformRef.clock = s.clock ∧ s.reformRef.statusAt = s.statusAt ∧
    s.reformRef.heaterAt = s.heaterAt ∧ s.reformRef.modAt = s.modAt ∧ s.reformRef.mem = s.mem ∧
    s.reformRef.docket = s.docket ∧ s.reformRef.gate = s.gate ∧ s.reformRef.outfeed = s.outfeed ∧
    s.reformRef.flux = s.flux ∧ s.reformRef.thermal = s.thermal ∧ s.reformRef.extr = s.extr ∧
    s.reformRef.modes = s.modes ∧ s.reformRef.port = s.port ∧ s.reformRef.pending = s.pending :=
  ⟨rfl, rfl, rfl, rfl, rfl, rfl, rfl, rfl, rfl, rfl, rfl, rfl, rfl, rfl, rfl⟩

@[simp] theorem State.blocks_reformDrive (s : State) :
    s.reformDrive.pins = s.pins ∧ s.reformDrive.clock = s.clock ∧ s.reformDrive.statusAt = s.statusAt ∧
    s.reformDrive.heaterAt = s.heaterAt ∧ s.reformDrive.modAt = s.modAt ∧ s.reformDrive.mem = s.mem ∧
    s.reformDrive.track = s.track ∧ s.reformDrive.docket = s.docket ∧ s.reformDrive.gate = s.gate ∧
    s.reformDrive.flux = s.flux ∧ s.reformDrive.thermal = s.thermal ∧ s.reformDrive.pot = s.pot ∧
    s.reformDrive.extr = s.extr ∧ s.reformDrive.modes = s.modes ∧ s.reformDrive.port = s.port ∧
    s.reformDrive.pending = s.pending :=
  ⟨rfl, rfl, rfl, rfl, rfl, rfl, rfl, rfl, rfl, rfl, rfl, rfl, rfl, rfl, rfl, rfl⟩

@[simp] theorem State.blocks_reformIdle (s : State) :
    s.reformIdle.pins = s.pins ∧ s.reformIdle.clock = s.clock ∧ s.reformIdle.statusAt = s.statusAt ∧
    s.reformIdle.heaterAt = s.heaterAt ∧ s.reformIdle.modAt = s.modAt ∧ s.reformIdle.mem = s.mem ∧
    s.reformIdle.track = s.track ∧ s.reformIdle.docket = s.docket ∧ s.reformIdle.gate = s.gate ∧
    s.reformIdle.outfeed = s.outfeed ∧ s.reformIdle.flux = s.flux ∧ s.reformIdle.thermal = s.thermal ∧
    s.reformIdle.pot = s.pot ∧ s.reformIdle.extr = s.extr ∧ s.reformIdle.port = s.port ∧
    s.reformIdle.pending = s.pending :=
  ⟨rfl, rfl, rfl, rfl, rfl, rfl, rfl, rfl, rfl, rfl, rfl, rfl, rfl, rfl, rfl, rfl⟩

@[simp] theorem State.blocks_reformWaits (s : State) :
    s.reformWaits.pins = s.pins ∧ s.reformWaits.clock = s.clock ∧ s.reformWaits.statusAt = s.statusAt ∧
    s.reformWaits.heaterAt = s.heaterAt ∧ s.reformWaits.modAt = s.modAt ∧ s.reformWaits.mem = s.mem ∧
    s.reformWaits.docket = s.docket ∧ s.reformWaits.outfeed = s.outfeed ∧ s.reformWaits.flux = s.flux ∧
    s.reformWaits.thermal = s.thermal ∧ s.reformWaits.pot = s.pot ∧ s.reformWaits.extr = s.extr ∧
    s.reformWaits.modes = s.modes ∧ s.reformWaits.port = s.port ∧ s.reformWaits.pending = s.pending :=
  ⟨rfl, rfl, rfl, rfl, rfl, rfl, rfl, rfl, rfl, rfl, rfl, rfl, rfl, rfl, rfl⟩

@[simp] theorem State.track_reformWaits (s : State) :
    s.reformWaits.track = { s.track with lostWaits := lostWaiting s } := rfl

@[simp] theorem State.gate_reformWaits (s : State) :
    s.reformWaits.gate = { s.gate with lateWaits := lateWaiting s } := rfl

@[simp] theorem State.blocks_reformLine (s : State) :
    s.reformLine.pins = s.pins ∧ s.reformLine.clock = s.clock ∧ s.reformLine.statusAt = s.statusAt ∧
    s.reformLine.heaterAt = s.heaterAt ∧ s.reformLine.modAt = s.modAt ∧ s.reformLine.mem = s.mem ∧
    s.reformLine.track = s.track ∧ s.reformLine.docket = s.docket ∧ s.reformLine.gate = s.gate ∧
    s.reformLine.outfeed = s.outfeed ∧ s.reformLine.flux = s.flux ∧ s.reformLine.thermal = s.thermal ∧
    s.reformLine.pot = s.pot ∧ s.reformLine.extr = s.extr ∧ s.reformLine.modes = s.modes ∧
    s.reformLine.pending = s.pending :=
  ⟨rfl, rfl, rfl, rfl, rfl, rfl, rfl, rfl, rfl, rfl, rfl, rfl, rfl, rfl, rfl, rfl⟩

@[simp] theorem State.blocks_setExpected (s : State) (e : Word) :
    (s.setExpected e).pins = s.pins ∧ (s.setExpected e).clock = s.clock ∧ (s.setExpected e).statusAt = s.statusAt ∧
    (s.setExpected e).heaterAt = s.heaterAt ∧ (s.setExpected e).modAt = s.modAt ∧ (s.setExpected e).track = s.track ∧
    (s.setExpected e).gate = s.gate ∧ (s.setExpected e).outfeed = s.outfeed ∧ (s.setExpected e).flux = s.flux ∧
    (s.setExpected e).thermal = s.thermal ∧ (s.setExpected e).pot = s.pot ∧ (s.setExpected e).extr = s.extr ∧
    (s.setExpected e).modes = s.modes ∧ (s.setExpected e).port = s.port ∧ (s.setExpected e).pending = s.pending :=
  ⟨rfl, rfl, rfl, rfl, rfl, rfl, rfl, rfl, rfl, rfl, rfl, rfl, rfl, rfl, rfl⟩

@[simp] theorem State.blocks_findings (s : State) (c : Option SlotIx) (b : Option NextBoard) (x y z : Bool) :
    (s.findings c b x y z).pins = s.pins ∧ (s.findings c b x y z).clock = s.clock ∧
    (s.findings c b x y z).statusAt = s.statusAt ∧ (s.findings c b x y z).heaterAt = s.heaterAt ∧
    (s.findings c b x y z).modAt = s.modAt ∧ (s.findings c b x y z).mem = s.mem ∧
    (s.findings c b x y z).track = s.track ∧ (s.findings c b x y z).gate = s.gate ∧
    (s.findings c b x y z).outfeed = s.outfeed ∧ (s.findings c b x y z).flux = s.flux ∧
    (s.findings c b x y z).thermal = s.thermal ∧ (s.findings c b x y z).pot = s.pot ∧
    (s.findings c b x y z).extr = s.extr ∧ (s.findings c b x y z).modes = s.modes ∧
    (s.findings c b x y z).port = s.port ∧ (s.findings c b x y z).pending = s.pending :=
  ⟨rfl, rfl, rfl, rfl, rfl, rfl, rfl, rfl, rfl, rfl, rfl, rfl, rfl, rfl, rfl, rfl⟩

@[simp] theorem State.blocks_rejectSlot (s : State) (n : SlotIx) (r : RejectReason) :
    (s.rejectSlot n r).pins = s.pins ∧ (s.rejectSlot n r).clock = s.clock ∧ (s.rejectSlot n r).statusAt = s.statusAt ∧
    (s.rejectSlot n r).heaterAt = s.heaterAt ∧ (s.rejectSlot n r).modAt = s.modAt ∧
    (s.rejectSlot n r).track = s.track ∧ (s.rejectSlot n r).docket = s.docket ∧ (s.rejectSlot n r).gate = s.gate ∧
    (s.rejectSlot n r).outfeed = s.outfeed ∧ (s.rejectSlot n r).flux = s.flux ∧
    (s.rejectSlot n r).thermal = s.thermal ∧ (s.rejectSlot n r).pot = s.pot ∧ (s.rejectSlot n r).extr = s.extr ∧
    (s.rejectSlot n r).modes = s.modes ∧ (s.rejectSlot n r).pending = s.pending :=
  ⟨rfl, rfl, rfl, rfl, rfl, rfl, rfl, rfl, rfl, rfl, rfl, rfl, rfl, rfl, rfl⟩

@[simp] theorem State.blocks_setTank (s : State) (c r : Nat) :
    (s.setTank c r).pins = s.pins ∧ (s.setTank c r).clock = s.clock ∧ (s.setTank c r).statusAt = s.statusAt ∧
    (s.setTank c r).heaterAt = s.heaterAt ∧ (s.setTank c r).modAt = s.modAt ∧ (s.setTank c r).track = s.track ∧
    (s.setTank c r).docket = s.docket ∧ (s.setTank c r).gate = s.gate ∧ (s.setTank c r).outfeed = s.outfeed ∧
    (s.setTank c r).thermal = s.thermal ∧ (s.setTank c r).pot = s.pot ∧ (s.setTank c r).extr = s.extr ∧
    (s.setTank c r).modes = s.modes ∧ (s.setTank c r).pending = s.pending :=
  ⟨rfl, rfl, rfl, rfl, rfl, rfl, rfl, rfl, rfl, rfl, rfl, rfl, rfl, rfl⟩

@[simp] theorem State.blocks_creditTank (s : State) (n : Nat) :
    (s.creditTank n).pins = s.pins ∧ (s.creditTank n).clock = s.clock ∧ (s.creditTank n).statusAt = s.statusAt ∧
    (s.creditTank n).heaterAt = s.heaterAt ∧ (s.creditTank n).modAt = s.modAt ∧ (s.creditTank n).track = s.track ∧
    (s.creditTank n).docket = s.docket ∧ (s.creditTank n).gate = s.gate ∧ (s.creditTank n).outfeed = s.outfeed ∧
    (s.creditTank n).thermal = s.thermal ∧ (s.creditTank n).pot = s.pot ∧ (s.creditTank n).extr = s.extr ∧
    (s.creditTank n).modes = s.modes ∧ (s.creditTank n).pending = s.pending :=
  ⟨rfl, rfl, rfl, rfl, rfl, rfl, rfl, rfl, rfl, rfl, rfl, rfl, rfl, rfl⟩

@[simp] theorem State.blocks_endPulse (s : State) (l : Idx8) (u : Pulse) (ms : Nat) (b : Bool) :
    (s.endPulse l u ms b).pins = s.pins ∧ (s.endPulse l u ms b).clock = s.clock ∧
    (s.endPulse l u ms b).statusAt = s.statusAt ∧ (s.endPulse l u ms b).heaterAt = s.heaterAt ∧
    (s.endPulse l u ms b).modAt = s.modAt ∧ (s.endPulse l u ms b).docket = s.docket ∧
    (s.endPulse l u ms b).gate = s.gate ∧ (s.endPulse l u ms b).outfeed = s.outfeed ∧
    (s.endPulse l u ms b).thermal = s.thermal ∧ (s.endPulse l u ms b).pot = s.pot ∧
    (s.endPulse l u ms b).extr = s.extr ∧ (s.endPulse l u ms b).modes = s.modes ∧
    (s.endPulse l u ms b).pending = s.pending :=
  ⟨rfl, rfl, rfl, rfl, rfl, rfl, rfl, rfl, rfl, rfl, rfl, rfl, rfl⟩

@[simp] theorem State.blocks_holdValve (s : State) (l : Idx8) (u : Pulse) :
    (s.holdValve l u).pins = s.pins ∧ (s.holdValve l u).clock = s.clock ∧ (s.holdValve l u).statusAt = s.statusAt ∧
    (s.holdValve l u).heaterAt = s.heaterAt ∧ (s.holdValve l u).modAt = s.modAt ∧ (s.holdValve l u).mem = s.mem ∧
    (s.holdValve l u).track = s.track ∧ (s.holdValve l u).docket = s.docket ∧ (s.holdValve l u).gate = s.gate ∧
    (s.holdValve l u).outfeed = s.outfeed ∧ (s.holdValve l u).thermal = s.thermal ∧ (s.holdValve l u).pot = s.pot ∧
    (s.holdValve l u).extr = s.extr ∧ (s.holdValve l u).modes = s.modes ∧ (s.holdValve l u).port = s.port ∧
    (s.holdValve l u).pending = s.pending := by
  unfold State.holdValve; split <;> exact ⟨rfl, rfl, rfl, rfl, rfl, rfl, rfl, rfl, rfl, rfl, rfl, rfl, rfl, rfl, rfl, rfl⟩

/-- R187: both words of a two-word field of the status block go by the bit of its low word. -/
theorem fieldWord_pair (j : Nat) (h : j ∈ Config.statusLowWords) : fieldWord (j + 1) = j ∧ fieldWord j = j := by
  revert h; revert j; unfold fieldWord; decide

/-- What a refresh that a port reset cuts short leaves of the flux unit and of the other blocks. -/
@[simp] theorem State.blocks_tearRefresh (s : State) (cut : Option (BitVec 512)) :
    (s.tearRefresh cut).pins = s.pins ∧ (s.tearRefresh cut).clock = s.clock ∧
    (s.tearRefresh cut).heaterAt = s.heaterAt ∧ (s.tearRefresh cut).modAt = s.modAt ∧
    (s.tearRefresh cut).track = s.track ∧ (s.tearRefresh cut).docket = s.docket ∧
    (s.tearRefresh cut).gate = s.gate ∧ (s.tearRefresh cut).outfeed = s.outfeed ∧
    (s.tearRefresh cut).flux = s.flux ∧ (s.tearRefresh cut).thermal = s.thermal ∧
    (s.tearRefresh cut).pot = s.pot ∧ (s.tearRefresh cut).extr = s.extr ∧ (s.tearRefresh cut).modes = s.modes ∧
    (s.tearRefresh cut).pending = s.pending := by
  unfold State.tearRefresh
  split
  · split <;> exact ⟨rfl, rfl, rfl, rfl, rfl, rfl, rfl, rfl, rfl, rfl, rfl, rfl, rfl, rfl⟩
  · exact ⟨rfl, rfl, rfl, rfl, rfl, rfl, rfl, rfl, rfl, rfl, rfl, rfl, rfl, rfl⟩

@[simp] theorem State.blocks_takeClass (s : State) :
    s.takeClass.pins = s.pins ∧ s.takeClass.clock = s.clock ∧ s.takeClass.statusAt = s.statusAt ∧
    s.takeClass.heaterAt = s.heaterAt ∧ s.takeClass.modAt = s.modAt ∧ s.takeClass.mem = s.mem ∧
    s.takeClass.track = s.track ∧ s.takeClass.docket = s.docket ∧ s.takeClass.outfeed = s.outfeed ∧
    s.takeClass.flux = s.flux ∧ s.takeClass.thermal = s.thermal ∧ s.takeClass.pot = s.pot ∧
    s.takeClass.extr = s.extr ∧ s.takeClass.modes = s.modes ∧ s.takeClass.port = s.port ∧
    s.takeClass.pending = s.pending :=
  ⟨rfl, rfl, rfl, rfl, rfl, rfl, rfl, rfl, rfl, rfl, rfl, rfl, rfl, rfl, rfl, rfl⟩

@[simp] theorem State.blocks_takeHolds (s : State) :
    s.takeHolds.pins = s.pins ∧ s.takeHolds.clock = s.clock ∧ s.takeHolds.statusAt = s.statusAt ∧
    s.takeHolds.heaterAt = s.heaterAt ∧ s.takeHolds.modAt = s.modAt ∧ s.takeHolds.mem = s.mem ∧
    s.takeHolds.track = s.track ∧ s.takeHolds.docket = s.docket ∧ s.takeHolds.outfeed = s.outfeed ∧
    s.takeHolds.flux = s.flux ∧ s.takeHolds.thermal = s.thermal ∧ s.takeHolds.pot = s.pot ∧
    s.takeHolds.extr = s.extr ∧ s.takeHolds.modes = s.modes ∧ s.takeHolds.pending = s.pending :=
  ⟨rfl, rfl, rfl, rfl, rfl, rfl, rfl, rfl, rfl, rfl, rfl, rfl, rfl, rfl, rfl⟩

@[simp] theorem State.blocks_closeGate (s : State) :
    s.closeGate.pins = s.pins ∧ s.closeGate.clock = s.clock ∧ s.closeGate.statusAt = s.statusAt ∧
    s.closeGate.heaterAt = s.heaterAt ∧ s.closeGate.modAt = s.modAt ∧ s.closeGate.mem = s.mem ∧
    s.closeGate.track = s.track ∧ s.closeGate.outfeed = s.outfeed ∧ s.closeGate.flux = s.flux ∧
    s.closeGate.thermal = s.thermal ∧ s.closeGate.pot = s.pot ∧ s.closeGate.extr = s.extr ∧
    s.closeGate.modes = s.modes ∧ s.closeGate.port = s.port ∧ s.closeGate.pending = s.pending :=
  ⟨rfl, rfl, rfl, rfl, rfl, rfl, rfl, rfl, rfl, rfl, rfl, rfl, rfl, rfl, rfl⟩

@[simp] theorem State.blocks_lateGate (s : State) :
    s.lateGate.pins = s.pins ∧ s.lateGate.clock = s.clock ∧ s.lateGate.statusAt = s.statusAt ∧
    s.lateGate.heaterAt = s.heaterAt ∧ s.lateGate.modAt = s.modAt ∧ s.lateGate.mem = s.mem ∧
    s.lateGate.track = s.track ∧ s.lateGate.docket = s.docket ∧ s.lateGate.outfeed = s.outfeed ∧
    s.lateGate.flux = s.flux ∧ s.lateGate.thermal = s.thermal ∧ s.lateGate.pot = s.pot ∧ s.lateGate.extr = s.extr ∧
    s.lateGate.modes = s.modes ∧ s.lateGate.port = s.port ∧ s.lateGate.pending = s.pending :=
  ⟨rfl, rfl, rfl, rfl, rfl, rfl, rfl, rfl, rfl, rfl, rfl, rfl, rfl, rfl, rfl, rfl⟩

@[simp] theorem State.blocks_setAuth (s : State) (b : Bool) :
    (s.setAuth b).pins = s.pins ∧ (s.setAuth b).clock = s.clock ∧ (s.setAuth b).statusAt = s.statusAt ∧
    (s.setAuth b).heaterAt = s.heaterAt ∧ (s.setAuth b).modAt = s.modAt ∧ (s.setAuth b).mem = s.mem ∧
    (s.setAuth b).track = s.track ∧ (s.setAuth b).docket = s.docket ∧ (s.setAuth b).gate = s.gate ∧
    (s.setAuth b).outfeed = s.outfeed ∧ (s.setAuth b).flux = s.flux ∧ (s.setAuth b).pot = s.pot ∧
    (s.setAuth b).extr = s.extr ∧ (s.setAuth b).modes = s.modes ∧ (s.setAuth b).port = s.port ∧
    (s.setAuth b).pending = s.pending :=
  ⟨rfl, rfl, rfl, rfl, rfl, rfl, rfl, rfl, rfl, rfl, rfl, rfl, rfl, rfl, rfl, rfl⟩

@[simp] theorem State.blocks_changePoint (s : State) (k : Idx8) (f : Point → Point) :
    (s.changePoint k f).pins = s.pins ∧ (s.changePoint k f).clock = s.clock ∧
    (s.changePoint k f).statusAt = s.statusAt ∧ (s.changePoint k f).heaterAt = s.heaterAt ∧
    (s.changePoint k f).modAt = s.modAt ∧ (s.changePoint k f).mem = s.mem ∧ (s.changePoint k f).track = s.track ∧
    (s.changePoint k f).docket = s.docket ∧ (s.changePoint k f).gate = s.gate ∧
    (s.changePoint k f).outfeed = s.outfeed ∧ (s.changePoint k f).flux = s.flux ∧
    (s.changePoint k f).thermal = s.thermal ∧ (s.changePoint k f).pot = s.pot ∧ (s.changePoint k f).modes = s.modes ∧
    (s.changePoint k f).pending = s.pending :=
  ⟨rfl, rfl, rfl, rfl, rfl, rfl, rfl, rfl, rfl, rfl, rfl, rfl, rfl, rfl, rfl⟩

@[simp] theorem State.blocks_sampleContact (s : State) :
    s.sampleContact.pins = s.pins ∧ s.sampleContact.clock = s.clock ∧ s.sampleContact.statusAt = s.statusAt ∧
    s.sampleContact.heaterAt = s.heaterAt ∧ s.sampleContact.modAt = s.modAt ∧ s.sampleContact.mem = s.mem ∧
    s.sampleContact.docket = s.docket ∧ s.sampleContact.gate = s.gate ∧ s.sampleContact.outfeed = s.outfeed ∧
    s.sampleContact.flux = s.flux ∧ s.sampleContact.thermal = s.thermal ∧ s.sampleContact.pot = s.pot ∧
    s.sampleContact.extr = s.extr ∧ s.sampleContact.modes = s.modes ∧ s.sampleContact.port = s.port ∧
    s.sampleContact.pending = s.pending :=
  ⟨rfl, rfl, rfl, rfl, rfl, rfl, rfl, rfl, rfl, rfl, rfl, rfl, rfl, rfl, rfl, rfl⟩

@[simp] theorem State.blocks_reformConveyor (s : State) :
    s.reformConveyor.pins = s.pins ∧ s.reformConveyor.clock = s.clock ∧ s.reformConveyor.statusAt = s.statusAt ∧
    s.reformConveyor.heaterAt = s.heaterAt ∧ s.reformConveyor.modAt = s.modAt ∧ s.reformConveyor.mem = s.mem ∧
    s.reformConveyor.docket = s.docket ∧ s.reformConveyor.gate = s.gate ∧ s.reformConveyor.outfeed = s.outfeed ∧
    s.reformConveyor.flux = s.flux ∧ s.reformConveyor.thermal = s.thermal ∧ s.reformConveyor.extr = s.extr ∧
    s.reformConveyor.modes = s.modes ∧ s.reformConveyor.port = s.port ∧ s.reformConveyor.pending = s.pending :=
  by simp [State.reformConveyor]

@[simp] theorem State.blocks_reformMotion (s : State) :
    s.reformMotion.pins = s.pins ∧ s.reformMotion.clock = s.clock ∧ s.reformMotion.statusAt = s.statusAt ∧
    s.reformMotion.heaterAt = s.heaterAt ∧ s.reformMotion.modAt = s.modAt ∧ s.reformMotion.mem = s.mem ∧
    s.reformMotion.docket = s.docket ∧ s.reformMotion.flux = s.flux ∧ s.reformMotion.thermal = s.thermal ∧
    s.reformMotion.extr = s.extr ∧ s.reformMotion.modes = s.modes ∧ s.reformMotion.port = s.port ∧
    s.reformMotion.pending = s.pending :=
  by simp [State.reformMotion]

@[simp] theorem State.blocks_reformTargets (s : State) :
    s.reformTargets.pins = s.pins ∧ s.reformTargets.clock = s.clock ∧ s.reformTargets.statusAt = s.statusAt ∧
    s.reformTargets.heaterAt = s.heaterAt ∧ s.reformTargets.modAt = s.modAt ∧ s.reformTargets.mem = s.mem ∧
    s.reformTargets.track = s.track ∧ s.reformTargets.docket = s.docket ∧ s.reformTargets.gate = s.gate ∧
    s.reformTargets.outfeed = s.outfeed ∧ s.reformTargets.flux = s.flux ∧ s.reformTargets.extr = s.extr ∧
    s.reformTargets.modes = s.modes ∧ s.reformTargets.port = s.port ∧ s.reformTargets.pending = s.pending :=
  by simp [State.reformTargets]

@[simp] theorem State.blocks_nameClass (s : State) :
    s.nameClass.pins = s.pins ∧ s.nameClass.clock = s.clock ∧ s.nameClass.statusAt = s.statusAt ∧
    s.nameClass.heaterAt = s.heaterAt ∧ s.nameClass.modAt = s.modAt ∧ s.nameClass.mem = s.mem ∧
    s.nameClass.docket = s.docket ∧ s.nameClass.outfeed = s.outfeed ∧ s.nameClass.flux = s.flux ∧
    s.nameClass.extr = s.extr ∧ s.nameClass.modes = s.modes ∧ s.nameClass.port = s.port ∧
    s.nameClass.pending = s.pending :=
  by simp [State.nameClass]

@[simp] theorem State.blocks_enterMode (s : State) (m : Mode) :
    (s.enterMode m).pins = s.pins ∧ (s.enterMode m).clock = s.clock ∧ (s.enterMode m).statusAt = s.statusAt ∧
    (s.enterMode m).heaterAt = s.heaterAt ∧ (s.enterMode m).modAt = s.modAt ∧ (s.enterMode m).mem = s.mem ∧
    (s.enterMode m).track = s.track ∧ (s.enterMode m).docket = s.docket ∧ (s.enterMode m).outfeed = s.outfeed ∧
    (s.enterMode m).flux = s.flux ∧ (s.enterMode m).thermal = s.thermal ∧ (s.enterMode m).extr = s.extr ∧
    (s.enterMode m).pending = s.pending := by
  unfold State.enterMode; split <;> simp

@[simp] theorem State.blocks_raiseCause (s : State) (c : HaltCause) :
    (s.raiseCause c).pins = s.pins ∧ (s.raiseCause c).clock = s.clock ∧ (s.raiseCause c).statusAt = s.statusAt ∧
    (s.raiseCause c).heaterAt = s.heaterAt ∧ (s.raiseCause c).modAt = s.modAt ∧ (s.raiseCause c).mem = s.mem ∧
    (s.raiseCause c).track = s.track ∧ (s.raiseCause c).docket = s.docket ∧ (s.raiseCause c).outfeed = s.outfeed ∧
    (s.raiseCause c).flux = s.flux ∧ (s.raiseCause c).thermal = s.thermal ∧ (s.raiseCause c).extr = s.extr ∧
    (s.raiseCause c).pending = s.pending := by
  unfold State.raiseCause; split
  · simp
  · dsimp only; split <;> simp

@[simp] theorem State.blocks_raiseIf (s : State) (b : Bool) (c : HaltCause) :
    (s.raiseIf b c).pins = s.pins ∧ (s.raiseIf b c).clock = s.clock ∧ (s.raiseIf b c).statusAt = s.statusAt ∧
    (s.raiseIf b c).heaterAt = s.heaterAt ∧ (s.raiseIf b c).modAt = s.modAt ∧ (s.raiseIf b c).mem = s.mem ∧
    (s.raiseIf b c).track = s.track ∧ (s.raiseIf b c).docket = s.docket ∧ (s.raiseIf b c).outfeed = s.outfeed ∧
    (s.raiseIf b c).flux = s.flux ∧ (s.raiseIf b c).thermal = s.thermal ∧ (s.raiseIf b c).extr = s.extr ∧
    (s.raiseIf b c).pending = s.pending := by
  cases b <;> simp [State.raiseIf]

@[simp] theorem State.blocks_modeStage (s : State) :
    s.modeStage.pins = s.pins ∧ s.modeStage.clock = s.clock ∧ s.modeStage.statusAt = s.statusAt ∧
    s.modeStage.heaterAt = s.heaterAt ∧ s.modeStage.modAt = s.modAt ∧ s.modeStage.mem = s.mem ∧
    s.modeStage.track = s.track ∧ s.modeStage.docket = s.docket ∧ s.modeStage.outfeed = s.outfeed ∧
    s.modeStage.flux = s.flux ∧ s.modeStage.thermal = s.thermal ∧ s.modeStage.extr = s.extr ∧
    s.modeStage.pending = s.pending := by
  unfold State.modeStage; split
  · simp
  · split <;> simp

@[simp] theorem State.blocks_cutPulse (s : State) (p : Pulse → Bool) (b : Bool) (l : Idx8) :
    (s.cutPulse p b l).pins = s.pins ∧ (s.cutPulse p b l).clock = s.clock ∧ (s.cutPulse p b l).statusAt = s.statusAt ∧
    (s.cutPulse p b l).heaterAt = s.heaterAt ∧ (s.cutPulse p b l).modAt = s.modAt ∧
    (s.cutPulse p b l).docket = s.docket ∧ (s.cutPulse p b l).gate = s.gate ∧ (s.cutPulse p b l).outfeed = s.outfeed ∧
    (s.cutPulse p b l).thermal = s.thermal ∧ (s.cutPulse p b l).pot = s.pot ∧ (s.cutPulse p b l).extr = s.extr ∧
    (s.cutPulse p b l).modes = s.modes ∧ (s.cutPulse p b l).pending = s.pending := by
  unfold State.cutPulse; split
  · split <;> simp
  · simp

@[simp] theorem State.blocks_cutPulses (s : State) (p : Pulse → Bool) (b : Bool) :
    (s.cutPulses p b).pins = s.pins ∧ (s.cutPulses p b).clock = s.clock ∧ (s.cutPulses p b).statusAt = s.statusAt ∧
    (s.cutPulses p b).heaterAt = s.heaterAt ∧ (s.cutPulses p b).modAt = s.modAt ∧
    (s.cutPulses p b).docket = s.docket ∧ (s.cutPulses p b).gate = s.gate ∧ (s.cutPulses p b).outfeed = s.outfeed ∧
    (s.cutPulses p b).thermal = s.thermal ∧ (s.cutPulses p b).pot = s.pot ∧ (s.cutPulses p b).extr = s.extr ∧
    (s.cutPulses p b).modes = s.modes ∧ (s.cutPulses p b).pending = s.pending := by
  simp [State.cutPulses, allIdx8]

@[simp] theorem State.blocks_creditPurge (s : State) :
    s.creditPurge.pins = s.pins ∧ s.creditPurge.clock = s.clock ∧ s.creditPurge.statusAt = s.statusAt ∧
    s.creditPurge.heaterAt = s.heaterAt ∧ s.creditPurge.modAt = s.modAt ∧ s.creditPurge.track = s.track ∧
    s.creditPurge.docket = s.docket ∧ s.creditPurge.gate = s.gate ∧ s.creditPurge.outfeed = s.outfeed ∧
    s.creditPurge.thermal = s.thermal ∧ s.creditPurge.pot = s.pot ∧ s.creditPurge.extr = s.extr ∧
    s.creditPurge.modes = s.modes ∧ s.creditPurge.pending = s.pending := by
  unfold State.creditPurge; split <;> simp

@[simp] theorem State.blocks_endPurge (s : State) :
    s.endPurge.pins = s.pins ∧ s.endPurge.clock = s.clock ∧ s.endPurge.statusAt = s.statusAt ∧
    s.endPurge.heaterAt = s.heaterAt ∧ s.endPurge.modAt = s.modAt ∧ s.endPurge.track = s.track ∧
    s.endPurge.docket = s.docket ∧ s.endPurge.gate = s.gate ∧ s.endPurge.outfeed = s.outfeed ∧
    s.endPurge.thermal = s.thermal ∧ s.endPurge.pot = s.pot ∧ s.endPurge.extr = s.extr ∧ s.endPurge.modes = s.modes ∧
    s.endPurge.pending = s.pending := by
  unfold State.endPurge; split <;> simp

@[simp] theorem State.blocks_beginInhibit (s : State) :
    s.beginInhibit.pins = s.pins ∧ s.beginInhibit.clock = s.clock ∧ s.beginInhibit.statusAt = s.statusAt ∧
    s.beginInhibit.heaterAt = s.heaterAt ∧ s.beginInhibit.modAt = s.modAt ∧ s.beginInhibit.docket = s.docket ∧
    s.beginInhibit.gate = s.gate ∧ s.beginInhibit.outfeed = s.outfeed ∧ s.beginInhibit.thermal = s.thermal ∧
    s.beginInhibit.pot = s.pot ∧ s.beginInhibit.extr = s.extr ∧ s.beginInhibit.modes = s.modes ∧
    s.beginInhibit.pending = s.pending := by
  simp [State.beginInhibit]

@[simp] theorem State.blocks_reformInhibit (s : State) :
    s.reformInhibit.pins = s.pins ∧ s.reformInhibit.clock = s.clock ∧ s.reformInhibit.statusAt = s.statusAt ∧
    s.reformInhibit.heaterAt = s.heaterAt ∧ s.reformInhibit.modAt = s.modAt ∧ s.reformInhibit.docket = s.docket ∧
    s.reformInhibit.gate = s.gate ∧ s.reformInhibit.outfeed = s.outfeed ∧ s.reformInhibit.thermal = s.thermal ∧
    s.reformInhibit.pot = s.pot ∧ s.reformInhibit.extr = s.extr ∧ s.reformInhibit.modes = s.modes ∧
    s.reformInhibit.pending = s.pending := by
  unfold State.reformInhibit; split <;> simp

@[simp] theorem State.blocks_reformGuards (s : State) :
    s.reformGuards.pins = s.pins ∧ s.reformGuards.clock = s.clock ∧ s.reformGuards.statusAt = s.statusAt ∧
    s.reformGuards.heaterAt = s.heaterAt ∧ s.reformGuards.modAt = s.modAt ∧ s.reformGuards.docket = s.docket ∧
    s.reformGuards.gate = s.gate ∧ s.reformGuards.outfeed = s.outfeed ∧ s.reformGuards.pot = s.pot ∧
    s.reformGuards.extr = s.extr ∧ s.reformGuards.modes = s.modes ∧ s.reformGuards.pending = s.pending := by
  simp [State.reformGuards]

@[simp] theorem State.blocks_rejectSlots (s : State) (ns : List SlotIx) (r : RejectReason) :
    (s.rejectSlots ns r).pins = s.pins ∧ (s.rejectSlots ns r).clock = s.clock ∧
    (s.rejectSlots ns r).statusAt = s.statusAt ∧ (s.rejectSlots ns r).heaterAt = s.heaterAt ∧
    (s.rejectSlots ns r).modAt = s.modAt ∧ (s.rejectSlots ns r).track = s.track ∧
    (s.rejectSlots ns r).docket = s.docket ∧ (s.rejectSlots ns r).gate = s.gate ∧
    (s.rejectSlots ns r).outfeed = s.outfeed ∧ (s.rejectSlots ns r).flux = s.flux ∧
    (s.rejectSlots ns r).thermal = s.thermal ∧ (s.rejectSlots ns r).pot = s.pot ∧ (s.rejectSlots ns r).extr = s.extr ∧
    (s.rejectSlots ns r).modes = s.modes ∧ (s.rejectSlots ns r).pending = s.pending := by
  unfold State.rejectSlots
  induction ns generalizing s with
  | nil => simp
  | cons n ns ih => simpa using ih (s.rejectSlot n r)

@[simp] theorem State.blocks_slotScan (s : State) (fuel : Nat) :
    (s.slotScan fuel).pins = s.pins ∧ (s.slotScan fuel).clock = s.clock ∧ (s.slotScan fuel).statusAt = s.statusAt ∧
    (s.slotScan fuel).heaterAt = s.heaterAt ∧ (s.slotScan fuel).modAt = s.modAt ∧ (s.slotScan fuel).track = s.track ∧
    (s.slotScan fuel).gate = s.gate ∧ (s.slotScan fuel).outfeed = s.outfeed ∧ (s.slotScan fuel).flux = s.flux ∧
    (s.slotScan fuel).thermal = s.thermal ∧ (s.slotScan fuel).pot = s.pot ∧ (s.slotScan fuel).extr = s.extr ∧
    (s.slotScan fuel).modes = s.modes ∧ (s.slotScan fuel).pending = s.pending := by
  induction fuel generalizing s with
  | zero => simp [State.slotScan]
  | succ k ih =>
    unfold State.slotScan; dsimp only; split
    · simp
    · split
      · rename_i n others _ _ _
        have h := ih (((((s.rejectSlots ((postedSlots s).filter fun n => isStale s.docket.expected (slotSequence s.mem n))
          .stale).rejectSlots others .duplicate).rejectSlot n .badRecipe).setExpected (s.docket.expected + 1)))
        simpa using h
      · simp
      · simp

@[simp] theorem State.blocks_reformDocket (s : State) :
    s.reformDocket.pins = s.pins ∧ s.reformDocket.clock = s.clock ∧ s.reformDocket.statusAt = s.statusAt ∧
    s.reformDocket.heaterAt = s.heaterAt ∧ s.reformDocket.modAt = s.modAt ∧ s.reformDocket.track = s.track ∧
    s.reformDocket.gate = s.gate ∧ s.reformDocket.outfeed = s.outfeed ∧ s.reformDocket.flux = s.flux ∧
    s.reformDocket.thermal = s.thermal ∧ s.reformDocket.pot = s.pot ∧ s.reformDocket.extr = s.extr ∧
    s.reformDocket.modes = s.modes ∧ s.reformDocket.pending = s.pending := by
  unfold State.reformDocket; split
  · simp
  · simp
  · split
    · split <;> simp
    · split <;> simp

@[simp] theorem State.blocks_phaseNone (s : State) :
    s.phaseNone.pins = s.pins ∧ s.phaseNone.clock = s.clock ∧ s.phaseNone.statusAt = s.statusAt ∧
    s.phaseNone.heaterAt = s.heaterAt ∧ s.phaseNone.modAt = s.modAt ∧ s.phaseNone.mem = s.mem ∧
    s.phaseNone.track = s.track ∧ s.phaseNone.docket = s.docket ∧ s.phaseNone.outfeed = s.outfeed ∧
    s.phaseNone.flux = s.flux ∧ s.phaseNone.thermal = s.thermal ∧ s.phaseNone.pot = s.pot ∧
    s.phaseNone.extr = s.extr ∧ s.phaseNone.modes = s.modes ∧ s.phaseNone.port = s.port ∧
    s.phaseNone.pending = s.pending := by
  unfold State.phaseNone; split
  · split <;> simp
  · simp

@[simp] theorem State.blocks_phaseDraining (s : State) :
    s.phaseDraining.pins = s.pins ∧ s.phaseDraining.clock = s.clock ∧ s.phaseDraining.statusAt = s.statusAt ∧
    s.phaseDraining.heaterAt = s.heaterAt ∧ s.phaseDraining.modAt = s.modAt ∧ s.phaseDraining.mem = s.mem ∧
    s.phaseDraining.docket = s.docket ∧ s.phaseDraining.outfeed = s.outfeed ∧ s.phaseDraining.flux = s.flux ∧
    s.phaseDraining.extr = s.extr ∧ s.phaseDraining.modes = s.modes ∧ s.phaseDraining.port = s.port ∧
    s.phaseDraining.pending = s.pending := by
  unfold State.phaseDraining; split
  · simp
  · split
    · simp
    · split <;> simp

@[simp] theorem State.blocks_retargetClass (s : State) :
    s.retargetClass.pins = s.pins ∧ s.retargetClass.clock = s.clock ∧ s.retargetClass.statusAt = s.statusAt ∧
    s.retargetClass.heaterAt = s.heaterAt ∧ s.retargetClass.modAt = s.modAt ∧ s.retargetClass.mem = s.mem ∧
    s.retargetClass.docket = s.docket ∧ s.retargetClass.outfeed = s.outfeed ∧ s.retargetClass.flux = s.flux ∧
    s.retargetClass.extr = s.extr ∧ s.retargetClass.modes = s.modes ∧ s.retargetClass.port = s.port ∧
    s.retargetClass.pending = s.pending := by
  unfold State.retargetClass; split
  · simp
  · split <;> simp

@[simp] theorem State.blocks_phaseMoving (s : State) :
    s.phaseMoving.pins = s.pins ∧ s.phaseMoving.clock = s.clock ∧ s.phaseMoving.statusAt = s.statusAt ∧
    s.phaseMoving.heaterAt = s.heaterAt ∧ s.phaseMoving.modAt = s.modAt ∧ s.phaseMoving.mem = s.mem ∧
    s.phaseMoving.docket = s.docket ∧ s.phaseMoving.outfeed = s.outfeed ∧ s.phaseMoving.flux = s.flux ∧
    s.phaseMoving.extr = s.extr ∧ s.phaseMoving.modes = s.modes ∧ s.phaseMoving.port = s.port ∧
    s.phaseMoving.pending = s.pending := by
  unfold State.phaseMoving; dsimp only; split
  · split <;> simp
  · simp

@[simp] theorem State.blocks_phaseSettling (s : State) :
    s.phaseSettling.pins = s.pins ∧ s.phaseSettling.clock = s.clock ∧ s.phaseSettling.statusAt = s.statusAt ∧
    s.phaseSettling.heaterAt = s.heaterAt ∧ s.phaseSettling.modAt = s.modAt ∧ s.phaseSettling.mem = s.mem ∧
    s.phaseSettling.docket = s.docket ∧ s.phaseSettling.outfeed = s.outfeed ∧ s.phaseSettling.flux = s.flux ∧
    s.phaseSettling.extr = s.extr ∧ s.phaseSettling.modes = s.modes ∧ s.phaseSettling.port = s.port ∧
    s.phaseSettling.pending = s.pending := by
  unfold State.phaseSettling; dsimp only; split
  · split
    · simp
    · split <;> simp
  · simp

@[simp] theorem State.blocks_phaseStep (s : State) :
    s.phaseStep.pins = s.pins ∧ s.phaseStep.clock = s.clock ∧ s.phaseStep.statusAt = s.statusAt ∧
    s.phaseStep.heaterAt = s.heaterAt ∧ s.phaseStep.modAt = s.modAt ∧ s.phaseStep.mem = s.mem ∧
    s.phaseStep.docket = s.docket ∧ s.phaseStep.outfeed = s.outfeed ∧ s.phaseStep.flux = s.flux ∧
    s.phaseStep.extr = s.extr ∧ s.phaseStep.modes = s.modes ∧ s.phaseStep.port = s.port ∧
    s.phaseStep.pending = s.pending := by
  unfold State.phaseStep; split
  · split <;> simp
  · simp

@[simp] theorem State.blocks_changeover (s : State) (fuel : Nat) :
    (s.changeover fuel).pins = s.pins ∧ (s.changeover fuel).clock = s.clock ∧
    (s.changeover fuel).statusAt = s.statusAt ∧ (s.changeover fuel).heaterAt = s.heaterAt ∧
    (s.changeover fuel).modAt = s.modAt ∧ (s.changeover fuel).mem = s.mem ∧ (s.changeover fuel).docket = s.docket ∧
    (s.changeover fuel).outfeed = s.outfeed ∧ (s.changeover fuel).flux = s.flux ∧ (s.changeover fuel).extr = s.extr ∧
    (s.changeover fuel).modes = s.modes ∧ (s.changeover fuel).port = s.port ∧
    (s.changeover fuel).pending = s.pending := by
  induction fuel generalizing s with
  | zero => simp [State.changeover]
  | succ k ih =>
    unfold State.changeover; dsimp only; split
    · simp
    · simpa using ih s.phaseStep

@[simp] theorem State.blocks_openGate (s : State) :
    s.openGate.pins = s.pins ∧ s.openGate.clock = s.clock ∧ s.openGate.statusAt = s.statusAt ∧
    s.openGate.heaterAt = s.heaterAt ∧ s.openGate.modAt = s.modAt ∧ s.openGate.mem = s.mem ∧
    s.openGate.track = s.track ∧ s.openGate.outfeed = s.outfeed ∧ s.openGate.flux = s.flux ∧
    s.openGate.thermal = s.thermal ∧ s.openGate.pot = s.pot ∧ s.openGate.extr = s.extr ∧ s.openGate.modes = s.modes ∧
    s.openGate.port = s.port ∧ s.openGate.pending = s.pending := by
  unfold State.openGate; split <;> simp

@[simp] theorem State.blocks_gateTransition (s : State) :
    s.gateTransition.pins = s.pins ∧ s.gateTransition.clock = s.clock ∧ s.gateTransition.statusAt = s.statusAt ∧
    s.gateTransition.heaterAt = s.heaterAt ∧ s.gateTransition.modAt = s.modAt ∧ s.gateTransition.mem = s.mem ∧
    s.gateTransition.track = s.track ∧ s.gateTransition.outfeed = s.outfeed ∧ s.gateTransition.flux = s.flux ∧
    s.gateTransition.thermal = s.thermal ∧ s.gateTransition.pot = s.pot ∧ s.gateTransition.extr = s.extr ∧
    s.gateTransition.modes = s.modes ∧ s.gateTransition.port = s.port ∧ s.gateTransition.pending = s.pending := by
  unfold State.gateTransition; split
  · split <;> simp
  · split
    · simp
    · split <;> simp
  · split <;> simp
  · simp

@[simp] theorem State.blocks_gateEval (s : State) :
    s.gateEval.pins = s.pins ∧ s.gateEval.clock = s.clock ∧ s.gateEval.statusAt = s.statusAt ∧
    s.gateEval.heaterAt = s.heaterAt ∧ s.gateEval.modAt = s.modAt ∧ s.gateEval.outfeed = s.outfeed ∧
    s.gateEval.flux = s.flux ∧ s.gateEval.extr = s.extr ∧ s.gateEval.modes = s.modes ∧
    s.gateEval.pending = s.pending := by
  simp [State.gateEval]

@[simp] theorem State.blocks_gateFollow (s : State) :
    s.gateFollow.pins = s.pins ∧ s.gateFollow.clock = s.clock ∧ s.gateFollow.statusAt = s.statusAt ∧
    s.gateFollow.heaterAt = s.heaterAt ∧ s.gateFollow.modAt = s.modAt ∧ s.gateFollow.outfeed = s.outfeed ∧
    s.gateFollow.flux = s.flux ∧ s.gateFollow.extr = s.extr ∧ s.gateFollow.modes = s.modes ∧
    s.gateFollow.pending = s.pending := by
  unfold State.gateFollow; dsimp only; split <;> split <;> simp

@[simp] theorem State.blocks_gateStage (s : State) :
    s.gateStage.pins = s.pins ∧ s.gateStage.clock = s.clock ∧ s.gateStage.statusAt = s.statusAt ∧
    s.gateStage.heaterAt = s.heaterAt ∧ s.gateStage.modAt = s.modAt ∧ s.gateStage.outfeed = s.outfeed ∧
    s.gateStage.flux = s.flux ∧ s.gateStage.extr = s.extr ∧ s.gateStage.modes = s.modes ∧
    s.gateStage.pending = s.pending := by
  unfold State.gateStage; split <;> simp

/-! ## What the gate has been told (R160) -/

@[simp] theorem State.told_takeHolds (s : State) : s.takeHolds.gate.told = s.outfeed.state := rfl

@[simp] theorem Gate.told_enter (g : Gate) (st : GateState) : (g.enter st).told = g.told := rfl

@[simp] theorem State.told_gateTransition (s : State) : s.gateTransition.gate.told = s.gate.told := by
  unfold State.gateTransition State.openGate; split <;> (repeat' split) <;> rfl

/-- An evaluation tells the gate the outfeed state that stands. -/
@[simp] theorem State.told_gateEval (s : State) : s.gateEval.gate.told = s.outfeed.state := by
  simp [State.gateEval]

/-- After an evaluation the outfeed has nothing to report. -/
@[simp] theorem outfeedReports_gateEval (s : State) : outfeedReports s.gateEval = false := by
  simp [outfeedReports]

end Sys2Proof.Machine
end

