-- ==== Sys2Proof/Laws/Formed.lean ====
section
/-! SUPPORT. What every step's consequences establish, whatever stood before: the re-formed values of `State.reform`, and so of
`State.settle`. -/

namespace Sys2Proof.Machine

open Sys2Proof.Config

theorem settle_eq_reform (s : State) : s.settle = s.pass.pass.reform := rfl

theorem settleEval_eq_settle (s : State) : s.settleEval = s.reform.gateEval.settle := rfl

/-! ## The reference and the drive -/

theorem Track.refer_ref (t : Track) (r : Nat) : (t.refer r).ref = r := by
  unfold Track.refer; split <;> simp_all

@[simp] theorem Drop.follow_none (d : Drop) (n : Nat) : d.follow n = .none ↔ d = .none := by
  cases d <;> simp [Drop.follow] <;> split <;> simp

theorem reformRef_ref (s : State) : s.reformRef.track.ref = conveyorRef s.reformRef := by
  have h : s.reformRef.track.ref = conveyorRef s := by
    simp [State.reformRef, Track.refer_ref]
  rw [h]
  unfold conveyorRef
  have hd : runDemand s.reformRef = runDemand s := by simp [runDemand, namedSpeed]
  rw [hd]
  by_cases hs : dropStarts s = true
  · have h0 : conveyorRef s = 0 := by
      simp [dropStarts, conveyorStops] at hs; exact hs.1.1.2
    unfold conveyorRef at h0
    simp [State.reformRef, hs, h0]
  · simp [State.reformRef, hs]

theorem conveyorRef_congr {s t : State} (h1 : t.modes.mode = s.modes.mode)
    (h2 : t.gate = { s.gate with lateWaits := t.gate.lateWaits })
    (h3 : t.outfeed.stop = s.outfeed.stop) (h4 : t.pot.drop = s.pot.drop) : conveyorRef t = conveyorRef s := by
  rw [conveyorRef, runDemand, namedSpeed, h1, h2, h3, h4]
  rfl

theorem referenceFormed_iff (s : State) : ReferenceFormed s ↔ s.track.ref = conveyorRef s := by
  unfold ReferenceFormed conveyorRef runDemand namedSpeed
  cases hm : s.modes.mode <;> cases hd : s.pot.drop <;> cases hl : s.gate.lineClass <;>
    cases ho : s.outfeed.stop <;> cases hw : s.gate.width.inMotion <;> simp [Mode.conveys]

theorem reform_referenceFormed (s : State) : ReferenceFormed s.reform := by
  rw [referenceFormed_iff]
  unfold State.reform State.reformMotion State.reformConveyor
  generalize s.modeStage.reformFans.reformHorn.reformGuards.reformTargets.reformOutfeed.reformWidth.followDrop.endDrop = u
  have h := reformRef_ref u
  simp only [State.blocks_reformLine, State.blocks_reformIdle, State.track_reformWaits, State.blocks_reformDrive,
    State.blocks_reformPumpRefs]
  rw [h]
  symm
  apply conveyorRef_congr <;> simp [State.reformIdle, State.reformDrive, State.reformPumpRefs]

theorem settle_referenceFormed (s : State) : ReferenceFormed s.settle := reform_referenceFormed _

theorem Pump.follow_ref (p : Pump) (d : Drop) : (p.follow d).ref = if d = .held then 0 else p.target := by
  unfold Pump.follow Pump.refer
  generalize (if d = .held then 0 else p.target) = r
  split <;> simp_all

theorem Pump.follow_target (p : Pump) (d : Drop) : (p.follow d).target = p.target := by
  unfold Pump.follow Pump.refer
  generalize (if d = .held then 0 else p.target) = r
  split <;> rfl

theorem reform_pumpsFormed (s : State) : PumpsFormed s.reform := by
  unfold State.reform State.reformMotion State.reformConveyor PumpsFormed
  generalize s.modeStage.reformFans.reformHorn.reformGuards.reformTargets.reformOutfeed.reformWidth.followDrop.endDrop.reformRef = u
  intro w
  cases w <;> simp [State.reformPumpRefs, Pot.pump, Pump.follow_ref, Pump.follow_target]

theorem settle_pumpsFormed (s : State) : PumpsFormed s.settle := reform_pumpsFormed _

/-! ## The heaters -/

/-- The cut state of R98, as the model's own tests name it. -/
theorem heatersCut_iff (s : State) :
    HeatersCut s ↔
      (potCut s = true → s.thermal.pot.grant = 0) ∧ (∀ z, zoneCut s z = true → (s.thermal.zones.get z).grant = 0) ∧
        ∀ k, outputCut s k = true → s.thermal.outputs.get k = false := by
  constructor
  · intro h
    have hp : potCut s = true → s.thermal.pot.grant = 0 ∧ s.thermal.outputs.get 0 = false ∧ s.thermal.outputs.get 1 = false := by
      intro hc
      simp [potCut, State.permit, potBarred] at hc
      rcases hc with ((hc | hc) | hc) | hc
      · by_cases ha : s.thermal.auth = false ∨ s.modes.mode = .off ∨ s.pins.estop = true
        · have := h.permit ha; exact ⟨this.1, this.2.2 0, this.2.2 1⟩
        · push Not at ha
          simp_all
      · exact h.pot (.inl hc)
      · exact h.pot (.inr (.inl hc))
      · exact h.pot (.inr (.inr ⟨hc.1, by simpa [or_assoc] using hc.2⟩))
    have hz : ∀ z, zoneCut s z = true → (s.thermal.zones.get z).grant = 0 ∧ s.thermal.outputs.get (zoneOutput z) = false := by
      intro z hc
      simp [zoneCut, State.permit, Thermal.zoneFaulted] at hc
      rcases hc with hc | hc
      · by_cases ha : s.thermal.auth = false ∨ s.modes.mode = .off ∨ s.pins.estop = true
        · have := h.permit ha; exact ⟨this.2.1 z, this.2.2 _⟩
        · push Not at ha
          simp_all
      · exact h.zone z hc
    refine ⟨fun hc => (hp hc).1, fun z hc => (hz z hc).1, ?_⟩
    intro k hc
    match k with
    | 0 => exact (hp hc).2.1
    | 1 => exact (hp hc).2.2
    | 2 => exact (hz 0 hc).2
    | 3 => exact (hz 1 hc).2
    | 4 => exact (hz 2 hc).2
    | 5 => exact (hz 3 hc).2
    | 6 => exact (hz 4 hc).2
    | 7 => exact (hz 5 hc).2
  · rintro ⟨h1, h2, h3⟩
    have perm : s.thermal.auth = false ∨ s.modes.mode = .off ∨ s.pins.estop = true → s.permit = false := by
      intro h
      unfold State.permit
      rcases h with h | h | h <;> simp [h]
    refine ⟨fun h => ?_, fun h => ?_, fun z h => ?_⟩
    · have hn := perm h
      refine ⟨h1 (by simp [potCut, hn]), fun z => h2 z (by simp [zoneCut, hn]), fun k => h3 k ?_⟩
      match k with
      | 0 => simp [outputCut, potCut, hn]
      | 1 => simp [outputCut, potCut, hn]
      | 2 => simp [outputCut, zoneCut, hn]
      | 3 => simp [outputCut, zoneCut, hn]
      | 4 => simp [outputCut, zoneCut, hn]
      | 5 => simp [outputCut, zoneCut, hn]
      | 6 => simp [outputCut, zoneCut, hn]
      | 7 => simp [outputCut, zoneCut, hn]
    · have hc : potCut s = true := by
        unfold potCut potBarred
        rcases h with h | h | ⟨h, h'⟩
        · simp [h]
        · simp [h]
        · rcases h' with h' | h' | h' <;> simp [h, h']
      exact ⟨h1 hc, h3 0 hc, h3 1 hc⟩
    · have hc : zoneCut s z = true := by
        unfold zoneCut Thermal.zoneFaulted
        rcases h with h | h <;> simp [h]
      refine ⟨h2 z hc, h3 _ ?_⟩
      match z with
      | 0 => exact hc
      | 1 => exact hc
      | 2 => exact hc
      | 3 => exact hc
      | 4 => exact hc
      | 5 => exact hc

theorem cutGrants_cut (s : State) : HeatersCut s.cutGrants := by
  have hp : potCut s.cutGrants = potCut s := rfl
  have hz : ∀ z, zoneCut s.cutGrants z = zoneCut s z := fun _ => rfl
  have hk : ∀ k, outputCut s.cutGrants k = outputCut s k := fun _ => rfl
  rw [heatersCut_iff]
  refine ⟨fun h => ?_, fun z h => ?_, fun k h => ?_⟩
  · rw [hp] at h; simp [State.cutGrants, Loop.cutIf, h]
  · rw [hz] at h; simp [State.cutGrants, Loop.cutIf, h]
  · rw [hk] at h; simp [State.cutGrants, h]

/-- The heaters stay cut where grants, outputs and every condition of a cut stay. -/
theorem HeatersCut.congr {s t : State} (h : HeatersCut s) (hg : t.thermal.pot.grant = s.thermal.pot.grant)
    (hz : ∀ z, (t.thermal.zones.get z).grant = (s.thermal.zones.get z).grant)
    (ho : t.thermal.outputs = s.thermal.outputs) (hi : t.thermal.inputs = s.thermal.inputs)
    (hl : t.thermal.latches = s.thermal.latches) (ha : t.thermal.auth = s.thermal.auth) (hp : t.pins = s.pins)
    (hm : t.modes.mode = s.modes.mode) (hc : t.modes.causes = s.modes.causes) (hs : t.port.setup = s.port.setup) :
    HeatersCut t := by
  have hot : overtemp t = overtemp s := by
    unfold overtemp Thermal.potPV State.loaded State.ws; rw [hp, hi, hs]
  refine ⟨fun h' => ?_, fun h' => ?_, fun z h' => ?_⟩
  · unfold NotPermitted at h'; rw [ha, hm, hp] at h'
    have := h.permit h'
    exact ⟨hg.trans this.1, fun z => (hz z).trans (this.2.1 z), fun k => by rw [ho]; exact this.2.2 k⟩
  · unfold PotCut at h'; rw [hi, hot, hm, hc] at h'
    have := h.pot h'
    exact ⟨hg.trans this.1, by rw [ho]; exact this.2.1, by rw [ho]; exact this.2.2⟩
  · unfold ZoneCut at h'; rw [hi, hl] at h'
    have := h.zone z h'
    exact ⟨(hz z).trans this.1, by rw [ho]; exact this.2⟩

@[simp] theorem Loop.grant_retarget (l : Loop) (t : Int) : (l.retarget t).grant = l.grant := by
  unfold Loop.retarget; split <;> rfl

@[simp] theorem Loop.grant_formSettled (l : Loop) (a : Bool) : (l.formSettled a).grant = l.grant := by
  unfold Loop.formSettled; split <;> [rfl; (split <;> rfl)]

@[simp] theorem Loop.grant_reform (l : Loop) (t : Int) (a : Bool) (g : Option (BitVec 16)) :
    (l.reform t a g).grant = l.grant := by
  simp [Loop.reform, Loop.follow]

theorem reform_heatersCut (s : State) : HeatersCut s.reform := by
  unfold State.reform State.reformGuards
  generalize s.modeStage.reformFans.reformHorn.reformInhibit = u
  refine (cutGrants_cut u).congr ?_ ?_ ?_ ?_ ?_ ?_ ?_ ?_ ?_ ?_ <;>
    simp [State.reformLine, State.reformIdle, State.reformTargets, State.reformPotTarget, State.reformZones, Port.formLine]

theorem settle_heatersCut (s : State) : HeatersCut s.settle := reform_heatersCut _

/-! ## Fans and annunciators -/

theorem Extr.command_fan (x : Extr) (on : Bool) (now : Clock) : (x.command on now).fan = on := by
  unfold Extr.command; cases h : x.fan <;> cases on <;> simp [h]

theorem reform_fan (s : State) : s.reform.extr.fan = fanCommand s.reform := by
  unfold State.reform
  simp [State.reformLine, State.reformIdle, State.reformHorn, State.reformFans, Extr.command_fan, fanCommand]

theorem reform_annunciatorsFormed (s : State) : AnnunciatorsFormed s.reform := by
  unfold State.reform
  generalize s.modeStage.reformFans = u
  constructor
  · simp [State.reformHorn, hornOn, Tab8.toList, Fin.exists_fin_succ, Tab8.get]
  · simp [State.reformHorn, beaconOn, Tab8.toList, Fin.exists_fin_succ, Tab8.get, Point.active]

/-! ## Outfeed -/

theorem reform_outfeedFormed (s : State) : OutfeedFormed s.reform := by
  unfold State.reform State.reformMotion
  generalize s.modeStage.reformFans.reformHorn.reformGuards.reformTargets = u
  constructor
  · simp [State.reformOutfeed, State.reformDrive, State.reformIdle, State.reformLine]
    cases u.modes.mode <;> cases u.outfeed.state <;> cases u.pins.downstream <;>
      simp [boardAvailable, handshake, Mode.outfeedMoves, Mode.runs]
  · simp [State.reformOutfeed, State.reformDrive, State.reformIdle, State.reformLine, driveCommand]
    cases u.modes.mode <;> cases u.outfeed.state <;> cases u.pins.downstream <;>
      simp [handshake, Mode.outfeedMoves, Mode.runs]
  · simp [State.reformOutfeed, State.reformDrive, State.reformIdle, State.reformLine]
    cases u.modes.mode <;> cases u.outfeed.state <;> cases u.pins.downstream <;>
      simp [handshake, Mode.outfeedMoves, Mode.runs]

/-! ## The NOTICE line and the timers -/

theorem line_iff (p : Port) : p.formLine.line = true ↔ ∃ k : Fin 11, p.notices.getLsbD k = true ∧ p.enable.getLsbD k = true := by
  simp only [Port.formLine, bne_iff_ne, ne_eq]
  constructor
  · intro h
    by_contra hn
    push Not at hn
    apply h
    apply BitVec.eq_of_getLsbD_eq
    intro i hi
    have := hn ⟨i, hi⟩
    simp_all
  · rintro ⟨k, h1, h2⟩ h
    have := congrArg (fun b => b.getLsbD k) h
    simp only [BitVec.getLsbD_and, h1, h2] at this
    simp at this

theorem reform_noticeLineFormed (s : State) : NoticeLineFormed s.reform := by
  unfold State.reform NoticeLineFormed
  exact line_iff _

theorem reform_idle (s : State) : s.reform.modes.idle ≠ none ↔ idleRuns s.reform = true := by
  unfold State.reform
  simp only [State.reformIdle, State.reformLine]
  split <;> simp_all [idleRuns, State.ws, Port.formLine]

/-! ## The inhibit -/

theorem reformInhibit_inhibit (s : State) : s.reformInhibit.flux.inhibit = inhibitReasons s.reformInhibit := rfl

theorem mem_inhibitReasons (s : State) (r : Inhibit) : r ∈ inhibitReasons s ↔ inhibited s r = true := by
  cases r <;> simp [inhibitReasons, allInhibits]

theorem inhibitFormed_of (s : State) (h : s.flux.inhibit = inhibitReasons s) : InhibitFormed s := by
  constructor <;> rw [h, mem_inhibitReasons] <;> simp [inhibited, Point.alarming, or_assoc]

theorem reform_inhibitFormed (s : State) : InhibitFormed s.reform := by
  apply inhibitFormed_of
  unfold State.reform State.reformGuards
  generalize s.modeStage.reformFans.reformHorn = u
  simp only [State.blocks_reformLine, State.blocks_reformIdle, State.blocks_reformWaits, State.blocks_reformMotion, State.blocks_reformTargets,
    State.blocks_cutGrants, reformInhibit_inhibit]
  unfold inhibitReasons
  apply List.filter_congr
  intro r _
  cases r <;> simp [inhibited, State.reformIdle]


/-! ## The stop request and the tank's events -/

/-- R158: whether the next board has come up is read from what every stage keeps. -/
theorem nextBoardNear_core (s : State) : NextBoardNear s.core ↔ NextBoardNear s := by
  unfold NextBoardNear
  simp [State.core, State.ws, Record.core]

theorem Kept.nextBoardNear {s t : State} (h : Kept s t) : NextBoardNear t ↔ NextBoardNear s := by
  rw [← nextBoardNear_core t, h.core, nextBoardNear_core]

theorem NextBoardNear.backPressure {s : State} (h : NextBoardNear s) : backPressure s = true := by
  obtain ⟨hn, r, hr, hx⟩ := h
  obtain ⟨l, hl⟩ : ∃ l, s.track.records = r :: l := by
    cases hs : s.track.records <;> simp_all
  have hr' := hn r (by simp [hl])
  simp_all [Machine.backPressure, anyExiting, exitCandidate, relLead]

/-- R158: after a re-forming the next board's stop request stands. -/
theorem reform_nextBoardHeld (s : State) : NextBoardHeld s.reform := by
  unfold State.reform State.reformMotion
  generalize s.modeStage.reformFans.reformHorn.reformGuards.reformTargets = u
  intro hs hn
  have hk : NextBoardNear u :=
    (((((((kept_reformOutfeed u).trans (kept_reformWidth _)).trans (kept_reformConveyor _)).trans
      (kept_reformDrive _)).trans (kept_reformWaits _)).trans (kept_reformIdle _)).trans (kept_reformLine _)).nextBoardNear.1 hn
  have := hk.backPressure
  simp_all [State.reformOutfeed, State.reformDrive, State.reformIdle, State.reformLine, nextBoardNear]

/-- A notice set on a condition is pending where it was, or where the condition holds. -/
theorem notifyIf_pending (p : Port) (b : Bool) (n : Notice) :
    (p.notifyIf b n).notices.getLsbD n.bit = true ↔ p.notices.getLsbD n.bit = true ∨ b = true := by
  cases b <;> cases n <;> simp [Port.notifyIf, Port.notify, Notice.bit, Notice.mask]

/-- R70: whatever the tank takes, its low-mark state is formed anew, and FLUX_EVENT reports its two events alone. -/
theorem setTank_events (s : State) (c r : Nat) : TankEvents s (s.setTank c r) := by
  have hp : (s.setTank c r).port.setup = s.port.setup := by
    unfold State.setTank Port.notifyIf; dsimp only; split <;> rfl
  refine ⟨?_, ?_⟩
  · unfold LowFormed State.loaded State.ws
    rw [hp]
    simp only [State.setTank, lowMark, State.loaded, State.ws, Bool.and_eq_true]
    exact and_congr_right fun _ => decide_eq_true_iff
  · unfold Pending State.setTank
    rw [notifyIf_pending]
    simp [and_comm]

end Sys2Proof.Machine
end

