-- ==== Sys2Proof/Laws/Exec.lean ====
section
/-! SUPPORT. What a command can do, said once: either its consequences follow (`Settled`), or it leaves alone everything the
re-formed values depend on (`Quiet`), or it is a reset. -/

namespace Sys2Proof.Machine

open Sys2Proof.Config

/-- The state came out of the consequences of a step, and then at most an answer, or the header clock and a refresh. -/
def Settled (t : State) : Prop :=
  ∃ u : State, t = u.settle ∨ t = u.settle.writeClock.refresh ∨ ∃ a, t = u.settle.answer a

/-- Nothing that a re-formed value depends on has changed. -/
structure Quiet (s t : State) : Prop where
  mode : t.modes.mode = s.modes.mode
  causes : t.modes.causes = s.modes.causes
  wakeArm : t.modes.wakeArm = s.modes.wakeArm
  runOn : t.modes.runOn.isSome = s.modes.runOn.isSome
  idle : t.modes.idle.isSome = s.modes.idle.isSome
  ref : t.track.ref = s.track.ref
  records : t.track.records = s.track.records
  entryEye : t.track.entryEye.accepted = s.track.entryEye.accepted
  exitEye : t.track.exitEye.accepted = s.track.exitEye.accepted
  docket : t.docket = s.docket
  gate : { t.gate with width := s.gate.width } = s.gate
  inMotion : t.gate.width.inMotion = s.gate.width.inMotion
  outfeed : { t.outfeed with sensor := s.outfeed.sensor } = s.outfeed
  flux : t.flux = s.flux
  thermal : { t.thermal with outputs := s.thermal.outputs } = s.thermal
  outputs : t.thermal.outputs = s.thermal.outputs ∨ ∃ k m, t.thermal.outputs = s.thermal.outputs.set k (outputAt s k m)
  chip : t.pot.chip = s.pot.chip
  main : t.pot.main = s.pot.main
  drop : t.pot.drop = s.pot.drop
  extr : { t.extr with grace1 := s.extr.grace1, grace2 := s.extr.grace2, sampled := s.extr.sampled } = s.extr
  setup : t.port.setup = s.port.setup
  supRunning : t.port.supRunning = s.port.supRunning
  hostLost : t.port.hostLost = s.port.hostLost
  line : NoticeLineFormed s → NoticeLineFormed t
  estop : t.pins.estop = true → s.pins.estop = true
  thermostat : t.pins.thermostatOpen = s.pins.thermostatOpen
  upstream : t.pins.upstream = s.pins.upstream
  mem : t.mem = s.mem ∨ ∃ ws, t.mem = hostWrites ws s.mem

theorem Quiet.refl (s : State) : Quiet s s := by
  constructor <;> first | rfl | exact id | exact .inl rfl

theorem quiet_advance (s : State) (n : Nat) : Quiet s (s.advance n) := by
  constructor
  case outputs => exact .inl rfl
  case mem => exact .inl rfl
  case line => exact id
  case estop => exact id
  case runOn => simp [State.advance]
  case idle => simp [State.advance]
  all_goals rfl

/-- A quiet change after the passage of time. -/
theorem Quiet.after_advance {s t : State} {n : Nat} (h : Quiet (s.advance n) t) : Quiet s t := by
  have a := quiet_advance s n
  exact
    { mode := h.mode, causes := h.causes, wakeArm := h.wakeArm, runOn := h.runOn.trans a.runOn
      idle := h.idle.trans a.idle, ref := h.ref, records := h.records, entryEye := h.entryEye, exitEye := h.exitEye
      docket := h.docket, gate := h.gate, inMotion := h.inMotion, outfeed := h.outfeed, flux := h.flux
      thermal := h.thermal, outputs := h.outputs, chip := h.chip, main := h.main, drop := h.drop
      extr := by
        have := congrArg (fun x : Extr => { x with grace1 := s.extr.grace1, grace2 := s.extr.grace2, sampled := s.extr.sampled }) h.extr
        exact this
      setup := h.setup, supRunning := h.supRunning, hostLost := h.hostLost, line := h.line, estop := h.estop
      thermostat := h.thermostat, upstream := h.upstream, mem := h.mem }

theorem answer_line (s : State) (a : Answer) : NoticeLineFormed (s.answer a) := line_iff _

/-- An answer touches the request fields, the notices and the line. -/
theorem quiet_answer (s : State) (a : Answer) : Quiet s (s.answer a) := by
  constructor
  case outputs => exact .inl rfl
  case mem => exact .inl rfl
  case line => exact fun _ => answer_line s a
  case estop => exact id
  case setup => cases a <;> rfl
  case supRunning => cases a <;> rfl
  case hostLost => cases a <;> rfl
  all_goals rfl

/-- What a block decides: a refusal leaves the state, an acceptance settles it or clears the sticky flags. -/
def Decides (d : State → Answer × State) : Prop :=
  ∀ s, (d s).2 = s ∨ (∃ u, (d s).2 = State.settle u) ∨
    (d s).2 = { s with track := { s.track with overflow := false, phantom := false } }

theorem Quiet.of_mem {s t : State} (ws : List HostWrite) (h : Quiet { s with mem := hostWrites ws s.mem } t)
    (hm : t.mem = hostWrites ws s.mem) : Quiet s t :=
  { mode := h.mode, causes := h.causes, wakeArm := h.wakeArm, runOn := h.runOn
    idle := h.idle, ref := h.ref, records := h.records, entryEye := h.entryEye, exitEye := h.exitEye
    docket := h.docket, gate := h.gate, inMotion := h.inMotion, outfeed := h.outfeed, flux := h.flux
    thermal := h.thermal, outputs := h.outputs, chip := h.chip, main := h.main, drop := h.drop
    extr := h.extr, setup := h.setup, supRunning := h.supRunning, hostLost := h.hostLost, line := h.line
    estop := h.estop, thermostat := h.thermostat, upstream := h.upstream, mem := .inr ⟨ws, hm⟩ }

theorem quiet_takePost {s : State} {code : Word} {d : State → Answer × State} (hd : Decides d) :
    Quiet s (s.takePost code d) ∧ (s.takePost code d).mem = s.mem ∨ Settled (s.takePost code d) := by
  unfold State.takePost
  split
  · rcases hd s with h | ⟨u, h⟩ | h
    · rw [h]; exact .inl ⟨quiet_answer _ _, rfl⟩
    · rw [h]; exact .inr ⟨u, .inr (.inr ⟨_, rfl⟩)⟩
    · rw [h]
      refine .inl ⟨?_, rfl⟩
      have q := quiet_answer { s with track := { s.track with overflow := false, phantom := false } } (d s).1
      exact
        { mode := q.mode, causes := q.causes, wakeArm := q.wakeArm, runOn := q.runOn
          idle := q.idle, ref := q.ref, records := q.records, entryEye := q.entryEye, exitEye := q.exitEye
          docket := q.docket, gate := q.gate, inMotion := q.inMotion, outfeed := q.outfeed, flux := q.flux
          thermal := q.thermal, outputs := q.outputs, chip := q.chip, main := q.main, drop := q.drop
          extr := q.extr, setup := q.setup, supRunning := q.supRunning, hostLost := q.hostLost, line := q.line
          estop := q.estop, thermostat := q.thermostat, upstream := q.upstream, mem := q.mem }
  · exact .inl ⟨quiet_answer _ _, rfl⟩

/-- A change of the request fields alone. -/
theorem Quiet.of_port {s t : State} {p : Port} (h : Quiet { s with port := p } t) (h1 : p.setup = s.port.setup)
    (h2 : p.supRunning = s.port.supRunning) (h3 : p.hostLost = s.port.hostLost) (h4 : p.line = s.port.line)
    (h5 : p.notices = s.port.notices) (h6 : p.enable = s.port.enable) : Quiet s t :=
  { mode := h.mode, causes := h.causes, wakeArm := h.wakeArm, runOn := h.runOn
    idle := h.idle, ref := h.ref, records := h.records, entryEye := h.entryEye, exitEye := h.exitEye
    docket := h.docket, gate := h.gate, inMotion := h.inMotion, outfeed := h.outfeed, flux := h.flux
    thermal := h.thermal
    outputs := by
      have e : ∀ k m, outputAt { s with port := p } k m = outputAt s k m := fun k m => by
        simp [outputAt, State.ws, h1]
      rcases h.outputs with h | ⟨k, m, h⟩
      · exact .inl h
      · exact .inr ⟨k, m, by rw [h, e]⟩
    chip := h.chip, main := h.main, drop := h.drop
    extr := h.extr, setup := h.setup.trans h1, supRunning := h.supRunning.trans h2, hostLost := h.hostLost.trans h3
    line := fun hs => h.line (by unfold NoticeLineFormed at *; simpa [h4, h5, h6] using hs)
    estop := h.estop, thermostat := h.thermostat, upstream := h.upstream, mem := h.mem }

theorem request_shape (s : State) (code : Word) (ws : List HostWrite) {d : State → Answer × State} (hd : Decides d) :
    Quiet s (s.request code ws d) ∨ Settled (s.request code ws d) := by
  unfold State.request
  dsimp only
  split
  · split
    · rcases quiet_takePost (s := { s with mem := hostWrites ws s.mem }) (code := code) hd with ⟨q, hm⟩ | h
      · exact .inl (q.of_mem ws hm)
      · exact .inr h
    · exact .inl (Quiet.of_mem ws (Quiet.of_port (Quiet.refl _) rfl rfl rfl rfl rfl rfl) rfl)
  · rcases quiet_takePost (s := { s with mem := hostWrites ws s.mem, port := s.port.post code }) (code := code) hd
      with ⟨q, hm⟩ | h
    · exact .inl (Quiet.of_mem ws (Quiet.of_port q rfl rfl rfl rfl rfl rfl) hm)
    · exact .inr h

/-! ## The decisions of the blocks -/

theorem decides_ite {c : State → Prop} [∀ s, Decidable (c s)] {d e : State → Answer × State} (hd : Decides d)
    (he : Decides e) : Decides fun s => if c s then d s else e s := fun s => by
  dsimp only
  split
  · exact hd s
  · exact he s

theorem decides_refuse (c : RefusalCode) : Decides fun s => refuse s c := fun _ => .inl rfl

theorem decides_settle (f : State → State) : Decides fun s => accept (f s).settle := fun _ => .inr (.inl ⟨_, rfl⟩)

theorem decides_same : Decides accept := fun _ => .inl rfl

theorem decides_loadSetup : Decides decideLoadSetup :=
  decides_ite (decides_refuse _) (decides_ite (decides_refuse _) fun s => by
    cases (readSetup s.mem).firstFailing
    · exact .inr (.inl ⟨_, by simp only; rfl⟩)
    · exact .inl (by simp only))

theorem decides_start : Decides decideStart :=
  decides_ite (decides_refuse _) (decides_ite (decides_refuse _) (decides_ite (decides_refuse _) (decides_settle _)))

theorem decides_shutdown : Decides decideShutdown := fun s => by
  unfold decideShutdown
  split
  · exact .inr (.inl ⟨_, rfl⟩)
  · exact .inr (.inl ⟨_, rfl⟩)
  · exact .inr (.inl ⟨_, rfl⟩)
  · exact .inr (.inl ⟨_, rfl⟩)
  · exact .inl rfl
  · exact .inl rfl

theorem decides_stop : Decides decideStop := decides_ite (decides_refuse _) (decides_settle _)

theorem decides_economy : Decides decideEconomy :=
  decides_ite (decides_ite (decides_settle _) (decides_refuse _)) (decides_refuse _)

theorem decides_wake : Decides decideWake := decides_ite (decides_settle _) (decides_refuse _)

theorem decides_clear : Decides decideClear := fun _ => .inr (.inl ⟨_, rfl⟩)

theorem decides_setSource : Decides decideSetSource :=
  decides_ite (decides_refuse _) (decides_ite (decides_ite decides_same fun _ => .inr (.inl ⟨_, rfl⟩))
    (decides_ite
      (fun s => by
        cases judgeRecipe s.mem s.port.setup (argument2 s).toNat
        · exact .inl (by simp only; rfl)
        · simp only; split
          · exact .inl rfl
          · exact .inr (.inl ⟨_, rfl⟩)
        · simp only; split
          · exact .inl rfl
          · exact .inr (.inl ⟨_, rfl⟩))
      (decides_refuse _)))

theorem decides_setSequence : Decides decideSetSequence :=
  decides_ite (decides_refuse _) fun _ => .inr (.inl ⟨_, rfl⟩)

theorem decides_cancelDocket : Decides decideCancelDocket :=
  decides_ite (decides_refuse _) (decides_ite (decides_refuse _) (decides_ite (decides_refuse _)
    (decides_ite (decides_settle _) (decides_refuse _))))

theorem decides_ackAlarms : Decides decideAckAlarms := decides_ite (decides_refuse _) (decides_settle _)

theorem decides_fluxRefilled : Decides decideFluxRefilled :=
  decides_ite (decides_refuse _) (decides_ite (decides_refuse _) (decides_settle _))

theorem decides_purgeFluxer : Decides decidePurgeFluxer :=
  decides_ite (decides_refuse _) (decides_ite (decides_refuse _) (decides_ite (decides_refuse _)
    (decides_ite (decides_refuse _) (decides_ite (decides_refuse _) (decides_settle _)))))

theorem decides_clearTrackFlags : Decides decideClearTrackFlags := fun _ => .inr (.inr rfl)

theorem decides_unknown : Decides decideUnknown := decides_refuse _

/-! ## Every command -/

/-- A settled state, or the state as it was. -/
theorem settled_or_refl {c : Prop} [Decidable c] (s u : State) :
    Quiet s (if c then u.settle else s) ∨ Settled (if c then u.settle else s) := by
  split
  · exact .inr ⟨u, .inl rfl⟩
  · exact .inl (Quiet.refl s)

theorem settled_settle (u : State) : Settled u.settle := ⟨u, .inl rfl⟩

theorem settled_settleEval (u : State) : Settled u.settleEval := ⟨u.reform.gateEval, .inl rfl⟩

theorem quiet_rawEye (s : State) (e : Eye) (b : Bool) : Quiet s (s.rawEye e b) := by
  have hq : ∀ q : Qualifier, (q.raw b s.track.pos).accepted = q.accepted := fun q => by
    unfold Qualifier.raw; split <;> rfl
  cases e <;> constructor
  all_goals first
    | exact .inl rfl
    | exact id
    | rfl
    | exact hq _

theorem settled_acceptEye (s : State) (e : Eye) (p : Pos) : Settled (s.acceptEye e p) := by
  unfold State.acceptEye
  dsimp only
  split
  · unfold State.entryLeading
    split
    · exact settled_settle _
    · split
      · exact settled_settle _
      · exact settled_settleEval _
  · exact settled_settleEval _
  · exact settled_settle _
  · exact settled_settle _

theorem quiet_pot (s : State) (p : Pot) (h1 : p.chip = s.pot.chip) (h2 : p.main = s.pot.main) (h3 : p.drop = s.pot.drop) :
    Quiet s { s with pot := p } := by
  constructor
  case outputs => exact .inl rfl
  case mem => exact .inl rfl
  case line => exact id
  case estop => exact id
  case chip => exact h1
  case main => exact h2
  case drop => exact h3
  all_goals rfl

/-- Every command answers a next state; unless it is a reset, that state is settled or the change was quiet. -/
theorem exec_shape (c : Instr) (s : State) :
    ∃ t, exec c s = .next t ∧
      ((∃ ws, c = .powerOnReset ws) ∨ c = .portReset ∨ Quiet s t ∨ Settled t) := by
  cases c with
  | powerOnReset ws => exact ⟨_, rfl, .inl ⟨ws, rfl⟩⟩
  | portReset => exact ⟨_, rfl, .inr (.inl rfl)⟩
  | encoderCount dir => exact ⟨_, rfl, .inr (.inr (settled_or_refl s _))⟩
  | eyeRawChange eye blocked =>
    refine ⟨_, rfl, .inr (.inr ?_)⟩
    split
    · unfold State.afterDrop
      split
      · split
        · exact .inr (settled_settleEval _)
        · exact .inl (quiet_rawEye s _ _)
      · split
        · exact .inr (settled_settle _)
        · split
          · exact .inr (settled_settle _)
          · exact .inl (quiet_rawEye s _ _)
    · exact .inl (quiet_rawEye s _ _)
  | eyeChangeAccepted eye =>
    refine ⟨_, rfl, .inr (.inr ?_)⟩
    split
    · exact .inr (settled_acceptEye s _ _)
    · exact .inl (Quiet.refl s)
  | entryJam => exact ⟨_, rfl, .inr (.inr (settled_or_refl s _))⟩
  | boardLost => exact ⟨_, rfl, .inr (.inr (settled_or_refl s _))⟩
  | lateLimitReached => exact ⟨_, rfl, .inr (.inr (settled_or_refl s _))⟩
  | statusIntervalEnd inputs writes =>
    refine ⟨_, rfl, .inr (.inr (.inr ⟨_, .inr (.inl rfl)⟩))⟩
  | inputFault input => exact ⟨_, rfl, .inr (.inr (settled_or_refl s _))⟩
  | inputRecovery input => exact ⟨_, rfl, .inr (.inr (settled_or_refl s _))⟩
  | inputFillingEnd input => exact ⟨_, rfl, .inr (.inr (settled_or_refl s _))⟩
  | speedStableSet => exact ⟨_, rfl, .inr (.inr (settled_or_refl s _))⟩
  | conveyorSpeed => exact ⟨_, rfl, .inr (.inr (settled_or_refl s _))⟩
  | levelInputRecovered => exact ⟨_, rfl, .inr (.inr (settled_or_refl s _))⟩
  | levelFlagChange flag => exact ⟨_, rfl, .inr (.inr (settled_or_refl s _))⟩
  | pumpStableSet wave => exact ⟨_, rfl, .inr (.inr (settled_or_refl s _))⟩
  | fluxPressure => exact ⟨_, rfl, .inr (.inr (settled_or_refl s _))⟩
  | alarmActivation point => exact ⟨_, rfl, .inr (.inr (settled_or_refl s _))⟩
  | alarmSeverityRise point => exact ⟨_, rfl, .inr (.inr (settled_or_refl s _))⟩
  | alarmEscalation point => exact ⟨_, rfl, .inr (.inr (settled_or_refl s _))⟩
  | alarmClear point => exact ⟨_, rfl, .inr (.inr (settled_or_refl s _))⟩
  | vapourHalt => exact ⟨_, rfl, .inr (.inr (settled_or_refl s _))⟩
  | heaterPeriodBoundary => exact ⟨_, rfl, .inr (.inr (.inr (settled_settle _)))⟩
  | loopSettled loop => exact ⟨_, rfl, .inr (.inr (settled_or_refl s _))⟩
  | heaterOutputSwitch output =>
    refine ⟨_, rfl, .inr (.inr (.inl ?_))⟩
    dsimp only
    split
    · rename_i m _
      have a := quiet_advance s (m - periodTime s)
      exact { a with outputs := .inr ⟨output, m, rfl⟩, thermal := rfl }
    · exact Quiet.refl s
  | modulationBoundary => exact ⟨_, rfl, .inr (.inr (.inr (settled_settle _)))⟩
  | lanePulseEnd lane =>
    refine ⟨_, rfl, .inr (.inr ?_)⟩
    split
    · split
      · exact .inl (Quiet.refl s)
      · exact .inr (settled_settle _)
    · exact .inl (Quiet.refl s)
  | purgeDurationComplete =>
    refine ⟨_, rfl, .inr (.inr ?_)⟩
    split
    · exact .inr (settled_settle _)
    · exact .inl (Quiet.refl s)
  | feederShotStart =>
    refine ⟨_, rfl, .inr (.inr (.inl ?_))⟩
    split
    · exact quiet_pot s _ rfl rfl rfl
    · exact Quiet.refl s
  | feederShotComplete =>
    refine ⟨_, rfl, .inr (.inr (.inl ?_))⟩
    dsimp only
    split
    · exact Quiet.after_advance (quiet_pot _ _ rfl rfl rfl)
    · exact Quiet.refl s
  | feederSettlingComplete =>
    refine ⟨_, rfl, .inr (.inr (.inl ?_))⟩
    dsimp only
    split
    · rename_i r _
      have hp : ∀ p : Pot, ∀ n, (p.settleFeed n).chip = p.chip ∧ (p.settleFeed n).main = p.main ∧ (p.settleFeed n).drop = p.drop := by
        intro p n; unfold Pot.settleFeed; split
        · exact ⟨rfl, rfl, rfl⟩
        · split <;> exact ⟨rfl, rfl, rfl⟩
      have hn : ∀ (p : Port) (b : Bool), (p.notifyIf b .potEvent).setup = p.setup ∧
          (p.notifyIf b .potEvent).supRunning = p.supRunning ∧ (p.notifyIf b .potEvent).hostLost = p.hostLost := by
        intro p b; cases b <;> exact ⟨rfl, rfl, rfl⟩
      apply Quiet.after_advance (n := r)
      generalize s.advance r = u
      constructor
      case outputs => exact .inl rfl
      case mem => exact .inl rfl
      case line => exact fun _ => line_iff _
      case estop => exact id
      case chip => exact (hp _ _).1
      case main => exact (hp _ _).2.1
      case drop => exact (hp _ _).2.2
      case setup => exact (hn _ _).1
      case supRunning => exact (hn _ _).2.1
      case hostLost => exact (hn _ _).2.2
      all_goals rfl
    · exact Quiet.refl s
  | shotHistoryExpiry =>
    refine ⟨_, rfl, .inr (.inr (.inl ?_))⟩
    dsimp only
    split
    · exact Quiet.after_advance (quiet_pot _ _ rfl rfl rfl)
    · exact Quiet.refl s
  | widthMotionStart => exact ⟨_, rfl, .inr (.inr (settled_or_refl s _))⟩
  | homingComplete => exact ⟨_, rfl, .inr (.inr (settled_or_refl s _))⟩
  | homingTravelExceeded => exact ⟨_, rfl, .inr (.inr (settled_or_refl s _))⟩
  | widthMoveComplete => exact ⟨_, rfl, .inr (.inr (settled_or_refl s _))⟩
  | widthLimitActive railEnd =>
    refine ⟨_, rfl, .inr (.inr ?_)⟩
    dsimp only
    split
    · exact .inr (settled_settle _)
    · refine .inl ?_
      cases railEnd <;> constructor
      all_goals first
        | exact .inl rfl
        | exact id
        | rfl
  | thermostatContactOpen => exact ⟨_, rfl, .inr (.inr (.inr (settled_settle _)))⟩
  | estopInputActive => exact ⟨_, rfl, .inr (.inr (.inr (settled_settle _)))⟩
  | estopInputRelease =>
    refine ⟨_, rfl, .inr (.inr (.inl ?_))⟩
    constructor
    case estop => intro h; cases h
    all_goals first
      | exact .inl rfl
      | exact id
      | rfl
  | upstreamAvailableChange asserted =>
    refine ⟨_, rfl, .inr (.inr ?_)⟩
    dsimp only
    split
    · exact .inl (Quiet.refl s)
    · exact .inr (settled_settle _)
  | endSensorRawChange blocked =>
    refine ⟨_, rfl, .inr (.inr (.inl ?_))⟩
    constructor
    all_goals first
      | exact .inl rfl
      | exact id
      | rfl
  | endSensorEvent =>
    refine ⟨_, rfl, .inr (.inr ?_)⟩
    split
    · exact .inr (settled_settle _)
    · exact .inl (Quiet.refl s)
  | downstreamReadyChange asserted =>
    refine ⟨_, rfl, .inr (.inr ?_)⟩
    dsimp only
    split
    · exact .inl (Quiet.refl s)
    · exact .inr (settled_settle _)
  | idleTimerExpiry =>
    refine ⟨_, rfl, .inr (.inr ?_)⟩
    split
    · split
      · exact .inr (settled_settle _)
      · exact .inl (Quiet.refl s)
    · exact .inl (Quiet.refl s)
  | runOnTimerExpiry =>
    refine ⟨_, rfl, .inr (.inr ?_)⟩
    dsimp only
    split
    · exact .inr (settled_settle _)
    · exact .inl (Quiet.refl s)
  | startGraceEnd channel =>
    refine ⟨_, rfl, .inr (.inr (.inl ?_))⟩
    dsimp only
    split
    · apply Quiet.after_advance
      cases channel <;> constructor
      all_goals first
        | exact .inl rfl
        | exact id
        | rfl
    · exact Quiet.refl s
  | supervisionExpired => exact ⟨_, rfl, .inr (.inr (settled_or_refl s _))⟩
  | warmupComplete => exact ⟨_, rfl, .inr (.inr (settled_or_refl s _))⟩
  | loadSetup writes => exact ⟨_, rfl, .inr (.inr (request_shape s _ _ decides_loadSetup))⟩
  | start writes => exact ⟨_, rfl, .inr (.inr (request_shape s _ _ decides_start))⟩
  | shutdown writes => exact ⟨_, rfl, .inr (.inr (request_shape s _ _ decides_shutdown))⟩
  | stop writes => exact ⟨_, rfl, .inr (.inr (request_shape s _ _ decides_stop))⟩
  | clear writes => exact ⟨_, rfl, .inr (.inr (request_shape s _ _ decides_clear))⟩
  | economy writes => exact ⟨_, rfl, .inr (.inr (request_shape s _ _ decides_economy))⟩
  | wake writes => exact ⟨_, rfl, .inr (.inr (request_shape s _ _ decides_wake))⟩
  | setSource writes => exact ⟨_, rfl, .inr (.inr (request_shape s _ _ decides_setSource))⟩
  | setSequence writes => exact ⟨_, rfl, .inr (.inr (request_shape s _ _ decides_setSequence))⟩
  | cancelDocket writes => exact ⟨_, rfl, .inr (.inr (request_shape s _ _ decides_cancelDocket))⟩
  | ackAlarms writes => exact ⟨_, rfl, .inr (.inr (request_shape s _ _ decides_ackAlarms))⟩
  | fluxRefilled writes => exact ⟨_, rfl, .inr (.inr (request_shape s _ _ decides_fluxRefilled))⟩
  | purgeFluxer writes => exact ⟨_, rfl, .inr (.inr (request_shape s _ _ decides_purgeFluxer))⟩
  | clearTrackFlags writes => exact ⟨_, rfl, .inr (.inr (request_shape s _ _ decides_clearTrackFlags))⟩
  | unknownRequest code writes =>
    refine ⟨_, rfl, .inr (.inr ?_)⟩
    split
    · exact .inl (Quiet.refl s)
    · exact request_shape s _ _ decides_unknown
  | requestOverrun code =>
    refine ⟨_, rfl, .inr (.inr (.inl ?_))⟩
    apply Quiet.of_port (Quiet.refl _) <;> split <;> rfl
  | noticeRead => exact ⟨_, rfl, .inr (.inr (.inl (Quiet.of_port (Quiet.refl _) rfl rfl rfl rfl rfl rfl)))⟩
  | noticeWrite value =>
    refine ⟨_, rfl, .inr (.inr (.inl ?_))⟩
    constructor
    case line => exact fun _ => line_iff _
    all_goals first
      | exact .inl rfl
      | exact id
      | rfl
  | noticeEnWrite value =>
    refine ⟨_, rfl, .inr (.inr (.inl ?_))⟩
    constructor
    case line => exact fun _ => line_iff _
    all_goals first
      | exact .inl rfl
      | exact id
      | rfl
  | posRead half => exact ⟨_, rfl, .inr (.inr (.inl (Quiet.of_port (Quiet.refl _) rfl rfl rfl rfl rfl rfl)))⟩
  | hostAliveWrite value => exact ⟨_, rfl, .inr (.inr (settled_or_refl s _))⟩
  | heatAuthEnable =>
    refine ⟨_, rfl, .inr (.inr ?_)⟩
    split
    · exact .inl (Quiet.refl s)
    · exact .inr (settled_settle _)
  | heatAuthDisable => exact ⟨_, rfl, .inr (.inr (settled_or_refl s _))⟩
  | heatAuthInvalid value =>
    refine ⟨_, rfl, .inr (.inr ?_)⟩
    split
    · exact .inl (Quiet.refl s)
    · exact .inr (settled_settle _)
  | ignoredRegisterWrite reg value => exact ⟨_, rfl, .inr (.inr (.inl (Quiet.refl s)))⟩
  | widthStepperStep =>
    refine ⟨_, rfl, .inr (.inr (.inl ?_))⟩
    have hs : s.gate.width.step.state = s.gate.width.state := by
      unfold Width.step; split
      · rfl
      · split
        · rfl
        · split <;> rfl
      · rfl
      · rfl
      · rfl
    have hw : s.gate.width.step.inMotion = s.gate.width.inMotion := by
      unfold Width.inMotion; rw [hs]
    constructor
    case inMotion => exact hw
    all_goals first
      | exact .inl rfl
      | exact id
      | rfl
  | homeSwitchInactive =>
    refine ⟨_, rfl, .inr (.inr ?_)⟩
    dsimp only
    split
    · exact .inr (settled_settle _)
    · refine .inl ?_
      have hw : s.gate.width.turnInward.inMotion = s.gate.width.inMotion := by
        unfold Width.turnInward; split
        · rename_i h; simp [Width.inMotion, h]
        · rfl
      constructor
      case inMotion => exact hw
      all_goals first
        | exact .inl rfl
        | exact id
        | rfl

end Sys2Proof.Machine
end

