-- ==== Sys2Proof/Laws/Follow.lean ====
section
/-! SUPPORT. Which way the consequences of a step (`State.settle`) can move what they do write: one relation, `Follows`. -/

namespace Sys2Proof.Machine

open Sys2Proof.Config

/-- Flags only grow. -/
def MoreFlags (r q : Record) : Prop :=
  ∀ k, r.flags.getLsbD k = true → q.flags.getLsbD k = true

/-- The mode moves only as R167 and R169 say. -/
def ModeMoves (a b : Mode) : Prop :=
  b = a ∨ (a = .cooldown ∧ b = .off) ∨ (a = .production ∧ b = .economy)

/-- The outfeed moves only by a take or a withdrawal (R157). -/
def OutfeedMoves (a b : OutfeedState) : Prop :=
  b = a ∨ (a = .holding ∧ b = .delivering) ∨ (a = .delivering ∧ b = .holding)

/-- The state `t` follows from `s` by consequences of a step. -/
structure Follows (s t : State) : Prop where
  notices : ∀ k, s.port.notices.getLsbD k = true → t.port.notices.getLsbD k = true
  edges : ∀ e ∈ t.flux.edges, e ∈ s.flux.edges
  opens : ∀ e ∈ s.flux.edges, e.opens = true → e ∈ t.flux.edges
  counter : t.flux.counter ≤ s.flux.counter
  remainder : s.flux.remainder < 1000 → t.flux.remainder < 1000
  purge : s.flux.purge = none → t.flux.purge = none
  pulses : ∀ k, s.flux.pulses.get k = none → t.flux.pulses.get k = none
  flags : List.Forall₂ MoreFlags s.track.records t.track.records
  slots : ∀ n, (n ∈ s.docket.held ∨ slotState s.mem n ≠ .posted) →
    ∀ k, k < 64 → t.mem.read (slotAt n + k) = s.mem.read (slotAt n + k)
  feeder : (∀ r, s.pot.feeder ≠ .feeding r) → t.pot.feeder = s.pot.feeder
  width : s.gate.width.inMotion = false → t.gate.width = s.gate.width
  outfeed : OutfeedMoves s.outfeed.state t.outfeed.state
  mode : ModeMoves s.modes.mode t.modes.mode
  potGrant : t.thermal.pot.grant ≤ s.thermal.pot.grant
  zoneGrant : ∀ z, (t.thermal.zones.get z).grant ≤ (s.thermal.zones.get z).grant
  outputs : ∀ k, t.thermal.outputs.get k = true → s.thermal.outputs.get k = true
  fans : FansFormed s → FansFormed t ∧ t.extr.fan = s.extr.fan ∧ t.extr.points = s.extr.points
  closed : s.gate.state = .closed → s.track.entryEye.accepted = true → t.gate.state = .closed
  receiving : s.gate.state = .receiving →
    t.gate.state = .receiving ∧ t.gate.ready = s.gate.ready ∧ t.gate.lateLimit = s.gate.lateLimit ∧
      t.docket.offer = s.docket.offer
  eye : t.track.entryEye = s.track.entryEye
  held : t.docket.held = s.docket.held

theorem forall₂_moreFlags_refl (l : List Record) : List.Forall₂ MoreFlags l l :=
  List.forall₂_same.mpr fun _ _ _ h => h

theorem forall₂_moreFlags_trans {l m n : List Record} (h : List.Forall₂ MoreFlags l m)
    (g : List.Forall₂ MoreFlags m n) : List.Forall₂ MoreFlags l n := by
  induction h generalizing n with
  | nil => exact g
  | cons a _ ih => cases g with | cons b g => exact .cons (fun k x => b k (a k x)) (ih g)

/-- A map that only sets flags. -/
theorem forall₂_moreFlags_map {f : Record → Record} (hf : ∀ r, MoreFlags r (f r)) (l : List Record) :
    List.Forall₂ MoreFlags l (l.map f) := by
  induction l with
  | nil => exact .nil
  | cons a l ih => exact .cons (hf a) ih

theorem ModeMoves.refl (a : Mode) : ModeMoves a a := .inl rfl

theorem ModeMoves.trans {a b c : Mode} (h : ModeMoves a b) (g : ModeMoves b c) : ModeMoves a c := by
  unfold ModeMoves at *
  rcases h with rfl | ⟨rfl, rfl⟩ | ⟨rfl, rfl⟩ <;> simp_all

theorem OutfeedMoves.refl (a : OutfeedState) : OutfeedMoves a a := .inl rfl

theorem OutfeedMoves.trans {a b c : OutfeedState} (h : OutfeedMoves a b) (g : OutfeedMoves b c) : OutfeedMoves a c := by
  unfold OutfeedMoves at *
  rcases h with rfl | ⟨rfl, rfl⟩ | ⟨rfl, rfl⟩
  · exact g
  · rcases g with rfl | ⟨h, -⟩ | ⟨-, rfl⟩ <;> simp_all
  · rcases g with rfl | ⟨-, rfl⟩ | ⟨h, -⟩ <;> simp_all

theorem Follows.refl (s : State) : Follows s s where
  notices _ := id
  edges _ := id
  opens _ h _ := h
  counter := le_rfl
  remainder := id
  purge := id
  pulses _ := id
  flags := forall₂_moreFlags_refl _
  slots _ _ _ _ := rfl
  feeder _ := rfl
  width _ := rfl
  outfeed := .refl _
  mode := .refl _
  potGrant := le_rfl
  zoneGrant _ := le_rfl
  outputs _ := id
  fans h := ⟨h, rfl, rfl⟩
  closed h _ := h
  receiving h := ⟨h, rfl, rfl, rfl⟩
  eye := rfl
  held := rfl

theorem slotState_congr {m n : Memory} {x : SlotIx} (h : n.read (slotAt x) = m.read (slotAt x)) :
    slotState n x = slotState m x := by
  unfold slotState; simp only [h]

theorem Follows.trans {s t u : State} (h : Follows s t) (g : Follows t u) : Follows s u where
  notices k x := g.notices k (h.notices k x)
  edges e x := h.edges e (g.edges e x)
  opens e x y := g.opens e (h.opens e x y) y
  counter := g.counter.trans h.counter
  remainder x := g.remainder (h.remainder x)
  purge x := g.purge (h.purge x)
  pulses k x := g.pulses k (h.pulses k x)
  flags := forall₂_moreFlags_trans h.flags g.flags
  slots n x k hk := by
    have e := h.slots n x
    refine (g.slots n ?_ k hk).trans (e k hk)
    rcases x with x | x
    · exact .inl (h.held ▸ x)
    · refine .inr ?_
      rw [slotState_congr (e 0 (by omega))]; exact x
  feeder x := by
    have e := h.feeder x
    rw [g.feeder (e ▸ x), e]
  width x := by
    have e := h.width x
    rw [g.width (e ▸ x), e]
  outfeed := h.outfeed.trans g.outfeed
  mode := h.mode.trans g.mode
  potGrant := g.potGrant.trans h.potGrant
  zoneGrant z := (g.zoneGrant z).trans (h.zoneGrant z)
  outputs k x := h.outputs k (g.outputs k x)
  fans x := by
    obtain ⟨a, b, c⟩ := h.fans x
    obtain ⟨a', b', c'⟩ := g.fans a
    exact ⟨a', b'.trans b, c'.trans c⟩
  closed x y := g.closed (h.closed x y) (h.eye ▸ y)
  receiving x := by
    obtain ⟨a, b, c, d⟩ := h.receiving x
    obtain ⟨a', b', c', d'⟩ := g.receiving a
    exact ⟨a', b'.trans b, c'.trans c, d'.trans d⟩
  eye := g.eye.trans h.eye
  held := g.held.trans h.held

theorem Follows.ite {s t u : State} {c : Prop} [Decidable c] (ht : Follows s t) (hu : Follows s u) :
    Follows s (if c then t else u) := by
  split <;> assumption

theorem Follows.foldl {α : Type} {f : State → α → State} (hf : ∀ s a, Follows s (f s a)) (l : List α) (s : State) :
    Follows s (l.foldl f s) := by
  induction l generalizing s with
  | nil => exact .refl s
  | cons a l ih => exact (hf s a).trans (ih _)

/-! ## Modes, fans, horn -/

theorem Feeder.atMode_of_not_feeding {f : Feeder} (h : ∀ r, f ≠ .feeding r) (m : Mode) : f.atMode m = f := by
  cases f <;> simp_all [Feeder.atMode]

theorem follows_enterMode (s : State) (m : Mode) (h : ModeMoves s.modes.mode m) : Follows s (s.enterMode m) := by
  unfold State.enterMode
  split
  · exact .refl s
  · exact
      { Follows.refl s with
        notices := fun k x => by simp [Port.notify, x]
        feeder := fun x => Feeder.atMode_of_not_feeding x m
        mode := h
        width := fun _ => by cases m <;> rfl
        closed := fun x _ => by cases m <;> exact x
        receiving := fun x => by cases m <;> exact ⟨x, rfl, rfl, rfl⟩
        fans := fun f => by
          refine ⟨⟨?_, ?_⟩, rfl, rfl⟩
          · have a := f.fan
            have b := f.runOn
            rcases h with rfl | ⟨x, rfl⟩ | ⟨x, rfl⟩
            · contradiction
            · simp_all [runOnAt]
            · simp_all [runOnAt]
          · intro x
            cases m <;> simp_all [runOnAt] }

theorem follows_modeStage (s : State) : Follows s s.modeStage := by
  unfold State.modeStage
  split
  · next h => exact follows_enterMode s _ (.inr (.inl ⟨by simp_all [cooldownDone], rfl⟩))
  · split
    · next h => exact follows_enterMode s _ (.inr (.inr ⟨by simp_all [hostLostEconomy], rfl⟩))
    · exact .refl s

theorem notifyIf_mono (p : Port) (b : Bool) (n : Notice) (k : Nat) (h : p.notices.getLsbD k = true) :
    (p.notifyIf b n).notices.getLsbD k = true := by
  cases b
  · exact h
  · simp [Port.notifyIf, Port.notify, h]

theorem fanCommand_of_formed {s : State} (h : FansFormed s) : fanCommand s = s.extr.fan := by
  have a := h.fan
  rw [Bool.eq_iff_iff, a]
  simp [fanCommand, Option.isSome_iff_ne_none]

theorem follows_reformFans (s : State) : Follows s s.reformFans :=
  { Follows.refl s with
    notices := fun k x => notifyIf_mono _ _ _ k x
    fans := fun f => by
      have e : s.extr.command (fanCommand s) s.clock = s.extr := by
        rw [fanCommand_of_formed f]; unfold Extr.command; split <;> simp_all
      have e' : s.reformFans.extr = s.extr := e
      exact ⟨⟨by rw [e']; exact f.fan, f.runOn⟩, by rw [e'], by rw [e']⟩ }

theorem follows_reformHorn (s : State) : Follows s s.reformHorn :=
  { Follows.refl s with fans := fun f => ⟨⟨f.fan, f.runOn⟩, rfl, rfl⟩ }

/-! ## Flux -/

theorem read_slot_of_below {m : Memory} {base : Nat} {ws : List Word} (hb : base + ws.length ≤ 0x1000) (n : SlotIx)
    (k : Nat) : (m.writeBlock base ws).read (slotAt n + k) = m.read (slotAt n + k) := by
  have := slotAt_bounds n
  exact Memory.read_writeBlock_of_outside (.inr (by omega))

theorem follows_setTank (s : State) (c r : Nat) (hc : c ≤ s.flux.counter) (hr : r < 1000) : Follows s (s.setTank c r) :=
  { Follows.refl s with
    notices := fun k x => notifyIf_mono _ _ _ k x
    counter := hc
    remainder := fun _ => hr
    slots := fun n _ k _ => by
      show (if c = s.flux.counter then s.mem else _).read _ = _
      split
      · rfl
      · exact read_slot_of_below (by simp [mirrorTankAt, twoWords]) n k
    fans := fun f => ⟨⟨f.fan, f.runOn⟩, rfl, rfl⟩ }

theorem follows_creditTank (s : State) (n : Nat) : Follows s (s.creditTank n) :=
  follows_setTank s _ _ (Nat.sub_le _ _) (Nat.mod_lt _ (by omega))

theorem moreFlags_mapRecords {p : Record → Bool} {f : Record → Record} (hf : ∀ r, MoreFlags r (f r)) (rs : List Record) :
    List.Forall₂ MoreFlags rs (mapRecords p f rs) :=
  forall₂_moreFlags_map (fun r k h => by split <;> [exact hf r k h; exact h]) rs

theorem follows_endPulse (s : State) (lane : Idx8) (u : Pulse) (ms : Nat) (b : Bool) :
    Follows s (s.endPulse lane u ms b) := by
  refine Follows.trans ?_ (follows_creditTank _ _)
  exact
    { Follows.refl s with
      pulses := fun k h => by
        show (s.flux.pulses.set lane none).get k = none
        rw [Tab8.get_set]; split <;> simp_all
      flags := by
        show List.Forall₂ MoreFlags s.track.records (if b = true then _ else _)
        split
        · unfold creditRecord
          refine moreFlags_mapRecords ?_ _
          exact fun r k h => h
        · exact forall₂_moreFlags_refl _
      fans := fun f => ⟨⟨f.fan, f.runOn⟩, rfl, rfl⟩ }

theorem follows_cutPulse (s : State) (p : Pulse → Bool) (b : Bool) (lane : Idx8) : Follows s (s.cutPulse p b lane) := by
  unfold State.cutPulse
  split
  · exact Follows.ite (follows_endPulse s _ _ _ _) (.refl s)
  · exact .refl s

theorem follows_cutPulses (s : State) (p : Pulse → Bool) (b : Bool) : Follows s (s.cutPulses p b) :=
  Follows.foldl (fun s lane => follows_cutPulse s p b lane) _ s

theorem follows_creditPurge (s : State) : Follows s s.creditPurge := by
  unfold State.creditPurge
  split
  · exact .refl s
  · next g h =>
    refine Follows.trans ?_ (follows_creditTank _ _)
    exact
      { Follows.refl s with
        purge := fun x => by simp_all
        fans := fun f => ⟨⟨f.fan, f.runOn⟩, rfl, rfl⟩ }

theorem follows_endPurge (s : State) : Follows s s.endPurge := by
  unfold State.endPurge
  split
  · exact .refl s
  · refine (follows_creditPurge s).trans ?_
    exact
      { Follows.refl s.creditPurge with
        notices := fun k x => by simp [Port.notify, x]
        purge := fun _ => rfl
        fans := fun f => ⟨⟨f.fan, f.runOn⟩, rfl, rfl⟩ }

theorem moreFlags_mark (r : Record) (f : Flag) : MoreFlags r (r.mark f) := fun k h => by
  simp [Record.mark, h]

theorem moreFlags_markIf (r : Record) (b : Bool) (f : Flag) : MoreFlags r (r.markIf b f) := by
  cases b
  · exact fun _ h => h
  · exact moreFlags_mark r f

theorem moreFlags_markIncomplete (ws : List ActiveWindow) (rs : List Record) :
    List.Forall₂ MoreFlags rs (markIncomplete ws rs) := by
  unfold markIncomplete
  induction ws generalizing rs with
  | nil => exact forall₂_moreFlags_refl _
  | cons w ws ih =>
    refine forall₂_moreFlags_trans (moreFlags_mapRecords (fun r => ?_) rs) (ih _)
    intro k h
    exact moreFlags_mark { r with incomplete := r.incomplete ||| bitMask w.window } .fluxIncomplete k h

theorem follows_beginInhibit (s : State) : Follows s s.beginInhibit := by
  refine ((follows_cutPulses s (fun _ => true) true).trans (follows_endPurge _)).trans ?_
  unfold State.beginInhibit
  generalize (s.cutPulses (fun _ => true) true).endPurge = t
  exact
    { Follows.refl t with
      edges := fun e h => (List.mem_filter.mp h).1
      opens := fun e h o => List.mem_filter.mpr ⟨h, by simp [closesOneOf, o]⟩
      flags := moreFlags_markIncomplete _ _
      fans := fun f => ⟨⟨f.fan, f.runOn⟩, rfl, rfl⟩ }

theorem follows_reformInhibit (s : State) : Follows s s.reformInhibit := by
  unfold State.reformInhibit
  refine Follows.trans
    (Follows.ite (c := (s.flux.inhibit.isEmpty && !(inhibitReasons s).isEmpty) = true) (follows_beginInhibit s)
      (.refl s)) ?_
  exact { Follows.refl _ with fans := fun f => ⟨⟨f.fan, f.runOn⟩, rfl, rfl⟩ }

/-! ## Grants and targets -/

theorem Loop.cutIf_grant (l : Loop) (b : Bool) : (l.cutIf b).grant ≤ l.grant := by
  cases b <;> simp [Loop.cutIf]

theorem follows_cutGrants (s : State) : Follows s s.cutGrants :=
  { Follows.refl s with
    potGrant := Loop.cutIf_grant _ _
    zoneGrant := fun z => by
      show ((s.thermal.zones.mapIdx fun z l => l.cutIf (zoneCut s z)).get z).grant ≤ _
      rw [Tab6.get_mapIdx]; exact Loop.cutIf_grant _ _
    outputs := fun k h => by
      have h : (s.thermal.outputs.mapIdx fun k on => on && !outputCut s k).get k = true := h
      rw [Tab8.get_mapIdx] at h
      exact (Bool.and_eq_true _ _ ▸ h).1
    fans := fun f => ⟨⟨f.fan, f.runOn⟩, rfl, rfl⟩ }

@[simp] theorem Loop.retarget_grant (l : Loop) (t : Int) : (l.retarget t).grant = l.grant := by
  unfold Loop.retarget; split <;> rfl

@[simp] theorem Loop.formSettled_grant (l : Loop) (a : Bool) : (l.formSettled a).grant = l.grant := by
  unfold Loop.formSettled; split <;> [rfl; (split <;> rfl)]

@[simp] theorem Loop.reform_grant (l : Loop) (t : Int) (a : Bool) (g : Option (BitVec 16)) :
    (l.reform t a g).grant = l.grant := by
  simp [Loop.reform, Loop.follow]

theorem follows_reformZones (s : State) : Follows s s.reformZones :=
  { Follows.refl s with
    zoneGrant := fun z => by
      unfold State.reformZones
      simp
    fans := fun f => ⟨⟨f.fan, f.runOn⟩, rfl, rfl⟩ }

theorem follows_reformPumpTargets (s : State) : Follows s s.reformPumpTargets :=
  { Follows.refl s with fans := fun f => ⟨⟨f.fan, f.runOn⟩, rfl, rfl⟩ }

theorem follows_reformPumpRefs (s : State) : Follows s s.reformPumpRefs :=
  { Follows.refl s with fans := fun f => ⟨⟨f.fan, f.runOn⟩, rfl, rfl⟩ }

theorem follows_reformPotTarget (s : State) : Follows s s.reformPotTarget :=
  { Follows.refl s with
    potGrant := by
      show ((s.thermal.pot.retarget _).formSettled _).grant ≤ _
      simp
    zoneGrant := fun z => by
      show ((s.thermal.zones.mapIdx fun _ l => l.formSettled s.thermal.auth).get z).grant ≤ _
      simp
    fans := fun f => ⟨⟨f.fan, f.runOn⟩, rfl, rfl⟩ }

/-! ## Motion -/

theorem handshake_moves (st : OutfeedState) (p r : Bool) : OutfeedMoves st (handshake st p r) := by
  cases st <;> cases p <;> cases r <;> simp [handshake, OutfeedMoves]

theorem follows_reformOutfeed (s : State) : Follows s s.reformOutfeed :=
  { Follows.refl s with
    outfeed := handshake_moves _ _ _
    fans := fun f => ⟨⟨f.fan, f.runOn⟩, rfl, rfl⟩ }

theorem Width.retarget_of_standing {w : Width} (h : w.inMotion = false) (n : Option Nat) : w.retarget n = w := by
  rcases w with ⟨st, p, t, v⟩
  cases st <;> cases n <;> simp_all [Width.retarget, Width.inMotion]

theorem Width.halt_of_standing {w : Width} (h : w.inMotion = false) : w.halt = w := by
  rcases w with ⟨st, p, t, v⟩
  cases st <;> simp_all [Width.halt, Width.inMotion]

theorem follows_reformWidth (s : State) : Follows s s.reformWidth :=
  { Follows.refl s with
    width := fun h => by
      show (if widthMayMove s then s.gate.width.retarget (namedWidth s) else s.gate.width.halt) = _
      split
      · exact Width.retarget_of_standing h _
      · exact Width.halt_of_standing h
    closed := fun h _ => h
    receiving := fun h => ⟨h, rfl, rfl, rfl⟩
    fans := fun f => ⟨⟨f.fan, f.runOn⟩, rfl, rfl⟩ }

theorem follows_followDrop (s : State) : Follows s s.followDrop :=
  Follows.trans
    (t := { s with pot := { s.pot with drop := s.pot.drop.follow (runDemand s) } })
    { Follows.refl s with fans := fun f => ⟨⟨f.fan, f.runOn⟩, rfl, rfl⟩ } (follows_reformPumpRefs _)

theorem follows_endDrop (s : State) : Follows s s.endDrop :=
  { Follows.refl s with fans := fun f => ⟨⟨f.fan, f.runOn⟩, rfl, rfl⟩ }

theorem Track.refer_records (t : Track) (r : Nat) : (t.refer r).records = t.records := by
  unfold Track.refer; split <;> rfl

theorem Track.refer_entryEye (t : Track) (r : Nat) : (t.refer r).entryEye = t.entryEye := by
  unfold Track.refer; split <;> rfl

theorem follows_reformRef (s : State) : Follows s s.reformRef :=
  { Follows.refl s with
    flags := by
      show List.Forall₂ MoreFlags _ (Track.refer _ _).records
      rw [Track.refer_records]
      exact forall₂_moreFlags_map
        (fun r k h => moreFlags_markIf _ _ _ k (moreFlags_markIf _ _ _ k h)) _
    closed := fun h _ => h
    eye := Track.refer_entryEye _ _
    fans := fun f => ⟨⟨f.fan, f.runOn⟩, rfl, rfl⟩ }

theorem follows_reformConveyor (s : State) : Follows s s.reformConveyor :=
  (((follows_followDrop s).trans (follows_endDrop _)).trans (follows_reformRef _)).trans (follows_reformPumpRefs _)

theorem follows_reformDrive (s : State) : Follows s s.reformDrive :=
  { Follows.refl s with fans := fun f => ⟨⟨f.fan, f.runOn⟩, rfl, rfl⟩ }

theorem follows_reformWaits (s : State) : Follows s s.reformWaits :=
  { Follows.refl s with fans := fun f => ⟨⟨f.fan, f.runOn⟩, rfl, rfl⟩ }

theorem follows_reformIdle (s : State) : Follows s s.reformIdle :=
  { Follows.refl s with fans := fun f => ⟨⟨f.fan, f.runOn⟩, rfl, rfl⟩ }

theorem follows_reformLine (s : State) : Follows s s.reformLine :=
  { Follows.refl s with fans := fun f => ⟨⟨f.fan, f.runOn⟩, rfl, rfl⟩ }

/-- What re-forming can do to what it writes. -/
theorem follows_reform (s : State) : Follows s s.reform := by
  refine ((((((((follows_modeStage s).trans (follows_reformFans _)).trans (follows_reformHorn _)).trans
    ((follows_reformInhibit _).trans (follows_cutGrants _))).trans
    (((follows_reformZones _).trans (follows_reformPumpTargets _)).trans (follows_reformPotTarget _))).trans
    ((((follows_reformOutfeed _).trans (follows_reformWidth _)).trans (follows_reformConveyor _)).trans
      (follows_reformDrive _))).trans (follows_reformWaits _)).trans (follows_reformIdle _)).trans (follows_reformLine _)

/-! ## The docket unit -/

theorem follows_findings (s : State) (c : Option SlotIx) (n : Option NextBoard) (a b d : Bool) :
    Follows s (s.findings c n a b d) :=
  { Follows.refl s with fans := fun f => ⟨⟨f.fan, f.runOn⟩, rfl, rfl⟩ }

theorem follows_setExpected (s : State) (e : Word) : Follows s (s.setExpected e) :=
  { Follows.refl s with
    slots := fun n _ k _ => read_slot_of_below (by simp [mirrorEAt]) n k
    fans := fun f => ⟨⟨f.fan, f.runOn⟩, rfl, rfl⟩ }

/-- The words of a slot after another slot is written. -/
theorem read_other_slot {m : Memory} {n x : SlotIx} (h : x ≠ n) (ws : List Word) (w : Word) (hl : ws.length = 19) {k : Nat}
    (hk : k < 64) : (countClosed (writeResult m n ws w)).read (slotAt x + k) = m.read (slotAt x + k) := by
  have hx := slotAt_bounds x
  have hn := slotAt_bounds n
  have hne : x.val ≠ n.val := fun e => h (Fin.ext e)
  have apart : slotAt x + k < slotAt n ∨ slotAt n + 64 ≤ slotAt x + k := by unfold slotAt; omega
  unfold countClosed writeResult Memory.write
  rw [read_slot_of_below (by simp [closedCountAt]),
    Memory.read_writeBlock_of_outside (by simp; omega), Memory.read_writeBlock_of_outside (by omega)]

theorem follows_rejectSlot (s : State) (n : SlotIx) (r : RejectReason) (hh : n ∉ s.docket.held)
    (hp : slotState s.mem n = .posted) : Follows s (s.rejectSlot n r) :=
  { Follows.refl s with
    notices := fun k x => by
      show (s.port.notify .slotClosed).notices.getLsbD k = true
      simp [Port.notify, x]
    slots := fun x hx k hk => by
      refine read_other_slot ?_ _ _ (by simp [emptyResult]) hk
      rintro rfl
      rcases hx with hx | hx
      · exact hh hx
      · exact hx hp
    fans := fun f => ⟨⟨f.fan, f.runOn⟩, rfl, rfl⟩ }

theorem rejectSlot_slotState {s : State} {n x : SlotIx} {r : RejectReason} (h : x ≠ n) :
    slotState (s.rejectSlot n r).mem x = slotState s.mem x :=
  slotState_congr (by
    have := read_other_slot (m := s.mem) h (emptyResult 0 r.code) 4 (by simp [emptyResult]) (k := 0) (by omega)
    simpa [State.rejectSlot] using this)

theorem follows_rejectSlots (s : State) (ns : List SlotIx) (r : RejectReason) (hd : ns.Nodup)
    (h : ∀ n ∈ ns, n ∉ s.docket.held ∧ slotState s.mem n = .posted) : Follows s (s.rejectSlots ns r) := by
  unfold State.rejectSlots
  induction ns generalizing s with
  | nil => exact .refl s
  | cons n ns ih =>
    have hn := h n (by simp)
    refine (follows_rejectSlot s n r hn.1 hn.2).trans (ih _ (List.nodup_cons.mp hd).2 ?_)
    intro x hx
    have hxn : x ≠ n := fun e => (List.nodup_cons.mp hd).1 (e ▸ hx)
    exact ⟨(h x (by simp [hx])).1, (rejectSlot_slotState hxn).trans (h x (by simp [hx])).2⟩

theorem rejectSlots_slotState {s : State} {ns : List SlotIx} {x : SlotIx} {r : RejectReason} (h : x ∉ ns) :
    slotState (s.rejectSlots ns r).mem x = slotState s.mem x := by
  unfold State.rejectSlots
  induction ns generalizing s with
  | nil => rfl
  | cons n ns ih =>
    have := ih (s := s.rejectSlot n r) (fun e => h (by simp [e]))
    exact this.trans (rejectSlot_slotState (fun e => h (by simp [e])))

theorem rejectSlots_held (s : State) (ns : List SlotIx) (r : RejectReason) :
    (s.rejectSlots ns r).docket.held = s.docket.held := by
  unfold State.rejectSlots
  induction ns generalizing s with
  | nil => rfl
  | cons n ns ih => exact (ih _).trans rfl

theorem allSlots_nodup : allSlots.Nodup := by decide

theorem follows_slotScan (fuel : Nat) (s : State) : Follows s (s.slotScan fuel) := by
  induction fuel generalizing s with
  | zero => exact follows_findings s _ _ _ _ _
  | succ k ih =>
    unfold State.slotScan
    dsimp only
    have hp : ∀ n ∈ postedSlots s, n ∉ s.docket.held ∧ slotState s.mem n = .posted := fun n h => by
      have := (List.mem_filter.mp h).2
      simpa using this
    have nd : (postedSlots s).Nodup := allSlots_nodup.filter _
    have f1 := follows_rejectSlots s
      ((postedSlots s).filter fun n => isStale s.docket.expected (slotSequence s.mem n)) .stale (nd.filter _)
      (fun n h => hp n (List.mem_filter.mp h).1)
    split
    · exact f1.trans (follows_findings _ _ _ _ _ _)
    · next n others he =>
      have sub : ∀ x ∈ n :: others, x ∈ postedSlots s ∧ slotSequence s.mem x = s.docket.expected := fun x hx => by
        have := List.mem_filter.mp (he ▸ hx)
        exact ⟨this.1, by simpa using this.2⟩
      have ndo : (n :: others).Nodup := he ▸ nd.filter _
      have fresh : ∀ x ∈ n :: others,
          x ∉ (postedSlots s).filter fun n => isStale s.docket.expected (slotSequence s.mem n) := fun x hx hm => by
        have := (List.mem_filter.mp hm).2
        rw [(sub x hx).2] at this
        simp [isStale] at this
      have still : ∀ x ∈ n :: others,
          x ∉ (s.rejectSlots ((postedSlots s).filter fun n => isStale s.docket.expected (slotSequence s.mem n))
            .stale).docket.held ∧
          slotState (s.rejectSlots ((postedSlots s).filter fun n =>
            isStale s.docket.expected (slotSequence s.mem n)) .stale).mem x = .posted := fun x hx => by
        rw [rejectSlots_held, rejectSlots_slotState (fresh x hx)]
        exact hp x (sub x hx).1
      have f2 := f1.trans (follows_rejectSlots _ others .duplicate (List.nodup_cons.mp ndo).2
        (fun x hx => still x (by simp [hx])))
      split
      · refine f2.trans (Follows.trans ?_ (ih _))
        refine (follows_rejectSlot _ n .badRecipe ?_ ?_).trans (follows_setExpected _ _)
        · rw [rejectSlots_held]; exact (still n (by simp)).1
        · rw [rejectSlots_slotState (List.nodup_cons.mp ndo).1]; exact (still n (by simp)).2
      · exact f2.trans (follows_findings _ _ _ _ _ _)
      · exact f2.trans (follows_findings _ _ _ _ _ _)

theorem follows_reformDocket (s : State) : Follows s s.reformDocket := by
  unfold State.reformDocket
  split
  · exact .refl s
  · exact .refl s
  · split
    · exact Follows.ite (follows_slotScan _ _) (follows_findings _ _ _ _ _ _)
    · split <;> exact follows_findings _ _ _ _ _ _

/-! ## The gate -/

/-- A change of the line class, the phase and the target alone. -/
theorem follows_class (s : State) (c : Option LineClass) (p : Phase) (t : Option LineClass) :
    Follows s { s with gate := { s.gate with lineClass := c, phase := p, target := t } } :=
  { Follows.refl s with fans := fun f => ⟨⟨f.fan, f.runOn⟩, rfl, rfl⟩ }

theorem follows_nameClass (s : State) : Follows s s.nameClass :=
  ((follows_reformPotTarget s).trans (follows_reformWidth _)).trans (follows_reformConveyor _)

theorem follows_phaseNone (s : State) : Follows s s.phaseNone := by
  unfold State.phaseNone
  split
  · exact Follows.ite (.refl s) (follows_class s _ _ _)
  · exact .refl s

theorem follows_phaseDraining (s : State) : Follows s s.phaseDraining := by
  unfold State.phaseDraining
  split
  · exact follows_class s _ _ _
  · refine Follows.ite (follows_class s _ _ _) (Follows.ite ?_ (follows_class s _ _ _))
    exact (follows_class s _ _ _).trans (follows_nameClass _)

theorem follows_retargetClass (s : State) : Follows s s.retargetClass := by
  unfold State.retargetClass
  split
  · exact .refl s
  · exact Follows.ite (.refl s) ((follows_class s _ _ _).trans (follows_nameClass _))

theorem follows_phaseMoving (s : State) : Follows s s.phaseMoving := by
  unfold State.phaseMoving
  dsimp only
  have h := follows_retargetClass s
  split
  · exact Follows.ite (h.trans (follows_class _ _ _ _)) h
  · exact h

theorem follows_phaseSettling (s : State) : Follows s s.phaseSettling := by
  unfold State.phaseSettling
  dsimp only
  have h := follows_retargetClass s
  split
  · exact Follows.ite (h.trans (follows_class _ _ _ _)) (Follows.ite (h.trans (follows_class _ _ _ _)) h)
  · exact h

theorem follows_phaseStep (s : State) : Follows s s.phaseStep := by
  unfold State.phaseStep
  split
  · split
    · exact follows_phaseNone s
    · exact follows_phaseDraining s
    · exact follows_phaseMoving s
    · exact follows_phaseSettling s
  · exact .refl s

theorem follows_changeover (fuel : Nat) (s : State) : Follows s (s.changeover fuel) := by
  induction fuel generalizing s with
  | zero => exact .refl s
  | succ k ih =>
    unfold State.changeover
    dsimp only
    exact Follows.ite (follows_phaseStep s) ((follows_phaseStep s).trans (ih _))

theorem follows_takeHolds (s : State) : Follows s s.takeHolds :=
  { Follows.refl s with
    notices := fun k x => notifyIf_mono _ _ _ k x
    closed := fun h _ => h
    fans := fun f => ⟨⟨f.fan, f.runOn⟩, rfl, rfl⟩ }

theorem follows_takeClass (s : State) : Follows s s.takeClass := follows_class s _ _ _

/-- A gate transition with the hold set just formed: CLOSED opens only on an empty hold set, RECEIVING stays. -/
theorem follows_gateTransition (s : State)
    (h : s.gate.state = .closed → s.track.entryEye.accepted = true → s.gate.holds.isEmpty = false) :
    Follows s s.gateTransition := by
  unfold State.gateTransition
  split
  · next hc =>
    split
    · next he =>
      unfold State.openGate
      split
      · exact
          { Follows.refl s with
            closed := fun a b => by simp_all
            receiving := fun a => by simp_all
            fans := fun f => ⟨⟨f.fan, f.runOn⟩, rfl, rfl⟩ }
      · exact .refl s
    · exact .refl s
  · next hc =>
    refine Follows.ite (.refl s) (Follows.ite ?_ ?_)
    · exact
        { Follows.refl s with
          closed := fun a b => by simp_all
          receiving := fun a => by simp_all
          fans := fun f => ⟨⟨f.fan, f.runOn⟩, rfl, rfl⟩ }
    · exact
        { Follows.refl s with
          closed := fun a b => by simp_all
          receiving := fun a => by simp_all
          fans := fun f => ⟨⟨f.fan, f.runOn⟩, rfl, rfl⟩ }
  · next hc =>
    refine Follows.ite ?_ (.refl s)
    exact
      { Follows.refl s with
        closed := fun a b => by simp_all
        receiving := fun a => by simp_all
        fans := fun f => ⟨⟨f.fan, f.runOn⟩, rfl, rfl⟩ }
  · exact .refl s

theorem spacing_mem {s : State} (h : s.track.entryEye.accepted = true) : HoldReason.spacing ∈ formHolds s :=
  List.mem_filter.mpr ⟨by decide, by simp [holdStands, spacingHold, h]⟩

theorem follows_gateEval (s : State) : Follows s s.gateEval := by
  refine (((follows_reformDocket s).trans (follows_takeClass _)).trans (follows_changeover 8 _)).trans
    ((follows_takeHolds _).trans (follows_gateTransition _ ?_))
  intro _ h
  have : HoldReason.spacing ∈ _ := spacing_mem (s := s.reformDocket.takeClass.changeover 8) h
  show (formHolds (s.reformDocket.takeClass.changeover 8)).isEmpty = false
  cases hh : formHolds (s.reformDocket.takeClass.changeover 8)
  · rw [hh] at this; cases this
  · rfl

theorem follows_gateFollow (s : State) : Follows s s.gateFollow := by
  unfold State.gateFollow
  dsimp only
  have h : Follows s (if phaseDue s = true then s.changeover 8 else s) := Follows.ite (follows_changeover 8 s) (.refl s)
  exact Follows.ite h (h.trans (follows_gateEval _))

theorem follows_gateStage (s : State) : Follows s s.gateStage := by
  unfold State.gateStage
  exact Follows.ite (follows_gateEval s) (follows_gateFollow s)

theorem follows_pass (s : State) : Follows s s.pass := (follows_reform s).trans (follows_gateStage _)

/-- What the consequences of a step can do to what they write. -/
theorem follows_settle (s : State) : Follows s s.settle :=
  ((follows_pass s).trans (follows_pass _)).trans (follows_reform _)

theorem follows_settleEval (s : State) : Follows s s.settleEval :=
  ((follows_reform s).trans (follows_gateEval _)).trans (follows_settle _)

end Sys2Proof.Machine
end

