-- ==== Sys2Proof/Laws/Raise.lean ====
section
/-! SUPPORT. The mode after the consequences of a step, the raise of a halt cause, and the two resets: what each does, said
once. -/

namespace Sys2Proof.Machine

open Sys2Proof.Config

/-! ## The mode after the consequences -/

theorem modeStage_of_still {s : State} (h : cooldownDone s = false) (g : hostLostEconomy s = false) :
    s.modeStage = s := by
  unfold State.modeStage; simp [h, g]

/-- The modes block of a pass, the idle timer aside. -/
theorem pass_modes (s : State) : { s.pass.modes with idle := none } = { s.modeStage.modes with idle := none } := by
  simp [State.pass, State.reform, State.reformGuards, State.reformIdle, State.reformLine]

theorem reform_modes (s : State) : { s.reform.modes with idle := none } = { s.modeStage.modes with idle := none } := by
  simp [State.reform, State.reformGuards, State.reformIdle, State.reformLine]

theorem Kept.records_isEmpty {s t : State} (h : Kept s t) : t.track.records.isEmpty = s.track.records.isEmpty := by
  have e := congrArg (fun x => x.track.records.length) h.core
  simp [State.core] at e
  rw [Bool.eq_iff_iff]
  simp only [List.isEmpty_iff, ← List.length_eq_zero_iff, e]

theorem OutfeedMoves.empty_iff {a b : OutfeedState} (h : OutfeedMoves a b) : b = .empty ↔ a = .empty := by
  rcases h with rfl | ⟨rfl, rfl⟩ | ⟨rfl, rfl⟩ <;> simp

/-- After its mode stage a state calls for no further mode change, and no consequence of the step brings one. -/
theorem still_after {s t : State} (hk : Kept s t) (ho : OutfeedMoves s.outfeed.state t.outfeed.state)
    (hm : t.modes.mode = s.modeStage.modes.mode) : cooldownDone t = false ∧ hostLostEconomy t = false := by
  have hr := hk.records_isEmpty
  have hl : t.port.hostLost = s.port.hostLost := hk.keeps.portHostLost
  have he : (t.outfeed.state == .empty) = (s.outfeed.state == .empty) := by
    rw [Bool.eq_iff_iff]; simp [ho.empty_iff]
  unfold cooldownDone hostLostEconomy drained
  rw [hm, hr, he, hl]
  unfold State.modeStage
  split
  · next h => simp_all [State.enterMode, cooldownDone]
  · split
    · next h h' => simp_all [State.enterMode, hostLostEconomy]
    · next h h' => simp_all [cooldownDone, hostLostEconomy, drained]

theorem mode_of_modes {a b : Modes} (h : ({ a with idle := none } : Modes) = { b with idle := none }) :
    a.mode = b.mode ∧ a.causes = b.causes ∧ a.wakeArm = b.wakeArm ∧ a.runOn = b.runOn :=
  ⟨(congrArg Modes.mode h :), (congrArg Modes.causes h :), (congrArg Modes.wakeArm h :), (congrArg Modes.runOn h :)⟩

theorem pass_still {s : State} : s.pass.modeStage = s.pass := by
  obtain ⟨a, b⟩ := still_after (kept_pass s) (follows_pass s).outfeed (mode_of_modes (pass_modes s)).1
  exact modeStage_of_still a b

/-- The modes block after the consequences of a step is what the mode stage made of it, the idle timer aside. -/
theorem settle_modes (s : State) : { s.settle.modes with idle := none } = { s.modeStage.modes with idle := none } := by
  unfold State.settle
  rw [reform_modes, pass_still, pass_modes, pass_still, pass_modes]

/-- The mode after the consequences of a step. -/
theorem settle_mode (s : State) : s.settle.modes.mode = s.modeStage.modes.mode := (mode_of_modes (settle_modes s)).1

theorem settle_mode_of_still {s : State} (h : cooldownDone s = false) (g : hostLostEconomy s = false) :
    s.settle.modes.mode = s.modes.mode := by
  rw [settle_mode, modeStage_of_still h g]

/-- A mode that no condition of R167 or R169 leaves. -/
theorem settle_mode_stays {s : State} (h : s.modes.mode ≠ .cooldown) (g : s.modes.mode ≠ .production) :
    s.settle.modes.mode = s.modes.mode ∧ s.settle.modes.wakeArm = s.modes.wakeArm ∧
      s.settle.modes.runOn = s.modes.runOn := by
  have e := modeStage_of_still (s := s) (by simp [cooldownDone, h]) (by simp [hostLostEconomy, g])
  obtain ⟨a, -, b, c⟩ := mode_of_modes (settle_modes s)
  rw [e] at a b c
  exact ⟨a, b, c⟩

/-! ## The raise of a halt cause (R170) -/

theorem raiseCause_stopped {s : State} (h : s.modes.mode.runs = false) (c : HaltCause) :
    s.raiseCause c = if c ∈ s.modes.causes then s
      else { s with modes := { s.modes with causes := s.modes.causes ++ [c] }, port := s.port.notify .halted } := by
  unfold State.raiseCause
  simp only [h]
  rfl

/-- A raise: the set, the mode and the notice. -/
theorem halts_raiseCause (s : State) (c : HaltCause) : Halts s (s.raiseCause c) c := by
  unfold State.raiseCause
  by_cases h : c ∈ s.modes.causes
  · rw [if_pos h]
    exact ⟨by rw [if_pos h], fun _ x => absurd h x, fun x => absurd h x⟩
  · rw [if_neg h]
    dsimp only
    have key : ∀ p : Port, ((p.notify .halted).notify .modeChanged).notices.getLsbD 6 = true := fun p => by
      simp [Port.notify, Notice.mask, Notice.bit]
    have key' : ∀ p : Port, (p.notify .halted).notices.getLsbD 6 = true := fun p => by
      simp [Port.notify, Notice.mask, Notice.bit]
    cases hr : s.modes.mode.runs
    · exact ⟨by simp [h], fun x => absurd x (by simp [hr]), fun _ => key' _⟩
    · have hm : s.modes.mode ≠ .halted := fun e => by rw [e] at hr; simp [Mode.runs] at hr
      refine ⟨?_, fun _ _ => ?_, fun _ => ?_⟩
      · simp [State.enterMode, hm, h]
      · simp [State.enterMode, hm]
      · simpa [State.enterMode, hm, Pending, Notice.bit] using key _

/-- A raise writes nothing else that the consequences of a step keep. -/
theorem kept_raiseCause (s : State) (c : HaltCause) : Kept (s.causesOf (s.raiseCause c)) (s.raiseCause c) := by
  unfold State.raiseCause
  split
  · exact Kept.refl s
  · dsimp only
    split
    · refine Kept.trans (Kept.of_core (t := { s with
        modes := { s.modes with causes := s.modes.causes ++ [c] }, port := s.port.notify .halted }) ?_ rfl)
        (kept_enterMode _ _)
      have : ∀ u : State, (u.enterMode .halted).modes.causes = u.modes.causes := fun u => by
        unfold State.enterMode; split <;> rfl
      simp [State.core, State.causesOf, this, Port.notify]
    · exact Kept.of_core rfl rfl

/-- A raise leaves the notices that were pending. -/
theorem raiseCause_notices (s : State) (c : HaltCause) (k : Nat) (h : s.port.notices.getLsbD k = true) :
    (s.raiseCause c).port.notices.getLsbD k = true := by
  unfold State.raiseCause
  split
  · exact h
  · dsimp only
    split
    · unfold State.enterMode; split <;> simp [Port.notify, h]
    · simp [Port.notify, h]

/-- A raise and its consequences. -/
theorem halts_settle (s : State) (c : HaltCause) : Halts s (s.raiseCause c).settle c := by
  have h := halts_raiseCause s c
  refine ⟨?_, fun x y => ?_, fun x => (follows_settle _).notices _ (h.notice x)⟩
  · rw [(kept_settle _).keeps.modesCauses]; exact h.causes
  · have e := h.mode x y
    rw [(settle_mode_stays (by simp [e]) (by simp [e])).1, e]

/-- The frame of a raise with its consequences. -/
theorem kept_raise_settle (s : State) (c : HaltCause) :
    Kept (s.causesOf (s.raiseCause c).settle) (s.raiseCause c).settle := by
  have e : s.causesOf (s.raiseCause c).settle = s.causesOf (s.raiseCause c) := by
    unfold State.causesOf; rw [(kept_settle (s.raiseCause c)).keeps.modesCauses]
  rw [e]
  exact (kept_raiseCause s c).trans (kept_settle _)

/-- A halted line has no conveyor reference (R5). -/
theorem settle_ref_halted {s : State} (h : s.settle.modes.mode = .halted) : s.settle.track.ref = 0 := by
  have := settle_referenceFormed s
  unfold ReferenceFormed at this
  rw [this, h]
  simp

/-! ## The resets -/

/-- Reset exit: the hold set is formed, and an active E-STOP joins the set of an OFF line. -/
theorem resetExit_off (s : State) (hm : s.modes.mode = .off) :
    ∃ m p, s.resetExit =
        { s with gate := { s.gate with holds := formHolds s, told := s.outfeed.state }, modes := m, port := p } ∧
      m.mode = .off ∧ m.runOn = s.modes.runOn ∧ p.enable = s.port.enable ∧ p.line = s.port.line := by
  unfold State.resetExit State.raiseIf
  split
  · rw [raiseCause_stopped (by simp [hm, Mode.runs])]
    split
    · exact ⟨_, _, rfl, hm, rfl, rfl, rfl⟩
    · exact ⟨_, _, rfl, hm, rfl, rfl, rfl⟩
  · exact ⟨_, _, rfl, hm, rfl, rfl, rfl⟩

/-- The closes of a port reset write memory and the notices alone. -/
theorem abort_blocks (ns : List SlotIx) (s : State) : ∃ m p, ns.foldl State.abortSlot s = { s with mem := m, port := p } ∧
    p.enable = s.port.enable ∧ p.line = s.port.line ∧ p.setup = s.port.setup := by
  induction ns generalizing s with
  | nil => exact ⟨_, _, rfl, rfl, rfl, rfl⟩
  | cons n ns ih =>
    obtain ⟨m, p, h, h2, h3, h4⟩ := ih (s.abortSlot n)
    rw [List.foldl_cons, h]
    unfold State.abortSlot at h2 h3 h4 ⊢
    split at h2
    · rename_i hc
      simp only [hc] at h3 h4 ⊢
      exact ⟨m, p, rfl, h2, h3, h4⟩
    · rename_i hc
      simp only [hc] at h3 h4 ⊢
      exact ⟨m, p, rfl, h2, h3, h4⟩

/-- The blocks after a port reset. -/
theorem portReset_blocks (s : State) :
    ∃ m p mo, (allSlots.foldl State.abortSlot (s.cutPulses (fun _ => true) false).portRebuild).resetExit =
      { (s.cutPulses (fun _ => true) false).portRebuild with
        mem := m, modes := mo, port := p
        gate :=
          { Gate.atReset with
            holds := formHolds (allSlots.foldl State.abortSlot (s.cutPulses (fun _ => true) false).portRebuild)
            told := (s.cutPulses (fun _ => true) false).portRebuild.outfeed.state } } ∧
      mo.mode = .off ∧ mo.runOn = some resetRunOn ∧ p.enable = 0 ∧ p.line = false := by
  obtain ⟨m, p, h, h2, h3, h4⟩ := abort_blocks allSlots (s.cutPulses (fun _ => true) false).portRebuild
  generalize allSlots.foldl State.abortSlot (s.cutPulses (fun _ => true) false).portRebuild = v at h ⊢
  have hm : v.modes.mode = .off := by rw [h]; rfl
  obtain ⟨mo, p2, e, e1, e2, e3, e4⟩ := resetExit_off v hm
  refine ⟨m, p2, mo, ?_, e1, ?_, ?_, ?_⟩
  · rw [e, h]; rfl
  · rw [e2, h]; rfl
  · rw [e3, h]; exact h2
  · rw [e4, h]; exact h3

/-! ## Rules of every step -/

/-- A rule that every settled state meets, that quiet changes and answers keep, and that both resets leave, is kept by every
step. -/
theorem step_keeps (P : State → Prop) (hset : ∀ u : State, P u.settle)
    (hans : ∀ (u : State) a, P u → P (u.answer a)) (href : ∀ u : State, P u → P u.writeClock.refresh)
    (hq : ∀ s t, Quiet s t → P s → P t)
    (hpo : ∀ (s : State) ws, P (s.powerOn ws).resetExit)
    (hpr : ∀ s : State, P (allSlots.foldl State.abortSlot (s.cutPulses (fun _ => true) false).portRebuild).resetExit)
    (hpend : ∀ (s : State) l, P s → P { s with pending := l })
    (s t : State) (h : step s = .next t) (hs : P s) : P t := by
  have key : ∀ c s, P s → ∀ t, exec c s = .next t → P t := by
    intro c s hs t ht
    obtain ⟨t', h', hcase⟩ := exec_shape c s
    rw [h'] at ht
    have ht := Host.Outcome.next.inj ht
    subst ht
    rcases hcase with ⟨ws, rfl⟩ | rfl | hc | ⟨u, h | h | ⟨a, h⟩⟩
    · rw [← Host.Outcome.next.inj h']; exact hpo s ws
    · rw [← Host.Outcome.next.inj h']; exact hpr (s.tearRefresh _)
    · exact hq s _ hc hs
    · rw [h]; exact hset u
    · rw [h]; exact href _ (hset u)
    · rw [h]; exact hans _ _ (hset u)
  unfold step at h
  split at h
  · exact key _ _ (hpend s _ hs) _ h
  · split at h
    · exact key _ _ hs _ h
    · rw [← Host.Outcome.next.inj h]; exact hq s _ (quiet_advance s 1) hs

end Sys2Proof.Machine
end

