-- ==== Sys2Proof/Laws/Samples.lean ====
section
/-! SUPPORT. What the operations of a sample and of a heater boundary can do, each said once in the words of Safety.lean: the sample
of a temperature input, the ramp, the control computation, the dwells of an alarm point. -/

namespace Sys2Proof.Machine

open Sys2Proof.Config

/-! ## The sample of a temperature input (R80 to R82) -/

theorem ringPush_takes (l : List Int) (v : Int) : RingTakes l (ringPush l v) v := by
  constructor <;> intro h
  · have : l.length + 1 - 4 = 0 := by omega
    simp [ringPush, this]
  · match l, h with
    | [a, b, c, d], _ => rfl

theorem Input.sample_sampled (i : Input) (r : Option Int) : InputSampled i (i.sample r) r := by
  have hg : ∀ v, -500 ≤ v → v ≤ 6000 → goodSample (some v) = some v := fun v a b => by simp [goodSample, a, b]
  constructor
  · rintro v rfl a b
    cases h : i.state <;> simp [Input.sample, h, hg v a b, ringPush_takes]
  · intro hb
    have hn : goodSample r = none := by
      cases r with
      | none => rfl
      | some v => have := hb v rfl; simp [goodSample]; omega
    cases h : i.state <;> simp [Input.sample, h, hn]

theorem Input.pv_formed (i : Input) : PvFormed i := by
  constructor
  · intro h l; simp [Input.pv, h, l]
  · intro h; cases hs : i.state <;> simp_all [Input.pv]

/-! ## The heater boundary (R86 to R89) -/

theorem rampPot_ramped (rate : Nat) (target sp : Int) (rem : Nat) (pv : Option Int) :
    Ramped rate target sp rem pv (rampPot rate target sp rem pv).1 (rampPot rate target sp rem pv).2 := by
  constructor
  · intro h; simp [rampPot, h]
  · intro h a b; simp [rampPot, h, a, b]
  · intro h a v b; simp only [rampPot, h, a, b, if_true, if_false]; split <;> simp <;> omega
  · rintro h a b m rfl
    have hne : sp ≠ target := by omega
    simp only [rampPot, h, a, b, hne, if_true, if_false]
    split
    · simp; omega
    · rename_i c
      have : min (sp + (((rem + rate) / 60 : Nat) : Int)) target = sp + (((rem + rate) / 60 : Nat) : Int) := by omega
      refine ⟨this.symm, ?_⟩
      rw [if_neg (by dsimp only; omega)]
  · rintro h a b m rfl
    have hne : sp ≠ target := by omega
    have hlt : ¬ sp < target := by omega
    simp only [rampPot, h, a, hlt, hne, if_false]
    split
    · simp; omega
    · rename_i c
      have : max (sp - (((rem + rate) / 60 : Nat) : Int)) target = sp - (((rem + rate) / 60 : Nat) : Int) := by omega
      refine ⟨this.symm, ?_⟩
      rw [if_neg (by dsimp only; omega)]
  · rintro h rfl; simp [rampPot, h]

theorem controlLoop_controlled (kp ki : Nat) (l : Loop) (sp : Int) (pv : Option Int) (auth : Bool) :
    Controlled kp ki l sp pv auth (controlLoop kp ki { l with sp := sp } pv auth).integral
      (controlLoop kp ki { l with sp := sp } pv auth).request := by
  constructor
  · intro h; simp [controlLoop, h]
  · intro h b; simp [controlLoop, h, b]
  · rintro h v e p trial u rfl rfl rfl rfl rfl
    simp only [controlLoop, h, if_false, Bool.or_eq_true, Bool.and_eq_true, Bool.not_eq_true', decide_eq_true_eq, or_assoc]
    refine ⟨rfl, ?_⟩
    simp only [clampInt]
    rw [Int.toNat_of_nonneg (by omega)]

/-! ## The dwells of an alarm point (R141 to R146) -/

theorem dwellSamples_le (d n : Nat) : dwellSamples d ≤ n ↔ 100 * d ≤ 250 * n := by
  unfold dwellSamples; omega

theorem alarmMet_iff (s : State) (k : Idx8) : alarmMet s k = true ↔ AlarmDwellMet s k := by
  match k with
  | 0 | 1 | 7 => simp [alarmMet, AlarmDwellMet, dwellMet, alarmDwell, pointKind, dwellSamples_le]
  | 2 | 3 | 5 | 6 => simp only [alarmMet, AlarmDwellMet, dwellMet, alarmDwell, pointKind, decide_eq_true_eq]; omega
  | 4 => simp [alarmMet, AlarmDwellMet, dwellMet, alarmDwell, pointKind]

theorem warnMet_iff (s : State) (k : Idx8) : warnMet s k = true ↔ WarnDwellMet s k := by
  match k with
  | 0 | 1 | 4 | 7 => simp [warnMet, WarnDwellMet, dwellMet, warnDwell, pointKind, dwellSamples_le]
  | 2 | 3 | 5 | 6 => simp [warnMet, WarnDwellMet, dwellMet, warnDwell, pointKind]

theorem clearDue_iff (s : State) (k : Idx8) :
    clearDue s k = true ↔ (s.extr.points.get k).active = true ∧ ClearDwellMet s k := by
  simp only [clearDue, Bool.and_eq_true, decide_eq_true_eq, and_assoc]
  exact and_congr_right fun _ => and_comm

end Sys2Proof.Machine
end

