-- ==== Sys2Proof/WellFormed.lean ====
section
/-! DEFINITION. Which commands are well formed: an operand that belongs to another row makes a command that this row is not. -/

namespace Sys2Proof

/-- The value is one that HEAT_AUTH takes (R102), so it belongs to another row. -/
def validAuth (value : Word) : Bool :=
  value == Config.authCode || value == Config.noAuthCode

/-- The code names a request of Table 12-4, so it belongs to another row. -/
def namesRequest (code : Word) : Bool :=
  decide (1 ≤ code.toNat ∧ code.toNat ≤ 14)

/-- The point can stand at both severities, and so rise (Table 8-3). -/
def rises (point : Idx8) : Bool :=
  point == 0 || point == 1 || point == 7

/-- A command is well formed. -/
def Instr.wf (i : Instr) : Bool :=
  match i with
  | .powerOnReset _ => true
  | .portReset => true
  | .encoderCount _ => true
  | .eyeRawChange _ _ => true
  | .eyeChangeAccepted _ => true
  | .entryJam => true
  | .boardLost => true
  | .lateLimitReached => true
  | .statusIntervalEnd _ _ => true
  | .inputFault _ => true
  | .inputRecovery _ => true
  | .inputFillingEnd _ => true
  | .speedStableSet => true
  | .conveyorSpeed => true
  | .levelInputRecovered => true
  | .levelFlagChange _ => true
  | .pumpStableSet _ => true
  | .fluxPressure => true
  | .alarmActivation _ => true
  | .alarmSeverityRise point => rises point
  | .alarmEscalation point => rises point
  | .alarmClear _ => true
  | .vapourHalt => true
  | .heaterPeriodBoundary => true
  | .loopSettled _ => true
  | .heaterOutputSwitch _ => true
  | .modulationBoundary => true
  | .lanePulseEnd _ => true
  | .purgeDurationComplete => true
  | .feederShotStart => true
  | .feederShotComplete => true
  | .feederSettlingComplete => true
  | .shotHistoryExpiry => true
  | .widthMotionStart => true
  | .homingComplete => true
  | .homingTravelExceeded => true
  | .widthMoveComplete => true
  | .widthLimitActive _ => true
  | .thermostatContactOpen => true
  | .estopInputActive => true
  | .estopInputRelease => true
  | .upstreamAvailableChange _ => true
  | .endSensorRawChange _ => true
  | .endSensorEvent => true
  | .downstreamReadyChange _ => true
  | .idleTimerExpiry => true
  | .runOnTimerExpiry => true
  | .startGraceEnd _ => true
  | .supervisionExpired => true
  | .warmupComplete => true
  | .loadSetup _ => true
  | .start _ => true
  | .shutdown _ => true
  | .stop _ => true
  | .clear _ => true
  | .economy _ => true
  | .wake _ => true
  | .setSource _ => true
  | .setSequence _ => true
  | .cancelDocket _ => true
  | .ackAlarms _ => true
  | .fluxRefilled _ => true
  | .purgeFluxer _ => true
  | .clearTrackFlags _ => true
  | .unknownRequest code _ => !namesRequest code
  | .requestOverrun _ => true
  | .noticeRead => true
  | .noticeWrite _ => true
  | .noticeEnWrite _ => true
  | .posRead _ => true
  | .hostAliveWrite _ => true
  | .heatAuthEnable => true
  | .heatAuthDisable => true
  | .heatAuthInvalid value => !validAuth value
  | .ignoredRegisterWrite _ _ => true
  | .widthStepperStep => true
  | .homeSwitchInactive => true

end Sys2Proof
end

