-- ==== Sys2Proof/Tests/Slice0.lean ====
section
/-! SUPPORT. Tests: the well-formedness checks, the spec's worked examples, and for each statement with hypotheses a state that
meets them. Expected values are the spec's, the place named with each. -/

namespace Sys2Proof.Tests

open Sys2Proof Sys2Proof.Machine Sys2Proof.Config

-- One test after another: elaborated side by side, the tests wait on each other in so many threads that their stacks
-- outgrow the memory limit.
set_option Elab.async false

/-! ## Well-formedness: what each check refuses -/

theorem test_wf_heatAuth_valid_code : Instr.wf (.heatAuthInvalid 0xA55A) = false := by decide
theorem test_wf_heatAuth_disable_code : Instr.wf (.heatAuthInvalid 0x5AA5) = false := by decide
theorem test_wf_heatAuth_other : Instr.wf (.heatAuthInvalid 0) = true := by decide
theorem test_wf_unknown_first_code : Instr.wf (.unknownRequest 1 []) = false := by decide
theorem test_wf_unknown_last_code : Instr.wf (.unknownRequest 14 []) = false := by decide
theorem test_wf_unknown_beyond : Instr.wf (.unknownRequest 15 []) = true := by decide
theorem test_wf_rise_fan_point : Instr.wf (.alarmSeverityRise 2) = false := by decide
theorem test_wf_escalate_filter_point : Instr.wf (.alarmEscalation 4) = false := by decide
theorem test_wf_rise_vapour_point : Instr.wf (.alarmSeverityRise 7) = true := by decide

/-- The table gives no row any bits. -/
theorem test_decode_none : decodeTableWord 16 0x2640 = none := rfl

/-! ## Worked examples of the spec -/

/-- Section 1.1, position arithmetic: C = 30000, the accumulator crosses three times within ten counts. -/
theorem test_encoder_forward : countSteps .forward 20000 30000 = (1, 0) := by decide
/-- The same example, the two reverse counts from 10000. -/
theorem test_encoder_backward :
    countSteps .backward 10000 30000 = (0, 0) ∧ countSteps .backward 0 30000 = (1, 20000) := by decide
/-- Section 1.3, speed window: 200 counts at C = 40000 are 1200 mm/min. -/
theorem test_measured_speed : measuredSpeed 40000 200 = 1200 := by decide
/-- Section 5.1, an input through a fault: the sum 5992 gives PV 1498. -/
theorem test_input_pv :
    (Input.recover { state := .faulted, seen := 4, ring := [1497, 1498, 1498, 1499], bad := 0, good := 4 }).pv
      = some 1498 := by decide
/-- Section 5.3, a ramp with a remainder: boundaries 1, 12 and 24. -/
theorem test_ramp :
    rampPot 125 2650 2600 0 (some 2600) = (2602, 5) ∧ rampPot 125 2650 2622 55 (some 2600) = (2625, 0) ∧
      (rampPot 125 2650 2647 55 (some 2600)).1 = 2650 := by decide

/-- A loop at a setpoint, with an integral, its last request and grant. -/
def loopAt (sp integral : Int) (request grant : Nat) : Loop :=
  { Loop.atReset with target := sp, sp := sp, integral := integral, request := request, grant := grant }

/-- Section 5.4, one zone loop over three periods. -/
theorem test_control_loop :
    controlLoop 40 150 (loopAt 1500 30000 500 500) (some 1420) true = { integral := 31200, request := 632 } ∧
    controlLoop 40 150 (loopAt 1500 30000 500 400) (some 1420) true = { integral := 30000, request := 620 } ∧
    controlLoop 40 150 (loopAt 1720 31200 632 632) (some 1420) true = { integral := 31200, request := 1000 } ∧
    controlLoop 40 150 (loopAt 1720 31200 1000 1000) (some 1750) true = { integral := 30750, request := 187 } := by
  decide
/-- Section 5.6, budget shared among all loops. -/
theorem test_budget_shared :
    allocate 24000 600 8000 ⟨900, 850, 700, 500, 1000, 400⟩ ⟨6000, 6000, 6000, 6000, 3000, 3000⟩ =
      (600, ⟨789, 745, 613, 438, 876, 350⟩) := by decide
/-- Section 5.6, the pot alone exceeds the budget. -/
theorem test_budget_pot_alone :
    allocate 6000 900 8000 ⟨700, 0, 0, 0, 0, 0⟩ ⟨6000, 0, 0, 0, 0, 0⟩ = (750, ⟨0, 0, 0, 0, 0, 0⟩) := by decide
/-- Section 7.1, compensation. -/
theorem test_level_compensation : correctedLevel 120 1100 318 = 450 ∧ correctedLevel 120 8 450 = 450 := by decide
/-- Section 7.5, contact time: ordinals 92, 93, 94 and a standing board. -/
theorem test_contact_time :
    contactTime 450 (some 1200) = 2250 ∧ contactTime 450 (some 1176) = 2295 ∧ contactTime 450 (some 900) = 3000 ∧
      contactTime 450 (some 0) = 65535 := by decide
/-- R1 and section 2.3 of the overview: comparison across the wrap. -/
theorem test_position_wrap : atOrAfter 5 0xFFFFFFFB = true ∧ atOrAfter 0xFFFFFFFB 5 = false := by decide
/-- Table 12-5: MODE after reset reads 0; PART_ID by half (R176). -/
theorem test_registers_after_reset :
    readRegister State.reset .mode = 0 ∧ readRegister State.reset (.partId .lo) = 0x2640 ∧
      readRegister State.reset (.partId .hi) = 1 ∧ readRegister State.reset .heatAuth = 0x5AA5 := by decide

/-! ## States of the witnesses -/

/-- A setup that passes every check of R181, in the order of Table 12-6. -/
def setup : Setup :=
  { words :=
      [40000, 0, 300, 1000, 200, 1, 500, 1500]
      ++ [2000, 3000, 3000, 4000, 4000, 5000, 5000, 6000, 2000, 4000, 4000, 6000] ++ List.replicate 6 10
      ++ [6500, 7000, 7500, 7500, 8000, 5, 5, 10000]
      ++ [3000, 3000, 2000, 2000, 2000, 2000, 2000, 2000, 9000]
      ++ List.replicate 7 20 ++ List.replicate 7 30 ++ List.replicate 7 50 ++ List.replicate 7 5
      ++ [600, 3000, 2500, 300, 60] ++ List.replicate 8 50
      ++ [100, 300, 1000, 0, 100, 300, 800, 50, 500, 3, 5, 100, 5, 200]
      ++ [300, 200, 5, 5, 300, 200, 5, 5, 3000, 5, 100, 300, 5, 5, 10, 5, 60, 10, 100] }

/-- A class of boards. -/
def cls : LineClass := { width := 1000, speed := 1200, pot := 2500 }

/-- A recipe of that class with one spray window. -/
def recipe : Recipe :=
  { revision := 1, cls := cls, zones := Tab6.ofFn fun _ => 0, zoneTol := 100, topMin := 0, topMax := 0
    windowCount := 1, windows := [{ start := 10, stop := 70, lanes := 15, duty := 10 }]
    chipRpm := 0, mainRpm := 0, contactMin := 0, contactMax := 0 }

/-- The offer of a slot. -/
def offer (n : SlotIx) (skip : Bool) : Offer :=
  { slot := n, origin := .docket, sequence := 1, recipeIndex := 0, skipFlux := skip, expectedLength := 0
    lengthTol := 0, recipe := recipe }

/-- A record with the given lead, stage and binding. -/
def board (ordinal : BitVec 16) (lead : Pos) (stage : Stage) (binding : Option Binding) : Record :=
  { ordinal := ordinal, origin := if binding.isSome then .docket else .intruder, binding := binding
    lead := lead, trail := none, length := none, stage := stage, jam := false, entryTime := 0, exitLead := none
    flux := 0, skipped := 0, incomplete := 0, flags := 0, zoneMask := 0, topside := none, minSpeed := none
    minRpm := none }

/-- A loaded line in a mode, its fans commanded on. -/
def line (m : Mode) : State :=
  { State.reset with
    modes := { Modes.atReset with mode := m }
    extr := { Extr.atReset with fan := true }
    port := { Port.atReset with setup := some setup } }

/-- A loaded line in OFF. -/
def offLine : State :=
  { State.reset with port := { Port.atReset with setup := some setup } }

/-- The line with a track at position `p` and a list. -/
def tracked (s : State) (p : Pos) (rs : List Record) : State :=
  { s with track := { s.track with pos := p, records := rs, ordinal := 40 } }

/-- The track with a ready change of an eye: accepted at `b`, pending at `p`. -/
def eyeAt (s : State) (e : Eye) (b : Bool) (p : Pos) : State :=
  { s with track := s.track.setEye e { accepted := b, pendingAt := some p, count := 0 } }

/-- A gate state with an offer. -/
def gateAt (s : State) (g : GateState) (o : Option Offer) : State :=
  { s with gate := { s.gate with state := g }, docket := { s.docket with offer := o } }

/-- The state with commands waiting. -/
def queued (s : State) (cs : List Instr) : State :=
  { s with pending := cs }

/-- The host's write of a request record. -/
def posting (code a b : Word) : List HostWrite :=
  [⟨0x0040, code⟩, ⟨0x0041, a⟩, ⟨0x0042, b⟩]

/-- The host's writes are seen in memory. -/
theorem test_posting : (hostWrites (posting 5 6 7) []).read 0x0041 = 6 := by decide

/-- The binding of a board. -/
def bound (n : SlotIx) : Option Binding :=
  some (offer n false).binding

/-- Memory with recipe 0 READY and passing (Table 12-8). -/
def recipeMemory : Memory :=
  cellsOf (recipeAt 0)
    ([2, 1, 0, 0, 0, 0, 0, 0, 0, 0, 1000, 1200, 2500, 0, 0, 0, 0, 0, 0, 100, 0, 0, 1, 10, 70, 15, 10])

/-- Table 11-5 and 11-6: the setup passes. -/
theorem test_setup_passes : setup.firstFailing = none := by decide

/-- A line's working set has passed its checks. -/
theorem test_line_checked {s : State} (h : s.port.setup = some setup := by rfl) : SetupChecked s :=
  fun c hc => by
    cases h.symm.trans (Option.mem_def.1 hc)
    exact test_setup_passes

/-- An outcome that is a next state of which `p` holds. -/
theorem goes_to {o : Host.Outcome State Fault Refusal} {p : State → Bool}
    (h : (match o with | .next t => p t | _ => false) = true) : ∃ t, o = .next t ∧ p t = true := by
  split at h
  · exact ⟨_, rfl, h⟩
  · cases h

/-- The same for each entry of a table. -/
theorem goes_all {α : Type} {l : List α} {o : α → Host.Outcome State Fault Refusal} {p : α → State → Bool}
    (h : (l.all fun c => match o c with | .next t => p c t | _ => false) = true) :
    ∀ c ∈ l, ∃ t, o c = .next t ∧ p c t = true :=
  fun c hc => goes_to (List.all_eq_true.1 h c hc)

/-! ## Witnesses: the step and the invariants -/

theorem test_witness_StepRunsTheFrontCommand :
    ∃ (s : State) (c : Instr) (rest : List Instr), s.pending = c :: rest ∧ c = Instr.noticeRead :=
  ⟨queued State.reset [.noticeRead, .portReset], _, _, rfl, rfl⟩

theorem test_witness_EmptyQueue_due :
    ∃ (s : State) (c : Instr), s.pending = [] ∧ dueNow s = some c :=
  ⟨{ State.reset with clock := 250 }, .statusIntervalEnd Readings.atRest [], rfl, by decide⟩

theorem test_witness_EmptyQueue_idle :
    ∃ (s : State), s.pending = [] ∧ dueNow s = none ∧ s.pot.feeder = .idle :=
  ⟨State.reset, rfl, by decide, rfl⟩

theorem test_witness_EmptyQueue_feeding :
    ∃ (s : State) (r : Nat), s.pending = [] ∧ dueNow s = none ∧ s.pot.feeder = .feeding r :=
  ⟨{ State.reset with pot := { State.reset.pot with feeder := .feeding 1 } }, 1, rfl, by decide, rfl⟩

theorem test_witness_EmptyQueue_settling :
    ∃ (s : State) (r : Nat), s.pending = [] ∧ dueNow s = none ∧ s.pot.feeder = .settling r :=
  ⟨{ State.reset with pot := { State.reset.pot with feeder := .settling 1 } }, 1, rfl, by decide, rfl⟩

/-- A line in OFF with the NOTICE read waiting, from which a step goes on. -/
def waiting : State := queued State.reset [.noticeRead]

theorem test_waiting_steps : ∃ t, step waiting = .next t := ⟨_, rfl⟩

theorem test_witness_MemoryFormIsKept :
    (∃ t, step waiting = .next t) ∧ waiting.mem.wf ∧ HeaderFormed waiting :=
  ⟨⟨_, rfl⟩, by decide, by unfold HeaderFormed; decide +kernel⟩

/-- At rest with an empty list every target stands as its table says. -/
theorem test_waiting_targets : TargetsFormed waiting := by
  refine ⟨fun z => ⟨fun _ h => (nomatch h), fun _ => ?_, nofun, nofun, fun _ => ?_, ?_⟩,
    fun w => ⟨fun _ h => (nomatch h), fun _ => ?_, nofun, nofun, fun _ => ?_⟩, by decide⟩
  iterate 3 revert z; decide
  all_goals cases w <;> rfl

theorem test_witness_ReferenceRulesAreKept :
    (∃ t, step waiting = .next t) ∧ ReferenceFormed waiting ∧ PumpsFormed waiting ∧ TargetsFormed waiting ∧
      SetupChecked waiting ∧ DropFormed waiting :=
  ⟨⟨_, rfl⟩, by simp [ReferenceFormed, waiting, queued, State.reset, Modes.atReset, Track.atReset],
    fun w => by cases w <;> rfl, test_waiting_targets, nofun, nofun, nofun, fun h => absurd rfl h⟩

/-- A line under way with one board. -/
def running : State :=
  { line .production with
    track := { State.reset.track with ref := 1200, records := [board 1 0 .tracked (bound 0)] } }

theorem test_witness_ReferenceRulesAreKept_stop :
    SetupChecked running ∧ running.track.ref ≠ 0 ∧ (∀ d, Instr.estopInputActive ≠ .encoderCount d) ∧
      ∃ t, exec .estopInputActive running = .next t ∧ (t.track.ref == 0) = true :=
  ⟨test_line_checked, by decide, nofun, goes_to (by decide +kernel)⟩

/-- The same line, its class named and its speed reached for `n` windows. -/
def steady (n : Nat) (b : Bool) : State :=
  { running with
    track := { running.track with passes := n, misses := 3, speedStable := b }
    gate := { Gate.atReset with lineClass := some cls }
    pot := { Pot.atReset false with main := { Pump.atReset with ref := 900, target := 900, count := 2, stable := true } } }

/-- R7 and R128: SPEED_STABLE comes up at its own command, and falls with the reference, the counts with it; so does
PUMP_STABLE. -/
theorem test_witness_ReferenceRulesAreKept_stable :
    (∃ t, step (queued (steady 4 false) [.speedStableSet]) = .next t ∧ t.track.speedStable = true) ∧
    ∃ t, step (queued (steady 4 true) [.estopInputActive]) = .next t ∧
      (t.track.ref == 0 && !t.track.speedStable && t.track.passes == 0 && t.track.misses == 0 &&
        t.pot.main.ref == 0 && !t.pot.main.stable && t.pot.main.count == 0) = true :=
  ⟨goes_to (by decide +kernel), goes_to (by decide +kernel)⟩

theorem test_witness_HeaterCutRuleIsKept : (∃ t, step waiting = .next t) ∧ HeatersCut waiting :=
  ⟨⟨_, rfl⟩, fun _ => ⟨rfl, by decide, by decide⟩, fun _ => ⟨rfl, rfl, rfl⟩,
    fun z _ => (by decide : ∀ z, (waiting.thermal.zones.get z).grant = 0 ∧
      waiting.thermal.outputs.get (zoneOutput z) = false) z⟩

/-- A line in WARMUP whose pot loop has a grant in force. -/
def heating : State :=
  { line .warmup with
    thermal :=
      { Thermal.atReset with
        auth := true
        inputs := Thermal.atReset.inputs.set 6 { Input.atReset with state := .good, ring := [2000, 2000, 2000, 2000] }
        pot := loopAt 2500 0 600 600 } }

/-- R92: a lost permit cuts the grants, its return gives none back, and the boundary allocates again. -/
theorem test_witness_HeaterCutRuleIsKept_grants :
    (∃ t, exec .heatAuthDisable heating = .next t ∧ (t.thermal.pot.grant == 0) = true) ∧
    (∃ t, exec .heatAuthEnable
        { heating with thermal := { heating.thermal with auth := false, pot := loopAt 2500 0 600 0 } } = .next t ∧
      (t.thermal.auth && t.thermal.pot.grant == 0) = true) ∧
    (∃ t, exec .heaterPeriodBoundary heating = .next t ∧
      (t.thermal.pot.grant != 0 && t.thermal.pot.grant == potGrant heating.ws.budget t.thermal.pot.request 6000) = true) ∧
    Instr.heatAuthEnable ≠ .heaterPeriodBoundary ∧ ∀ k, Instr.heatAuthEnable ≠ .heaterOutputSwitch k :=
  ⟨goes_to (by decide +kernel), goes_to (by decide +kernel), goes_to (by decide +kernel), nofun, nofun⟩

theorem test_witness_PowerBudgetIsKept :
    (∃ t, step waiting = .next t) ∧ HeatersCut waiting ∧ WithinBudget waiting :=
  ⟨⟨_, rfl⟩, test_witness_HeaterCutRuleIsKept.2, by unfold WithinBudget; decide⟩

theorem test_witness_LoopRangesAreKept :
    (∃ t, step waiting = .next t) ∧ LoopsInRange waiting ∧ SettledFormed waiting :=
  ⟨⟨_, rfl⟩, by unfold LoopsInRange Loop.InRange; decide,
    ⟨fun _ => ⟨rfl, rfl⟩, nofun⟩, fun z => ⟨fun _ => by revert z; decide, nofun⟩⟩

theorem test_witness_ModeRulesAreKept :
    (∃ t, step waiting = .next t) ∧ HaltFormed waiting ∧ FansFormed waiting ∧ TimersFormed waiting ∧
      ClassFormed waiting :=
  ⟨⟨_, rfl⟩, by intro _; rfl, ⟨by decide, by decide⟩, ⟨by decide, by decide, by decide⟩,
    ⟨by decide, by decide, by decide, by decide, by decide, by decide⟩⟩

theorem test_witness_GateRuleIsKept :
    (∃ t, step waiting = .next t) ∧ GateFormed waiting ∧ HoldsFormed waiting ∧ ClosedHeld waiting ∧
      WaitsFormed waiting := by
  refine ⟨⟨_, rfl⟩, ⟨by decide, by decide, by decide, by decide⟩,
    ⟨?_, ?_, ?_, ?_, ?_, ?_, ?_, ?_, ?_, ?_, ?_, ?_, ?_, fun h => absurd h (by decide), ?_⟩,
    by unfold ClosedHeld; decide +kernel,
    ⟨fun h => (nomatch (h : false = true)), fun h => (nomatch (h : GateState.closed = .late)),
      fun h => (nomatch (h : false = true)), fun _ r h => (nomatch (h : none = some r))⟩⟩
  case refine_14 => rintro (h | ⟨_, h, _⟩ | ⟨_, h, _⟩) <;> cases h
  all_goals decide

/-- A line in PRODUCTION whose gate waits for HOST_LOST alone, a STANDING recipe ready. -/
def holding : State :=
  { line .production with
    mem := recipeMemory
    docket :=
      { Docket.atReset 1 with
        source := .standing 0, noDocket := false
        next := some { recipe := readRecipe recipeMemory 0, skipFlux := false } }
    gate := { Gate.atReset with holds := [.hostLost], lineClass := some cls }
    thermal := { Thermal.atReset with auth := true, pot := { loopAt 2500 0 0 0 with settled := true } }
    flux := { Flux.atReset 1000 with inhibit := [] }
    port := { Port.atReset with setup := some setup, hostLost := true } }

/-- The same line with the gate OPEN and HOST_LOST withdrawn. -/
def opened : State :=
  { gateAt holding .opened (some (offer 0 false)) with port := { Port.atReset with setup := some setup } }

theorem test_witness_GateRuleIsKept_moves :
    (GateFormed holding ∧ holding.gate.state ≠ .opened ∧
      ∃ t, step (queued holding [.hostAliveWrite 0]) = .next t ∧ (t.gate.state == .opened) = true) ∧
    opened.gate.state = .opened ∧
    (∃ t, step (queued opened [.heatAuthDisable]) = .next t ∧ (t.gate.state == .late) = true) :=
  ⟨⟨⟨by decide, by decide, by decide, by decide⟩, nofun, goes_to (by decide +kernel)⟩, rfl, goes_to (by decide +kernel)⟩

/-- R41: the withdrawal of HOST_LOST changes the hold set, and sets HOLD_CHANGED. -/
theorem test_witness_GateRuleIsKept_holds :
    Instr.hostAliveWrite 0 ≠ .portReset ∧ (∀ ws, Instr.hostAliveWrite 0 ≠ .powerOnReset ws) ∧
      ∃ t, exec (.hostAliveWrite 0) holding = .next t ∧
        (t.gate.holds != holding.gate.holds && t.port.notices.getLsbD 10) = true :=
  ⟨nofun, nofun, goes_to (by decide +kernel)⟩

/-- A LATE gate with its limit at 1020.1 mm and a board whose exit window ends at 1020.0 mm, an entry change pending from 1019.5
mm and an exit change from 1019.6 mm; the two waits stand or not. -/
def deferring (p : Pos) (waits : Bool) : State :=
  let s := eyeAt (eyeAt (tracked (line .production) p [board 1 0 .tracked (bound 0)]) .entry false 10195) .exit false 10196
  { s with
    track := { s.track with lostWaits := waits }
    gate := { s.gate with state := .late, lateLimit := some 10201, lateWaits := waits } }

/-- R16 and R47: both waits begin at 1020.1 mm, and outlive a reverse count to 1020.0 mm. -/
theorem test_witness_GateRuleIsKept_waits :
    WaitsFormed (deferring 10201 true) ∧
      (∃ t, step (queued (deferring 10201 true) [.encoderCount .backward]) = .next t ∧
        (t.track.pos == 10200 && t.gate.lateWaits && t.track.lostWaits) = true) ∧
      WaitsFormed (deferring 10200 false) :=
  ⟨⟨fun _ => ⟨rfl, rfl, 10201, rfl, 10195, rfl, by decide⟩, fun _ _ _ _ _ _ _ _ => rfl,
      fun _ => ⟨rfl, _, rfl, 10196, rfl, by decide, by decide⟩, fun _ _ _ _ _ _ _ => rfl⟩,
    goes_to (by decide +kernel),
    ⟨nofun, fun _ _ l hl _ _ h => by
        cases (hl : some (10201 : Pos) = some l)
        exact absurd h (by decide),
      nofun, fun _ r hr _ _ h => by
        cases (hr : some (board 1 0 .tracked (bound 0)) = some r)
        exact absurd h (by unfold PastExit; decide)⟩⟩

theorem test_witness_ModeRulesAreKept_changeover :
    ∃ t, step (queued
        { opened with
          docket := holding.docket
          gate :=
            { Gate.atReset with lineClass := some { cls with width := 900 }, phase := .draining, target := some cls } }
        [.upstreamAvailableChange true]) = .next t ∧ (t.gate.phase == .moving) = true :=
  goes_to (by decide +kernel)

theorem test_witness_LineRulesAreKept :
    (∃ t, step waiting = .next t) ∧ AnnunciatorsFormed waiting ∧ OutfeedFormed waiting ∧
      NextBoardHeld waiting ∧ NoticeLineFormed waiting ∧ InhibitFormed waiting ∧ SeverityFormed waiting ∧ CountsFormed waiting ∧
      (∀ rest, waiting.pending ≠ .portReset :: rest ∧ ∀ ws, waiting.pending ≠ .powerOnReset ws :: rest) :=
  ⟨⟨_, rfl⟩, ⟨by decide, by decide⟩, ⟨by decide, by decide, by decide⟩, fun h => absurd rfl h,
    by unfold NoticeLineFormed; decide,
    ⟨by decide, by decide, by decide, by decide, by decide⟩, by unfold SeverityFormed; decide,
    ⟨by decide, by decide, by decide, by decide⟩, fun _ => ⟨nofun, nofun⟩⟩

/-- An outfeed whose end sensor is about to change from `b`, a board at the exit eye, which reads blocked. -/
def handing (st : OutfeedState) (b stop : Bool) : State :=
  { line .production with
    track := { State.reset.track with exitEye := ⟨true, none, 0⟩ }
    outfeed :=
      { Outfeed.atReset Pins.atRest with state := st, sensor := ⟨b, some 0, 0⟩, stop := stop, available := st == .holding } }

/-- R158: a board that comes to be held with its tail at the exit eye raises the stop request; one that leaves takes the outfeed
on to LOADING, the request lowered; a board that has come up behind a held one has it raised. -/
theorem test_witness_LineRulesAreKept_stop :
    (OutfeedFormed (handing .loading false false) ∧ NextBoardHeld (handing .loading false false) ∧
      ∃ t, exec .endSensorEvent (handing .loading false false) = .next t ∧
        (t.outfeed.state == .holding && t.outfeed.stop) = true) ∧
    (OutfeedFormed (handing .holding true true) ∧ NextBoardHeld (handing .holding true true) ∧
      ∃ t, exec .endSensorEvent (handing .holding true true) = .next t ∧
        (t.outfeed.state == .loading && !t.outfeed.stop) = true) ∧
    NextBoardNear (tracked (line .production) 9800 [board 1 0 .tracked none]) :=
  ⟨⟨⟨by decide, by decide, by decide⟩, fun _ h => (nomatch h.2.choose_spec.1), goes_to (by decide +kernel)⟩,
    ⟨⟨by decide, by decide, by decide⟩, fun _ _ => rfl, goes_to (by decide +kernel)⟩,
    by decide, _, rfl, by decide⟩

/-- Two boards in the list, spray edges of the older, a shot, and an entry edge pending. -/
def listed : State :=
  { queued (eyeAt (tracked (line .production) 2000 [board 1 100 .tracked none, board 2 1200 .tracked none]) .entry
      false 1900) [.noticeRead] with
    flux :=
      { Flux.atReset 1000 with
        edges := [⟨1700, 1, 0, true, 1, 10⟩, ⟨1800, 1, 0, false, 1, 10⟩], active := [⟨1, 1, 1, 10⟩] }
    pot := { Pot.atReset false with history := [0, 0] } }

theorem test_witness_ListAndHeldSlotRulesAreKept :
    ((∃ t, step waiting = .next t) ∧ ListBounded waiting ∧ HeldFormed waiting) ∧
      (∃ t, step listed = .next t) ∧ LeadsComparable listed ∧ ListOrdered listed :=
  ⟨⟨⟨_, rfl⟩, by unfold ListBounded; decide, ⟨by decide, by decide, fun o h => by
      simp [waiting, queued, State.reset, Docket.atReset] at h⟩⟩,
    ⟨_, rfl⟩,
    fun p hp n hn _ r hr => by
      cases (hp : some (1900 : Pos) = some p)
      revert r; decide,
    by unfold ListOrdered; decide⟩

theorem test_witness_TankBoundIsKept :
    (∃ t, step listed = .next t) ∧ TankBounded listed ∧ LowFormed listed ∧ SetupChecked listed ∧ HistoryBounded listed ∧
      EdgesBounded listed ∧ EdgesComparable listed ∧ EdgesOrdered listed ∧ EdgesOwned listed :=
  ⟨⟨_, rfl⟩, by unfold TankBounded; decide, by unfold LowFormed; decide, test_line_checked,
    by unfold HistoryBounded; decide, ⟨by decide, fun o h => nomatch (h : none = some o)⟩,
    ⟨0, by decide, by decide, fun p hp => by
      cases (hp : some (1900 : Pos) = some p)
      decide, fun o h => nomatch (h : none = some o)⟩,
    by unfold EdgesOrdered; decide, ⟨by decide, by decide⟩⟩

/-- Two shots, the older as old as a shot may be. -/
def shots : State :=
  { State.reset with clock := 600000, pot := { Pot.atReset false with history := [0, 1] } }

theorem test_witness_TankBoundIsKept_ages : shots.pending = [] ∧ AgesFormed shots := by
  refine ⟨rfl, by decide, fun h hh => ?_⟩
  obtain rfl | rfl : h = 0 ∨ h = 1 := by simpa [shots] using hh
  all_goals decide

/-! ## Witnesses: rules about all commands, and the resets -/

theorem test_witness_PositionSetupAndAuthHaveOneOwner :
    (∃ t, exec .noticeRead State.reset = .next t) ∧ Instr.noticeRead ≠ .portReset ∧
      (∀ ws, Instr.noticeRead ≠ .powerOnReset ws) ∧ (∀ d, Instr.noticeRead ≠ .encoderCount d) ∧
      (∀ ws, Instr.noticeRead ≠ .loadSetup ws) ∧ (∀ v, Instr.noticeRead ≠ .heatAuthInvalid v) :=
  ⟨⟨_, rfl⟩, nofun, nofun, nofun, nofun, nofun⟩

/-- R140: at the end of the fan command point 3, active, takes the clear transition, and point 4 stands. -/
theorem test_witness_PositionSetupAndAuthHaveOneOwner_points :
    let p : Point := { Point.atReset with ann := .activeUnack, sev := .warning, value := 7 }
    let s : State :=
      { offLine with
        modes := { Modes.atReset with runOn := some 0 }
        extr := { Extr.atReset with fan := true, points := (Extr.atReset.points.set 3 p).set 4 p } }
    ∃ t, exec .runOnTimerExpiry s = .next t ∧
      (s.extr.fan && !t.extr.fan && (t.extr.points.get 3).ann == .clearedUnack && (t.extr.points.get 3).sev == .none &&
        t.extr.points.get 4 == p) = true :=
  goes_to (by decide +kernel)

theorem test_witness_CausesAndHaltedStayUntilTheHostActs :
    ∃ (s : State), (∃ t, exec .noticeRead s = .next t) ∧ HaltCause.estop ∈ s.modes.causes ∧ s.modes.mode = .halted ∧
      (∀ ws, Instr.noticeRead ≠ .clear ws) ∧ (∀ ws, Instr.noticeRead ≠ .shutdown ws) :=
  ⟨{ line .halted with modes := { Modes.atReset with mode := .halted, causes := [.estop] } },
    ⟨_, rfl⟩, by decide, rfl, nofun, nofun⟩

theorem test_witness_HostRecordsAreNeverWritten :
    (∃ t, exec .noticeRead State.reset = .next t) ∧ carriedWrites .noticeRead = [] ∧
      (∀ a ∈ [0x0040, 0x015F, 0x0360, 0x095F], (0x0040 ≤ a ∧ a < 0x0160) ∨ (0x0360 ≤ a ∧ a < 0x0960)) :=
  ⟨⟨_, rfl⟩, rfl, by decide⟩

theorem test_witness_PortResetClosesAdmittedSlots :
    ∃ (s : State), slotState s.mem 0 = .admitted ∧ slotState s.mem 63 = .posted ∧
      (∀ k, s.flux.pulses.get k = none) ∧ s.mem.read32 4 = 50000000 :=
  ⟨{ State.reset with
      mem := (((Memory.write [] (slotAt 0) 2).write (slotAt 63) 1).write 4 0xF080).write 5 0x02FA },
    by decide, by decide, by decide, by decide⟩

/-- R69: a mirror of 50,000,001 returns as 50,000,000, and of a running pulse 8 ms at 50 nl take the remainder over 1000. -/
theorem test_witness_PortReset_mirror_and_pulse :
    (∃ t, exec .portReset { State.reset with mem := (Memory.write [] 4 0xF081).write 5 0x02FA } = .next t ∧
      (t.flux.counter == 50000000) = true) ∧
    (∃ t, exec .portReset
        { line .production with
          clock := 8
          flux :=
            { Flux.atReset 1000 with
              remainder := 600, pulses := (Flux.atReset 1000).pulses.set 7 (some ⟨0, 16, 1, 0⟩) } } = .next t ∧
      (t.flux.counter == 999) = true) :=
  ⟨goes_to (by decide +kernel), goes_to (by decide +kernel)⟩

/-- R187: of P, at offsets 20h and 21h, a cut refresh has written both words or none. -/
theorem test_torn_pair_is_whole :
    let torn := fun bit : Nat =>
      [0x20, 0x21].map fun j => (tornBlock (tracked (line .production) 0x50007 []) (BitVec.ofNat 512 (2 ^ bit))).getD j 9
    torn 0x20 = [7, 5] ∧ torn 0x21 = [0, 0] := by
  decide +kernel

/-- R185: at 250 ms, the refresh of that moment due, one cut short after word 161h, of PRODUCTION, leaves the odd count and that
word; at 251 ms none can be cut. -/
theorem test_witness_PortReset_torn :
    let s : State := { line .production with clock := 250, mem := Memory.write [] 0x0162 9 }
    (let t := s.tearRefresh (some 2)
     (t.port.generation == 1 && [0x0160, 0x0161, 0x0162].map t.mem.read == [1, 2, 9]) = true) ∧
    (∃ t, exec .portReset { s with clock := 251, statusAt := 250 } = .next t ∧
      (t.port.generation == 0 && [0x0160, 0x0161, 0x0162].map t.mem.read == [0, 0, 9]) = true) ∧
    s.clock.toNat % 250 = 0 ∧ s.clock ≠ s.statusAt :=
  ⟨by decide +kernel, goes_to (by decide +kernel), rfl, by decide⟩

theorem test_witness_ResetsLeaveTheBlocksAtRest :
    (∀ port : Bool, ∃ c, (port = true ∧ c = Instr.portReset) ∨ (port = false ∧ ∃ ws, c = Instr.powerOnReset ws)) ∧
      ∃ (s : State), slotState s.mem 63 = .admitted ∧ s.pins.estop = true ∧ s.loaded = true :=
  ⟨fun b => by
      cases b
      · exact ⟨.powerOnReset [], .inr ⟨rfl, [], rfl⟩⟩
      · exact ⟨.portReset, .inl ⟨rfl, rfl⟩⟩,
    { line .production with pins := { Pins.atRest with estop := true }, mem := Memory.write [] (slotAt 63) 2 },
    by decide, rfl, rfl⟩

/-! ## Witnesses: the track -/

theorem test_witness_EncoderCountMovesThePosition :
    State.reset.loaded = false ∧
      ∃ (s : State), s.loaded = true ∧ 0 < s.ws.countsPerMetre ∧ s.track.frac = s.ws.countsPerMetre - 1 ∧
        s.track.frac < s.ws.countsPerMetre :=
  ⟨rfl, { line .warmup with track := { State.reset.track with frac := 39999 } }, rfl, by decide, by decide, by decide⟩

/-- The binding of a board whose recipe runs the main pump and heats zone 1. -/
def soldering : Option Binding :=
  some { offer 0 false with recipe := { recipe with zones := ⟨1500, 0, 0, 0, 0, 0⟩, mainRpm := 900 } }.binding

/-- A line in PRODUCTION one tenth short of a move to `p`, with one board at lead 0. -/
def passing (p : Pos) (l : Option Nat) : State :=
  let s := tracked (line .production) (p - 1) [{ board 1 0 .tracked soldering with length := l }]
  { s with track := { s.track with frac := 30000 } }

/-- R113, R114 and R129: the capture at Y plus half the length, with the pyrometer FAULTED; at X, of no length and of one whose
half reaches beyond X; none short of both; the entry of an unsteady wave; and a count of three tenths that passes it. -/
theorem test_witness_EncoderCount_records :
    (∃ t, exec (.encoderCount .forward) (passing 7000 (some 1000)) = .next t ∧
      (t.track.pos == 7000 && t.track.records.map (fun r => (r.topside, r.has .topsideUnmeasured)) == [(none, true)]) = true) ∧
    (∃ t, exec (.encoderCount .forward) (passing 10000 none) = .next t ∧
      (t.track.records.map (fun r => (r.topside, r.has .topsideUnmeasured)) == [(none, true)]) = true) ∧
    (∃ t, exec (.encoderCount .forward) (passing 6999 (some 1000)) = .next t ∧
      (t.track.pos == 6999 && t.track.records.map Record.captured == [false]) = true) ∧
    (∃ t, exec (.encoderCount .forward) (passing 10000 (some 9000)) = .next t ∧
      (t.track.records.map (fun r => (r.topside, r.has .topsideUnmeasured)) == [(none, true)]) = true) ∧
    (∃ t, exec (.encoderCount .forward) (passing 7500 none) = .next t ∧
      (t.track.records.map (·.has .waveUnstable) == [true]) = true) ∧
    (∃ t, exec (.encoderCount .forward)
        { passing 7500 none with
          track := { (passing 7500 none).track with frac := 0 }
          port := { Port.atReset with setup := some { words := setup.words.set 0 3000 } } } = .next t ∧
      (t.track.pos == 7502 && t.track.records.map (·.has .waveUnstable) == [true]) = true) :=
  ⟨goes_to (by decide +kernel), goes_to (by decide +kernel), goes_to (by decide +kernel), goes_to (by decide +kernel),
    goes_to (by decide +kernel), goes_to (by decide +kernel)⟩

theorem test_witness_EyeRawChange_nothing_pending : (State.reset.track.eye .entry).pendingAt = none := rfl

theorem test_witness_EyeRawChange_drop :
    ∃ s : State, (s.track.eye .exit).pendingAt ≠ none ∧ false = (s.track.eye .exit).accepted ∧
      (s.track.records.find? fun q => q.stage != .exiting) = none :=
  ⟨eyeAt (tracked (line .warmup) 30 [board 1 0 .exiting none]) .exit false 20, by decide, rfl, by decide⟩

/-- A board 0.1 mm past its exit window of 980.0 to 1020.0 mm, in COOLDOWN, an exit edge pending past the window. -/
def lastLost : State :=
  let s := eyeAt (tracked (line .cooldown) 10201 [board 1 0 .tracked (bound 0)]) .exit false 10201
  { s with outfeed := Outfeed.atReset Pins.atRest }

/-- R16 and R47: a dropped change that nothing waits on leaves the gate and the list; one that had deferred closes the gate, or
the record, though a reverse count has taken P back; and so does one past the window. -/
theorem test_witness_EyeRawChange_waits :
    (exec (.eyeRawChange .entry false) (deferring 10200 false) = .next ((deferring 10200 false).rawEye .entry false)) ∧
    (exec (.eyeRawChange .exit false) (deferring 10200 false) = .next ((deferring 10200 false).rawEye .exit false)) ∧
    (∃ t, exec (.eyeRawChange .entry false) (deferring 10200 true) = .next t ∧ (t.gate.state == .closed) = true) ∧
    (∃ t, exec (.eyeRawChange .exit false) (deferring 10200 true) = .next t ∧
      (t.track.records.isEmpty && t.mem.read (slotAt 0) == 3 && t.mem.read (slotAt 0 + 17) == 2) = true) ∧
    (∃ t, exec (.eyeRawChange .exit false) lastLost = .next t ∧
      (t.track.records.isEmpty && t.modes.mode == .off) = true) :=
  ⟨rfl, rfl, goes_to (by decide +kernel), goes_to (by decide +kernel), goes_to (by decide +kernel)⟩

theorem test_witness_EyeRawChange_lost :
    ∃ (s : State) (r : Record) (past : Record → Bool), (s.track.eye .exit).pendingAt ≠ none ∧
      (s.track.eye .exit).accepted = false ∧ s.track.lostWaits = true ∧
      (s.track.records.filter fun q => q.stage != .exiting) = [r] ∧ (∀ q, past q = true ↔ PastExit s q) ∧
      s.track.records.length ≤ 16 :=
  ⟨deferring 10200 true, _, pastExit (deferring 10200 true), nofun, rfl, rfl, rfl, fun _ => Iff.rfl, by decide⟩

/-- Fifteen boards, the newest at lead 999. -/
def fifteen : List Record :=
  List.replicate 15 (board 1 999 .tracked none)

theorem test_witness_LeadingEdgeInClosed :
    ∃ (s : State) (p : Pos), s.track.entryEye.accepted = false ∧ EyeReady s .entry p ∧ s.track.records.length = 15 ∧
      (∀ r, s.track.records.getLast? = some r → strictlyAfter p r.lead = true) ∧ s.gate.state = .closed :=
  ⟨eyeAt (tracked (line .production) 1020 fifteen) .entry false 1000, 1000, rfl, ⟨rfl, by decide⟩, rfl,
    fun r h => by
      obtain rfl : board 1 999 .tracked none = r := by simpa [fifteen, eyeAt, tracked, Track.setEye] using h
      decide,
    rfl⟩

/-- A line with a leading edge ready and an offer. -/
def admitting (g : GateState) (skip : Bool) : State :=
  eyeAt (tracked (gateAt (line .production) g (some (offer 3 skip))) 1020 []) .entry false 1000

theorem test_witness_Admit_open :
    ∃ (s : State) (p : Pos) (o : Offer), s.track.entryEye.accepted = false ∧ EyeReady s .entry p ∧ s.track.records = [] ∧
      s.gate.state = .opened ∧ s.docket.offer = some o ∧ o.origin = .docket ∧ o.skipFlux = false ∧
      (∃ (w : Window), o.recipe.windows[0]? = some w) ∧ (∀ a ∈ s.flux.active, a.ordinal ≠ s.track.ordinal + 1) ∧
      ∀ n : SlotIx, slotState s.mem n = .posted → n ∉ s.docket.held → n ≠ o.slot →
        s.mem.read (slotAt n + 1) ≠ s.docket.expected + 1 :=
  ⟨admitting .opened false, 1000, offer 3 false, rfl, ⟨rfl, by decide⟩, rfl, rfl, rfl, rfl, rfl, ⟨_, rfl⟩, nofun,
    fun n h => absurd h ((by decide : ∀ n : SlotIx, slotState (admitting .opened false).mem n ≠ .posted) n)⟩

/-- An offer of the STANDING source. -/
theorem test_witness_Admit_standing :
    ∃ (s : State) (p : Pos) (o : Offer), s.track.entryEye.accepted = false ∧ EyeReady s .entry p ∧ s.track.records = [] ∧
      s.gate.state = .opened ∧ s.docket.offer = some o ∧ o.origin = .standing ∧ s.docket.source ≠ .docket :=
  ⟨eyeAt (tracked { opened with
        docket := { holding.docket with offer := some { offer 0 false with origin := .standing } } } 1020 []) .entry false 1000,
    1000, { offer 0 false with origin := .standing }, rfl, ⟨rfl, by decide⟩, rfl, rfl, rfl, rfl, nofun⟩

theorem test_witness_Admit_late_skip :
    ∃ (s : State) (p : Pos) (o : Offer), s.track.entryEye.accepted = false ∧ EyeReady s .entry p ∧ s.gate.state = .late ∧
      s.docket.offer = some o ∧ o.origin ≠ .intruder ∧ o.skipFlux = true :=
  ⟨admitting .late true, 1000, offer 3 true, rfl, ⟨rfl, by decide⟩, rfl, rfl, by decide, rfl⟩

theorem test_witness_Untracked_full :
    ∃ (s : State) (p : Pos), s.track.entryEye.accepted = false ∧ EyeReady s .entry p ∧ s.track.records.length = 16 ∧
      s.ws.stopOnFault = true :=
  ⟨eyeAt (tracked (line .production) 1020 (fifteen ++ [board 2 999 .tracked none])) .entry false 1000, 1000, rfl,
    ⟨rfl, by decide⟩, rfl, by decide⟩

theorem test_witness_Untracked_order :
    ∃ (s : State) (p : Pos) (r : Record), s.track.entryEye.accepted = false ∧ EyeReady s .entry p ∧
      s.track.records.getLast? = some r ∧ strictlyAfter p r.lead = false ∧ s.ws.stopOnFault = false :=
  ⟨eyeAt (tracked State.reset 1020 [board 1 1000 .tracked none]) .entry false 1000, 1000,
    board 1 1000 .tracked none, rfl, ⟨rfl, by decide⟩, rfl, by decide, by decide⟩

/-- A RECEIVING gate with a trailing edge ready at 1101 and one board, which owns the edge or not. -/
def trailing (owner : Bool) : State :=
  let s := gateAt (eyeAt (tracked (line .production) 1121 [board 1 100 .entering (bound 3)]) .entry true 1101) .receiving none
  { s with track := { s.track with owner := owner } }

theorem test_witness_TrailingEdge :
    ∃ (s : State) (p : Pos) (rs : List Record) (r : Record) (l : Nat), s.track.entryEye.accepted = true ∧
      EyeReady s .entry p ∧ s.track.owner = true ∧ s.track.records = rs ++ [r] ∧ r.trail = none ∧ r.recipe? ≠ none ∧
      l = min (p - r.lead).toNat 65535 ∧ s.ws.maxLength < l ∧ s.gate.state = .receiving ∧
      atOrAfter s.track.pos (p + tenths s.ws.minGap) = false :=
  ⟨trailing true, 1101, [], board 1 100 .entering (bound 3), 1001, rfl, ⟨rfl, by decide⟩, rfl, rfl, rfl, by decide,
    by decide, by decide, rfl, by decide⟩

theorem test_witness_TrailingEdge_no_owner :
    ∃ (s : State) (p : Pos), s.track.entryEye.accepted = true ∧ EyeReady s .entry p ∧ s.track.owner = false ∧
      s.gate.state = .receiving :=
  ⟨trailing false, 1101, rfl, ⟨rfl, by decide⟩, rfl, rfl⟩

/-- A line with a leading edge ready at the exit and one tracked board at lead 0. -/
def atExit (p : Pos) : State :=
  eyeAt (tracked (line .production) (p + 20) [board 1 0 .tracked (bound 3)]) .exit false p

theorem test_witness_ExitLeading_match :
    ∃ (s : State) (p : Pos) (r : Record), s.track.exitEye.accepted = false ∧ EyeReady s .exit p ∧ s.outfeed.state = .empty ∧
      (s.track.records.find? fun q => q.stage != .exiting) = some r ∧
      atOrAfter p (r.lead + tenths s.ws.exitX - tenths s.ws.exitTol) = true ∧
      atOrAfter (r.lead + tenths s.ws.exitX + tenths s.ws.exitTol) p = true :=
  ⟨atExit 9800, 9800, _, rfl, ⟨rfl, by decide⟩, rfl, rfl, by decide, by decide⟩

theorem test_witness_ExitLeading_outside :
    ∃ (s : State) (p : Pos) (r : Record), s.track.exitEye.accepted = false ∧ EyeReady s .exit p ∧
      (s.track.records.find? fun q => q.stage != .exiting) = some r ∧
      ¬ (atOrAfter p (r.lead + tenths s.ws.exitX - tenths s.ws.exitTol) = true ∧
        atOrAfter (r.lead + tenths s.ws.exitX + tenths s.ws.exitTol) p = true) ∧ s.ws.stopOnFault = true :=
  ⟨atExit 9799, 9799, _, rfl, ⟨rfl, by decide⟩, rfl, by decide, by decide⟩

/-- R18: with stop-on-track-fault clear a PHANTOM joins no cause, with a candidate out of its window or with none. -/
theorem test_witness_ExitLeading_goes_on :
    ∃ (s u : State), s.ws.stopOnFault = false ∧ EyeReady s .exit 9799 ∧ s.track.records ≠ [] ∧
      u.ws.stopOnFault = false ∧ EyeReady u .exit 9799 ∧ u.track.records = [] ∧
      (∃ t, exec (.eyeChangeAccepted .exit) s = .next t ∧ (t.track.phantom && t.modes.causes.isEmpty) = true) ∧
      ∃ t, exec (.eyeChangeAccepted .exit) u = .next t ∧ (t.track.phantom && t.modes.causes.isEmpty) = true :=
  let go := fun s : State => { s with port := { s.port with setup := some { words := setup.words.set 5 0 } } }
  ⟨go (atExit 9799), go (eyeAt (tracked (line .production) 9819 []) .exit false 9799), by decide, ⟨rfl, by decide⟩,
    by decide, by decide, ⟨rfl, by decide⟩, rfl, goes_to (by decide +kernel), goes_to (by decide +kernel)⟩

theorem test_witness_ExitLeading_none :
    ∃ (s : State) (p : Pos), s.track.exitEye.accepted = false ∧ EyeReady s .exit p ∧
      (s.track.records.find? fun q => q.stage != .exiting) = none :=
  ⟨eyeAt (tracked (line .production) 30 []) .exit false 10, 10, rfl, ⟨rfl, by decide⟩, rfl⟩

/-- A line with a trailing edge ready at the exit and one board leaving, its exit lead and its lowest contact speed given. -/
def leaving (b : Option Binding) (v : Option Nat) : State :=
  eyeAt (tracked (line .production) 11020 [{ board 1 0 .exiting b with exitLead := some 9990, minSpeed := v }]) .exit true
    11000

theorem test_witness_ExitTrailing_bound :
    ∃ (s : State) (p : Pos) (r : Record) (n : SlotIx) (l c v : Nat), s.track.exitEye.accepted = true ∧ EyeReady s .exit p ∧
      (s.track.records.find? fun q => q.stage == .exiting) = some r ∧ r.slot? = some n ∧
      l = min (p - r.exitLead.getD p).toNat 65535 ∧ l = 1010 ∧ r.minSpeed = some v ∧ v ≠ 0 ∧
      c = min (s.ws.contactWidth * 6000 / v) 65535 ∧ r.flux < 2 ^ 32 :=
  ⟨leaving (bound 63) (some 1200), 11000, _, 63, 1010, _, 1200, rfl, ⟨rfl, by decide⟩, rfl, rfl, by decide, rfl, rfl,
    by decide, rfl, by decide⟩

theorem test_witness_ExitTrailing_intruder :
    ∃ (s : State) (p : Pos) (r : Record), s.track.exitEye.accepted = true ∧ EyeReady s .exit p ∧
      (s.track.records.find? fun q => q.stage == .exiting) = some r ∧ r.slot? = none ∧ r.minSpeed = none :=
  ⟨leaving none none, 11000, _, rfl, ⟨rfl, by decide⟩, rfl, rfl, rfl⟩

theorem test_witness_ExitTrailing_standing_still :
    ∃ (s : State) (p : Pos) (r : Record), s.track.exitEye.accepted = true ∧ EyeReady s .exit p ∧
      (s.track.records.find? fun q => q.stage == .exiting) = some r ∧ r.minSpeed = some 0 :=
  ⟨leaving (bound 0) (some 0), 11000, _, rfl, ⟨rfl, by decide⟩, rfl, rfl⟩

theorem test_witness_EntryJam :
    ∃ (s : State) (r : Record), (∀ p, ¬ EyeReady s .entry p) ∧ r ∈ s.track.records ∧ r.stage = .entering ∧ r.jam = false ∧
      atOrAfter s.track.pos (r.lead + tenths (3 * s.ws.maxLength)) = true :=
  ⟨tracked (line .production) 3000 [board 1 0 .entering none], board 1 0 .entering none,
    fun p h => absurd h.1 (by simp [tracked, line, State.reset, Track.atReset, Qualifier.atReset, Track.eye]),
    List.mem_singleton_self _, rfl, rfl, by decide⟩

theorem test_witness_BoardLost :
    ∃ (s : State) (r : Record) (n : SlotIx) (past : Record → Bool) (lost : List Record),
      (s.track.records.find? fun q => q.stage != .exiting) = some r ∧
      (∀ q, past q = true ↔ PastExit s q ∧
        ∀ p, s.track.exitEye.pendingAt = some p → s.track.exitEye.accepted = true ∨ ¬ InExitWindow s q p) ∧
      past r = true ∧ s.track.records.length ≤ 16 ∧
      lost = (s.track.records.filter fun q => q.stage != .exiting).takeWhile past ∧ r.slot? = some n ∧ lost = [r] ∧
      .boardLost ∉ s.modes.causes ∧ s.modes.mode = .cooldown ∧ s.outfeed.state = .empty ∧
      s.track.exitEye.pendingAt = some 10201 :=
  ⟨lastLost, board 1 0 .tracked (bound 0), 0, fun q => pastExit lastLost q && !inExitWindow lastLost q 10201,
    [board 1 0 .tracked (bound 0)], rfl,
    fun q => by
      have e : lastLost.track.exitEye = { accepted := false, pendingAt := some 10201, count := 0 } := rfl
      simp [e, PastExit, InExitWindow, pastExit, inExitWindow, expectedExit]
      rw [← Bool.and_eq_false_imp, Bool.and_eq_false_iff]
      exact fun _ => Iff.rfl,
    by decide, by decide, by decide, rfl, rfl, by decide, rfl, rfl, rfl⟩

theorem test_witness_LateLimitReached :
    ∃ (s : State) (l : Pos), s.gate.state = .late ∧ s.gate.lateLimit = some l ∧ atOrAfter s.track.pos l = true ∧
      s.track.entryEye.pendingAt = none :=
  ⟨{ line .production with gate := { State.reset.gate with state := .late, lateLimit := some 0 } }, 0, rfl, rfl,
    by decide, rfl⟩

/-- R47: a change that began at the limit does not defer the close, and one from before it does. -/
theorem test_witness_LateLimitReached_pending :
    (∃ (s : State) (l p : Pos), s.gate.state = .late ∧ s.gate.lateLimit = some l ∧ atOrAfter s.track.pos l = true ∧
      s.track.entryEye.pendingAt = some p ∧ atOrAfter p l = true) ∧
    ∃ (s : State) (l p : Pos), s.gate.state = .late ∧ s.gate.lateLimit = some l ∧ atOrAfter s.track.pos l = true ∧
      s.track.entryEye.pendingAt = some p ∧ s.track.entryEye.accepted = false ∧ atOrAfter p l = false :=
  ⟨⟨eyeAt (deferring 10210 false) .entry false 10201, 10201, 10201, rfl, rfl, by decide, rfl, by decide⟩,
    deferring 10210 true, 10201, 10195, rfl, rfl, by decide, rfl, rfl, by decide⟩

theorem test_witness_SpeedStableSet :
    ∃ (s : State), s.track.speedStable = false ∧ 4 ≤ s.track.passes :=
  ⟨{ line .production with track := { State.reset.track with passes := 4 } }, rfl, by decide⟩

theorem test_witness_ConveyorSpeed :
    ∃ (s : State), 12 ≤ s.track.misses ∧ s.modes.mode.runs = true ∧ .conveyorSpeed ∉ s.modes.causes :=
  ⟨{ line .production with track := { State.reset.track with misses := 12 } }, by decide, rfl, by decide⟩

/-! ## Witnesses: the status interval end and the thermal unit -/

theorem test_witness_StatusIntervalEnd :
    ∃ (s : State) (i : Readings), s.pins.estop = true ∧ s.modes.mode.runs = true ∧ i.thermostatOpen = true ∧
      i.tankEmpty = true ∧ s.pot.levelGood = true ∧ s.loaded = true ∧ i.level = some 1000 ∧ FansFormed s ∧
      s.extr.fan = true ∧ s.extr.grace1 = none ∧ s.extr.grace2 = some 1 ∧
      ∃ r ∈ s.track.records, r.origin ≠ .intruder ∧ r.rpm .main ≠ 0 ∧
        Over s r (s.ws.waveStart .main) (s.ws.waveEnd .main) :=
  ⟨{ tracked (line .production) 7500 [board 1 0 .tracked soldering] with
      pins := { Pins.atRest with estop := true }
      extr := { Extr.atReset with fan := true, grace1 := none, grace2 := some 1 } },
    { Readings.atRest with thermostatOpen := true, tankEmpty := true, level := some 1000 }, rfl, rfl, rfl, rfl, rfl,
    rfl, rfl, ⟨⟨fun _ => .inl nofun, fun _ => rfl⟩, fun h => absurd rfl h⟩, rfl, rfl, rfl,
    board 1 0 .tracked soldering, List.mem_singleton_self _, nofun, by decide, by decide, nofun⟩

/-- A line in PRODUCTION whose speed window ends with `n` counts, and whose main pump has its reference. -/
def windowed (n : Int) (r : Nat) : State :=
  { running with
    track := { running.track with ref := r, net := n, passes := 3, misses := 11, speedStable := true }
    gate := { Gate.atReset with lineClass := some cls }
    pot := { Pot.atReset false with main := { Pump.atReset with ref := 900, target := 900, count := 1, stable := true } } }

/-- R7 and R8: 1200 mm/min asked for; 204 counts are 1224, 2 % above, 205 are 1230; 180 are 1080, 10 % below, 179 are 1074.
R128: 5 % of 900 are 45. -/
theorem test_witness_StatusIntervalEnd_windows :
    (∃ t, exec (.statusIntervalEnd { Readings.atRest with mainRpm := 945 } []) (windowed 204 1200) = .next t ∧
      (!t.track.refMoved && t.track.measured == 1224 && t.track.passes == 4 && t.track.misses == 0 && t.track.speedStable &&
        t.pot.main.count == 2 && t.pot.main.stable) = true) ∧
    (∃ t, exec (.statusIntervalEnd { Readings.atRest with mainRpm := 946 } []) (windowed 205 1200) = .next t ∧
      (t.track.passes == 0 && t.track.misses == 0 && !t.track.speedStable &&
        t.pot.main.count == 0 && !t.pot.main.stable) = true) ∧
    (∃ t, exec (.statusIntervalEnd Readings.atRest []) (windowed 180 1200) = .next t ∧
      (t.track.misses == 0) = true) ∧
    (∃ t, exec (.statusIntervalEnd Readings.atRest []) (windowed 179 1200) = .next t ∧
      (t.track.misses == 12 && t.track.passes == 0) = true) :=
  ⟨goes_to (by decide +kernel), goes_to (by decide +kernel), goes_to (by decide +kernel), goes_to (by decide +kernel)⟩

/-- R80 to R82: 6000 is a good sample and takes the place of the oldest in a full ring, 6001 is a bad one; each in an input GOOD,
FAULTED and FILLING. -/
theorem test_witness_StatusIntervalEnd_inputs :
    ∀ c ∈ [(InputState.good, (6000 : Int), [(2 : Int), 3, 4, 6000], (0, 1, 1)), (.good, 6001, [1, 2, 3, 4], (2, 1, 1)),
        (.faulted, 6000, [2, 3, 4, 6000], (1, 2, 1)), (.faulted, 6001, [], (1, 0, 1)),
        (.filling, 6000, [2, 3, 4, 6000], (1, 2, 2)), (.filling, -501, [1, 2, 3, 4], (1, 0, 2))],
      ∃ t, exec (.statusIntervalEnd { Readings.atRest with temps := Readings.atRest.temps.set 7 (some c.2.1) } [])
          { line .warmup with
            thermal := { Thermal.atReset with inputs := Thermal.atReset.inputs.set 7 ⟨c.1, 1, [1, 2, 3, 4], 1, 1⟩ } } = .next t ∧
        (t.thermal.inputs.get 7 == ⟨c.1, c.2.2.2.2.2, c.2.2.1, c.2.2.2.1, c.2.2.2.2.1⟩) = true :=
  goes_all (by decide +kernel)

/-- R117: a reading outside 0 to 1000 is bad. -/
theorem test_witness_StatusIntervalEnd_bad_level :
    ∃ (s : State) (i : Readings), s.pot.levelGood = true ∧ s.pot.feeder = .feeding 1 ∧
      ∀ v, i.level = some v → v < 0 ∨ 1000 < v :=
  ⟨{ line .production with pot := { Pot.atReset false with feeder := .feeding 1 } },
    { Readings.atRest with level := some 1001 }, rfl, rfl, fun v h => by cases h; decide⟩

/-- The state with one input's record. -/
def inputAt (k : Idx8) (i : Input) : State :=
  { line .warmup with thermal := { Thermal.atReset with inputs := Thermal.atReset.inputs.set k i } }

theorem test_witness_InputFault_pot :
    ∃ (s : State) (i : Input), i = s.thermal.inputs.get 6 ∧ i.state = .good ∧ 2 ≤ i.bad :=
  ⟨inputAt 6 { Input.atReset with state := .good, bad := 2 }, _, rfl, rfl, by decide⟩

theorem test_witness_InputFault_zone :
    ∃ (s : State) (i : Input) (r : Record), i = s.thermal.inputs.get (zoneInput 0) ∧ i.state = .good ∧ 2 ≤ i.bad ∧
      s.thermal.latches.get 0 = false ∧ r ∈ s.track.records ∧ r.origin ≠ .intruder ∧
      Over s r (s.ws.zoneStart 0) (s.ws.zoneEnd 0) ∧ r.zone 0 ≠ 0 :=
  ⟨tracked (inputAt 0 { Input.atReset with state := .good, bad := 2 }) 2000 [board 1 0 .tracked soldering], _,
    board 1 0 .tracked soldering, rfl, rfl, by decide, rfl, List.mem_singleton_self _, nofun, ⟨by decide, nofun⟩,
    by decide⟩

theorem test_witness_InputRecovery :
    ∃ (s : State) (i : Input), i = s.thermal.inputs.get 7 ∧ i.state = .faulted ∧ 4 ≤ i.good :=
  ⟨inputAt 7 { Input.atReset with state := .faulted, good := 4 }, _, rfl, rfl, by decide⟩

/-- R99 and R100: the sample that makes the input GOOD lies at the limit, 300.0 °C of the pot or 250.0 °C of a zone. -/
theorem test_witness_InputRecovery_hot :
    (∃ (s : State) (i : Input) (v : Int), i = s.thermal.inputs.get 6 ∧ i.state = .faulted ∧ 4 ≤ i.good ∧
      s.loaded = true ∧ s.modes.mode.runs = true ∧ (∃ t, exec (.inputRecovery 6) s = .next t ∧
        (t.thermal.potPV == some v) = true) ∧ s.ws.potHard = v) ∧
    (∃ (s : State) (i : Input) (v : Int), i = s.thermal.inputs.get (zoneInput 0) ∧ i.state = .faulted ∧ 4 ≤ i.good ∧
      s.loaded = true ∧ (∃ t, exec (.inputRecovery 0) s = .next t ∧ (t.thermal.zonePV 0 == some v) = true) ∧
      s.ws.zoneHard = v) :=
  ⟨⟨inputAt 6 { Input.atReset with state := .faulted, good := 4, ring := [3000, 3000, 3000, 3000] }, _, 3000, rfl, rfl,
      by decide, rfl, rfl, goes_to (by decide +kernel), by decide⟩,
    ⟨inputAt 0 { Input.atReset with state := .faulted, good := 4, ring := [2500, 2500, 2500, 2500] }, _, 2500, rfl, rfl,
      by decide, rfl, goes_to (by decide +kernel), by decide⟩⟩

theorem test_witness_InputFillingEnd_good :
    ∃ (s : State) (i : Input), i = s.thermal.inputs.get 6 ∧ i.state = .filling ∧ 4 ≤ i.seen ∧ 4 ≤ i.good :=
  ⟨inputAt 6 { Input.atReset with seen := 4, good := 4 }, _, rfl, rfl, by decide, by decide⟩

theorem test_witness_InputFillingEnd_lost :
    ∃ (s : State) (i : Input), i = s.thermal.inputs.get 6 ∧ i.state = .filling ∧ 4 ≤ i.seen ∧ i.good < 4 :=
  ⟨inputAt 6 { Input.atReset with seen := 4, good := 3 }, _, rfl, rfl, by decide, by decide⟩

/-- Section 5.6, the shared budget: its totals and what is left for the zones. -/
theorem test_witness_ZoneAllocation_scaled :
    ∃ (d rating : Tab6 Nat) (total : Nat), (∀ z, rating.get z = 0 → d.get z = 0) ∧
      total = (d.get 0 * rating.get 0) + (d.get 1 * rating.get 1) + (d.get 2 * rating.get 2)
        + (d.get 3 * rating.get 3) + (d.get 4 * rating.get 4) + (d.get 5 * rating.get 5) ∧
      19200000 < total ∧ (∀ z, d.get z ≤ 1000) ∧ (19200000 : Nat) ≤ 1000 * 60000 :=
  ⟨⟨900, 850, 700, 500, 1000, 400⟩, ⟨6000, 6000, 6000, 6000, 3000, 3000⟩, 21900000,
    by decide, by decide, by decide, by decide, by decide⟩

theorem test_witness_ZoneAllocation_fits :
    ∃ (d rating : Tab6 Nat) (total : Nat), (∀ z, rating.get z = 0 → d.get z = 0) ∧
      total = (d.get 0 * rating.get 0) + (d.get 1 * rating.get 1) + (d.get 2 * rating.get 2)
        + (d.get 3 * rating.get 3) + (d.get 4 * rating.get 4) + (d.get 5 * rating.get 5) ∧ total ≤ 0 ∧ d.get 0 = 0 :=
  ⟨⟨0, 0, 0, 0, 0, 0⟩, ⟨0, 1, 0, 0, 0, 0⟩, 0, by decide, by decide, by decide, by decide⟩

theorem test_witness_HeaterBoundary :
    ∃ s : State, (s.thermal.zones.get 0).sp = 0 ∧ (s.thermal.zones.get 5).sp ≠ 0 ∧ s.thermal.zonePV 5 = none :=
  ⟨{ line .warmup with
      thermal := { Thermal.atReset with zones := Thermal.atReset.zones.set 5 (loopAt 1500 0 0 0) } },
    rfl, by decide, by decide⟩

/-- A warming line with the pot at its setpoint and a GOOD input, the targets as their tables say. -/
def heated : State :=
  { line .warmup with
    gate := { Gate.atReset with lineClass := some cls }
    thermal :=
      { Thermal.atReset with
        auth := true, pot := loopAt 2500 0 0 0
        inputs := Thermal.atReset.inputs.set 6 { Input.atReset with state := .good, ring := [2400, 2400, 2400, 2400] } } }

theorem test_heated_targets : TargetsFormed heated := by
  refine ⟨fun z => ⟨fun _ h => (nomatch h), fun _ => ?_, nofun, fun _ b h => (nomatch (h : none = some b)), fun h => ?_, ?_⟩,
    fun w => ⟨fun _ h => (nomatch h), fun _ => ?_, nofun, fun _ b h => (nomatch (h : none = some b)), fun h => ?_⟩,
    by decide⟩
  case refine_2 | refine_5 => rcases h with h | h | h <;> cases h
  case refine_4 => cases w <;> rfl
  all_goals revert z; decide

/-- The same line, the pot SP at `sp` with remainder 7, the integral at `a`, the last request and grant 500 and `g`, the pot input
GOOD at 240.0 °C or FAULTED. -/
def ramping (sp a : Int) (g : Nat) (good : Bool) : State :=
  { heated with
    thermal :=
      { heated.thermal with
        ramp := 7, pot := { loopAt sp a 500 g with target := 2500 }
        inputs :=
          Thermal.atReset.inputs.set 6
            { Input.atReset with state := if good then .good else .faulted, ring := [2400, 2400, 2400, 2400] } } }

/-- R86 with 10 tenths a boundary: a landing on the target, a step short of it and one from above; the target met, a start at the
PV, and none without one. -/
theorem test_witness_HeaterBoundary_ramp :
    ∀ c ∈ [((2490 : Int), true, (2500 : Int), 0), (2489, true, 2499, 7), (2511, true, 2501, 7), (2500, true, 2500, 7),
        (0, true, 2400, 0), (0, false, 0, 0)],
      ∃ t, exec .heaterPeriodBoundary (ramping c.1 0 500 c.2.1) = .next t ∧
        (t.thermal.pot.sp == c.2.2.1 && t.thermal.ramp == c.2.2.2) = true :=
  goes_all (by decide +kernel)

/-- R87 to R89 with e = 100, P = 200 and ΔA = 300: a step of the integral; it is held at saturation, after a grant below the
request, and without HEAT_AUTH; without a PV the request is 0. -/
theorem test_witness_HeaterBoundary_control :
    (∀ c ∈ [((0 : Int), 500, true, (300 : Int), 203), (99999, 500, true, 99999, 1000), (0, 499, true, 0, 200),
        (5000, 500, false, 5000, 0)],
      ∃ t, exec .heaterPeriodBoundary (ramping 2500 c.1 c.2.1 c.2.2.1) = .next t ∧
        (t.thermal.pot.integral == c.2.2.2.1 && t.thermal.pot.request == c.2.2.2.2) = true) ∧
    ∃ t, exec .heaterPeriodBoundary
        { ramping 2500 0 500 true with thermal := { (ramping 2500 0 500 true).thermal with auth := false } } = .next t ∧
      (t.thermal.pot.integral == 0 && t.thermal.pot.request == 200) = true :=
  ⟨goes_all (by decide +kernel), goes_to (by decide +kernel)⟩

/-- A boundary at which the pot's request is eligible and granted. -/
theorem test_witness_HeaterBoundary_grants :
    TargetsFormed heated ∧ heated.thermal.auth = true ∧ heated.thermal.pot.target ≠ 0 ∧
      ∃ t, exec .heaterPeriodBoundary heated = .next t ∧ t.modes.mode = heated.modes.mode ∧
        t.thermal.pot.target = heated.thermal.pot.target ∧ PotEligible heated t 203 ∧
        ∀ z, ZoneEligible heated t z ((⟨0, 0, 0, 0, 0, 0⟩ : Tab6 Nat).get z) := by
  obtain ⟨t, h, p⟩ := goes_to (o := exec .heaterPeriodBoundary heated)
    (p := fun t => t.modes.mode == .warmup && t.thermal.pot.target == 2500 && t.thermal.pot.request == 203)
    (by decide +kernel)
  simp only [Bool.and_eq_true, beq_iff_eq] at p
  refine ⟨test_heated_targets, rfl, by decide, t, h, p.1.1, p.1.2, ⟨fun _ => p.2.symm, fun h => ?_⟩,
    fun z => ⟨fun h => ?_, fun _ => by revert z; decide⟩⟩
  · revert h; decide
  · exact absurd h.2.1 (by revert z; decide)

theorem test_witness_SettleCountSetsSettled :
    ∃ s : State, s.thermal.auth = true ∧ (s.thermal.loop .pot).target ≠ 0 ∧ (s.thermal.loop .pot).settled = false ∧
      0 < (s.thermal.loop .pot).count ∧ s.ws.settleTime .pot ≤ (s.thermal.loop .pot).count :=
  ⟨{ line .warmup with
      thermal := { Thermal.atReset with auth := true, pot := { loopAt 2500 0 0 0 with count := 5 } } },
    rfl, by decide, rfl, by decide, by decide⟩

theorem test_witness_HeaterOutputSwitch :
    (∃ (s : State) (m : Nat), nextSwitch s 7 = some m) ∧ dueNow State.reset = none ∧ periodTime State.reset < 1000 :=
  ⟨⟨{ line .warmup with
      thermal := { Thermal.atReset with auth := true, zones := Thermal.atReset.zones.set 5 (loopAt 1500 0 400 400) } },
    0, by decide⟩, by decide, by decide⟩

theorem test_witness_ThermostatAndEstop :
    ∃ s : State, s.modes.mode.runs = true ∧ .estop ∉ s.modes.causes :=
  ⟨line .production, rfl, by decide⟩

theorem test_witness_HeatAuth :
    State.reset.thermal.auth = false ∧
      (∃ s : State, s.thermal.auth = true) ∧ (0 : Word) ≠ 0xA55A ∧ (0 : Word) ≠ 0x5AA5 :=
  ⟨rfl, ⟨{ State.reset with thermal := { Thermal.atReset with auth := true } }, rfl⟩, by decide, by decide⟩

/-! ## Witnesses: the pot and the flux unit -/

/-- The line with a pot unit. -/
def potAt (p : Pot) : State :=
  { line .production with pot := p }

theorem test_witness_LevelInputRecovered :
    ∃ s : State, s.pot.levelGood = false ∧ 4 ≤ s.pot.levelRun :=
  ⟨potAt { Pot.atReset false with levelGood := false, levelRun := 4 }, rfl, by decide⟩

theorem test_witness_LevelFlagChange_lowlow :
    ∃ s : State, s.pot.levelGood = true ∧ 2 ≤ (s.pot.flag .lowlow).count ∧ s.pot.lowlow.set = false :=
  ⟨potAt { Pot.atReset false with lowlow := ⟨false, 2⟩ }, rfl, by decide, rfl⟩

theorem test_witness_LevelFlagChange_lowlow_clears :
    ∃ s : State, s.pot.levelGood = true ∧ 2 ≤ (s.pot.flag .lowlow).count ∧ s.pot.lowlow.set = true :=
  ⟨potAt { Pot.atReset false with lowlow := ⟨true, 2⟩ }, rfl, by decide, rfl⟩

theorem test_witness_LevelFlagChange_high :
    ∃ (s : State) (r : Nat), s.pot.levelGood = true ∧ 20 ≤ (s.pot.flag .high).count ∧ s.pot.high.set = false ∧
      s.pot.feeder = .feeding r :=
  ⟨potAt { Pot.atReset false with high := ⟨false, 20⟩, feeder := .feeding 1 }, 1, rfl, by decide, rfl, rfl⟩

theorem test_witness_PumpStableSet :
    ∃ s : State, (s.pot.pump .main).stable = false ∧ 2 ≤ (s.pot.pump .main).count :=
  ⟨potAt { Pot.atReset false with main := { Pump.atReset with count := 2 } }, rfl, by decide⟩

theorem test_witness_FeederShotStart :
    ∃ (s : State) (v : Int), s.pot.feeder = .idle ∧ s.pot.low.set = true ∧ s.pot.high.set = false ∧
      s.pot.levelGood = true ∧ s.thermal.potPV = some v ∧ s.thermal.pot.sp ≠ 0 ∧
      s.thermal.pot.sp - s.ws.feedBand = v ∧ s.pot.history.length < s.ws.maxShots ∧ s.modes.mode ≠ .off ∧
      s.modes.mode ≠ .halted ∧ s.pot.feedTest = true :=
  ⟨{ potAt { Pot.atReset false with low := ⟨true, 0⟩, feedTest := true } with
      thermal :=
        { Thermal.atReset with
          inputs := Thermal.atReset.inputs.set 6 { Input.atReset with state := .good, ring := [2400, 2400, 2400, 2400] }
          pot := loopAt 2500 0 0 0 } },
    2400, rfl, rfl, rfl, rfl, by decide, by decide, by decide, by decide, by decide, by decide, rfl⟩

/-- R121: between the interval ends no shot starts. -/
theorem test_witness_FeederShotStart_untested : State.reset.pot.feedTest = false := rfl

theorem test_witness_FeederShotComplete :
    ∃ (s : State) (r n : Nat), s.pot.feeder = .feeding r ∧ n = (if s.pot.high.set then 0 else r) ∧ n ≠ 0 :=
  ⟨potAt { Pot.atReset false with feeder := .feeding 500 }, 500, 500, rfl, rfl, by decide⟩

theorem test_witness_FeederSettlingComplete :
    ∃ (s : State) (r : Nat), s.pot.feeder = .settling r ∧
      ¬ ((s.ws.minRise : Int) ≤ s.pot.level - s.pot.shotLevel.getD 0) ∧ 3 ≤ s.pot.misses + 1 :=
  ⟨potAt { Pot.atReset false with feeder := .settling 0, misses := 2 }, 0, rfl, by decide, by decide⟩

theorem test_witness_ShotHistoryExpiry :
    ∃ (s : State) (h : Clock) (rest : List Clock) (n : Nat), s.pot.history = h :: rest ∧
      n = 600000 - (s.clock - h).toNat ∧ n = 600000 :=
  ⟨potAt { Pot.atReset false with history := [0] }, 0, [], 600000, rfl, by decide, rfl⟩

/-- The line with a flux unit. -/
def fluxAt (f : Flux) : State :=
  { line .production with flux := f }

theorem test_witness_FluxPressure :
    ∃ (s : State) (w : ActiveWindow) (r : Record), s.flux.pressureFault = false ∧ 4 ≤ s.flux.pressureCount ∧
      s.flux.inhibit = [] ∧ w ∈ s.flux.active ∧ r ∈ s.track.records ∧ w.ordinal = r.ordinal ∧ w.window = 15 :=
  ⟨tracked (fluxAt { Flux.atReset 1000 with pressureCount := 4, inhibit := [], active := [⟨1, 15, 1, 10⟩] }) 0
      [board 1 0 .tracked (bound 0)], ⟨1, 15, 1, 10⟩, board 1 0 .tracked (bound 0), rfl, by decide, rfl,
    List.mem_singleton_self _, List.mem_singleton_self _, rfl, rfl⟩

/-- R68, R69 and R78: a fault that begins the inhibit while a pulse runs, its record's flux in range; and while a purge runs. -/
theorem test_witness_FluxPressure_running :
    (∃ (s : State) (r : Record), s.flux.pressureFault = false ∧ 4 ≤ s.flux.pressureCount ∧ s.flux.inhibit = [] ∧
      r ∈ s.track.records ∧ r.flux < 2 ^ 32 ∧ (pulseCredits s fun u => u.ordinal == r.ordinal) = 8 * 50) ∧
    ∃ s : State, s.flux.pressureFault = false ∧ 4 ≤ s.flux.pressureCount ∧ s.flux.inhibit = [] ∧
      purgeCredit s = 8 * 50 * 8 :=
  ⟨⟨{ tracked (fluxAt { Flux.atReset 1000 with
          pressureCount := 4, inhibit := [], pulses := (Flux.atReset 1000).pulses.set 7 (some ⟨0, 16, 1, 0⟩) }) 0
        [board 1 0 .tracked (bound 0)] with clock := 8 }, board 1 0 .tracked (bound 0), rfl, by decide, rfl,
      List.mem_singleton_self _, by decide, by decide⟩,
    { fluxAt { Flux.atReset 1000 with pressureCount := 4, inhibit := [], purge := some ⟨100, 0⟩ } with clock := 8 },
    rfl, by decide, rfl, by decide⟩

theorem test_witness_PurgeDurationComplete :
    ∃ (s : State) (g : Purge) (n v : Nat), s.flux.purge = some g ∧ g.remaining < 2 ^ 32 ∧
      n = g.remaining - (s.clock - g.creditedAt).toNat ∧ n = 100 ∧
      v = g.remaining * ((s.ws.flow 0) + (s.ws.flow 1) + (s.ws.flow 2) + (s.ws.flow 3) + (s.ws.flow 4) + (s.ws.flow 5)
        + (s.ws.flow 6) + (s.ws.flow 7)) ∧ v = 40000 :=
  ⟨fluxAt { Flux.atReset 1000 with purge := some ⟨100, 0⟩ }, ⟨100, 0⟩, 100, 40000, rfl, by decide, by decide, rfl,
    by decide, rfl⟩

/-- A running pulse of record 1. -/
def pulse : Pulse := { start := 0, q := 16, ordinal := 1, window := 0 }

theorem test_witness_LanePulseEnd :
    ∃ (s : State) (u : Pulse) (n : Nat), s.flux.pulses.get 7 = some u ∧ n = u.q - (s.clock - u.start).toNat ∧
      s.ws.flow 7 * u.q ≠ 0 ∧ LowFormed s :=
  ⟨fluxAt { Flux.atReset 1000 with pulses := (Flux.atReset 1000).pulses.set 7 (some pulse) }, pulse, 16, rfl,
    by decide, by decide, by unfold LowFormed; decide⟩

/-- R70: a pulse that takes the counter below the low mark of 1000 sets BELOW with FLUX_EVENT; one that takes the last microlitre
sets FLUX_EVENT; one that does neither sets nothing. -/
theorem test_witness_TankBoundIsKept_events :
    let s := fun (n r : Nat) (b : Bool) =>
      fluxAt { Flux.atReset n with
        remainder := r, low := b, inhibit := [], pulses := (Flux.atReset n).pulses.set 7 (some { pulse with q := 8 }) }
    (∃ t, exec (.lanePulseEnd 7) (s 1000 600 false) = .next t ∧
      (t.flux.counter == 999 && t.flux.low && t.port.notices.getLsbD 9) = true) ∧
    (∃ t, exec (.lanePulseEnd 7) (s 1 600 true) = .next t ∧ (t.flux.counter == 0 && t.port.notices.getLsbD 9) = true) ∧
    ∃ t, exec (.lanePulseEnd 7) (s 999 600 true) = .next t ∧ (t.flux.counter == 998 && !t.port.notices.getLsbD 9) = true :=
  ⟨goes_to (by decide +kernel), goes_to (by decide +kernel), goes_to (by decide +kernel)⟩

/-- R68: a pulse of 16 ms ends with its valve open, the boundary of that moment closes it, where no window asks for the lane; the
valve it holds has no pulse to end; a pulse of 15 ms closes at its end. -/
theorem test_witness_LanePulseEnd_whole_period :
    let s := fun q : Nat =>
      fluxAt { Flux.atReset 1000 with pulses := (Flux.atReset 1000).pulses.set 7 (some { pulse with q := q }) }
    (∃ t, exec (.lanePulseEnd 7) (s 16) = .next t ∧ (t.flux.valveOpen 7 && t.clock == 16) = true) ∧
    (∃ t, exec .modulationBoundary { s 0 with clock := 16 } = .next t ∧ (!t.flux.valveOpen 7 && t.clock == 16) = true) ∧
    exec (.lanePulseEnd 7) (s 0) = .next (s 0) ∧
    (∃ t, exec (.lanePulseEnd 7) (s 15) = .next t ∧ (!t.flux.valveOpen 7 && t.clock == 15) = true) :=
  ⟨goes_to (by decide +kernel), goes_to (by decide +kernel), rfl, goes_to (by decide +kernel)⟩

/-- R1 and R78: a purge ends where a board's lead reaches F − 500 going forward, and where a reverse count takes P back past the
lead, whose relative position is then above it. -/
theorem test_purge_ends_at_the_bar :
    let s := fun (p : Pos) (frac : Nat) =>
      { fluxAt { Flux.atReset 1000 with purge := some ⟨1000, 0⟩ } with
        track := { State.reset.track with pos := p, frac := frac, records := [board 1 100 .tracked none] } }
    (∃ t, exec (.encoderCount .forward) (s 1099 30000) = .next t ∧ (t.track.pos == 1100 && t.flux.purge.isNone) = true) ∧
    (∃ t, exec (.encoderCount .backward) (s 100 0) = .next t ∧ (t.track.pos == 99 && t.flux.purge.isNone) = true) ∧
    (∃ t, exec (.encoderCount .forward) (s 1098 30000) = .next t ∧ (t.track.pos == 1099 && t.flux.purge.isSome) = true) :=
  ⟨goes_to (by decide +kernel), goes_to (by decide +kernel), goes_to (by decide +kernel)⟩

/-- A line with an OPEN edge at P, its CLOSE edge ahead, and an active window. -/
def spraying (why : List Inhibit) : State :=
  let s := tracked (line .production) 1500 [board 1 0 .tracked (bound 0)]
  { s with
    track := { s.track with ref := 1200 }
    flux :=
      { Flux.atReset 1000 with
        inhibit := why, active := [⟨1, 0, 1, 10⟩]
        edges := [⟨1500, 1, 1, true, 1, 16⟩, ⟨1600, 1, 1, false, 1, 16⟩] } }

theorem test_witness_ModulationBoundary (b : Bool) :
    ∃ (s : State) (due later : List Edge) (w : ActiveWindow),
      due = (s.flux.edges.takeWhile fun e => atOrAfter s.track.pos e.pos) ∧ s.flux.edges = due ++ later ∧
      due.length = 1 ∧ later.length = 1 ∧ w ∈ s.flux.active ∧ w.lanes.getLsbD 0 = true ∧ w.duty ≠ 0 ∧
      s.flux.inhibit = (if b then [] else [.tank]) ∧ s.flux.purge = none ∧ s.track.ref ≠ 0 ∧ LowFormed s := by
  unfold LowFormed
  cases b
  · exact ⟨spraying [.tank], [⟨1500, 1, 1, true, 1, 16⟩], [⟨1600, 1, 1, false, 1, 16⟩], ⟨1, 0, 1, 10⟩,
      by decide, by decide, rfl, rfl, by decide, rfl, by decide, rfl, rfl, by decide, by decide⟩
  · exact ⟨spraying [], [⟨1500, 1, 1, true, 1, 16⟩], [⟨1600, 1, 1, false, 1, 16⟩], ⟨1, 0, 1, 10⟩,
      by decide, by decide, rfl, rfl, by decide, rfl, by decide, rfl, rfl, by decide, by decide⟩

/-- R68: of two windows of equal duty the one of the older record owns the pulse, and in one record the lower. -/
theorem test_witness_ModulationBoundary_owner :
    let s := tracked (line .production) 1500 [board 1 0 .tracked (bound 0), board 2 400 .tracked (bound 1)]
    let at' := fun l : List ActiveWindow =>
      { s with track := { s.track with ref := 1200 }, flux := { Flux.atReset 1000 with inhibit := [], active := l } }
    (∃ t, exec .modulationBoundary (at' [⟨2, 0, 1, 10⟩, ⟨1, 3, 1, 10⟩]) = .next t ∧
      ((t.flux.pulses.get 0).map (fun u => (u.ordinal, u.window)) == some (1, 3)) = true) ∧
    ∃ t, exec .modulationBoundary (at' [⟨1, 3, 1, 10⟩, ⟨1, 2, 1, 10⟩]) = .next t ∧
      ((t.flux.pulses.get 0).map (fun u => (u.ordinal, u.window)) == some (1, 2)) = true :=
  ⟨goes_to (by decide +kernel), goes_to (by decide +kernel)⟩

/-! ## Witnesses: the extraction monitor -/

/-- The line with one alarm point's record. -/
def pointAt (k : Idx8) (p : Point) : State :=
  { line .production with extr := { Extr.atReset with fan := true, points := Extr.atReset.points.set k p } }

theorem test_fans_formed (k : Idx8) (p : Point) : FansFormed (pointAt k p) :=
  ⟨⟨fun _ => .inl nofun, fun _ => rfl⟩, fun h => absurd rfl h⟩

/-- R142 to R144: an alarm dwell of 20 samples, and a warning dwell of 500 ms, 2 samples, without an alarm. -/
theorem test_witness_AlarmActivation :
    (∃ (s : State) (p : Point), FansFormed s ∧ p = s.extr.points.get 2 ∧ p.ann ≠ .activeUnack ∧ p.ann ≠ .activeAck ∧
      AlarmDwellMet s 2) ∧
    (∃ (s : State) (p : Point), FansFormed s ∧ p = s.extr.points.get 4 ∧ p.ann ≠ .activeUnack ∧ p.ann ≠ .activeAck ∧
      WarnDwellMet s 4 ∧ ¬ AlarmDwellMet s 4) ∧
    ∃ (s : State) (p : Point), FansFormed s ∧ p = s.extr.points.get 4 ∧ p.ann = .normal ∧ p.warnCount = 1 ∧
      ¬ AlarmDwellMet s 4 ∧ ¬ WarnDwellMet s 4 :=
  ⟨⟨pointAt 2 { Point.atReset with alarmCount := 20 }, _, test_fans_formed _ _, rfl, by decide, by decide,
      (by decide : 20 ≤ (20 : Nat))⟩,
    ⟨pointAt 4 { Point.atReset with warnCount := 2 }, _, test_fans_formed _ _, rfl, by decide, by decide,
      (by decide : 0 < (2 : Nat) ∧ 100 * 5 ≤ 250 * 2), id⟩,
    ⟨pointAt 4 { Point.atReset with warnCount := 1 }, _, test_fans_formed _ _, rfl, rfl, rfl, id,
      fun h => absurd (show 0 < (1 : Nat) ∧ 100 * 5 ≤ 250 * 1 from h) (by decide)⟩⟩

/-- R142, R143: 2 samples make a dwell of 500 ms, 1 does not; a fan point never stands at WARNING. -/
theorem test_witness_AlarmSeverityRise :
    (∃ (s : State), FansFormed s ∧ AtWarning s 7 ∧ AlarmDwellMet s 7) ∧
    (∃ (s : State), FansFormed s ∧ AtWarning s 7 ∧ ¬ AlarmDwellMet s 7) ∧
    ∃ (s : State), FansFormed s ∧ AlarmDwellMet s 2 ∧ ¬ AtWarning s 2 :=
  ⟨⟨pointAt 7 { Point.atReset with ann := .activeAck, sev := .warning, alarmCount := 2 }, test_fans_formed _ _,
      by unfold AtWarning; decide, (by decide : 0 < (2 : Nat) ∧ 100 * 5 ≤ 250 * 2)⟩,
    ⟨pointAt 7 { Point.atReset with ann := .activeAck, sev := .warning, alarmCount := 1 }, test_fans_formed _ _,
      by unfold AtWarning; decide, fun h => absurd (show 0 < (1 : Nat) ∧ 100 * 5 ≤ 250 * 1 from h) (by decide)⟩,
    ⟨pointAt 2 { Point.atReset with alarmCount := 20 }, test_fans_formed _ _, (by decide : 20 ≤ (20 : Nat)),
      by unfold AtWarning; decide⟩⟩

/-- Point 0 at WARNING, its escalation count at 40, sampled at this moment or not. -/
def escalating (sampled : Bool) (clear : Nat) : State :=
  { line .production with
    extr :=
      { Extr.atReset with
        fan := true, sampled := sampled
        points :=
          Extr.atReset.points.set 0
            { Point.atReset with ann := .activeUnack, sev := .warning, escCount := 40, clearCount := clear } } }

theorem test_escalating_fans (b : Bool) (n : Nat) : FansFormed (escalating b n) :=
  ⟨⟨fun _ => .inl nofun, fun _ => rfl⟩, fun h => absurd rfl h⟩

/-- R145: at the sample at which the count reaches 4 times 10 s; not between the samples, nor where the clear dwell of 4 times 5 s
is met with it. -/
theorem test_witness_AlarmEscalation :
    (FansFormed (escalating true 19) ∧ AtWarning (escalating true 19) 0 ∧ (escalating true 19).loaded = true ∧
      (escalating true 19).extr.sampled = true ∧
      4 * (escalating true 19).ws.escalation = ((escalating true 19).extr.points.get 0).escCount ∧
      ¬ ClearDwellMet (escalating true 19) 0) ∧
    (FansFormed (escalating false 0) ∧ (escalating false 0).extr.sampled = false) ∧
    FansFormed (escalating true 20) ∧ ClearDwellMet (escalating true 20) 0 :=
  ⟨⟨test_escalating_fans _ _, by unfold AtWarning; decide, rfl, rfl, by decide, by unfold ClearDwellMet; decide⟩,
    ⟨test_escalating_fans _ _, rfl⟩, test_escalating_fans _ _, by unfold ClearDwellMet; decide⟩

theorem test_witness_AlarmClear :
    (∃ (s : State) (p : Point), FansFormed s ∧ p = s.extr.points.get 7 ∧ p.ann = .activeAck ∧ ClearDwellMet s 7) ∧
    ∃ (s : State) (p : Point), FansFormed s ∧ p = s.extr.points.get 7 ∧ p.clearCount = 19 ∧ ¬ ClearDwellMet s 7 :=
  ⟨⟨pointAt 7 { Point.atReset with ann := .activeAck, sev := .alarm, clearCount := 20 }, _, test_fans_formed _ _, rfl,
      rfl, by unfold ClearDwellMet; decide⟩,
    ⟨pointAt 7 { Point.atReset with ann := .activeAck, sev := .alarm, clearCount := 19 }, _, test_fans_formed _ _, rfl,
      rfl, by unfold ClearDwellMet; decide⟩⟩

theorem test_witness_VapourHalt : ∃ s : State, 120 ≤ s.extr.vapourCount :=
  ⟨{ line .production with extr := { Extr.atReset with fan := true, vapourCount := 120 } }, by decide⟩

theorem test_witness_RunOnTimerExpiry :
    ∃ (s : State) (r : Nat), s.modes.mode = .off ∧ s.modes.runOn = some r ∧ s.extr.fan = true :=
  ⟨{ offLine with modes := { Modes.atReset with runOn := some 60000 }, extr := { Extr.atReset with fan := true } },
    60000, rfl, rfl, rfl⟩

theorem test_witness_StartGraceEnd :
    ∃ (s : State) (r : Nat), s.extr.grace .x2 = some r :=
  ⟨{ line .warmup with extr := { Extr.atReset with fan := true, grace2 := some 10000 } }, 10000, rfl⟩

/-! ## Witnesses: the width drive -/

/-- A warming line of the class, with a width drive and a home switch. -/
def widthAt (w : Width) (home : Bool) : State :=
  { line .warmup with
    gate := { Gate.atReset with lineClass := some cls, width := w }
    pins := { Pins.atRest with homeActive := home } }

theorem test_witness_Width_homing_starts :
    ∃ s : State, s.gate.width.state = .unreferenced ∧ s.modes.mode = .warmup ∧ s.track.records = [] ∧
      s.outfeed.state = .empty ∧ s.pins.homeActive = true ∧ s.pins.limitMax = false :=
  ⟨widthAt ⟨.unreferenced, 0, 0, 0⟩ true, rfl, rfl, rfl, rfl, rfl, rfl⟩

theorem test_witness_Width_homing_inward :
    ∃ s : State, s.gate.width.state = .unreferenced ∧ s.modes.mode = .warmup ∧ s.track.records = [] ∧
      s.outfeed.state = .empty ∧ s.pins.homeActive = false ∧ s.pins.limitMin = false :=
  ⟨widthAt ⟨.unreferenced, 0, 0, 0⟩ false, rfl, rfl, rfl, rfl, rfl, rfl⟩

/-- The same with limit switches that read active. -/
def limited (s : State) (min max : Bool) : State :=
  { s with pins := { s.pins with limitMin := min, limitMax := max } }

/-- R58 and R59: homing that starts against the switch it moves towards, outward and inward. -/
theorem test_witness_Width_homing_faults :
    (∃ s : State, s.gate.width.state = .unreferenced ∧ s.modes.mode = .warmup ∧ s.track.records = [] ∧
      s.outfeed.state = .empty ∧ s.pins.homeActive = true ∧ s.pins.limitMax = true) ∧
    ∃ s : State, s.gate.width.state = .unreferenced ∧ s.modes.mode = .warmup ∧ s.track.records = [] ∧
      s.outfeed.state = .empty ∧ s.pins.homeActive = false ∧ s.pins.limitMin = true :=
  ⟨⟨limited (widthAt ⟨.unreferenced, 0, 0, 0⟩ true) false true, rfl, rfl, rfl, rfl, rfl, rfl⟩,
    limited (widthAt ⟨.unreferenced, 0, 0, 0⟩ false) true false, rfl, rfl, rfl, rfl, rfl, rfl⟩

/-- R58 and R59: the home switch goes inactive with the lower limit active: homing outward, moving inward, and moving outward. -/
theorem test_witness_Width_home_switch :
    (∃ s : State, s.gate.width.state = .homing true ∧ s.pins.limitMin = true) ∧
    (∃ s : State, s.gate.width.outward = some false ∧ s.pins.limitMin = true) ∧
    (∃ s : State, s.gate.width.state ≠ .homing true ∧ s.gate.width.outward = some true ∧ s.pins.limitMax = true) ∧
    ∃ s : State, s.gate.width.state ≠ .homing true ∧ s.gate.width.outward = some true ∧ s.pins.limitMin = true ∧
      s.pins.limitMax = false :=
  ⟨⟨limited (widthAt ⟨.homing true, 0, 0, 0⟩ true) true false, rfl, rfl⟩,
    ⟨limited (widthAt ⟨.moving, 1001, 1000, 0⟩ true) true false, by decide, rfl⟩,
    ⟨limited (widthAt ⟨.moving, 999, 1000, 0⟩ true) false true, by decide, by decide, rfl⟩,
    limited (widthAt ⟨.moving, 999, 1000, 0⟩ true) true false, by decide, by decide, rfl, rfl⟩

theorem test_witness_Width_homing_out : ∃ s : State, s.gate.width.state = .homing true ∧ s.pins.limitMin = false :=
  ⟨widthAt ⟨.homing true, 0, 0, 0⟩ true, rfl, rfl⟩

theorem test_witness_Width_homing_in : ∃ s : State, s.gate.width.state = .homing false :=
  ⟨widthAt ⟨.homing false, 0, 0, 0⟩ false, rfl⟩

theorem test_witness_Width_move_starts :
    ∃ (s : State) (w : Nat), s.gate.width.state = .idle ∧ s.gate.namedClass.map (·.width) = some w ∧
      s.gate.width.pos ≠ w ∧ s.modes.mode = .warmup ∧ s.track.records = [] ∧ s.outfeed.state = .empty ∧
      s.pins.limitMax = false ∧ s.pins.limitMin = false :=
  ⟨widthAt ⟨.idle, 500, 0, 0⟩ true, 1000, rfl, rfl, by decide, rfl, rfl, rfl, rfl, rfl⟩

/-- R59: a move outward that starts against its switch, and one with the other switch active alone. -/
theorem test_witness_Width_move_limits :
    ∃ (s u : State) (w : Nat), s.gate.width.state = .idle ∧ u.gate.width.state = .idle ∧
      s.gate.namedClass.map (·.width) = some w ∧ u.gate.namedClass.map (·.width) = some w ∧ s.gate.width.pos < w ∧
      u.gate.width.pos < w ∧ s.pins.limitMax = true ∧ u.pins.limitMax = false ∧ u.pins.limitMin = true ∧
      s.modes.mode = .warmup ∧ u.modes.mode = .warmup ∧ s.track.records = [] ∧ u.track.records = [] ∧
      s.outfeed.state = .empty ∧ u.outfeed.state = .empty :=
  ⟨limited (widthAt ⟨.idle, 500, 0, 0⟩ true) false true, limited (widthAt ⟨.idle, 500, 0, 0⟩ true) true false, 1000,
    rfl, rfl, rfl, rfl, by decide, by decide, rfl, rfl, rfl, rfl, rfl, rfl, rfl, rfl, rfl⟩

theorem test_witness_Width_move_steps :
    ∃ s : State, s.gate.width.state = .moving ∧ s.gate.width.pos ≠ s.gate.width.target :=
  ⟨widthAt ⟨.moving, 999, 1000, 0⟩ false, rfl, by decide⟩

theorem test_witness_Width_move_completes :
    ∃ s : State, s.gate.width.state = .moving ∧ s.gate.width.pos = s.gate.width.target :=
  ⟨widthAt ⟨.moving, 1000, 1000, 0⟩ false, rfl, rfl⟩

theorem test_witness_Width_outward_excess :
    ∃ s : State, s.gate.width.state = .homing true ∧ s.pins.homeActive = true ∧ 200 ≤ s.gate.width.travel :=
  ⟨widthAt ⟨.homing true, 0, 0, 200⟩ true, rfl, rfl, by decide⟩

theorem test_witness_Width_inward_excess :
    ∃ s : State, s.gate.width.state = .homing false ∧ s.pins.homeActive = false ∧ 4600 ≤ s.gate.width.travel :=
  ⟨widthAt ⟨.homing false, 0, 0, 4600⟩ false, rfl, rfl, by decide⟩

theorem test_witness_Width_limit :
    ∃ s : State, s.gate.width.outward = some (RailEnd.maximum == .maximum) :=
  ⟨widthAt ⟨.moving, 999, 1000, 0⟩ false, by decide⟩

theorem test_witness_Width_limit_unsupervised :
    ∃ s : State, s.gate.width.outward ≠ some (RailEnd.minimum == .maximum) :=
  ⟨widthAt ⟨.moving, 999, 1000, 0⟩ false, by decide⟩

/-! ## Witnesses: the lines and the timers -/

theorem test_witness_Upstream_wakes :
    ∃ s : State, s.pins.upstream ≠ true ∧ s.modes.mode = .economy :=
  ⟨line .economy, by decide, rfl⟩

theorem test_witness_Handover_unchanged :
    State.reset.pins.upstream = false ∧ State.reset.pins.downstream = false := ⟨rfl, rfl⟩

theorem test_witness_Downstream_takes :
    ∃ s : State, s.pins.downstream ≠ true ∧ s.outfeed.state = .holding ∧ s.modes.mode ≠ .off ∧
      s.modes.mode ≠ .halted :=
  ⟨{ line .production with outfeed := { Outfeed.atReset Pins.atRest with state := .holding } }, by decide, rfl,
    by decide, by decide⟩

theorem test_witness_Downstream_withdraws :
    ∃ s : State, s.pins.downstream ≠ false ∧ s.outfeed.state = .delivering ∧ s.track.exitEye.accepted = true :=
  ⟨{ handing .delivering true false with pins := { Pins.atRest with downstream := true } }, by decide, rfl, rfl⟩

theorem test_witness_EndSensor_blocked :
    ∃ (s : State) (p : Clock) (n : Nat), s.outfeed.sensor.pendingAt = some p ∧ n = 20 - (s.clock - p).toNat ∧
      s.outfeed.sensor.accepted = false ∧ s.outfeed.state = .loading ∧ n = 20 :=
  ⟨{ line .production with outfeed := { Outfeed.atReset Pins.atRest with state := .loading, sensor := ⟨false, some 0, 0⟩ } },
    0, 20, rfl, by decide, rfl, rfl, rfl⟩

theorem test_witness_EndSensor_cleared :
    ∃ (s : State) (p : Clock) (n : Nat), s.outfeed.sensor.pendingAt = some p ∧ n = 20 - (s.clock - p).toNat ∧
      s.outfeed.sensor.accepted = true ∧ s.outfeed.state = .delivering :=
  ⟨{ line .production with
      outfeed := { Outfeed.atReset Pins.atRest with state := .delivering, sensor := ⟨true, some 0, 0⟩ } },
    0, 20, rfl, by decide, rfl, rfl⟩

theorem test_witness_IdleTimerExpiry :
    ∃ (s : State) (e n : Nat), s.modes.mode = .production ∧ s.modes.idle = some e ∧ n = 1000 * s.ws.idleTime - e ∧
      n = 1 :=
  ⟨{ line .production with modes := { Modes.atReset with mode := .production, idle := some 59999 } }, 59999, 1, rfl,
    rfl, by decide, rfl⟩

theorem test_witness_SupervisionExpired :
    ∃ (s : State) (n : Nat), s.port.supRunning = true ∧ n = 1000 * s.ws.supervision - s.port.supElapsed ∧
      s.modes.mode = .production ∧ s.track.records = [] :=
  ⟨{ line .production with port := { Port.atReset with setup := some setup, supRunning := true } }, 10000, rfl,
    by decide, rfl, rfl⟩

/-- A warming line that meets the completion condition (R165). -/
def warmed : State :=
  { widthAt ⟨.idle, 1000, 1000, 0⟩ false with
    track := { State.reset.track with ref := 1200, speedStable := true }
    thermal := { Thermal.atReset with auth := true, pot := { loopAt 2500 0 0 0 with settled := true } } }

theorem test_warmed_met : WarmupMet warmed :=
  ⟨nofun, .inl rfl, ⟨rfl, rfl⟩, ⟨rfl, rfl⟩, ⟨rfl, by decide⟩, ⟨rfl, rfl⟩, by decide, rfl⟩

theorem test_witness_WarmupComplete :
    (warmed.modes.mode = .warmup ∧ WarmupMet warmed ∧ warmed.port.hostLost = false) ∧
    (∃ s : State, s.modes.mode = .warmup ∧ WarmupMet s ∧ s.port.hostLost = true ∧ s.track.records ≠ []) ∧
    ((line .production).modes.mode ≠ .warmup ∧ ¬ WarmupMet (line .warmup)) :=
  let h := test_warmed_met
  ⟨⟨rfl, h, rfl⟩,
    ⟨{ tracked warmed 0 [board 1 0 .tracked none] with port := { warmed.port with hostLost := true } }, rfl,
      ⟨h.lineClass, h.phase, h.width, h.speed, h.loops, h.level, h.alarms, h.auth⟩, rfl, nofun⟩,
    nofun, fun h => h.lineClass rfl⟩

/-! ## Witnesses: the requests -/

theorem test_witness_Handshake_differs :
    ∃ (s : State) (c : Instr) (code : Word) (ws : List HostWrite), requestCode c = some code ∧ ws = carriedWrites c ∧
      s.port.request ≠ .busy ∧ (hostWrites ws s.mem).read 0x0040 ≠ code :=
  ⟨State.reset, .start (posting 3 0 0), 2, _, rfl, rfl, by decide, by decide⟩

theorem test_witness_Handshake_busy :
    ∃ (s : State) (c : Instr) (code : Word) (ws : List HostWrite), requestCode c = some code ∧ ws = carriedWrites c ∧
      s.port.request = .busy ∧ s.port.posted ≠ some code :=
  ⟨{ State.reset with port := { Port.atReset with request := .busy, posted := some 1 } }, .start [], 2, _, rfl, rfl, rfl,
    by decide⟩

theorem test_witness_Handshake_unknown :
    ((15 : Word) = 0 ∨ 14 < (15 : Word).toNat) ∧ ((0 : Word) = 0 ∨ 14 < (0 : Word).toNat) ∧
      State.reset.port.request ≠ .busy := by decide

theorem test_witness_LoadSetup_mode : ∃ s : State, Posts s 1 (posting 1 0 0) ∧ s.modes.mode ≠ .off :=
  ⟨line .warmup, ⟨by decide, by decide⟩, by decide⟩

theorem test_witness_LoadSetup_list :
    ∃ s : State, Posts s 1 (posting 1 0 0) ∧ s.modes.mode = .off ∧ s.track.records ≠ [] :=
  ⟨tracked offLine 0 [board 1 0 .tracked none], ⟨by decide, by decide⟩, rfl, nofun⟩

theorem test_witness_LoadSetup_invalid :
    ∃ (s : State) (k : Nat), Posts s 1 (posting 1 0 0) ∧ s.modes.mode = .off ∧ s.track.records = [] ∧
      (readSetup (s.withPost 1 (posting 1 0 0)).mem).firstFailing = some k :=
  ⟨State.reset, 0, ⟨by decide, by decide⟩, rfl, rfl, by decide⟩

theorem test_witness_LoadSetup_accepted :
    ∃ (s : State), Posts s 1 (posting 1 0 0) ∧ s.modes.mode = .off ∧ s.track.records = [] ∧
      (readSetup (s.withPost 1 (posting 1 0 0)).mem).firstFailing = none ∧ s.flux.inhibit ≠ [] ∧ FansFormed s ∧
      (s.withPost 1 (posting 1 0 0)).mem.read (0x0060 + 116) ≠ 0 ∧
      ∀ n, slotState (s.withPost 1 (posting 1 0 0)).mem n ≠ .posted :=
  ⟨{ State.reset with mem := cellsOf setupAt setup.words }, ⟨by decide, by decide⟩, rfl, rfl, by decide, by decide,
    ⟨by decide, by decide⟩, by decide +kernel, by decide +kernel⟩

/-- A first sequence number of 0 keeps E. -/
theorem test_witness_LoadSetup_accepted_keeps_E :
    ∃ (s : State), Posts s 1 (posting 1 0 0) ∧ s.modes.mode = .off ∧ s.track.records = [] ∧
      (readSetup (s.withPost 1 (posting 1 0 0)).mem).firstFailing = none ∧
      (s.withPost 1 (posting 1 0 0)).mem.read (0x0060 + 116) = 0 ∧
      ∀ n, slotState (s.withPost 1 (posting 1 0 0)).mem n ≠ .posted :=
  ⟨{ State.reset with mem := cellsOf setupAt (setup.words.set 116 0) }, ⟨by decide, by decide⟩, rfl, rfl,
    by decide +kernel, by decide +kernel, by decide +kernel⟩

theorem test_witness_Start :
    (∃ (s : State), Posts s 2 (posting 2 0 0) ∧ s.modes.mode ≠ .off) ∧
    (∃ (s : State), Posts s 2 (posting 2 0 0) ∧ s.modes.mode = .off ∧ s.loaded = false) ∧
    (∃ (s : State), Posts s 2 (posting 2 0 0) ∧ s.modes.mode = .off ∧ s.loaded = true ∧ s.modes.causes ≠ []) ∧
    (∃ (s : State), Posts s 2 (posting 2 0 0) ∧ s.modes.mode = .off ∧ s.loaded = true ∧ s.pins.estop = false ∧
      s.modes.causes = []) :=
  ⟨⟨line .warmup, ⟨by decide, by decide⟩, by decide⟩, ⟨State.reset, ⟨by decide, by decide⟩, rfl, rfl⟩,
    ⟨{ offLine with modes := { Modes.atReset with causes := [.authority] } }, ⟨by decide, by decide⟩, rfl, rfl, nofun⟩,
    ⟨offLine, ⟨by decide, by decide⟩, rfl, rfl, rfl, rfl⟩⟩

theorem test_witness_Shutdown :
    (∃ (s : State), Posts s 3 (posting 3 0 0) ∧ s.modes.mode = .cooldown) ∧
    (∃ (s : State), Posts s 3 (posting 3 0 0) ∧ s.modes.mode = .production ∧ s.track.records = [] ∧ s.outfeed.state = .empty) ∧
    (∃ (s : State), Posts s 3 (posting 3 0 0) ∧ s.modes.mode = .halted) :=
  ⟨⟨line .cooldown, ⟨by decide, by decide⟩, rfl⟩, ⟨line .production, ⟨by decide, by decide⟩, rfl, rfl, rfl⟩,
    ⟨line .halted, ⟨by decide, by decide⟩, rfl⟩⟩

theorem test_witness_Stop :
    (∃ (s : State), Posts s 4 (posting 4 0 0) ∧ s.modes.mode = .off) ∧
    (∃ (s : State), Posts s 4 (posting 4 0 0) ∧ s.modes.mode ≠ .off) :=
  ⟨⟨offLine, ⟨by decide, by decide⟩, rfl⟩, ⟨line .production, ⟨by decide, by decide⟩, by decide⟩⟩

theorem test_witness_Economy :
    (∃ (s : State), Posts s 6 (posting 6 0 0) ∧ s.modes.mode = .off) ∧
    (∃ (s : State), Posts s 6 (posting 6 0 0) ∧ s.modes.mode = .production ∧ s.track.records ≠ []) ∧
    (∃ (s : State), Posts s 6 (posting 6 0 0) ∧ s.modes.mode = .warmup ∧ s.track.records = []) :=
  ⟨⟨offLine, ⟨by decide, by decide⟩, rfl⟩,
    ⟨tracked (line .production) 0 [board 1 0 .tracked none], ⟨by decide, by decide⟩, rfl, nofun⟩,
    ⟨line .warmup, ⟨by decide, by decide⟩, rfl, rfl⟩⟩

theorem test_witness_Wake :
    (∃ (s : State), Posts s 7 (posting 7 0 0) ∧ s.modes.mode ≠ .economy) ∧
    (∃ (s : State), Posts s 7 (posting 7 0 0) ∧ s.modes.mode = .economy) :=
  ⟨⟨offLine, ⟨by decide, by decide⟩, by decide⟩, ⟨line .economy, ⟨by decide, by decide⟩, rfl⟩⟩

theorem test_witness_Clear :
    ∃ s : State, Posts s 5 (posting 5 0 0) ∧ s.modes.mode = .halted ∧ s.modes.causes = [.estop, .authority] ∧
      s.pins.estop = true ∧ s.pot.feeder = .jammed ∧ s.gate.width.state = .fault ∧ s.pins.limitMin = false ∧
      s.pins.limitMax = false ∧ s.outfeed.state = .loading ∧ s.track.exitEye.accepted = false ∧
      s.outfeed.sensor.accepted = false :=
  ⟨{ line .halted with
      modes := { Modes.atReset with mode := .halted, causes := [.estop, .authority] }
      pins := { Pins.atRest with estop := true }
      pot := { Pot.atReset false with feeder := .jammed, misses := 3 }
      gate := { Gate.atReset with width := ⟨.fault, 0, 0, 0⟩ }
      outfeed := { Outfeed.atReset Pins.atRest with state := .loading } },
    ⟨by decide, by decide⟩, rfl, rfl, rfl, rfl, rfl, rfl, rfl, rfl, rfl, rfl⟩

/-- R173: outside HALTED the mode stays at CLEAR; a COOLDOWN that the emptied outfeed completes, and PRODUCTION with a standing
HOST_LOST, take their own changes (R161, R169, R167). -/
theorem test_witness_Clear_modes :
    (∃ t, exec (.clear (posting 5 0 0)) offLine = .next t ∧ (t.modes.mode == .off) = true) ∧
    (∃ t, exec (.clear (posting 5 0 0)) (line .warmup) = .next t ∧ (t.modes.mode == .warmup) = true) ∧
    (∃ t, exec (.clear (posting 5 0 0))
        { line .cooldown with outfeed := { Outfeed.atReset Pins.atRest with state := .loading } } = .next t ∧
      (t.outfeed.state == .empty && t.modes.mode == .off) = true) ∧
    (∃ t, exec (.clear (posting 5 0 0))
        { line .production with port := { (line .production).port with hostLost := true } } = .next t ∧
      (t.modes.mode == .economy) = true) :=
  ⟨goes_to (by decide +kernel), goes_to (by decide +kernel), goes_to (by decide +kernel), goes_to (by decide +kernel)⟩

theorem test_witness_SetSource_standing :
    ∃ (s w : State) (n : Fin 16), Posts s 8 (posting 8 1 0) ∧ w = s.withPost 8 (posting 8 1 0) ∧
      s.gate.state = .closed ∧ w.mem.read 0x0041 = 1 ∧ (w.mem.read 0x0042).toNat = n.val ∧
      judgeRecipe w.mem s.port.setup n.val ≠ .bad ∧ s.docket.source ≠ .standing n ∧ GateFormed s :=
  ⟨{ offLine with mem := recipeMemory }, _, 0, ⟨by decide, by decide⟩, rfl, rfl, by decide, by decide, by decide, nofun,
    ⟨by decide, by decide, by decide, by decide⟩⟩

theorem test_witness_SetSource_docket :
    ∃ s w : State, Posts s 8 (posting 8 0 0) ∧ w = s.withPost 8 (posting 8 0 0) ∧ w.mem.read 0x0041 = 0 ∧
      s.gate.state = .closed ∧ s.docket.source = .docket :=
  ⟨offLine, _, ⟨by decide, by decide⟩, rfl, by decide, rfl, rfl⟩

theorem test_witness_SetSource_bad :
    ∃ s w : State, Posts s 8 (posting 8 1 16) ∧ w = s.withPost 8 (posting 8 1 16) ∧ s.gate.state = .closed ∧
      w.mem.read 0x0041 = 1 ∧ 15 < (w.mem.read 0x0042).toNat :=
  ⟨offLine, _, ⟨by decide, by decide⟩, rfl, rfl, by decide, by decide⟩

theorem test_witness_SetSequence :
    (∃ (s : State), Posts s 9 (posting 9 7 0) ∧ s.gate.state = .opened) ∧
    (∃ (s : State), Posts s 9 (posting 9 7 0) ∧ s.gate.state ≠ .opened ∧ s.gate.state ≠ .late) :=
  ⟨⟨gateAt (line .production) .opened (some (offer 0 false)), ⟨by decide, by decide⟩, rfl⟩,
    ⟨offLine, ⟨by decide, by decide⟩, by decide, by decide⟩⟩

/-- Slots 0, 1 and 2 POSTED, with sequence 6, 7 and 7 and recipe 0, whose state word is given. -/
def posted (state : Word) : State :=
  { offLine with
    mem :=
      [(slotAt 0, 1), (slotAt 0 + 1, 6), (slotAt 1, 1), (slotAt 1 + 1, 7), (slotAt 2, 1), (slotAt 2 + 1, 7)].foldl
        (fun m (c : Nat × Word) => m.write c.1 c.2) (recipeMemory.write (recipeAt 0) state) }

/-- At E = 7 slot 0 is stale, slot 1 is the lowest that carries E and slot 2 a duplicate; the recipe is READY, EDITING or EMPTY.
-/
theorem test_witness_SetSequence_scan :
    ∀ k ∈ [((2 : Word), false), (1, false), (0, true)], ∃ s w : State,
      Posts s 9 (posting 9 7 0) ∧ w = s.withPost 9 (posting 9 7 0) ∧ s.loaded = true ∧ s.docket.source = .docket ∧
      s.docket.held = [] ∧ w.mem.read 0x0041 = 7 ∧
      (slotState w.mem 0 = .posted ∧ ((7 : Word) - w.mem.read (slotAt 0 + 1)).toNat = 1) ∧
      (slotState w.mem 1 = .posted ∧ w.mem.read (slotAt 1 + 1) = 7) ∧
      (slotState w.mem 2 = .posted ∧ w.mem.read (slotAt 2 + 1) = 7) ∧
      (∀ m : SlotIx, slotState w.mem m = .posted → m < 3) ∧
      (judgeRecipe w.mem s.port.setup (w.mem.read (slotAt 1 + 2)).toNat = .bad ↔ k.2 = true) := by
  intro k h
  simp only [List.mem_cons, List.not_mem_nil, or_false] at h
  rcases h with rfl | rfl | rfl
  · exact ⟨posted 2, _, ⟨by decide, by decide +kernel⟩, rfl, by decide +kernel⟩
  · exact ⟨posted 1, _, ⟨by decide, by decide +kernel⟩, rfl, by decide +kernel⟩
  · exact ⟨posted 0, _, ⟨by decide, by decide +kernel⟩, rfl, by decide +kernel⟩

/-- At E = 8 no slot carries E. -/
theorem test_witness_SetSequence_none :
    ∃ s w : State, Posts s 9 (posting 9 8 0) ∧ w = s.withPost 9 (posting 9 8 0) ∧ s.loaded = true ∧
      s.docket.source = .docket ∧ w.mem.read 0x0041 = 8 ∧
      ∀ m : SlotIx, ¬ (slotState w.mem m = .posted ∧ m ∉ s.docket.held ∧ w.mem.read (slotAt m + 1) = 8) :=
  ⟨posted 2, _, ⟨by decide, by decide +kernel⟩, rfl, rfl, rfl, by decide +kernel, by decide +kernel⟩

theorem test_witness_CancelDocket_range :
    ∃ s w : State, Posts s 10 (posting 10 64 0) ∧ w = s.withPost 10 (posting 10 64 0) ∧
      63 < (w.mem.read 0x0041).toNat :=
  ⟨offLine, _, ⟨by decide, by decide⟩, rfl, by decide⟩

theorem test_witness_CancelDocket_offered :
    ∃ (s w : State) (o : Offer), Posts s 10 (posting 10 63 0) ∧ w = s.withPost 10 (posting 10 63 0) ∧
      (w.mem.read 0x0041).toNat = 63 ∧ s.gate.state = .late ∧ s.docket.offer = some o ∧ o.slot = 63 :=
  ⟨gateAt (line .production) .late (some (offer 63 false)), _, offer 63 false, ⟨by decide, by decide⟩, rfl, by decide,
    rfl, rfl, rfl⟩

theorem test_witness_CancelDocket_posted :
    ∃ s w : State, Posts s 10 (posting 10 63 0) ∧ w = s.withPost 10 (posting 10 63 0) ∧
      (w.mem.read 0x0041).toNat = 63 ∧ s.gate.state ≠ .opened ∧ s.gate.state ≠ .late ∧ 63 ∉ s.docket.held ∧
      slotState w.mem 63 = .posted :=
  ⟨{ offLine with mem := Memory.write [] (slotAt 63) 1 }, _, ⟨by decide, by decide⟩, rfl, by decide, by decide,
    by decide, by decide, by decide⟩

theorem test_witness_CancelDocket_not_posted :
    ∃ s w : State, Posts s 10 (posting 10 0 0) ∧ w = s.withPost 10 (posting 10 0 0) ∧
      (w.mem.read 0x0041).toNat = 0 ∧ s.gate.state ≠ .opened ∧ s.gate.state ≠ .late ∧ 0 ∉ s.docket.held ∧
      slotState w.mem 0 ≠ .posted :=
  ⟨offLine, _, ⟨by decide, by decide⟩, rfl, by decide, by decide, by decide, by decide, by decide⟩

theorem test_witness_AckAlarms :
    ∃ s w : State, Posts s 11 (posting 11 255 0) ∧ w = s.withPost 11 (posting 11 255 0) ∧
      (w.mem.read 0x0041).toNat = 255 ∧ FansFormed s ∧ (s.extr.points.get 7).ann = .clearedUnack :=
  ⟨pointAt 7 { Point.atReset with ann := .clearedUnack }, _, ⟨by decide, by decide⟩, rfl, by decide,
    test_fans_formed _ _, rfl⟩

theorem test_witness_AckAlarms_range :
    ∃ s w : State, Posts s 11 (posting 11 256 0) ∧ w = s.withPost 11 (posting 11 256 0) ∧
      255 < (w.mem.read 0x0041).toNat :=
  ⟨offLine, _, ⟨by decide, by decide⟩, rfl, by decide⟩

/-- 50,000,000 is 02FAF080h. -/
theorem test_witness_FluxRefilled :
    ∃ s w : State, Posts s 12 (posting 12 0xF080 0x02FA) ∧ w = s.withPost 12 (posting 12 0xF080 0x02FA) ∧
      w.mem.read32 0x0041 = 50000000 ∧ s.flux.tankEmpty = false :=
  ⟨offLine, _, ⟨by decide, by decide⟩, rfl, by decide, rfl⟩

theorem test_witness_FluxRefilled_range :
    ∃ s w : State, Posts s 12 (posting 12 0xF081 0x02FA) ∧ w = s.withPost 12 (posting 12 0xF081 0x02FA) ∧
      50000000 < w.mem.read32 0x0041 :=
  ⟨offLine, _, ⟨by decide, by decide⟩, rfl, by decide⟩

theorem test_witness_FluxRefilled_empty :
    ∃ s w : State, Posts s 12 (posting 12 1 0) ∧ w = s.withPost 12 (posting 12 1 0) ∧ w.mem.read32 0x0041 = 1 ∧
      s.flux.tankEmpty = true :=
  ⟨{ offLine with flux := { Flux.atReset 0 with tankEmpty := true } }, _, ⟨by decide, by decide⟩, rfl, by decide, rfl⟩

theorem test_witness_PurgeFluxer :
    ∃ s w : State, Posts s 13 (posting 13 10000 0) ∧ w = s.withPost 13 (posting 13 10000 0) ∧
      (w.mem.read 0x0041).toNat = 10000 ∧ s.modes.mode = .warmup ∧ s.flux.purge = none ∧
      (∀ r ∈ s.track.records, (s.track.pos - r.lead).toNat < s.ws.barF - 500 ∨
        s.ws.barF + 6000 < (s.track.pos - r.lead).toNat) ∧ s.flux.inhibit = [] :=
  ⟨tracked { line .warmup with flux := { Flux.atReset 1000 with inhibit := [] } } 999 [board 1 0 .tracked none], _,
    ⟨by decide, by decide⟩, rfl, by decide, rfl, rfl, by decide, rfl⟩

theorem test_witness_PurgeFluxer_band :
    ∃ s w : State, Posts s 13 (posting 13 100 0) ∧ w = s.withPost 13 (posting 13 100 0) ∧
      (w.mem.read 0x0041).toNat = 100 ∧ s.modes.mode = .warmup ∧
      ∃ r ∈ s.track.records, s.ws.barF - 500 ≤ (s.track.pos - r.lead).toNat ∧
        (s.track.pos - r.lead).toNat ≤ s.ws.barF + 6000 :=
  ⟨tracked (line .warmup) 1000 [board 1 0 .tracked none], _, ⟨by decide, by decide⟩, rfl, by decide, rfl,
    by decide⟩

theorem test_witness_PurgeFluxer_refused :
    (∃ s w : State, Posts s 13 (posting 13 99 0) ∧ w = s.withPost 13 (posting 13 99 0) ∧
      (w.mem.read 0x0041).toNat < 100) ∧
    (∃ s w : State, Posts s 13 (posting 13 100 0) ∧ w = s.withPost 13 (posting 13 100 0) ∧
      (w.mem.read 0x0041).toNat = 100 ∧ s.modes.mode ≠ .warmup ∧ s.modes.mode ≠ .production) ∧
    (∃ s w : State, Posts s 13 (posting 13 100 0) ∧ w = s.withPost 13 (posting 13 100 0) ∧
      (w.mem.read 0x0041).toNat = 100 ∧ s.modes.mode = .warmup ∧ s.flux.purge = none ∧ s.track.records = [] ∧
      s.flux.inhibit ≠ []) :=
  ⟨⟨offLine, _, ⟨by decide, by decide⟩, rfl, by decide⟩,
    ⟨offLine, _, ⟨by decide, by decide⟩, rfl, by decide, by decide, by decide⟩,
    ⟨line .warmup, _, ⟨by decide, by decide⟩, rfl, by decide, rfl, rfl, rfl, by decide⟩⟩

theorem test_witness_ClearTrackFlags :
    ∃ s w : State, Posts s 14 (posting 14 0 0) ∧ w = s.withPost 14 (posting 14 0 0) ∧ s.track.overflow = true :=
  ⟨{ State.reset with track := { State.reset.track with overflow := true } }, _, ⟨by decide, by decide⟩, rfl, rfl⟩

/-! ## Witnesses: the registers -/

theorem test_witness_PosRead :
    (Half.hi ≠ Half.lo) ∧ (∀ v, State.reset.port.latch ≠ some (Half.lo, v)) ∧
      ∃ (s : State) (v : Word), s.port.latch = some (Half.lo, v) :=
  ⟨nofun, nofun, { State.reset with port := { Port.atReset with latch := some (.lo, 7) } }, 7, rfl⟩

theorem test_witness_HostAlive : State.reset.loaded = false ∧ (line .production).loaded = true := ⟨rfl, rfl⟩

/-! ## Witnesses: what a command may do -/

/-- A line with one board at lead 0, zone 1 and the main pump with a target. -/
def keeping (m : Mode) : State :=
  { tracked (line m) 0 [board 1 0 .tracked none] with
    thermal := { Thermal.atReset with zones := Thermal.atReset.zones.set 0 { Loop.atReset with target := 1500, sp := 1500 } }
    pot := { Pot.atReset false with main := { Pump.atReset with target := 900 } } }

/-- R107, R108 and R126: without a candidate PRODUCTION keeps both targets; so does WARMUP without a next recipe; COOLDOWN keeps
the pump's alone. -/
theorem test_witness_ReferenceRulesAreKept_held :
    (∀ m ∈ [Mode.production, .warmup, .cooldown], GateFormed (keeping m)) ∧
    (∀ m ∈ [Mode.production, .warmup], ∃ t, exec (.upstreamAvailableChange true) (keeping m) = .next t ∧
      (t.modes.mode == m && t.nextBoard == none && (t.thermal.zones.get 0).target == 1500 && t.pot.main.target == 900) = true) ∧
    ∃ t, exec (.upstreamAvailableChange true) (keeping .cooldown) = .next t ∧
      (t.modes.mode == .cooldown && (t.thermal.zones.get 0).target == 0 && t.pot.main.target == 900) = true := by
  refine ⟨fun m h => ⟨?_, ?_, ?_, ?_⟩, goes_all (by decide +kernel), goes_to (by decide +kernel)⟩
  all_goals revert m; decide

/-- R90: a new target clears SETTLED and the count; a boundary counts; LOOP_SETTLED alone sets the flag. -/
theorem test_witness_LoopRangesAreKept_settle :
    (∃ t, exec (.economy (posting 6 0 0)) warmed = .next t ∧
      (t.thermal.pot.target == 2200 && !t.thermal.pot.settled && t.thermal.pot.count == 0) = true) ∧
    (∃ t, exec .heaterPeriodBoundary
        { heated with
          thermal :=
            { heated.thermal with
              inputs := heated.thermal.inputs.set 6 { Input.atReset with state := .good, ring := [2480, 2480, 2480, 2480] } } } =
        .next t ∧ (t.thermal.pot.count == 1 && !t.thermal.pot.settled) = true) ∧
    ∃ t, exec (.loopSettled .pot) { heated with thermal := { heated.thermal with pot := { loopAt 2500 0 0 0 with count := 5 } } } =
        .next t ∧ t.thermal.pot.settled = true :=
  ⟨goes_to (by decide +kernel), goes_to (by decide +kernel), goes_to (by decide +kernel)⟩

/-- R163: START takes OFF to WARMUP, the completion condition WARMUP to PRODUCTION, each with MODE_CHANGED; and a COOLDOWN stands
while a board lies in the machine. -/
theorem test_witness_ModeRulesAreKept_moves :
    (∀ ws, Instr.start (posting 2 0 0) ≠ .powerOnReset ws) ∧
    (∃ t, exec (.start (posting 2 0 0)) offLine = .next t ∧ (t.modes.mode == .warmup && t.port.notices.getLsbD 2) = true) ∧
    (∃ t, exec .warmupComplete warmed = .next t ∧ (t.modes.mode == .production && t.port.notices.getLsbD 2) = true) ∧
    ModeStands waiting ∧ ModeStands (tracked (line .cooldown) 0 [board 1 0 .tracked none]) :=
  ⟨nofun, goes_to (by decide +kernel), goes_to (by decide +kernel), ⟨nofun, nofun⟩, ⟨fun _ h => (nomatch h.1), nofun⟩⟩

/-- The three posted slots of `posted` at E = 7, and a delivered board that has left the end sensor, DOWNSTREAM_READY asserted;
the hold set is that of the conditions. -/
def delivered : State :=
  let s :=
    { posted 2 with
      clock := 20
      modes := { Modes.atReset with mode := .production }
      pins := { Pins.atRest with downstream := true }
      docket := Docket.atReset 7
      outfeed := { Outfeed.atReset Pins.atRest with state := .delivering, sensor := ⟨true, some 0, 0⟩, available := true } }
  { s with gate := { Gate.atReset with told := .delivering, holds := formHolds s } }

/-- R160: OUTFEED stands neither before nor after, and yet the report of EMPTY is an evaluation: its scan rejects the stale slot
and the duplicate and finds the candidate. -/
theorem test_witness_GateRuleIsKept_outfeed :
    OutfeedTold delivered ∧ delivered.gate.state = .closed ∧ HoldReason.outfeed ∉ delivered.gate.holds ∧
    ∃ t, exec .endSensorEvent delivered = .next t ∧
      (t.outfeed.state == .empty && t.gate.state == .closed && t.docket.source == .docket && t.loaded &&
        !t.gate.holds.contains .outfeed && t.docket.candidate == some 1 && slotState t.mem 0 == .rejected &&
        slotState t.mem 2 == .rejected) = true :=
  ⟨rfl, rfl, by decide +kernel, goes_to (by decide +kernel)⟩

/-- R61, R67 and R73: E-STOP begins the inhibit, which ends windows, pulses and the purge; a closing record takes its edges along;
a boundary opens the lanes of an active window. -/
theorem test_witness_TankBoundIsKept_flux :
    (∃ t, exec .estopInputActive (spraying []) = .next t ∧
      (t.flux.inhibit == [.mode] && t.flux.active == [] && t.flux.edges == (spraying []).flux.edges) = true) ∧
    (∃ t, exec .estopInputActive
        { spraying [] with
          flux :=
            { (spraying []).flux with
              active := [⟨1, 1, 1, 10⟩], purge := some ⟨100, 0⟩
              pulses := (Flux.atReset 1000).pulses.set 0 (some ⟨0, 10, 1, 1⟩) } } = .next t ∧
      (t.flux.edges == [⟨1500, 1, 1, true, 1, 16⟩] && t.flux.pulses == (Flux.atReset 1000).pulses && t.flux.purge == none) = true) ∧
    (∃ t, exec (.eyeChangeAccepted .exit)
        (eyeAt { spraying [] with track := { (spraying []).track with records := [board 1 0 .exiting (bound 0)] } } .exit true 1480) =
        .next t ∧ (t.track.records == [] && t.flux.edges == [] && t.flux.active == []) = true) ∧
    ∃ t, exec .modulationBoundary (spraying []) = .next t ∧ ((t.flux.pulses.get 0).isSome && t.flux.edges.length == 1) = true :=
  ⟨goes_to (by decide +kernel), goes_to (by decide +kernel), goes_to (by decide +kernel), goes_to (by decide +kernel)⟩

/-- A purge runs, a board one tenth before `p`, which lead 0 and F = 1500 make 100.0 mm or less, and the tank holds `n`. -/
def purging (p : Pos) (n : Nat) : State :=
  let s := tracked (line .production) (p - 1) [board 1 0 .tracked none]
  { s with
    track := { s.track with frac := 30000 }
    flux := { Flux.atReset n with inhibit := [], purge := some ⟨100, 0⟩ } }

/-- R78: the purge ends at F − 500, not short of it; and where the inhibit begins. -/
theorem test_witness_EncoderCount_purge :
    (∃ t, exec (.encoderCount .forward) (purging 1000 1000) = .next t ∧ (t.flux.purge == none && t.flux.inhibit == []) = true) ∧
    (∃ t, exec (.encoderCount .forward) (purging 999 1000) = .next t ∧
      (t.track.pos == 999 && t.flux.purge == some ⟨100, 0⟩ && t.flux.inhibit == []) = true) ∧
    ∃ t, exec (.encoderCount .forward) (purging 999 0) = .next t ∧ (t.flux.purge == none && t.flux.inhibit == [.tank]) = true :=
  ⟨goes_to (by decide +kernel), goes_to (by decide +kernel), goes_to (by decide +kernel)⟩

/-- The trailing edge of a board of 100.1 mm, F tenths of `f`; its windows end before the board, beyond it, start at its last
millimetre and beyond it; window 0 is active. -/
def clamping (f : Word) : State :=
  let ws : List Window := [⟨10, 70, 1, 10⟩, ⟨90, 120, 1, 10⟩, ⟨100, 130, 1, 10⟩, ⟨101, 140, 1, 10⟩]
  let b := { offer 3 false with recipe := { recipe with windowCount := 4, windows := ws } }.binding
  let close := fun (n k : Nat) => (⟨100 + f.setWidth 32 + BitVec.ofNat 32 n, 1, k, false, 1, 10⟩ : Edge)
  { trailing true with
    track := { (trailing true).track with records := [board 1 100 .entering (some b)] }
    port := { Port.atReset with setup := some { words := setup.words.set 7 f } }
    flux :=
      { Flux.atReset 1000 with
        inhibit := [], active := [⟨1, 0, 1, 10⟩]
        edges := [close 700 0, { close 1010 3 with opens := true }, close 1200 1, close 1300 2, close 1400 3] } }

/-- R65: windows 1 and 2 end with the board, window 3 is gone, window 0 stays; with F = 2.0 mm P is at the clamp position, and
window 0 ends at once. -/
theorem test_witness_TrailingEdge_clamp :
    (∃ t, exec (.eyeChangeAccepted .entry) (clamping 1500) = .next t ∧
      (t.flux.inhibit == [] && t.flux.edges.map (fun e => (e.pos, e.window)) == [(2300, 0), (2601, 1), (2601, 2)] &&
        t.flux.active == [⟨1, 0, 1, 10⟩]) = true) ∧
    ∃ t, exec (.eyeChangeAccepted .entry) (clamping 20) = .next t ∧
      (t.track.pos == 1121 && t.flux.active == [] &&
        t.flux.edges.map (fun e => (e.pos, e.window)) == [(820, 0), (1121, 1), (1121, 2)]) = true :=
  ⟨goes_to (by decide +kernel), goes_to (by decide +kernel)⟩

/-- R183: a bit that is pending stays, its mark too; MODE_CHANGED joins without a mark; a read marks. -/
theorem test_witness_NoticeStep :
    (∃ t, exec (.start (posting 2 0 0)) { offLine with port := { offLine.port with notices := 1, marks := 5 } } = .next t ∧
      (t.port.notices.getLsbD 0 && t.port.marks.getLsbD 0 && t.port.notices.getLsbD 2 && !t.port.marks.getLsbD 2) = true) ∧
    ∃ t, exec .noticeRead { offLine with port := { offLine.port with notices := 1 } } = .next t ∧ (t.port.marks == 1) = true :=
  ⟨goes_to (by decide +kernel), goes_to (by decide +kernel)⟩

/-! ## Commands run -/

/-- R6: a measured speed at either end of the signed word. -/
theorem test_speedWord : speedWord 32767 0 = 0x7FFF ∧ speedWord (-32768) 0 = 0x8000 := by decide


/-- R3: the halves of P = 0001FFFFh, read low then high. -/
theorem test_posRead_low :
    (readPos { State.reset with track := { State.reset.track with pos := 0x0001FFFF } } .lo) =
      (0xFFFF, some (.hi, 1)) := by decide

/-- R183, section 11.4: an unmarked bit survives a write of 0, a marked one is cleared. -/
theorem test_noticeWrite :
    (match exec (.noticeWrite 0) { State.reset with port := { Port.atReset with notices := 0x41, marks := 0x01 } } with
     | .next t => t.port.notices
     | _ => 0) = 0x40 := by decide

/-- R176: writes to the read-only registers have no effect. -/
theorem test_ignored_write : exec (.ignoredRegisterWrite .mode 5) State.reset = .next State.reset := rfl

end Sys2Proof.Tests
end

section
/-! The power budget and the heaters' cut rule (R92 to R98): the allocation of R94 as arithmetic, what the consequences of a step
do to the grants and the outputs, and what each command does to them. -/

namespace Sys2Proof.Machine

/-! ## The zones' allocation (R94) -/

theorem zonesTotal_eq_sum (d rating : Tab6 Nat) : zonesTotal d rating = ∑ z, d.get z * rating.get z := by
  simp [zonesTotal, allZones, Fin.sum_univ_six]

theorem zoneGrant_of_fits {left total : Nat} (h : total ≤ left) (d : Nat) : zoneGrant left total d = d := if_pos h

theorem zoneGrant_of_short {left total : Nat} (h : left < total) (d : Nat) :
    zoneGrant left total d = d * left / total := if_neg (Nat.not_le.mpr h)

@[simp] theorem zoneGrant_zero (left total : Nat) : zoneGrant left total 0 = 0 := by simp [zoneGrant]

/-- A total of 0 leaves no eligible request: a loop with a request has a rating. -/
theorem eligible_eq_zero_of_total {d rating : Tab6 Nat} (h : ∀ z, rating.get z = 0 → d.get z = 0)
    (ht : zonesTotal d rating = 0) (z : Zone) : d.get z = 0 := by
  rw [zonesTotal_eq_sum, Finset.sum_eq_zero_iff] at ht
  rcases Nat.mul_eq_zero.mp (ht z (Finset.mem_univ z)) with hd | hr
  · exact hd
  · exact h z hr

theorem zoneGrant_of_nothing_left {d rating : Tab6 Nat} (h : ∀ z, rating.get z = 0 → d.get z = 0) (z : Zone) :
    zoneGrant 0 (zonesTotal d rating) (d.get z) = 0 := by
  rcases Nat.eq_zero_or_pos (zonesTotal d rating) with ht | ht
  · rw [eligible_eq_zero_of_total h ht, zoneGrant_zero]
  · rw [zoneGrant_of_short ht, Nat.mul_zero, Nat.zero_div]

/-- Rounding each share down keeps the granted power within what is left. -/
theorem zoneGrants_power_le (left : Nat) (d rating : Tab6 Nat) :
    ∑ z, zoneGrant left (zonesTotal d rating) (d.get z) * rating.get z ≤ left := by
  rcases Nat.lt_or_ge left (zonesTotal d rating) with ht | ht
  · refine Nat.le_of_mul_le_mul_right (c := zonesTotal d rating) ?_ (Nat.zero_lt_of_lt ht)
    have share : ∀ z, zoneGrant left (zonesTotal d rating) (d.get z) * rating.get z * zonesTotal d rating
        ≤ left * (d.get z * rating.get z) := fun z => by
      rw [zoneGrant_of_short ht]
      calc d.get z * left / zonesTotal d rating * rating.get z * zonesTotal d rating
          = d.get z * left / zonesTotal d rating * zonesTotal d rating * rating.get z := Nat.mul_right_comm ..
        _ ≤ d.get z * left * rating.get z := Nat.mul_le_mul_right _ (Nat.div_mul_le_self _ _)
        _ = left * (d.get z * rating.get z) := by rw [Nat.mul_comm (d.get z) left, Nat.mul_assoc]
    calc (∑ z, zoneGrant left (zonesTotal d rating) (d.get z) * rating.get z) * zonesTotal d rating
        = ∑ z, zoneGrant left (zonesTotal d rating) (d.get z) * rating.get z * zonesTotal d rating := Finset.sum_mul ..
      _ ≤ ∑ z, left * (d.get z * rating.get z) := Finset.sum_le_sum fun z _ => share z
      _ = left * zonesTotal d rating := by rw [zonesTotal_eq_sum, Finset.mul_sum]
  · simpa only [zoneGrant_of_fits ht, ← zonesTotal_eq_sum] using ht

/-- Settles O32: the shares add up to at most what is left because each is rounded down. -/
theorem zoneAllocationSharesWhatIsLeft : Obligations.ZoneAllocationSharesWhatIsLeft := by
  intro left d rating total hd htotal
  obtain rfl : total = zonesTotal d rating := by rw [htotal, zonesTotal_eq_sum, Fin.sum_univ_six]
  refine ⟨rfl, fun z => ⟨fun h => zoneGrant_of_fits h _, fun h => zoneGrant_of_short h _, fun h => ?_, ?_, ?_⟩, ?_⟩
  · rw [h, zoneGrant_zero]
  · rintro rfl; exact zoneGrant_of_nothing_left hd z
  · intro h1 h2
    calc d.get z * left ≤ 1000 * (1000 * 60000) := Nat.mul_le_mul h1 h2
      _ < 2 ^ 36 := by norm_num
  · have h := zoneGrants_power_le left d rating
    rwa [Fin.sum_univ_six] at h

/-! ## What drives the outputs -/

/-- What drives output `k`: the grant of its loop, and whether it is on. -/
def Thermal.drive (t : Thermal) (k : Idx8) : Nat × Bool :=
  (t.outputGrant k, t.outputs.get k)

/-- Each output where `cut` holds has lost its grant and is off. -/
def cutDrive (cut : Idx8 → Bool) (d : Idx8 → Nat × Bool) (k : Idx8) : Nat × Bool :=
  if cut k then (0, false) else d k

theorem cutDrive_idem (cut : Idx8 → Bool) (d : Idx8 → Nat × Bool) : cutDrive cut (cutDrive cut d) = cutDrive cut d := by
  funext k; unfold cutDrive; split <;> rfl

@[simp] theorem Thermal.outputGrant_zone (t : Thermal) (z : Zone) : t.outputGrant (zoneOutput z) = (t.zones.get z).grant := by
  match z with
  | 0 | 1 | 2 | 3 | 4 | 5 => rfl

@[simp] theorem outputCut_pot (s : State) : outputCut s 0 = potCut s ∧ outputCut s 1 = potCut s := ⟨rfl, rfl⟩

@[simp] theorem outputCut_zone (s : State) (z : Zone) : outputCut s (zoneOutput z) = zoneCut s z := by
  match z with
  | 0 | 1 | 2 | 3 | 4 | 5 => rfl

/-- An output is one of the pot's two, or a zone's. -/
theorem output_cases (k : Idx8) : k = 0 ∨ k = 1 ∨ ∃ z, k = zoneOutput z := by
  revert k; decide

/-- The drive depends on the grants and the outputs alone. -/
theorem Thermal.drive_congr {t u : Thermal} (hp : t.pot.grant = u.pot.grant)
    (hz : ∀ z, (t.zones.get z).grant = (u.zones.get z).grant) (ho : t.outputs = u.outputs) : t.drive = u.drive := by
  funext k
  refine Prod.ext ?_ (congrArg (·.get k) ho)
  rcases output_cases k with rfl | rfl | ⟨z, rfl⟩
  · exact hp
  · exact hp
  · simpa [drive] using hz z

theorem overtemp_congr {s t : State} (hi : t.thermal.inputs = s.thermal.inputs)
    (hp : t.pins.thermostatOpen = s.pins.thermostatOpen) (hs : t.port.setup = s.port.setup) :
    overtemp t = overtemp s := by
  unfold overtemp Thermal.potPV State.loaded State.ws; rw [hi, hp, hs]

/-- A cut depends on the inputs, the latches, HEAT_AUTH, the pins, the mode, the halt causes and the setup alone. -/
theorem outputCut_congr {s t : State} (hi : t.thermal.inputs = s.thermal.inputs)
    (hl : t.thermal.latches = s.thermal.latches) (ha : t.thermal.auth = s.thermal.auth) (hp : t.pins = s.pins)
    (hm : t.modes.mode = s.modes.mode) (hc : t.modes.causes = s.modes.causes) (hs : t.port.setup = s.port.setup) :
    outputCut t = outputCut s := by
  have hot : overtemp t = overtemp s := overtemp_congr hi (by rw [hp]) hs
  have pot : potCut t = potCut s := by
    simp only [potCut, State.permit, potBarred, hot, hi, ha, hp, hm, hc]
  have zone : ∀ z, zoneCut t z = zoneCut s z := fun z => by
    simp only [zoneCut, State.permit, Thermal.zoneFaulted, hi, hl, ha, hp, hm]
  funext k
  rcases output_cases k with rfl | rfl | ⟨z, rfl⟩
  · exact pot
  · exact pot
  · simpa using zone z

/-- The consequences of a step change a cut through the mode alone. -/
theorem Kept.outputCut {s t : State} (h : Kept s t) (hm : t.modes.mode = s.modes.mode) : outputCut t = outputCut s :=
  outputCut_congr h.keeps.thermalInputs h.keeps.thermalLatches h.keeps.thermalAuth h.keeps.pins hm h.keeps.modesCauses
    h.keeps.portSetup

theorem permit_eq_false_iff (s : State) : s.permit = false ↔ NotPermitted s := by
  simp [State.permit, NotPermitted, or_assoc, imp_iff_not_or]

theorem potCut_iff (s : State) : potCut s = true ↔ NotPermitted s ∨ PotCut s := by
  simp [potCut, PotCut, ← permit_eq_false_iff, potBarred, or_assoc]

theorem zoneCut_iff (s : State) (z : Zone) : zoneCut s z = true ↔ NotPermitted s ∨ ZoneCut s z := by
  simp [zoneCut, ZoneCut, ← permit_eq_false_iff, Thermal.zoneFaulted]

/-- The cut rule, output by output. -/
theorem heatersCut_iff_drive (s : State) :
    HeatersCut s ↔ ∀ k, outputCut s k = true → s.thermal.drive k = (0, false) := by
  rw [heatersCut_iff]
  constructor
  · rintro ⟨pot, zone, out⟩ k h
    refine Prod.ext ?_ (out k h)
    rcases output_cases k with rfl | rfl | ⟨z, rfl⟩
    · exact pot h
    · exact pot h
    · simpa [Thermal.drive] using zone z (by simpa using h)
  · intro h
    refine ⟨fun c => congrArg Prod.fst (h 0 c), fun z c => ?_, fun k c => congrArg Prod.snd (h k c)⟩
    simpa [Thermal.drive] using congrArg Prod.fst (h (zoneOutput z) (by simpa using c))

/-- R98: a cut takes the grant and the output of exactly the loops whose cut stands. -/
theorem drive_cutGrants (s : State) : s.cutGrants.thermal.drive = cutDrive (outputCut s) s.thermal.drive := by
  have grant : ∀ (l : Loop) (c : Bool), (l.cutIf c).grant = if c then 0 else l.grant := fun l c => by
    cases c <;> rfl
  funext k
  have out : s.cutGrants.thermal.outputs.get k = (s.thermal.outputs.get k && !outputCut s k) := by
    simp [State.cutGrants]
  have hg : s.cutGrants.thermal.outputGrant k = if outputCut s k then 0 else s.thermal.outputGrant k := by
    rcases output_cases k with rfl | rfl | ⟨z, rfl⟩
    · exact grant _ _
    · exact grant _ _
    · simp [State.cutGrants, grant]
  rw [Thermal.drive, out, hg, cutDrive]
  cases outputCut s k <;> simp [Thermal.drive]

/-! ## The drive through the consequences of a step -/

@[simp] theorem drive_reformZones (s : State) : s.reformZones.thermal.drive = s.thermal.drive :=
  Thermal.drive_congr rfl (fun z => by simp [State.reformZones]) rfl

@[simp] theorem drive_reformPotTarget (s : State) : s.reformPotTarget.thermal.drive = s.thermal.drive :=
  Thermal.drive_congr (by simp [State.reformPotTarget]) (fun z => by simp [State.reformPotTarget]) rfl

@[simp] theorem drive_reformTargets (s : State) : s.reformTargets.thermal.drive = s.thermal.drive := by
  simp [State.reformTargets]

@[simp] theorem drive_nameClass (s : State) : s.nameClass.thermal.drive = s.thermal.drive := by
  simp [State.nameClass]

@[simp] theorem drive_phaseDraining (s : State) : s.phaseDraining.thermal.drive = s.thermal.drive := by
  unfold State.phaseDraining
  split
  · rfl
  · split
    · rfl
    · split <;> simp

@[simp] theorem drive_retargetClass (s : State) : s.retargetClass.thermal.drive = s.thermal.drive := by
  unfold State.retargetClass
  split
  · rfl
  · split <;> simp

@[simp] theorem drive_phaseMoving (s : State) : s.phaseMoving.thermal.drive = s.thermal.drive := by
  unfold State.phaseMoving
  dsimp only
  split
  · split <;> simp
  · simp

@[simp] theorem drive_phaseSettling (s : State) : s.phaseSettling.thermal.drive = s.thermal.drive := by
  unfold State.phaseSettling
  dsimp only
  split
  · split
    · simp
    · split <;> simp
  · simp

@[simp] theorem drive_phaseStep (s : State) : s.phaseStep.thermal.drive = s.thermal.drive := by
  unfold State.phaseStep
  split
  · split <;> simp
  · rfl

@[simp] theorem drive_changeover (fuel : Nat) (s : State) : (s.changeover fuel).thermal.drive = s.thermal.drive := by
  induction fuel generalizing s with
  | zero => rfl
  | succ k ih =>
    unfold State.changeover
    dsimp only
    split <;> simp [ih]

@[simp] theorem drive_gateEval (s : State) : s.gateEval.thermal.drive = s.thermal.drive := by
  simp [State.gateEval]

@[simp] theorem drive_gateStage (s : State) : s.gateStage.thermal.drive = s.thermal.drive := by
  rcases s.gateStage_cases with h | h | h | h <;> simp [h]

/-- A re-forming cuts, by the cuts that stand after it, and nothing more. -/
theorem drive_reform (s : State) : s.reform.thermal.drive = cutDrive (outputCut s.reform) s.thermal.drive := by
  have cut : outputCut s.reform = outputCut s.modeStage.reformFans.reformHorn.reformInhibit := by
    unfold State.reform State.reformGuards
    generalize s.modeStage.reformFans.reformHorn.reformInhibit = u
    apply outputCut_congr <;>
      simp [State.reformLine, State.reformIdle, State.reformTargets, State.reformPotTarget, State.reformZones, Port.formLine,
        State.cutGrants]
  rw [cut]
  simp [State.reform, State.reformGuards, drive_cutGrants]

theorem drive_pass (s : State) : s.pass.thermal.drive = cutDrive (outputCut s.pass) s.thermal.drive := by
  have cut : outputCut s.pass = outputCut s.reform :=
    (kept_gateStage s.reform).outputCut (by simp)
  rw [cut, ← drive_reform]
  exact drive_gateStage _

/-- After its first pass a state stays in its mode, so the cuts stand. -/
theorem outputCut_pass_pass (s : State) : outputCut s.pass.pass = outputCut s.pass :=
  (kept_pass _).outputCut (by rw [(mode_of_modes (pass_modes s.pass)).1, pass_still])

theorem outputCut_settle (s : State) : outputCut s.settle = outputCut s.pass :=
  ((kept_reform _).outputCut (by rw [(mode_of_modes (reform_modes s.pass.pass)).1, pass_still])).trans
    (outputCut_pass_pass s)

/-- The consequences of a step cut, by the cuts that stand after them, and nothing more. -/
theorem drive_settle (s : State) : s.settle.thermal.drive = cutDrive (outputCut s.settle) s.thermal.drive := by
  have last : s.settle.thermal.drive = cutDrive (outputCut s.settle) s.pass.pass.thermal.drive := drive_reform _
  rw [last, drive_pass, drive_pass, outputCut_pass_pass, outputCut_settle, cutDrive_idem, cutDrive_idem]

/-- An evaluation moves no mode, so the cuts of the re-forming before it stand. -/
theorem outputCut_settleEval (s : State) : outputCut s.settleEval = outputCut s.reform := by
  have hm : s.reform.gateEval.modes.mode = s.modeStage.modes.mode := by
    simpa using (mode_of_modes (reform_modes s)).1
  obtain ⟨cool, lost⟩ := still_after ((kept_reform s).trans (kept_gateEval _))
    ((follows_reform s).trans (follows_gateEval _)).outfeed hm
  refine ((kept_gateEval _).trans (kept_settle _)).outputCut ?_
  rw [settle_mode_of_still cool lost]
  simp

theorem drive_settleEval (s : State) : s.settleEval.thermal.drive = cutDrive (outputCut s.settleEval) s.thermal.drive := by
  have last : s.settleEval.thermal.drive = cutDrive (outputCut s.settleEval) s.reform.gateEval.thermal.drive :=
    drive_settle _
  rw [last, drive_gateEval, drive_reform, outputCut_settleEval, cutDrive_idem]

/-! ## The cut rule through quiet changes and the resets (R92, R98) -/

theorem Thermal.drive_atReset (k : Idx8) : Thermal.atReset.drive k = (0, false) := by
  revert k; decide

theorem HeatersCut.of_thermal_atReset {s : State} (h : s.thermal = Thermal.atReset) : HeatersCut s := by
  refine (heatersCut_iff_drive s).mpr fun k _ => ?_
  rw [h, Thermal.drive_atReset]

/-- A quiet change brings no cut that did not stand. -/
theorem Quiet.outputCut {s t : State} (q : Quiet s t) (k : Idx8) (h : outputCut t k = true) : outputCut s k = true := by
  have th : ∀ {α : Type} (f : Thermal → α), f { t.thermal with outputs := s.thermal.outputs } = f s.thermal :=
    fun f => congrArg f q.thermal
  have hi : t.thermal.inputs = s.thermal.inputs := th (·.inputs)
  have hl : t.thermal.latches = s.thermal.latches := th (·.latches)
  have ha : t.thermal.auth = s.thermal.auth := th (·.auth)
  have hot : overtemp t = overtemp s := overtemp_congr hi q.thermostat q.setup
  have permit : NotPermitted t → NotPermitted s := by
    rintro (h | h | h)
    · exact .inl (ha ▸ h)
    · exact .inr (.inl (q.mode ▸ h))
    · exact .inr (.inr (q.estop h))
  have pot : potCut t = true → potCut s = true := by
    rw [potCut_iff, potCut_iff]
    refine Or.imp permit fun h => ?_
    rwa [PotCut, hi, hot, q.mode, q.causes] at h
  have zone : ∀ z, zoneCut t z = true → zoneCut s z = true := fun z => by
    rw [zoneCut_iff, zoneCut_iff]
    refine Or.imp permit fun h => ?_
    rwa [ZoneCut, hi, hl] at h
  rcases output_cases k with rfl | rfl | ⟨z, rfl⟩
  · exact pot h
  · exact pot h
  · rw [outputCut_zone] at h ⊢; exact zone z h

theorem Quiet.outputGrant {s t : State} (q : Quiet s t) (k : Idx8) :
    t.thermal.outputGrant k = s.thermal.outputGrant k :=
  Eq.trans (b := Thermal.outputGrant { t.thermal with outputs := s.thermal.outputs } k) rfl
    (congrArg (fun u : Thermal => u.outputGrant k) q.thermal)

theorem outputAt_of_no_grant {s : State} {k : Idx8} (h : s.thermal.outputGrant k = 0) (m : Nat) :
    outputAt s k m = false := by
  simp [outputAt, outputOn, h]

/-- R97: a cut output has no grant, so its own switch does not turn it on. -/
theorem Quiet.heatersCut {s t : State} (q : Quiet s t) (h : HeatersCut s) : HeatersCut t := by
  rw [heatersCut_iff_drive] at h ⊢
  intro k cut
  have before := h k (q.outputCut k cut)
  have grant : s.thermal.outputGrant k = 0 := congrArg Prod.fst before
  have off : s.thermal.outputs.get k = false := congrArg Prod.snd before
  refine Prod.ext ((q.outputGrant k).trans grant) ?_
  show t.thermal.outputs.get k = false
  rcases q.outputs with same | ⟨j, m, switched⟩
  · rw [same, off]
  · rw [switched, Tab8.get_set]
    split
    · next e => rw [← e]; exact outputAt_of_no_grant grant m
    · exact off

theorem HeatersCut.answer {s : State} (h : HeatersCut s) (a : Answer) : HeatersCut (s.answer a) :=
  (quiet_answer s a).heatersCut h

theorem HeatersCut.refresh {s : State} (h : HeatersCut s) : HeatersCut s.writeClock.refresh :=
  h.congr rfl (fun _ => rfl) rfl rfl rfl rfl rfl rfl rfl rfl

@[simp] theorem thermal_resetExit (s : State) : s.resetExit.thermal = s.thermal := by simp [State.resetExit]

theorem thermal_portReset (s : State) :
    (allSlots.foldl State.abortSlot (s.cutPulses (fun _ => true) false).portRebuild).resetExit.thermal =
      Thermal.atReset := by
  obtain ⟨m, p, mo, h, -⟩ := portReset_blocks s
  rw [h]
  rfl

/-- The cut rule of R92 and R98 is kept by every step. -/
theorem step_keeps_heatersCut (s t : State) (h : step s = .next t) (hs : HeatersCut s) : HeatersCut t := by
  refine step_keeps HeatersCut settle_heatersCut (fun _ a hu => hu.answer a) (fun _ hu => hu.refresh)
    (fun _ _ q hu => q.heatersCut hu) (fun u ws => ?_) (fun u => .of_thermal_atReset (thermal_portReset u))
    (fun u l hu => ?_) s t h hs
  · exact .of_thermal_atReset (by rw [thermal_resetExit]; rfl)
  · exact hu.congr rfl (fun _ => rfl) rfl rfl rfl rfl rfl rfl rfl rfl

/-! ## What a command does to the heaters between boundaries -/

/-- Each output keeps its grant and stays as it was, or has lost both to a cut that stands in `t`. -/
def HeatersFollow (s t : State) : Prop :=
  ∀ k, t.thermal.drive k = s.thermal.drive k ∨ (outputCut t k = true ∧ t.thermal.drive k = (0, false))

theorem HeatersFollow.of_drive {s t : State} (h : t.thermal.drive = s.thermal.drive) : HeatersFollow s t :=
  fun k => .inl (congrFun h k)

theorem HeatersFollow.refl (s : State) : HeatersFollow s s := .of_drive rfl

theorem HeatersFollow.of_cut {s t u : State} (hu : u.thermal.drive = s.thermal.drive)
    (h : t.thermal.drive = cutDrive (outputCut t) u.thermal.drive) : HeatersFollow s t := fun k => by
  rw [h, hu, cutDrive]
  split
  · next cut => exact .inr ⟨cut, rfl⟩
  · exact .inl rfl

theorem HeatersFollow.settle {s u : State} (h : u.thermal.drive = s.thermal.drive) : HeatersFollow s u.settle :=
  .of_cut h (drive_settle u)

theorem HeatersFollow.settleEval {s u : State} (h : u.thermal.drive = s.thermal.drive) : HeatersFollow s u.settleEval :=
  .of_cut h (drive_settleEval u)

theorem HeatersFollow.ite {s t u : State} {c : Prop} [Decidable c] (ht : HeatersFollow s t) (hu : HeatersFollow s u) :
    HeatersFollow s (if c then t else u) := by
  split <;> assumption

/-- A command whose event is due settles its effect; else it changes nothing. -/
theorem HeatersFollow.due {s u : State} {c : Prop} [Decidable c] (h : u.thermal.drive = s.thermal.drive) :
    HeatersFollow s (if c then u.settle else s) :=
  .ite (.settle h) (.refl s)

/-- A further change that leaves the heaters and the conditions of their cuts alone. -/
theorem HeatersFollow.of_frame {s t u : State} (h : HeatersFollow s t) (ht : u.thermal = t.thermal)
    (hc : outputCut u = outputCut t) : HeatersFollow s u := fun k => by
  rw [ht, hc]; exact h k

theorem HeatersFollow.refresh {s t : State} (h : HeatersFollow s t) : HeatersFollow s t.writeClock.refresh :=
  h.of_frame rfl (outputCut_congr rfl rfl rfl rfl rfl rfl rfl)

theorem HeatersFollow.answer {s t : State} (h : HeatersFollow s t) (a : Answer) : HeatersFollow s (t.answer a) :=
  h.of_frame rfl (outputCut_congr rfl rfl rfl rfl rfl rfl (quiet_answer t a).setup)

/-- A reset leaves HEAT_AUTH disabled and nothing granted or on. -/
theorem HeatersFollow.of_thermal_atReset {s t : State} (h : t.thermal = Thermal.atReset) : HeatersFollow s t := fun k => by
  have auth : t.thermal.auth = false := by rw [h]; rfl
  refine .inr ⟨?_, by rw [h, Thermal.drive_atReset]⟩
  rcases output_cases k with rfl | rfl | ⟨z, rfl⟩
  · exact (potCut_iff t).mpr (.inl (.inl auth))
  · exact (potCut_iff t).mpr (.inl (.inl auth))
  · rw [outputCut_zone]; exact (zoneCut_iff t z).mpr (.inl (.inl auth))

/-! ### The effects of the commands leave the thermal unit's drive alone -/

@[simp] theorem drive_moveTenth (s : State) (f : Bool) : (s.moveTenth f).thermal.drive = s.thermal.drive := by
  have after : ∀ u : State, (u.afterMove f).thermal.drive = u.thermal.drive := fun u => by
    cases f <;> simp [State.afterMove, State.waveEntries, State.topside, State.testBackPressure]
  exact after _

@[simp] theorem drive_moveTenths (n : Nat) (s : State) (f : Bool) :
    (State.moveTenths n s f).thermal.drive = s.thermal.drive := by
  induction n generalizing s with
  | zero => rfl
  | succ k ih => rw [State.moveTenths, ih, drive_moveTenth]

@[simp] theorem thermal_approachBar (s : State) (n : Nat) (p : Pos) (d : Direction) :
    (s.approachBar n p d).thermal = s.thermal := by
  unfold State.approachBar; split <;> simp

@[simp] theorem drive_countEncoder (s : State) (d : Direction) : (s.countEncoder d).thermal.drive = s.thermal.drive := by
  simp [State.countEncoder]

@[simp] theorem thermal_setOverflow (s : State) : s.setOverflow.thermal = s.thermal := by
  simp [State.setOverflow, State.trackFault]

@[simp] theorem thermal_setPhantom (s : State) : s.setPhantom.thermal = s.thermal := by
  simp [State.setPhantom, State.trackFault]

@[simp] theorem thermal_scheduleEdges (s : State) (n : BitVec 16) (p : Pos) (o : Offer) :
    (s.scheduleEdges n p o).thermal = s.thermal := by
  unfold State.scheduleEdges; split <;> rfl

@[simp] theorem thermal_bindSlot (s : State) (o : Offer) : (s.bindSlot o).thermal = s.thermal := by
  unfold State.bindSlot; dsimp only; split <;> rfl

@[simp] theorem thermal_handLeading (s : State) (p : Pos) : (s.handLeading p).thermal = s.thermal := by
  unfold State.handLeading
  split <;> simp [State.admitBoard, State.intrude, State.append]

@[simp] theorem thermal_appendAtBar (s : State) : s.appendAtBar.thermal = s.thermal := by
  unfold State.appendAtBar
  split
  · split <;> simp
  · rfl

@[simp] theorem thermal_clamp (s : State) (r : Record) (n : Nat) : (s.clamp r n).thermal = s.thermal := by
  unfold State.clamp; split <;> simp

@[simp] theorem thermal_takeTrail (s : State) (t : Pos) : (s.takeTrail t).thermal = s.thermal := by
  unfold State.takeTrail; split <;> simp [State.topside]

@[simp] theorem thermal_handTrailing (s : State) : s.handTrailing.thermal = s.thermal := by
  unfold State.handTrailing; split <;> rfl

@[simp] theorem thermal_closeRecord (s : State) (p : Record → Bool) (r : Record) (o : CloseOutcome) (n : Nat) :
    (s.closeRecord p r o n).thermal = s.thermal := by
  have report : (s.reportClose r o n).thermal = s.thermal := by unfold State.reportClose; split <;> rfl
  simp [State.closeRecord, State.removeRecord, State.dropFlux, report]

@[simp] theorem thermal_closeLost (n : Nat) (s : State) : (s.closeLost n).thermal = s.thermal := by
  induction n generalizing s with
  | zero => rfl
  | succ k ih =>
    unfold State.closeLost
    split
    · rw [ih, thermal_closeRecord]
    · rfl

@[simp] theorem thermal_loseBoards (s : State) : s.loseBoards.thermal = s.thermal := by
  unfold State.loseBoards; split <;> simp [State.raiseLost]

@[simp] theorem thermal_loseWaiting (s : State) : s.loseWaiting.thermal = s.thermal := by
  unfold State.loseWaiting; split <;> simp [State.raiseLost]

@[simp] theorem thermal_markInputFault (s : State) (k : Idx8) : (s.markInputFault k).thermal = s.thermal := by
  unfold State.markInputFault
  split
  · split <;> rfl
  · rfl

@[simp] theorem drive_setInput (t : Thermal) (k : Idx8) (i : Input) : (t.setInput k i).drive = t.drive :=
  Thermal.drive_congr rfl (fun _ => rfl) rfl

@[simp] theorem drive_latchInput (s : State) (k : Idx8) : (s.latchInput k).thermal.drive = s.thermal.drive := by
  unfold State.latchInput
  split
  · exact Thermal.drive_congr rfl (fun _ => rfl) rfl
  · rfl

@[simp] theorem drive_testLimit (s : State) (k : Idx8) : (s.testLimit k).thermal.drive = s.thermal.drive := by
  simp [State.testLimit]

@[simp] theorem drive_markSettled (t : Thermal) (l : LoopId) : (t.markSettled l).drive = t.drive := by
  cases l with
  | pot => exact Thermal.drive_congr rfl (fun _ => rfl) rfl
  | zone z =>
    refine Thermal.drive_congr rfl (fun y => ?_) rfl
    simp only [Thermal.markSettled, Tab6.get_set]
    split
    · next e => rw [e]
    · rfl

@[simp] theorem drive_setAuth (s : State) (on : Bool) : (s.setAuth on).thermal.drive = s.thermal.drive :=
  Thermal.drive_congr rfl (fun _ => rfl) rfl

@[simp] theorem drive_latchZone (s : State) (z : Zone) : (s.latchZone z).thermal.drive = s.thermal.drive := by
  unfold State.latchZone
  split <;> exact Thermal.drive_congr rfl (fun _ => rfl) rfl

@[simp] theorem drive_latchZones (s : State) : s.latchZones.thermal.drive = s.thermal.drive := by
  simp [State.latchZones, allZones]

@[simp] theorem drive_sampleInputs (s : State) (temps : Tab8 (Option Int)) :
    (s.sampleInputs temps).thermal.drive = s.thermal.drive :=
  Thermal.drive_congr rfl (fun _ => rfl) rfl

@[simp] theorem thermal_sampleLevel (s : State) (r : Option Int) : (s.sampleLevel r).thermal = s.thermal := by
  unfold State.sampleLevel; split <;> rfl

@[simp] theorem thermal_sampleTank (s : State) (b : Bool) : (s.sampleTank b).thermal = s.thermal := by
  cases b <;> rfl

@[simp] theorem drive_sampleAll (s : State) (i : Readings) : (s.sampleAll i).thermal.drive = s.thermal.drive := by
  simp [State.sampleAll, State.samplePressure, State.samplePumps, State.sampleExtraction, State.sampleSpeed]

@[simp] theorem thermal_intervalRaises (s : State) : s.intervalRaises.thermal = s.thermal := by
  simp [State.intervalRaises]

@[simp] theorem thermal_faultWidth (s : State) : s.faultWidth.thermal = s.thermal := by
  simp [State.faultWidth]

@[simp] theorem thermal_superviseLimit (s : State) : s.superviseLimit.thermal = s.thermal := by
  unfold State.superviseLimit; split <;> simp

@[simp] theorem thermal_outfeedSensor (s : State) (b : Bool) : (s.outfeedSensor b).thermal = s.thermal := by
  unfold State.outfeedSensor; split <;> rfl

@[simp] theorem thermal_wakeOn (s : State) (b : Bool) : (s.wakeOn b).thermal = s.thermal := by
  unfold State.wakeOn; split <;> simp

@[simp] theorem thermal_takeSetup (s : State) (c : Setup) : (s.takeSetup c).thermal = s.thermal := by
  unfold State.takeSetup; dsimp only; split <;> simp

@[simp] theorem drive_releaseFaults (s : State) : s.releaseFaults.thermal.drive = s.thermal.drive := by
  unfold State.releaseFaults
  dsimp only
  split <;> exact Thermal.drive_congr rfl (fun _ => rfl) rfl

@[simp] theorem thermal_leaveHalt (s : State) : s.leaveHalt.thermal = s.thermal := by
  unfold State.leaveHalt; split <;> simp

/-! ### The requests -/

/-- The decision of a request leaves the heaters, or settles its effect on another block. -/
def DecidesHeaters (d : State → Answer × State) : Prop := ∀ s, HeatersFollow s (d s).2

theorem DecidesHeaters.refuse (c : RefusalCode) : DecidesHeaters fun s => Machine.refuse s c := .refl

theorem DecidesHeaters.accept : DecidesHeaters Machine.accept := .refl

theorem DecidesHeaters.settle {f : State → State} (h : ∀ s, (f s).thermal.drive = s.thermal.drive) :
    DecidesHeaters fun s => Machine.accept (f s).settle := fun s => .settle (h s)

theorem DecidesHeaters.settleEval {f : State → State} (h : ∀ s, (f s).thermal.drive = s.thermal.drive) :
    DecidesHeaters fun s => Machine.accept (f s).settleEval := fun s => .settleEval (h s)

theorem DecidesHeaters.ite {c : State → Prop} [∀ s, Decidable (c s)] {d e : State → Answer × State}
    (hd : DecidesHeaters d) (he : DecidesHeaters e) : DecidesHeaters fun s => if c s then d s else e s := fun s => by
  dsimp only
  split
  · exact hd s
  · exact he s

theorem HeatersFollow.takePost {s : State} {d : State → Answer × State} (hd : DecidesHeaters d) (code : Word) :
    HeatersFollow s (s.takePost code d) :=
  .ite ((hd s).answer _) ((HeatersFollow.refl s).answer _)

/-- A request changes the heaters as its decision does: the post touches memory and the port alone. -/
theorem HeatersFollow.request {d : State → Answer × State} (hd : DecidesHeaters d) (s : State) (code : Word)
    (ws : List HostWrite) : HeatersFollow s (s.request code ws d) := by
  unfold State.request
  dsimp only
  split
  · split
    · exact HeatersFollow.takePost (s := { s with mem := hostWrites ws s.mem }) hd code
    · exact .of_drive rfl
  · exact HeatersFollow.takePost (s := { s with mem := hostWrites ws s.mem, port := s.port.post code }) hd code

theorem decidesHeaters_loadSetup : DecidesHeaters decideLoadSetup :=
  .ite (.refuse _) (.ite (.refuse _) fun s => by
    cases (readSetup s.mem).firstFailing with
    | some k => exact .refl s
    | none => exact .settle (by simp))

theorem decidesHeaters_start : DecidesHeaters decideStart :=
  .ite (.refuse _) (.ite (.refuse _) (.ite (.refuse _) (.settle fun _ => by simp)))

theorem decidesHeaters_shutdown : DecidesHeaters decideShutdown := fun s => by
  unfold decideShutdown
  split
  · exact .settle (by simp)
  · exact .settle (by simp)
  · exact .settle (by simp)
  · exact .settle (by simp)
  · exact .refl s
  · exact .refl s

theorem decidesHeaters_stop : DecidesHeaters decideStop := .ite (.refuse _) (.settle fun _ => by simp)

theorem decidesHeaters_economy : DecidesHeaters decideEconomy :=
  .ite (.ite (.settle fun _ => by simp) (.refuse _)) (.refuse _)

theorem decidesHeaters_wake : DecidesHeaters decideWake := .ite (.settle fun _ => by simp) (.refuse _)

theorem decidesHeaters_clear : DecidesHeaters decideClear :=
  .settle (f := fun s => s.releaseFaults.removeCauses.leaveHalt) fun s => by simp [State.removeCauses]

theorem decidesHeaters_setSource : DecidesHeaters decideSetSource :=
  .ite (.refuse _) (.ite (.ite .accept (.settleEval fun _ => rfl)) (.ite
    (fun s => by
      dsimp only
      split
      · exact .refl s
      · split
        · exact .refl s
        · exact .settleEval rfl)
    (.refuse _)))

theorem decidesHeaters_setSequence : DecidesHeaters decideSetSequence :=
  .ite (.refuse _) (.settleEval fun _ => by simp)

theorem decidesHeaters_cancelDocket : DecidesHeaters decideCancelDocket :=
  .ite (.refuse _) (.ite (.refuse _) (.ite (.refuse _) (.ite (.settle fun _ => by simp) (.refuse _))))

theorem decidesHeaters_ackAlarms : DecidesHeaters decideAckAlarms := .ite (.refuse _) (.settle fun _ => rfl)

theorem decidesHeaters_fluxRefilled : DecidesHeaters decideFluxRefilled :=
  .ite (.refuse _) (.ite (.refuse _) (.settle fun _ => rfl))

theorem decidesHeaters_purgeFluxer : DecidesHeaters decidePurgeFluxer :=
  .ite (.refuse _) (.ite (.refuse _) (.ite (.refuse _) (.ite (.refuse _) (.ite (.refuse _)
    (.settle fun s => by simp [State.startPurge])))))

theorem decidesHeaters_clearTrackFlags : DecidesHeaters decideClearTrackFlags := fun _ => .of_drive rfl

theorem decidesHeaters_unknown : DecidesHeaters decideUnknown := .refuse _

/-! ### Every command -/

theorem heatersFollow_acceptEye (s : State) (e : Eye) (p : Pos) : HeatersFollow s (s.acceptEye e p) := by
  unfold State.acceptEye
  dsimp only
  split
  · unfold State.entryLeading
    exact .ite (.settle (by simp [State.disown])) (.ite (.settle (by simp [State.disown])) (.settleEval (by simp)))
  · exact .settleEval (by simp)
  · unfold State.exitLeading
    refine .settle ?_
    dsimp only
    split
    · split <;> simp [State.outfeedEdge, State.testStop, State.matchExit]
    · simp [State.outfeedEdge, State.testStop]
  · unfold State.exitTrailing
    refine .settle ?_
    split <;> simp

theorem heatersFollow_afterDrop (s : State) (e : Eye) : HeatersFollow s (s.afterDrop e) := by
  cases e with
  | entry => exact .ite (.settleEval (by simp)) (.refl s)
  | exit => exact .ite (.settle (by simp)) (.due (by simp))

/-- Between boundaries a command leaves the heaters or cuts them, an output's own switch aside. -/
theorem exec_heatersFollow (c : Instr) (s t : State) (h : exec c s = .next t) (hb : c ≠ .heaterPeriodBoundary)
    (hs : ∀ k, c ≠ .heaterOutputSwitch k) : HeatersFollow s t := by
  have follow : ∀ {u : State}, exec c s = .next u → HeatersFollow s u → HeatersFollow s t := fun hu f => by
    rw [h] at hu; exact Host.Outcome.next.inj hu ▸ f
  cases c with
  | powerOnReset ws => exact follow rfl (.of_thermal_atReset (by rw [thermal_resetExit]; rfl))
  | portReset => exact follow rfl (.of_thermal_atReset (thermal_portReset _))
  | encoderCount dir => exact follow rfl (.due (by simp))
  | eyeRawChange eye blocked =>
    exact follow rfl (.ite (heatersFollow_afterDrop (s.rawEye eye blocked) eye) (.of_drive rfl))
  | eyeChangeAccepted eye =>
    refine follow rfl ?_
    split
    · exact heatersFollow_acceptEye s _ _
    · exact .refl s
  | entryJam => exact follow rfl (.due (by simp [State.markJam]))
  | boardLost => exact follow rfl (.due (by simp))
  | lateLimitReached => exact follow rfl (.ite (.settleEval (by simp)) (.refl s))
  | statusIntervalEnd inputs writes =>
    exact follow rfl (HeatersFollow.refresh (.settleEval (by simp [State.present, State.toInterval])))
  | inputFault input => exact follow rfl (.due (by simp))
  | inputRecovery input => exact follow rfl (.due (by simp))
  | inputFillingEnd input => exact follow rfl (.due (by simp))
  | speedStableSet => exact follow rfl (.due rfl)
  | conveyorSpeed => exact follow rfl (.due (by simp))
  | levelInputRecovered => exact follow rfl (.due rfl)
  | levelFlagChange flag => exact follow rfl (.due (by simp))
  | pumpStableSet wave => exact follow rfl (.due rfl)
  | fluxPressure => exact follow rfl (.due rfl)
  | alarmActivation point => exact follow rfl (.due rfl)
  | alarmSeverityRise point => exact follow rfl (.due rfl)
  | alarmEscalation point => exact follow rfl (.due rfl)
  | alarmClear point => exact follow rfl (.due rfl)
  | vapourHalt => exact follow rfl (.due (by simp))
  | heaterPeriodBoundary => exact absurd rfl hb
  | loopSettled loop => exact follow rfl (.due (by simp))
  | heaterOutputSwitch output => exact absurd rfl (hs output)
  | modulationBoundary =>
    exact follow rfl (.settle (by simp [State.startPulses, State.consumeEdges, State.finishPulses, State.toModulation]))
  | lanePulseEnd lane =>
    refine follow rfl ?_
    split
    · split
      · exact .refl s
      · exact .settle (by simp)
    · exact .refl s
  | purgeDurationComplete =>
    refine follow rfl ?_
    split
    · exact .settle (by simp)
    · exact .refl s
  | feederShotStart => exact follow rfl (.ite (.of_drive rfl) (.refl s))
  | feederShotComplete => refine follow rfl ?_; split <;> exact .of_drive rfl
  | feederSettlingComplete => refine follow rfl ?_; split <;> exact .of_drive rfl
  | shotHistoryExpiry => refine follow rfl ?_; split <;> exact .of_drive rfl
  | widthMotionStart => exact follow rfl (.due (by simp [State.beginMotion]))
  | homingComplete => exact follow rfl (.due rfl)
  | homingTravelExceeded => exact follow rfl (.due (by simp))
  | widthMoveComplete => exact follow rfl (.due rfl)
  | widthLimitActive railEnd => exact follow rfl (.ite (.settle (by simp)) (.of_drive rfl))
  | thermostatContactOpen => exact follow rfl (.settle (by simp))
  | estopInputActive => exact follow rfl (.settle (by simp))
  | estopInputRelease => exact follow rfl (.of_drive rfl)
  | upstreamAvailableChange asserted => exact follow rfl (.ite (.refl s) (.settle (by simp)))
  | endSensorRawChange blocked => exact follow rfl (.of_drive rfl)
  | endSensorEvent =>
    refine follow rfl ?_
    split
    · exact .settle (by simp [State.acceptSensor])
    · exact .refl s
  | downstreamReadyChange asserted => exact follow rfl (.ite (.refl s) (.settle rfl))
  | idleTimerExpiry =>
    refine follow rfl ?_
    split
    · exact .due (by simp)
    · exact .refl s
  | runOnTimerExpiry =>
    refine follow rfl ?_
    split
    · exact .settle rfl
    · exact .refl s
  | startGraceEnd channel => refine follow rfl ?_; split <;> exact .of_drive rfl
  | supervisionExpired => exact follow rfl (.due rfl)
  | warmupComplete => exact follow rfl (.due (by simp))
  | loadSetup writes => exact follow rfl (.request decidesHeaters_loadSetup s _ _)
  | start writes => exact follow rfl (.request decidesHeaters_start s _ _)
  | shutdown writes => exact follow rfl (.request decidesHeaters_shutdown s _ _)
  | stop writes => exact follow rfl (.request decidesHeaters_stop s _ _)
  | clear writes => exact follow rfl (.request decidesHeaters_clear s _ _)
  | economy writes => exact follow rfl (.request decidesHeaters_economy s _ _)
  | wake writes => exact follow rfl (.request decidesHeaters_wake s _ _)
  | setSource writes => exact follow rfl (.request decidesHeaters_setSource s _ _)
  | setSequence writes => exact follow rfl (.request decidesHeaters_setSequence s _ _)
  | cancelDocket writes => exact follow rfl (.request decidesHeaters_cancelDocket s _ _)
  | ackAlarms writes => exact follow rfl (.request decidesHeaters_ackAlarms s _ _)
  | fluxRefilled writes => exact follow rfl (.request decidesHeaters_fluxRefilled s _ _)
  | purgeFluxer writes => exact follow rfl (.request decidesHeaters_purgeFluxer s _ _)
  | clearTrackFlags writes => exact follow rfl (.request decidesHeaters_clearTrackFlags s _ _)
  | unknownRequest code writes => exact follow rfl (.ite (.refl s) (.request decidesHeaters_unknown s _ _))
  | requestOverrun code => exact follow rfl (.of_drive rfl)
  | noticeRead => exact follow rfl (.of_drive rfl)
  | noticeWrite value => exact follow rfl (.of_drive rfl)
  | noticeEnWrite value => exact follow rfl (.of_drive rfl)
  | posRead half => exact follow rfl (.of_drive rfl)
  | hostAliveWrite value => exact follow rfl (.due rfl)
  | heatAuthEnable => exact follow rfl (.ite (.refl s) (.settle (by simp)))
  | heatAuthDisable => exact follow rfl (.due (by simp))
  | heatAuthInvalid value => exact follow rfl (.ite (.refl s) (.settle (by simp)))
  | ignoredRegisterWrite reg value => exact follow rfl (.refl s)
  | widthStepperStep => exact follow rfl (.of_drive rfl)
  | homeSwitchInactive => exact follow rfl (.ite (.settle (by simp)) (.of_drive rfl))

/-! ## What a switch and a boundary do to the heaters -/

/-- HEATER_OUTPUT_SWITCH leaves every grant, and every output but its own (R97). -/
theorem outputSwitch_heaters {j : Idx8} {s t : State} (h : exec (.heaterOutputSwitch j) s = .next t) (k : Idx8) :
    t.thermal.outputGrant k = s.thermal.outputGrant k ∧
      (k ≠ j → t.thermal.outputs.get k = s.thermal.outputs.get k) := by
  obtain rfl := Host.Outcome.next.inj h
  split
  · exact ⟨rfl, fun hk => by simp [Tab8.get_set, hk]⟩
  · exact ⟨rfl, fun _ => rfl⟩

/-- The state in which the boundary allocates: the ramp, the control computation and the settle tests are done. -/
def State.toAllocation (s : State) : State :=
  s.toHeaterBoundary.rampStep.controlStep.settleStep

/-- The state in which the consequences of a boundary begin: allocated, its outputs formed, its deviations marked. -/
def State.boundary (s : State) : State :=
  s.toAllocation.allocateStep.outputStep.markDeviations

theorem exec_boundary (s : State) : exec .heaterPeriodBoundary s = .next s.boundary.settle := rfl

/-- The ratings of the zones' outputs (R94). -/
def zoneRatings (c : Setup) : Tab6 Nat :=
  Tab6.ofFn fun z => c.rating (zoneOutput z)

/-- The zones' eligible requests (R93). -/
def zoneRequests (s : State) (zones : Tab6 Loop) : Tab6 Nat :=
  Tab6.ofFn fun z => zoneEligible s z (zones.get z).request

/-- R93: the pot's eligible request is the model's. -/
theorem PotEligible.eq {s t : State} {d : Nat} (h : PotEligible s t d) : d = potEligible s t.thermal.pot.request := by
  obtain ⟨allowed, barred⟩ := h
  unfold potEligible
  split
  · next c =>
    apply barred
    simpa [potInput, potBarred, potRating, or_assoc] using c
  · next c =>
    apply allowed
    simpa [potInput, potBarred, potRating, and_assoc, not_or] using c

/-- R93: a zone's eligible request is the model's. -/
theorem ZoneEligible.eq {s t : State} {z : Zone} {d : Nat} (h : ZoneEligible s t z d) :
    d = zoneEligible s z (t.thermal.zones.get z).request := by
  obtain ⟨allowed, barred⟩ := h
  unfold zoneEligible
  split
  · next c =>
    apply barred
    simpa [Thermal.zoneFaulted, or_assoc] using c
  · next c =>
    apply allowed
    simpa [Thermal.zoneFaulted, and_assoc, not_or] using c

/-- A cut pot has no eligible request. -/
theorem potEligible_of_cut {s : State} (h : potCut s = true) (d : Nat) : potEligible s d = 0 := by
  refine if_pos ?_
  simp only [potCut, Bool.or_eq_true, Bool.and_eq_true] at h ⊢
  tauto

/-- A cut zone has no eligible request. -/
theorem zoneEligible_of_cut {s : State} {z : Zone} (h : zoneCut s z = true) (d : Nat) : zoneEligible s z d = 0 := by
  refine if_pos ?_
  simp only [zoneCut, Bool.or_eq_true] at h ⊢
  exact .inl h

@[simp] theorem potGrant_zero (budget rating : Nat) : potGrant budget 0 rating = 0 := by simp [potGrant]

/-- What an allocation gives the zone `z` (R94, R95). -/
theorem allocateStep_zone (a : State) (z : Zone) :
    a.allocateStep.thermal.zones.get z =
      (a.thermal.zones.get z).granted
        (zoneGrant (zonesLeft a.ws.budget a.allocateStep.thermal.pot.grant (potRating a.ws))
          (zonesTotal (zoneRequests a a.thermal.zones) (zoneRatings a.ws)) ((zoneRequests a a.thermal.zones).get z))
        ((zoneRequests a a.thermal.zones).get z) := by
  simp [State.allocateStep, allocate, zoneRequests, zoneRatings, Loop.granted]

theorem zoneRequests_allocateStep (a : State) :
    zoneRequests a a.allocateStep.thermal.zones = zoneRequests a a.thermal.zones := by
  simp [zoneRequests, allocateStep_zone, Loop.granted]

/-- R93: the pot at a boundary, before the consequences. -/
theorem boundary_pot {s : State} {d : Nat} (h : d = potEligible s s.boundary.thermal.pot.request) :
    s.boundary.thermal.pot.grant = potGrant s.ws.budget d (potRating s.ws) ∧
      s.boundary.thermal.pot.limited = decide (s.boundary.thermal.pot.grant < d) := by
  subst h
  exact ⟨rfl, rfl⟩

/-- R94: a zone at a boundary, before the consequences. -/
theorem boundary_zone {s : State} {e : Tab6 Nat} (h : e = zoneRequests s s.boundary.thermal.zones) (z : Zone) :
    (s.boundary.thermal.zones.get z).grant =
        zoneGrant (zonesLeft s.ws.budget s.boundary.thermal.pot.grant (potRating s.ws)) (zonesTotal e (zoneRatings s.ws))
          (e.get z) ∧
      (s.boundary.thermal.zones.get z).limited = decide ((s.boundary.thermal.zones.get z).grant < e.get z) := by
  have requests : e = zoneRequests s.toAllocation s.toAllocation.thermal.zones :=
    h.trans (zoneRequests_allocateStep s.toAllocation)
  have zone := allocateStep_zone s.toAllocation z
  rw [← requests] at zone
  exact ⟨congrArg Loop.grant zone, by rw [show s.boundary.thermal.zones.get z = _ from zone]; rfl⟩

/-- The pot's grant after the consequences of a step. -/
theorem settle_potGrant (s : State) :
    s.settle.thermal.pot.grant = if potCut s.settle then 0 else s.thermal.pot.grant := by
  have h := congrArg Prod.fst (congrFun (drive_settle s) 0)
  rw [cutDrive, apply_ite Prod.fst] at h
  exact h

/-- A zone's grant after the consequences of a step. -/
theorem settle_zoneGrant (s : State) (z : Zone) :
    (s.settle.thermal.zones.get z).grant = if zoneCut s.settle z then 0 else (s.thermal.zones.get z).grant := by
  have h := congrArg Prod.fst (congrFun (drive_settle s) (zoneOutput z))
  rw [cutDrive, apply_ite Prod.fst] at h
  simpa [Thermal.drive] using h

/-- While the mode stays, a cut that stands after a boundary stood before it. -/
theorem outputCut_boundary {s : State} (hm : s.boundary.settle.modes.mode = s.modes.mode) :
    outputCut s.boundary.settle = outputCut s := by
  have k := (kept_settle s.boundary).keeps
  exact outputCut_congr k.thermalInputs k.thermalLatches k.thermalAuth k.pins hm k.modesCauses k.portSetup

/-- The total of R94, written out over the zones' outputs. -/
theorem zonesTotal_ratings (e : Tab6 Nat) (c : Setup) :
    zonesTotal e (zoneRatings c) =
      e.get 0 * c.rating 2 + e.get 1 * c.rating 3 + e.get 2 * c.rating 4 + e.get 3 * c.rating 5 + e.get 4 * c.rating 6
        + e.get 5 * c.rating 7 := by
  rw [zonesTotal_eq_sum, Fin.sum_univ_six]
  rfl

theorem Tab6.ext_get {α : Type} {a b : Tab6 α} (h : ∀ z, a.get z = b.get z) : a = b := by
  cases a
  cases b
  rw [Tab6.mk.injEq]
  exact ⟨h 0, h 1, h 2, h 3, h 4, h 5⟩

/-- A boundary allocates by R93 to R95: the cuts of its consequences meet loops without an eligible request. -/
theorem boundary_allocated (s : State) : Allocated s s.boundary.settle := by
  intro d r g e left total hd he hr hg hleft htotal hm
  have k := (kept_settle s.boundary).keeps
  have cut := outputCut_boundary hm
  have hd : d = potEligible s s.boundary.thermal.pot.request := by rw [hd.eq, k.thermalPotRequest]
  have he : e = zoneRequests s s.boundary.thermal.zones := Tab6.ext_get fun z => by
    obtain ⟨-, request, -⟩ := k.zones z
    rw [(he z).eq, request, zoneRequests, Tab6.get_ofFn]
  obtain ⟨allotted, limited⟩ := boundary_pot hd
  have hg : s.boundary.thermal.pot.grant = g := by rw [allotted, hg, hr]; rfl
  have potStays : s.boundary.settle.thermal.pot.grant = g := by
    rw [settle_potGrant, hg]
    split
    · next c =>
      have : d = 0 := by rw [hd, potEligible_of_cut ((congrFun cut 0).symm.trans c)]
      rw [← hg, allotted, this, potGrant_zero]
    · rfl
  refine ⟨potStays, ?_, fun z => ?_⟩
  · rw [potStays, k.thermalPotLimited, limited, hg, decide_eq_true_iff]
  · obtain ⟨zoneAllotted, zoneLimited⟩ := boundary_zone he z
    have share : (s.boundary.thermal.zones.get z).grant = if total ≤ left then e.get z else e.get z * left / total := by
      rw [zoneAllotted, hg, zonesTotal_ratings, ← htotal, hleft, hr]
      rfl
    have zoneStays : (s.boundary.settle.thermal.zones.get z).grant = (s.boundary.thermal.zones.get z).grant := by
      rw [settle_zoneGrant]
      split
      · next c =>
        have zc : zoneCut s z = true := by
          rw [← outputCut_zone, ← cut, outputCut_zone]; exact c
        have : e.get z = 0 := by rw [he, zoneRequests, Tab6.get_ofFn, zoneEligible_of_cut zc]
        rw [zoneAllotted, this, zoneGrant_zero]
      · rfl
    obtain ⟨-, -, -, -, limitedStays⟩ := k.zones z
    exact ⟨zoneStays.trans share, by rw [limitedStays, zoneLimited, zoneStays, decide_eq_true_iff]⟩

/-! ## The cut rule (R92, R98) -/

/-- A cut output, in the words of R92 and R98. -/
theorem outputCut_iff (s : State) (k : Idx8) :
    outputCut s k = true ↔ NotPermitted s ∨ ((k = 0 ∨ k = 1) ∧ PotCut s) ∨ ∃ z, k = zoneOutput z ∧ ZoneCut s z := by
  have zoneOutput_ne : ∀ z, zoneOutput z ≠ 0 ∧ zoneOutput z ≠ 1 := by decide
  have zoneOutput_inj : ∀ y z, zoneOutput y = zoneOutput z ↔ y = z := by decide
  rcases output_cases k with rfl | rfl | ⟨z, rfl⟩
  · simpa [fun z => (zoneOutput_ne z).1.symm] using potCut_iff s
  · simpa [fun z => (zoneOutput_ne z).2.symm] using potCut_iff s
  · simpa [zoneOutput_ne, zoneOutput_inj] using zoneCut_iff s z

/-- A grant and an output that stay or are cut are what R92 and R98 let a command do between boundaries. -/
theorem grantStep_of_cuts {c : Instr} {s t : State} (hb : c ≠ .heaterPeriodBoundary)
    (grant : ∀ k, t.thermal.outputGrant k = s.thermal.outputGrant k ∨
      (outputCut t k = true ∧ t.thermal.outputGrant k = 0))
    (out : ∀ k, c ≠ .heaterOutputSwitch k → t.thermal.outputs.get k = s.thermal.outputs.get k ∨
      (outputCut t k = true ∧ t.thermal.outputs.get k = false)) : GrantStep c s t where
  pot _ := (grant 0).imp_right fun ⟨cut, zero⟩ => ⟨zero, (potCut_iff t).mp cut⟩
  zone _ z := by
    have h := grant (zoneOutput z)
    rw [Thermal.outputGrant_zone, Thermal.outputGrant_zone, outputCut_zone, zoneCut_iff] at h
    exact h.imp_right And.symm
  on _ k hk on := by
    rcases out k hk with same | ⟨-, off⟩
    · rwa [← same]
    · rw [off] at on; cases on
  off _ k hk on := (out k hk).imp (·.trans on) fun h => (outputCut_iff t k).mp h.1
  boundary h := absurd h hb

theorem HeatersFollow.grantStep {c : Instr} {s t : State} (h : HeatersFollow s t) (hb : c ≠ .heaterPeriodBoundary) :
    GrantStep c s t :=
  grantStep_of_cuts hb (fun k => (h k).imp (congrArg Prod.fst) (And.imp_right (congrArg Prod.fst)))
    fun k _ => (h k).imp (congrArg Prod.snd) (And.imp_right (congrArg Prod.snd))

/-- What a command does to the grants and the outputs: the boundary allocates, a switch has its output, any other command
follows or cuts. -/
theorem exec_grantStep (c : Instr) (s t : State) (h : exec c s = .next t) : GrantStep c s t := by
  by_cases hb : c = .heaterPeriodBoundary
  · subst hb
    obtain rfl := Host.Outcome.next.inj ((exec_boundary s).symm.trans h)
    exact ⟨(absurd rfl ·), (absurd rfl ·), (absurd rfl ·), (absurd rfl ·), fun _ => boundary_allocated s⟩
  · by_cases hs : ∃ j, c = .heaterOutputSwitch j
    · obtain ⟨j, rfl⟩ := hs
      exact grantStep_of_cuts hb (fun k => .inl (outputSwitch_heaters h k).1)
        fun k hk => .inl ((outputSwitch_heaters h k).2 fun e => hk (e ▸ rfl))
    · exact (exec_heatersFollow c s t h hb fun k e => hs ⟨k, e⟩).grantStep hb

/-- Settles O5: every re-forming cuts by the mode that its own mode stage has settled, so each cut still stands after the step. -/
theorem heaterCutRuleIsKept : Obligations.HeaterCutRuleIsKept :=
  ⟨step_keeps_heatersCut, exec_grantStep⟩

end Sys2Proof.Machine
end


section
/-! What every command does, said once: the state it makes before the consequences follow (`Effect`), and which consequences
follow (`Ending`); and from them, how a property of all commands or of all steps is proved. -/

namespace Sys2Proof.Machine

open Sys2Proof.Config

/-- The consequences that follow a command's own effect. -/
inductive Ending
  | still
  | settled
  | evaluated
  | interval
  | answered (e : Ending) (a : Answer)

/-- The state after the consequences. -/
def Ending.of (e : Ending) (u : State) : State :=
  match e with
  | .still => u
  | .settled => u.settle
  | .evaluated => u.settleEval
  | .interval => u.settleEval.writeClock.refresh
  | .answered e a => (e.of u).answer a

/-- The state in which a post of `code` is taken: the host's writes are made, and the port holds the post (R177). -/
def Taken (s : State) (code : Word) (ws : List HostWrite) (q : State) : Prop :=
  (s.port.request = .busy ∧ s.port.posted = some code ∧ q = { s with mem := hostWrites ws s.mem }) ∨
    (s.port.request ≠ .busy ∧ q = s.withPost code ws)

/-- What the block of an accepted request does to the state in which the post is taken, and which consequences follow. -/
inductive Accepts (q : State) : Instr → Ending → State → Prop
  | loadSetup (ws) (hm : q.modes.mode = .off) (hr : q.track.records = []) (hf : (readSetup q.mem).firstFailing = none) :
      Accepts q (.loadSetup ws) .settled (q.takeSetup (readSetup q.mem))
  | start (ws) (hm : q.modes.mode = .off) (hl : q.loaded = true) (hc : q.modes.causes = []) :
      Accepts q (.start ws) .settled (State.enterMode { q with gate := { q.gate with lineClass := q.nextClass } } .warmup)
  | shutdown (ws) (hm : q.modes.mode = .warmup ∨ q.modes.mode = .production ∨ q.modes.mode = .economy) :
      Accepts q (.shutdown ws) .settled (q.enterMode .cooldown)
  | shutdownHalted (ws) (hm : q.modes.mode = .halted) : Accepts q (.shutdown ws) .settled (q.enterMode .off)
  | stop (ws) (hm : q.modes.mode ≠ .off) : Accepts q (.stop ws) .settled (q.raiseCause .stopRequest)
  | clear (ws) : Accepts q (.clear ws) .settled q.releaseFaults.removeCauses.leaveHalt
  | economy (ws) (hm : q.modes.mode = .warmup ∨ q.modes.mode = .production) (hr : q.track.records = []) :
      Accepts q (.economy ws) .settled (q.enterMode .economy)
  | wake (ws) (hm : q.modes.mode = .economy) : Accepts q (.wake ws) .settled (q.enterMode .warmup)
  | sourceStands (ws) : Accepts q (.setSource ws) .still q
  | setSource (ws) (src : Source) (ho : offering q = false) :
      Accepts q (.setSource ws) .evaluated { q with docket := { q.docket with source := src } }
  | setSequence (ws) (ho : offering q = false) : Accepts q (.setSequence ws) .evaluated (q.setExpected (argument1 q))
  | cancelDocket (ws) (n : SlotIx) (hn : q.docket.held.contains n = false) (hp : slotState q.mem n = .posted) :
      Accepts q (.cancelDocket ws) .settled (q.rejectSlot n .cancelled)
  | ackAlarms (ws) : Accepts q (.ackAlarms ws) .settled (q.acknowledgePoints (argument1 q))
  | fluxRefilled (ws) (hv : 0 < refillVolume q ∧ refillVolume q ≤ tankMax) :
      Accepts q (.fluxRefilled ws) .settled (q.refill (refillVolume q))
  | purgeFluxer (ws) (hm : q.modes.mode.changesOver = true) (hp : q.flux.purge = none) (hi : q.flux.isInhibited = false) :
      Accepts q (.purgeFluxer ws) .settled (q.startPurge (argument1 q).toNat)
  | clearTrackFlags (ws) :
      Accepts q (.clearTrackFlags ws) .still { q with track := { q.track with overflow := false, phantom := false } }

/-- The code under which a command posts its request. -/
def postedCode (c : Instr) : Option Word :=
  match c with
  | .unknownRequest code _ => some code
  | c => requestCode c

/-- What a command does to the state before its consequences, and which consequences follow; the resets apart. -/
inductive Effect (s : State) : Instr → Ending → State → Prop
  | nothing (c) : Effect s c .still s
  | encoderCount (d) (h : s.loaded = true) : Effect s (.encoderCount d) .settled (s.countEncoder d)
  | rawEye (e b) : Effect s (.eyeRawChange e b) .still (s.rawEye e b)
  | dropLate (b) (h : dropsPending s .entry b = true) (hl : s.gate.state = .late) :
      Effect s (.eyeRawChange .entry b) .evaluated (s.rawEye .entry b).closeGate
  | dropLost (b) (h : dropsPending s .exit b = true) :
      Effect s (.eyeRawChange .exit b) .settled (s.rawEye .exit b).loseWaiting
  | dropPast (b) (h : dropsPending s .exit b = true) :
      Effect s (.eyeRawChange .exit b) .settled (s.rawEye .exit b).loseBoards
  | overflow (p) (h : eyeDue s .entry = some p) (hl : listMax ≤ s.track.records.length) :
      Effect s (.eyeChangeAccepted .entry) .settled
        (State.setOverflow (State.disown { s with track := s.track.setEye .entry (s.track.eye .entry).accept }))
  | phantom (p) (h : eyeDue s .entry = some p) :
      Effect s (.eyeChangeAccepted .entry) .settled
        (State.setPhantom (State.disown { s with track := s.track.setEye .entry (s.track.eye .entry).accept }))
  | entryLeading (p) (h : eyeDue s .entry = some p) (ha : s.track.entryEye.accepted = false)
      (hl : s.track.records.length < listMax)
      (ho : outOfOrder (s.track.setEye .entry (s.track.eye .entry).accept) p = false) :
      Effect s (.eyeChangeAccepted .entry) .evaluated
        (State.appendAtBar
          (State.handLeading { s with track := s.track.setEye .entry (s.track.eye .entry).accept } p))
  | entryTrailing (p) (h : eyeDue s .entry = some p) (ha : s.track.entryEye.accepted = true) :
      Effect s (.eyeChangeAccepted .entry) .evaluated
        (State.handTrailing
          (State.takeTrail
            { s with track := { s.track.setEye .entry (s.track.eye .entry).accept with lastTrail := some p } } p))
  | exitMatched (p r) (h : eyeDue s .exit = some p) (hr : exitCandidate s.track.records = some r) :
      Effect s (.eyeChangeAccepted .exit) .settled
        (State.testStop
          (State.outfeedEdge
            (State.matchExit { s with track := s.track.setEye .exit (s.track.eye .exit).accept } r p)))
  | exitPhantom (p) (h : eyeDue s .exit = some p) :
      Effect s (.eyeChangeAccepted .exit) .settled
        (State.testStop
          (State.outfeedEdge (State.setPhantom { s with track := s.track.setEye .exit (s.track.eye .exit).accept })))
  | exitClosed (p r) (h : eyeDue s .exit = some p) (hr : s.track.records.find? exiting = some r) :
      Effect s (.eyeChangeAccepted .exit) .settled
        (State.closeRecord { s with track := s.track.setEye .exit (s.track.eye .exit).accept } exiting
          (r.exitTest (exitLength r p) s.ws.exitTol) .completed (exitLength r p))
  | exitUnowned (p) (h : eyeDue s .exit = some p) :
      Effect s (.eyeChangeAccepted .exit) .settled { s with track := s.track.setEye .exit (s.track.eye .exit).accept }
  | entryJam (h : jamNow s = true) : Effect s .entryJam .settled (s.markJam.raiseCause .entryJam)
  | boardLost (h : (lostCandidate s).isSome = true) : Effect s .boardLost .settled s.loseBoards
  | lateLimit (h : lateDue s = true) : Effect s .lateLimitReached .evaluated s.closeGate
  | interval (i ws) :
      Effect s (.statusIntervalEnd i ws) .interval ((s.toInterval.present i ws).sampleAll i).intervalRaises
  | inputFault (k) (h : (s.thermal.inputs.get k).faultDue = true) :
      Effect s (.inputFault k) .settled
        (State.raiseIf
          { s.markInputFault k with
            thermal := (s.markInputFault k).thermal.setInput k ((s.markInputFault k).thermal.inputs.get k).fault }
          (k == potInput) .potSensor)
  | inputRecovery (k) (h : (s.thermal.inputs.get k).recoveryDue = true) :
      Effect s (.inputRecovery k) .settled
        (State.testLimit { s with thermal := s.thermal.setInput k (s.thermal.inputs.get k).recover } k)
  | inputFillingEnd (k) (h : (s.thermal.inputs.get k).fillingDue = true) :
      Effect s (.inputFillingEnd k) .settled
        (State.testLimit
          (State.raiseIf { s with thermal := s.thermal.setInput k (s.thermal.inputs.get k).endFilling }
            (k == potInput && (s.thermal.inputs.get k).endFilling.state == .faulted) .potSensor) k)
  | speedStableSet (h : s.track.stableDue = true) :
      Effect s .speedStableSet .settled { s with track := { s.track with speedStable := true } }
  | conveyorSpeed (h : s.track.speedFault = true) :
      Effect s .conveyorSpeed .settled
        (State.raiseCause { s with track := { s.track with misses := 0 } } .conveyorSpeed)
  | levelInputRecovered (h : levelRecoveryDue s = true) :
      Effect s .levelInputRecovered .settled
        { s with
          pot := ({ s.pot with levelGood := true }).judgeLevel s.port.setup s.pot.level
          port := s.port.notify .potEvent }
  | levelFlagChange (f) (h : flagDue s f = true) :
      Effect s (.levelFlagChange f) .settled
        (State.raiseIf { s with pot := s.pot.changeFlag f, port := s.port.notify .potEvent }
          (f == .lowlow && (s.pot.changeFlag f).lowlow.set) .potLevel)
  | pumpStableSet (w) (h : (s.pot.pump w).stableDue = true) :
      Effect s (.pumpStableSet w) .settled { s with pot := s.pot.markStable w }
  | fluxPressure (h : pressureDue s = true) :
      Effect s .fluxPressure .settled
        { s with flux := { s.flux with pressureFault := true }, port := s.port.notify .fluxEvent }
  | alarmActivation (k) (h : activationDue s k = true) : Effect s (.alarmActivation k) .settled (s.activatePoint k)
  | alarmSeverityRise (k) (h : riseDue s k = true) : Effect s (.alarmSeverityRise k) .settled (s.risePoint k)
  | alarmEscalation (k) (h : escalationDue s k = true) : Effect s (.alarmEscalation k) .settled (s.risePoint k)
  | alarmClear (k) (h : clearDue s k = true) : Effect s (.alarmClear k) .settled (s.clearPoint k)
  | vapourHalt (h : 120 ≤ s.extr.vapourCount) : Effect s .vapourHalt .settled (s.raiseCause .vapour)
  | heaterPeriodBoundary : Effect s .heaterPeriodBoundary .settled s.boundary
  | loopSettled (l) (h : settledDue s l = true) :
      Effect s (.loopSettled l) .settled { s with thermal := s.thermal.markSettled l }
  | heaterOutputSwitch (k m) (h : nextSwitch s k = some m) :
      Effect s (.heaterOutputSwitch k) .still
        { s.advance (m - periodTime s) with
          thermal := { s.thermal with outputs := s.thermal.outputs.set k (outputAt s k m) } }
  | modulationBoundary :
      Effect s .modulationBoundary .settled s.toModulation.finishPulses.creditPurge.consumeEdges.startPulses
  | lanePulseEnd (k u) (h : s.flux.pulses.get k = some u) (hq : u.q ≠ 0) :
      Effect s (.lanePulseEnd k) .settled
        (((s.advance (u.q - elapsed u.start s.clock)).endPulse k u u.q true).holdValve k u)
  | purgeDurationComplete (g) (h : s.flux.purge = some g) :
      Effect s .purgeDurationComplete .settled (s.advance (purgeTime s g)).endPurge
  | feederShotStart (h : s.pot.feedTest = true) (hd : shotDue s = true) :
      Effect s .feederShotStart .still { s with pot := s.pot.startShot s.clock s.ws.shotLength }
  | feederShotComplete (r) (h : shotLeft s = some r) :
      Effect s .feederShotComplete .still
        { s.advance r with pot := { (s.advance r).pot with feeder := .settling settlingTime } }
  | feederSettlingComplete (r) (h : settlingLeft s = some r) :
      Effect s .feederSettlingComplete .still
        (State.reformLine
          { s.advance r with
            pot := (s.advance r).pot.settleFeed s.ws.minRise
            port := (s.advance r).port.notifyIf (((s.advance r).pot.settleFeed s.ws.minRise).feeder == .jammed) .potEvent })
  | shotHistoryExpiry (x rest) (h : s.pot.history = x :: rest) :
      Effect s .shotHistoryExpiry .still
        { s.advance (shotAge - elapsed x s.clock) with
          pot := { (s.advance (shotAge - elapsed x s.clock)).pot with history := rest } }
  | widthMotionStart (h : motionDue s = true) : Effect s .widthMotionStart .settled s.beginMotion.superviseLimit
  | homingComplete (h : homingDone s = true) :
      Effect s .homingComplete .settled
        { s with
          pins := { s.pins with homeActive := true }
          gate := { s.gate with width := s.gate.width.home } }
  | homingTravelExceeded (h : homingExceeded s = true) : Effect s .homingTravelExceeded .settled s.faultWidth
  | widthMoveComplete (h : moveDone s = true) :
      Effect s .widthMoveComplete .settled
        { s with gate := { s.gate with width := { s.gate.width with state := .idle } } }
  | widthLimitFault (e) (h : s.gate.width.outward = some (e == .maximum)) :
      Effect s (.widthLimitActive e) .settled (State.faultWidth { s with pins := s.pins.setLimit e })
  | widthLimitSeen (e) : Effect s (.widthLimitActive e) .still { s with pins := s.pins.setLimit e }
  | thermostatContactOpen :
      Effect s .thermostatContactOpen .settled
        (State.raiseCause { s with pins := { s.pins with thermostatOpen := true } } .potOvertemp)
  | estopInputActive :
      Effect s .estopInputActive .settled (State.raiseCause { s with pins := { s.pins with estop := true } } .estop)
  | estopInputRelease : Effect s .estopInputRelease .still { s with pins := { s.pins with estop := false } }
  | upstreamAvailableChange (b) (h : s.pins.upstream ≠ b) :
      Effect s (.upstreamAvailableChange b) .settled
        (State.wakeOn
          { s with
            pins := { s.pins with upstream := b }
            gate := { s.gate with upstreamCount := s.gate.upstreamCount + 1 } } b)
  | endSensorRawChange (b) :
      Effect s (.endSensorRawChange b) .still
        { s with
          pins := { s.pins with endSensor := b }
          outfeed := { s.outfeed with sensor := s.outfeed.sensor.raw b s.clock } }
  | endSensorEvent (p) (h : s.outfeed.sensor.pendingAt = some p) :
      Effect s .endSensorEvent .settled (s.advance (sensorTime - elapsed p s.clock)).acceptSensor
  | downstreamReadyChange (b) (h : s.pins.downstream ≠ b) :
      Effect s (.downstreamReadyChange b) .settled
        { s with
          pins := { s.pins with downstream := b }
          outfeed := { s.outfeed with readyCount := s.outfeed.readyCount + 1 } }
  | idleTimerExpiry (r) (h : idleLeft s = some r) (hm : s.modes.mode = .production) :
      Effect s .idleTimerExpiry .settled ((s.advance r).enterMode .economy)
  | runOnTimerExpiry (r) (h : s.modes.runOn = some r) :
      Effect s .runOnTimerExpiry .settled
        { s.advance r with modes := { (s.advance r).modes with runOn := none } }
  | startGraceEnd (x r) (h : s.extr.grace x = some r) :
      Effect s (.startGraceEnd x) .still { s.advance r with extr := (s.advance r).extr.endGrace x }
  | supervisionExpired (h : s.port.supRunning = true) :
      Effect s .supervisionExpired .settled
        { s.advance (1000 * s.ws.supervision - s.port.supElapsed) with
          port := (s.advance (1000 * s.ws.supervision - s.port.supElapsed)).port.expire }
  | warmupComplete (h : warmupReady s = true) : Effect s .warmupComplete .settled (s.enterMode .production)
  | overrun (c code) (hc : postedCode c = some code) (hb : s.port.request = .busy) :
      Effect s c .still
        { s with mem := hostWrites (carriedWrites c) s.mem, port := { s.port with overrun := true } }
  | refused (c code q rc f) (hc : postedCode c = some code) (hq : Taken s code (carriedWrites c) q) :
      Effect s c (.answered .still (.refused rc f)) q
  | accepted (c code q e u) (hc : requestCode c = some code) (hq : Taken s code (carriedWrites c) q)
      (hr : q.mem.read requestAt = code) (ha : Accepts q c e u) : Effect s c (.answered e .done) u
  | requestOverrun (code) :
      Effect s (.requestOverrun code) .still
        { s with port := if s.port.request = .busy then { s.port with overrun := true } else s.port.post code }
  | noticeRead :
      Effect s .noticeRead .still { s with port := { s.port.readNotice with data := readRegister s .notice } }
  | noticeWrite (v) : Effect s (.noticeWrite v) .still { s with port := (s.port.writeNotice v).formLine }
  | noticeEnWrite (v) :
      Effect s (.noticeEnWrite v) .still { s with port := ({ s.port with enable := v.setWidth 11 } : Port).formLine }
  | posRead (x) :
      Effect s (.posRead x) .still
        { s with port := { s.port with latch := (readPos s x).2, data := (readPos s x).1 } }
  | hostAliveWrite (v) (h : s.loaded = true) :
      Effect s (.hostAliveWrite v) .settled
        { s with
          port := { s.port with supElapsed := 0, supRunning := s.ws.supervision != 0, hostLost := false } }
  | heatAuthEnable (h : s.thermal.auth = false) : Effect s .heatAuthEnable .settled (s.setAuth true)
  | heatAuthDisable (h : s.thermal.auth = true) : Effect s .heatAuthDisable .settled (s.setAuth false)
  | heatAuthInvalid (v) (h : ¬ (v = authCode ∨ v = noAuthCode)) :
      Effect s (.heatAuthInvalid v) .settled ((s.setAuth false).raiseCause .authority)
  | widthStepperStep :
      Effect s .widthStepperStep .still { s with gate := { s.gate with width := s.gate.width.step } }
  | homeSwitchFault
      (h : limitDue
        { s with
          pins := { s.pins with homeActive := false }
          gate := { s.gate with width := s.gate.width.turnInward } } = true) :
      Effect s .homeSwitchInactive .settled
        (State.faultWidth
          { s with
            pins := { s.pins with homeActive := false }
            gate := { s.gate with width := s.gate.width.turnInward } })
  | homeSwitchInactive :
      Effect s .homeSwitchInactive .still
        { s with
          pins := { s.pins with homeActive := false }
          gate := { s.gate with width := s.gate.width.turnInward } }

/-- The state `t` is what the command's effect and its consequences make of `s`. -/
def Effects (c : Instr) (s t : State) : Prop :=
  ∃ e u, Effect s c e u ∧ t = e.of u

theorem Effects.nothing (c : Instr) (s : State) : Effects c s s := ⟨_, _, .nothing c, rfl⟩

theorem Effect.effects {c : Instr} {s u : State} {e : Ending} (h : Effect s c e u) : Effects c s (e.of u) := ⟨e, u, h, rfl⟩

/-- A command whose event is due has its effect; else it changes nothing. -/
theorem Effects.due {c : Instr} {s t : State} {p : Prop} [Decidable p] (h : p → Effects c s t) :
    Effects c s (if p then t else s) := by
  split
  · next hp => exact h hp
  · exact .nothing c s

/-! ## The requests -/

/-- A block's decision: a refusal that leaves the state, or an acceptance with its effect. -/
def Decision (c : Instr) (q : State) (a : Answer × State) : Prop :=
  (∃ rc f, a = (.refused rc f, q)) ∨ ∃ e u, Accepts q c e u ∧ a = (.done, e.of u)

theorem Decision.refuse (c : Instr) (q : State) (rc : RefusalCode) : Decision c q (Machine.refuse q rc) := .inl ⟨rc, 0, rfl⟩

theorem Decision.accept {c : Instr} {q u t : State} {e : Ending} (h : Accepts q c e u) (ht : t = e.of u) :
    Decision c q (Machine.accept t) := .inr ⟨e, u, h, congrArg (Prod.mk _) ht⟩

theorem Decision.ite {c : Instr} {q : State} {a b : Answer × State} {p : Prop} [Decidable p] (ha : p → Decision c q a)
    (hb : ¬ p → Decision c q b) : Decision c q (if p then a else b) := by
  split
  · next h => exact ha h
  · next h => exact hb h

theorem decision_loadSetup (ws : List HostWrite) (q : State) : Decision (.loadSetup ws) q (decideLoadSetup q) := by
  refine .ite (fun _ => .refuse ..) fun hm => .ite (fun _ => .refuse ..) fun hr => ?_
  split
  · next k _ => exact .inl ⟨.setupInvalid, BitVec.ofNat 8 k, rfl⟩
  · next hf => exact .accept (.loadSetup ws (by simpa using hm) (by simpa using hr) hf) rfl

theorem decision_start (ws : List HostWrite) (q : State) : Decision (.start ws) q (decideStart q) := by
  refine .ite (fun _ => .refuse ..) fun hm => .ite (fun _ => .refuse ..) fun hl => .ite (fun _ => .refuse ..) fun hc => ?_
  exact .accept (.start ws (by simpa using hm) (by simpa using hl) (by simp at hc; exact hc.2)) rfl

theorem decision_shutdown (ws : List HostWrite) (q : State) : Decision (.shutdown ws) q (decideShutdown q) := by
  unfold decideShutdown
  split
  · next h => exact .accept (.shutdown ws (.inl h)) rfl
  · next h => exact .accept (.shutdown ws (.inr (.inl h))) rfl
  · next h => exact .accept (.shutdown ws (.inr (.inr h))) rfl
  · next h => exact .accept (.shutdownHalted ws h) rfl
  · exact .refuse ..
  · exact .refuse ..

theorem decision_stop (ws : List HostWrite) (q : State) : Decision (.stop ws) q (decideStop q) :=
  .ite (fun _ => .refuse ..) fun h => .accept (.stop ws h) rfl

theorem decision_clear (ws : List HostWrite) (q : State) : Decision (.clear ws) q (decideClear q) := .accept (.clear ws) rfl

theorem decision_economy (ws : List HostWrite) (q : State) : Decision (.economy ws) q (decideEconomy q) :=
  .ite (fun hm => .ite (fun hr => .accept (.economy ws hm (by simpa using hr)) rfl) fun _ => .refuse ..) fun _ => .refuse ..

theorem decision_wake (ws : List HostWrite) (q : State) : Decision (.wake ws) q (decideWake q) :=
  .ite (fun h => .accept (.wake ws h) rfl) fun _ => .refuse ..

theorem decision_setSource (ws : List HostWrite) (q : State) : Decision (.setSource ws) q (decideSetSource q) := by
  refine .ite (fun _ => .refuse ..) fun ho => ?_
  have ho : offering q = false := by simpa using ho
  refine .ite (fun _ => .ite (fun _ => .accept (.sourceStands ws) rfl) fun _ => .accept (.setSource ws .docket ho) rfl) fun _ =>
    .ite (fun _ => ?_) fun _ => .refuse ..
  split
  · exact .refuse ..
  · exact .ite (fun _ => .accept (.sourceStands ws) rfl) fun _ => .accept (.setSource ws _ ho) rfl

theorem decision_setSequence (ws : List HostWrite) (q : State) : Decision (.setSequence ws) q (decideSetSequence q) :=
  .ite (fun _ => .refuse ..) fun ho => .accept (.setSequence ws (by simpa using ho)) rfl

theorem decision_cancelDocket (ws : List HostWrite) (q : State) : Decision (.cancelDocket ws) q (decideCancelDocket q) := by
  refine .ite (fun _ => .refuse ..) fun _ => .ite (fun _ => .refuse ..) fun _ => .ite (fun _ => .refuse ..) fun hn =>
    .ite (fun hp => ?_) fun _ => .refuse ..
  exact .accept (.cancelDocket ws _ (by simpa using hn) hp) rfl

theorem decision_ackAlarms (ws : List HostWrite) (q : State) : Decision (.ackAlarms ws) q (decideAckAlarms q) :=
  .ite (fun _ => .refuse ..) fun _ => .accept (.ackAlarms ws) rfl

theorem decision_fluxRefilled (ws : List HostWrite) (q : State) : Decision (.fluxRefilled ws) q (decideFluxRefilled q) :=
  .ite (fun _ => .refuse ..) fun hv => .ite (fun _ => .refuse ..) fun _ => .accept (.fluxRefilled ws (by omega)) rfl

theorem decision_purgeFluxer (ws : List HostWrite) (q : State) : Decision (.purgeFluxer ws) q (decidePurgeFluxer q) := by
  refine .ite (fun _ => .refuse ..) fun _ => .ite (fun _ => .refuse ..) fun hm => .ite (fun _ => .refuse ..) fun hp =>
    .ite (fun _ => .refuse ..) fun _ => .ite (fun _ => .refuse ..) fun hi => ?_
  exact .accept (.purgeFluxer ws (by simpa using hm) (by simpa using hp) (by simpa using hi)) rfl

theorem decision_clearTrackFlags (ws : List HostWrite) (q : State) :
    Decision (.clearTrackFlags ws) q (decideClearTrackFlags q) := .accept (.clearTrackFlags ws) rfl

/-- A taken post is answered: refused, or decided by the request's block (R178). -/
theorem effects_takePost {c : Instr} {s q : State} {code : Word} {d : State → Answer × State}
    (hc : requestCode c = some code) (hp : postedCode c = some code) (hq : Taken s code (carriedWrites c) q)
    (hd : Decision c q (d q)) : Effects c s (q.takePost code d) := by
  unfold State.takePost
  split
  · next hr =>
    rcases hd with ⟨rc, f, h⟩ | ⟨e, u, ha, h⟩
    · rw [h]; exact (Effect.refused c code q rc f hp hq).effects
    · rw [h]; exact (Effect.accepted c code q e u hc hq hr ha).effects
  · exact (Effect.refused c code q _ _ hp hq).effects

theorem effects_request {c : Instr} {s : State} {code : Word} {d : State → Answer × State}
    (hc : requestCode c = some code) (hd : ∀ q, Decision c q (d q)) :
    Effects c s (s.request code (carriedWrites c) d) := by
  have hp : postedCode c = some code := by
    cases c <;> first | exact hc | cases hc
  unfold State.request
  dsimp only
  split
  · next hb =>
    split
    · next hcode => exact effects_takePost hc hp (.inl ⟨hb, hcode, rfl⟩) (hd _)
    · exact (Effect.overrun c code hp hb).effects
  · next hb => exact effects_takePost hc hp (.inr ⟨hb, rfl⟩) (hd _)

theorem effects_unknown {s : State} (code : Word) (ws : List HostWrite) :
    Effects (.unknownRequest code ws) s (s.request code ws decideUnknown) := by
  have taken : ∀ q, Taken s code ws q → Effects (.unknownRequest code ws) s (q.takePost code decideUnknown) := fun q hq => by
    unfold State.takePost
    split <;> exact (Effect.refused _ code q _ _ rfl hq).effects
  unfold State.request
  dsimp only
  split
  · next hb =>
    split
    · next hcode => exact taken _ (.inl ⟨hb, hcode, rfl⟩)
    · exact (Effect.overrun _ code rfl hb).effects
  · next hb => exact taken _ (.inr ⟨hb, rfl⟩)

/-! ## Every command -/

theorem effects_afterDrop_entry (s : State) (b : Bool) (h : dropsPending s .entry b = true) :
    Effects (.eyeRawChange .entry b) s ((s.rawEye .entry b).afterDrop .entry) := by
  unfold State.afterDrop
  dsimp only
  split
  · next hl =>
    refine (Effect.dropLate b h ?_).effects
    rcases Bool.or_eq_true _ _ ▸ hl with hl | hl
    · simp at hl; exact hl.1
    · unfold lateDue at hl; simp at hl; exact hl.1
  · exact (Effect.rawEye .entry b).effects

theorem effects_afterDrop_exit (s : State) (b : Bool) (h : dropsPending s .exit b = true) :
    Effects (.eyeRawChange .exit b) s ((s.rawEye .exit b).afterDrop .exit) := by
  unfold State.afterDrop
  dsimp only
  split
  · exact (Effect.dropLost b h).effects
  · split
    · exact (Effect.dropPast b h).effects
    · exact (Effect.rawEye .exit b).effects

theorem effects_acceptEntry (s : State) (p : Pos) (h : eyeDue s .entry = some p) :
    Effects (.eyeChangeAccepted .entry) s (s.acceptEye .entry p) := by
  unfold State.acceptEye
  dsimp only
  cases ha : (s.track.eye .entry).accepted with
  | false =>
    dsimp only
    unfold State.entryLeading
    split
    · next hl => exact (Effect.overflow p h hl).effects
    · next hl =>
      split
      · exact (Effect.phantom p h).effects
      · next ho => exact (Effect.entryLeading p h ha (Nat.not_le.mp hl) (by simpa using ho)).effects
  | true => exact (Effect.entryTrailing p h ha).effects

theorem effects_acceptExit (s : State) (p : Pos) (h : eyeDue s .exit = some p) :
    Effects (.eyeChangeAccepted .exit) s (s.acceptEye .exit p) := by
  unfold State.acceptEye
  dsimp only
  cases ha : (s.track.eye .exit).accepted with
  | false =>
    dsimp only
    unfold State.exitLeading
    dsimp only
    split
    · next r hr =>
      split
      · exact (Effect.exitMatched p r h hr).effects
      · exact (Effect.exitPhantom p h).effects
    · exact (Effect.exitPhantom p h).effects
  | true =>
    dsimp only
    unfold State.exitTrailing
    split
    · next r hr => exact (Effect.exitClosed p r h hr).effects
    · exact (Effect.exitUnowned p h).effects

/-- Every command but a reset answers what its effect and its consequences make. -/
theorem exec_effects {c : Instr} {s t : State} (h : exec c s = .next t) (hp : c ≠ .portReset)
    (ho : ∀ ws, c ≠ .powerOnReset ws) : Effects c s t := by
  have go : ∀ {u : State}, exec c s = .next u → Effects c s u → Effects c s t := fun hu f => by
    rw [h] at hu; exact Host.Outcome.next.inj hu ▸ f
  cases c with
  | powerOnReset ws => exact absurd rfl (ho ws)
  | portReset => exact absurd rfl hp
  | encoderCount d => exact go rfl (.due fun h => (Effect.encoderCount d h).effects)
  | eyeRawChange eye blocked =>
    refine go rfl ?_
    split
    · next hd =>
      cases eye with
      | entry => exact effects_afterDrop_entry s blocked hd
      | exit => exact effects_afterDrop_exit s blocked hd
    · exact (Effect.rawEye eye blocked).effects
  | eyeChangeAccepted eye =>
    refine go rfl ?_
    split
    · next p hd =>
      cases eye with
      | entry => exact effects_acceptEntry s p hd
      | exit => exact effects_acceptExit s p hd
    · exact .nothing _ s
  | entryJam => exact go rfl (.due fun h => (Effect.entryJam h).effects)
  | boardLost => exact go rfl (.due fun h => (Effect.boardLost h).effects)
  | lateLimitReached => exact go rfl (.due fun h => (Effect.lateLimit h).effects)
  | statusIntervalEnd i ws => exact go rfl (Effect.interval i ws).effects
  | inputFault k => exact go rfl (.due fun h => (Effect.inputFault k h).effects)
  | inputRecovery k => exact go rfl (.due fun h => (Effect.inputRecovery k h).effects)
  | inputFillingEnd k => exact go rfl (.due fun h => (Effect.inputFillingEnd k h).effects)
  | speedStableSet => exact go rfl (.due fun h => (Effect.speedStableSet h).effects)
  | conveyorSpeed => exact go rfl (.due fun h => (Effect.conveyorSpeed h).effects)
  | levelInputRecovered => exact go rfl (.due fun h => (Effect.levelInputRecovered h).effects)
  | levelFlagChange f => exact go rfl (.due fun h => (Effect.levelFlagChange f h).effects)
  | pumpStableSet w => exact go rfl (.due fun h => (Effect.pumpStableSet w h).effects)
  | fluxPressure => exact go rfl (.due fun h => (Effect.fluxPressure h).effects)
  | alarmActivation k => exact go rfl (.due fun h => (Effect.alarmActivation k h).effects)
  | alarmSeverityRise k => exact go rfl (.due fun h => (Effect.alarmSeverityRise k h).effects)
  | alarmEscalation k => exact go rfl (.due fun h => (Effect.alarmEscalation k h).effects)
  | alarmClear k => exact go rfl (.due fun h => (Effect.alarmClear k h).effects)
  | vapourHalt => exact go rfl (.due fun h => (Effect.vapourHalt h).effects)
  | heaterPeriodBoundary => exact go rfl Effect.heaterPeriodBoundary.effects
  | loopSettled l => exact go rfl (.due fun h => (Effect.loopSettled l h).effects)
  | heaterOutputSwitch k =>
    refine go rfl ?_
    dsimp only
    split
    · next m hm => exact (Effect.heaterOutputSwitch k m hm).effects
    · exact .nothing _ s
  | modulationBoundary => exact go rfl Effect.modulationBoundary.effects
  | lanePulseEnd k =>
    refine go rfl ?_
    split
    · next u hu =>
      split
      · exact .nothing _ s
      · next hq => exact (Effect.lanePulseEnd k u hu hq).effects
    · exact .nothing _ s
  | purgeDurationComplete =>
    refine go rfl ?_
    split
    · next g hg => exact (Effect.purgeDurationComplete g hg).effects
    · exact .nothing _ s
  | feederShotStart =>
    exact go rfl (.due fun h => (Effect.feederShotStart (Bool.and_eq_true _ _ ▸ h).1 (Bool.and_eq_true _ _ ▸ h).2).effects)
  | feederShotComplete =>
    refine go rfl ?_
    dsimp only
    split
    · next r hr => exact (Effect.feederShotComplete r hr).effects
    · exact .nothing _ s
  | feederSettlingComplete =>
    refine go rfl ?_
    dsimp only
    split
    · next r hr => exact (Effect.feederSettlingComplete r hr).effects
    · exact .nothing _ s
  | shotHistoryExpiry =>
    refine go rfl ?_
    dsimp only
    split
    · next x rest hx => exact (Effect.shotHistoryExpiry x rest hx).effects
    · exact .nothing _ s
  | widthMotionStart => exact go rfl (.due fun h => (Effect.widthMotionStart h).effects)
  | homingComplete => exact go rfl (.due fun h => (Effect.homingComplete h).effects)
  | homingTravelExceeded => exact go rfl (.due fun h => (Effect.homingTravelExceeded h).effects)
  | widthMoveComplete => exact go rfl (.due fun h => (Effect.widthMoveComplete h).effects)
  | widthLimitActive e =>
    refine go rfl ?_
    dsimp only
    split
    · next hw => exact (Effect.widthLimitFault e hw).effects
    · exact (Effect.widthLimitSeen e).effects
  | thermostatContactOpen => exact go rfl Effect.thermostatContactOpen.effects
  | estopInputActive => exact go rfl Effect.estopInputActive.effects
  | estopInputRelease => exact go rfl Effect.estopInputRelease.effects
  | upstreamAvailableChange b =>
    refine go rfl ?_
    split
    · exact .nothing _ s
    · next hb => exact (Effect.upstreamAvailableChange b hb).effects
  | endSensorRawChange b => exact go rfl (Effect.endSensorRawChange b).effects
  | endSensorEvent =>
    refine go rfl ?_
    split
    · next p hs => exact (Effect.endSensorEvent p hs).effects
    · exact .nothing _ s
  | downstreamReadyChange b =>
    refine go rfl ?_
    split
    · exact .nothing _ s
    · next hb => exact (Effect.downstreamReadyChange b hb).effects
  | idleTimerExpiry =>
    refine go rfl ?_
    split
    · next r hr => exact .due fun hm => (Effect.idleTimerExpiry r hr hm).effects
    · exact .nothing _ s
  | runOnTimerExpiry =>
    refine go rfl ?_
    dsimp only
    split
    · next r hr => exact (Effect.runOnTimerExpiry r hr).effects
    · exact .nothing _ s
  | startGraceEnd x =>
    refine go rfl ?_
    dsimp only
    split
    · next r hr => exact (Effect.startGraceEnd x r hr).effects
    · exact .nothing _ s
  | supervisionExpired => exact go rfl (.due fun h => (Effect.supervisionExpired h).effects)
  | warmupComplete => exact go rfl (.due fun h => (Effect.warmupComplete h).effects)
  | loadSetup ws => exact go rfl (effects_request rfl (decision_loadSetup ws))
  | start ws => exact go rfl (effects_request rfl (decision_start ws))
  | shutdown ws => exact go rfl (effects_request rfl (decision_shutdown ws))
  | stop ws => exact go rfl (effects_request rfl (decision_stop ws))
  | clear ws => exact go rfl (effects_request rfl (decision_clear ws))
  | economy ws => exact go rfl (effects_request rfl (decision_economy ws))
  | wake ws => exact go rfl (effects_request rfl (decision_wake ws))
  | setSource ws => exact go rfl (effects_request rfl (decision_setSource ws))
  | setSequence ws => exact go rfl (effects_request rfl (decision_setSequence ws))
  | cancelDocket ws => exact go rfl (effects_request rfl (decision_cancelDocket ws))
  | ackAlarms ws => exact go rfl (effects_request rfl (decision_ackAlarms ws))
  | fluxRefilled ws => exact go rfl (effects_request rfl (decision_fluxRefilled ws))
  | purgeFluxer ws => exact go rfl (effects_request rfl (decision_purgeFluxer ws))
  | clearTrackFlags ws => exact go rfl (effects_request rfl (decision_clearTrackFlags ws))
  | unknownRequest code ws =>
    refine go rfl ?_
    split
    · exact .nothing _ s
    · exact effects_unknown code ws
  | requestOverrun code => exact go rfl (Effect.requestOverrun code).effects
  | noticeRead => exact go rfl Effect.noticeRead.effects
  | noticeWrite v => exact go rfl (Effect.noticeWrite v).effects
  | noticeEnWrite v => exact go rfl (Effect.noticeEnWrite v).effects
  | posRead x => exact go rfl (Effect.posRead x).effects
  | hostAliveWrite v => exact go rfl (.due fun h => (Effect.hostAliveWrite v h).effects)
  | heatAuthEnable =>
    refine go rfl ?_
    split
    · exact .nothing _ s
    · next ha => exact (Effect.heatAuthEnable (by simpa using ha)).effects
  | heatAuthDisable => exact go rfl (.due fun h => (Effect.heatAuthDisable h).effects)
  | heatAuthInvalid v =>
    refine go rfl ?_
    split
    · exact .nothing _ s
    · next hv => exact (Effect.heatAuthInvalid v hv).effects
  | ignoredRegisterWrite r v => exact go rfl (.nothing _ s)
  | widthStepperStep => exact go rfl Effect.widthStepperStep.effects
  | homeSwitchInactive =>
    refine go rfl ?_
    dsimp only
    split
    · next hl => exact (Effect.homeSwitchFault hl).effects
    · exact Effect.homeSwitchInactive.effects

/-! ## Every step -/

/-- A rule that every command keeps, that time keeps and that is not about the queue, is kept by every step. -/
theorem step_of_exec {P : State → Prop} (pend : ∀ (s : State) l, P s → P { s with pending := l })
    (time : ∀ s : State, P s → P (s.advance 1)) (cmd : ∀ c s t, exec c s = .next t → P s → P t) (s t : State)
    (h : step s = .next t) (hs : P s) : P t := by
  unfold step at h
  split at h
  · exact cmd _ _ _ h (pend s _ hs)
  · split at h
    · exact cmd _ _ _ h hs
    · rw [← Host.Outcome.next.inj h]; exact time s hs

/-- A command is a reset, or has its effect and its consequences. -/
theorem exec_cases {c : Instr} {s t : State} (h : exec c s = .next t) :
    (∃ ws, c = .powerOnReset ws ∧ t = (s.powerOn ws).resetExit) ∨
      (c = .portReset ∧
        t = (allSlots.foldl State.abortSlot
          ((s.tearRefresh (refreshCut s.clock s.port.generation)).cutPulses (fun _ => true) false).portRebuild).resetExit) ∨
      Effects c s t := by
  by_cases hp : c = .portReset
  · subst hp; exact .inr (.inl ⟨rfl, (Host.Outcome.next.inj h).symm⟩)
  · by_cases ho : ∃ ws, c = .powerOnReset ws
    · obtain ⟨ws, rfl⟩ := ho
      exact .inl ⟨ws, rfl, (Host.Outcome.next.inj h).symm⟩
    · exact .inr (.inr (exec_effects h hp fun ws e => ho ⟨ws, e⟩))

end Sys2Proof.Machine
end


section
/-! The step, the request handshake and the registers that answer at once: O1, O2, O49, O57, O60. -/

namespace Sys2Proof.Machine

open Sys2Proof.Config

/-- Settles O1: the step looks at the front of its queue first. -/
theorem stepRunsTheFrontCommand : Obligations.StepRunsTheFrontCommand := by
  intro s c rest h
  simp [step, h]

/-- Settles O2: the first due event, else `advance 1`, whose timers are read off one by one. -/
theorem emptyQueueTakesDueEventOrMillisecond : Obligations.EmptyQueueTakesDueEventOrMillisecond := by
  intro s hp
  refine ⟨fun c hc => by simp [step, hp, hc], fun hn => ⟨s.advance 1, by simp [step, hp, hn], ?_⟩⟩
  refine ⟨rfl, rfl, by simp [State.advance], by simp [State.advance], fun r hr => by simp [State.advance, hr],
    fun r hr => by simp [State.advance, hr], fun h => ?_, rfl⟩
  rcases h with h | h <;> simp [State.advance, h]

/-! ## The handshake (R177, R178) -/

/-- A request's command posts its code, with its host writes, and its block decides. -/
theorem exec_request {c : Instr} {code : Word} (h : requestCode c = some code) :
    ∃ d, ∀ s, exec c s = .next (s.request code (carriedWrites c) d) := by
  cases c <;> cases h <;> exact ⟨_, fun _ => rfl⟩

/-- A post that finds the port free is taken at once. -/
theorem request_of_free {s : State} (h : s.port.request ≠ .busy) (code : Word) (ws : List HostWrite)
    (d : State → Answer × State) : s.request code ws d = (s.withPost code ws).takePost code d := by
  simp [State.request, State.withPost, h]

/-- A post whose record holds another code is refused, and no block sees it. -/
theorem takePost_of_other {s : State} {code : Word} (h : s.mem.read 0x0040 ≠ code) (d : State → Answer × State) :
    s.takePost code d = s.answer (.refused .badArgument 0) :=
  if_neg h

/-- A post that is taken is decided by the request's block. -/
theorem request_of_posts {s : State} {code : Word} {ws : List HostWrite} (h : Posts s code ws)
    (d : State → Answer × State) :
    s.request code ws d = (d (s.withPost code ws)).2.answer (d (s.withPost code ws)).1 := by
  rw [request_of_free h.1]
  exact if_pos h.2

/-- A write of another code while BUSY sets OVERRUN. -/
theorem request_of_busy {s : State} {code : Word} (h : s.port.request = .busy) (hc : s.port.posted ≠ some code)
    (ws : List HostWrite) (d : State → Answer × State) :
    s.request code ws d = { s with mem := hostWrites ws s.mem, port := { s.port with overrun := true } } := by
  simp [State.request, h, hc]

/-- R177: the port after an answer. -/
theorem answer_port (s : State) (a : Answer) :
    ∃ p, s.answer a = { s with port := p } ∧
      p = { s.port with
            request := p.request, refusal := p.refusal, field := p.field, line := p.line
            notices := s.port.notices ||| 2, marks := s.port.marks &&& ~~~2 } ∧
      (a = .done → p.request = .done ∧ p.refusal = .none ∧ p.field = 0) ∧
      (∀ code field, a = .refused code field → p.request = .refused ∧ p.refusal = code ∧ p.field = field) := by
  cases a with
  | done => exact ⟨_, rfl, rfl, fun _ => ⟨rfl, rfl, rfl⟩, nofun⟩
  | refused code field => exact ⟨_, rfl, rfl, nofun, fun _ _ h => by cases h; exact ⟨rfl, rfl, rfl⟩⟩

/-- Settles O49, by the cases of the handshake. -/
theorem requestHandshakeAnswersEveryPost : Obligations.RequestHandshakeAnswersEveryPost := by
  intro s
  refine ⟨fun c code ws hc hw => ?_, fun code ws hk hf => ?_, fun code hb => ?_, fun code hf => ?_, fun a => ?_⟩
  · obtain ⟨d, hd⟩ := exec_request hc
    subst hw
    refine ⟨fun hf hm => ?_, fun hb hp => ?_⟩
    · rw [hd, request_of_free hf, takePost_of_other hm]
    · rw [hd, request_of_busy hb hp]
  · have unknown : knownCode code = false := by
      rcases hk with rfl | hk
      · rfl
      · simp [knownCode]; omega
    have taken : (s.withPost code ws).takePost code decideUnknown =
        (s.withPost code ws).answer (.refused .badArgument 0) := by
      unfold State.takePost; split <;> rfl
    simp only [exec, execUnknownRequest, unknown, request_of_free hf, taken]
    rfl
  · simp [exec, execRequestOverrun, hb]
  · simp [exec, execRequestOverrun, hf, Port.post]
  · obtain ⟨p, hp, shape, done, refused⟩ := answer_port s a
    exact ⟨p, hp, answer_line s a, shape, done, refused⟩

/-- Settles O57: the block of CLEAR_TRACK_FLAGS accepts in every state. -/
theorem clearTrackFlagsClearsBothFlags : Obligations.ClearTrackFlagsClearsBothFlags := by
  rintro s w ws hp rfl
  exact congrArg Host.Outcome.next (request_of_posts hp _)

/-! ## The registers (R174, R176, Table 12-5) -/

theorem modeWord_toNat (s : State) :
    (modeWord s).toNat = s.modes.mode.code + 16 * s.gate.state.code + 256 * s.outfeed.state.code +
      if s.loaded then 32768 else 0 := by
  have mode : s.modes.mode.code < 16 := by cases s.modes.mode <;> decide
  have gate : s.gate.state.code < 16 := by cases s.gate.state <;> decide
  have outfeed : s.outfeed.state.code < 128 := by cases s.outfeed.state <;> decide
  cases h : s.loaded <;> simp [modeWord, wordOf, natIf, h] <;> omega

theorem requestWord_toNat (p : Port) :
    (requestWord p).toNat = p.request.code + (if p.overrun then 8 else 0) + 16 * p.refusal.code + 256 * p.field.toNat := by
  have request : p.request.code < 8 := by cases p.request <;> decide
  have refusal : p.refusal.code < 16 := by cases p.refusal <;> decide
  have field := p.field.isLt
  cases h : p.overrun <;> simp [requestWord, wordOf, natIf, h] <;> omega

/-- Settles O60, register by register. -/
theorem hostAliveRestartsSupervision : Obligations.HostAliveRestartsSupervision := by
  intro s v
  refine ⟨fun h => by simp [exec, execHostAliveWrite, h], fun h => ⟨_, rfl, by simp [exec, execHostAliveWrite, h],
    (kept_settle _).keeps⟩, fun _ => rfl, rfl, rfl, rfl, fun k => ?_, fun k => ?_, ?_, ?_⟩
  · simp [readRegister]
  · simp [readRegister]
  · refine ⟨s.modes.mode.code, s.gate.state.code, s.outfeed.state.code, modeWord_toNat s, ?_, ?_, ?_⟩
    · cases s.modes.mode <;> rfl
    · cases s.gate.state <;> rfl
    · cases s.outfeed.state <;> rfl
  · refine ⟨s.port.request.code, s.port.refusal.code, ?_, ?_, ?_⟩
    · exact requestWord_toNat s.port
    · cases s.port.request <;> rfl
    · cases s.port.refusal <;> rfl

end Sys2Proof.Machine
end


section
/-! Commands whose effect is one field or one halt cause: O29, O34, O36, O37, O46. -/

namespace Sys2Proof.Machine

open Sys2Proof.Config

/-- A command that raises a cause on `a`, which differs from `s` outside the mode controller: what it leaves, its frame, and the
conveyor stopped where the line ran. -/
theorem raise_settles {s a : State} (c : HaltCause) (ha : a.modes = s.modes) :
    Halts s (a.raiseCause c).settle c ∧ Keeps (a.causesOf (a.raiseCause c).settle) (a.raiseCause c).settle ∧
      (s.modes.mode.runs = true → c ∉ s.modes.causes → (a.raiseCause c).settle.track.ref = 0) := by
  have halts := halts_settle a c
  have moved : Halts s (a.raiseCause c).settle c := ⟨ha ▸ halts.causes, ha ▸ halts.mode, ha ▸ halts.notice⟩
  exact ⟨moved, (kept_raise_settle a c).keeps, fun hr hc => settle_ref_halted (moved.mode hr hc)⟩

theorem lateDue_iff (s : State) :
    lateDue s = true ↔ s.gate.state = .late ∧ ∃ l, s.gate.lateLimit = some l ∧ atOrAfter s.track.pos l = true ∧
      ∀ p, s.track.entryEye.pendingAt = some p → s.track.entryEye.accepted = true ∨ atOrAfter p l = true := by
  unfold lateDue entryDefers Qualifier.toBlocked
  cases hl : s.gate.lateLimit <;> cases ha : s.track.entryEye.accepted <;>
    cases hp : s.track.entryEye.pendingAt <;> simp

/-- R47: the gate that leaves LATE. -/
theorem closeGate_eq (s : State) :
    s.closeGate = { s with gate := s.gate.closedFromLate, docket := { s.docket with offer := none } } := by
  cases hr : s.gate.ready <;>
    simp [State.closeGate, Gate.enter, Gate.closedFromLate, countChange, hr]

/-- Settles O29: each command by its condition. -/
theorem lateLimitAndSpeedWindowsAct : Obligations.LateLimitAndSpeedWindowsAct := by
  intro s
  refine ⟨fun l hg hl ha => ⟨fun hp => ⟨_, rfl, ?_, (kept_settleEval _).keeps⟩, fun p hp hc hb => ?_⟩, fun hs hp => ?_,
    fun hm => ?_⟩
  · have due : lateDue s = true := (lateDue_iff s).mpr ⟨hg, l, hl, ha, hp⟩
    simp [exec, execLateLimitReached, due, closeGate_eq]
  · have due : lateDue s = false := by
      rw [Bool.eq_false_iff, ne_eq, lateDue_iff]
      rintro ⟨-, k, hk, -, h⟩
      cases hl ▸ hk
      rcases h p hp with h | h <;> simp_all
    simp [exec, execLateLimitReached, due]
  · exact ⟨_, rfl, by simp [exec, execSpeedStableSet, Track.stableDue, hs, hp], (kept_settle _).keeps⟩
  · let a : State := { s with track := { s.track with misses := 0 } }
    obtain ⟨halts, -, stops⟩ := raise_settles (s := s) (a := a) .conveyorSpeed rfl
    have frame : Kept (s.causesOf (a.raiseCause .conveyorSpeed).settle) (a.causesOf (a.raiseCause .conveyorSpeed).settle) :=
      Kept.of_core rfl rfl
    exact ⟨_, by simp [exec, execConveyorSpeed, Track.speedFault, hm, a], halts, stops,
      (frame.trans (kept_raise_settle a .conveyorSpeed)).keeps⟩

/-! ## The thermal unit -/

theorem Thermal.loop_markSettled (t : Thermal) (l m : LoopId) :
    (t.markSettled l).loop m = if m = l then { t.loop l with settled := true } else t.loop m := by
  cases l <;> cases m <;> simp [Thermal.markSettled, Thermal.loop, Tab6.get_set]

/-- Settles O34. -/
theorem settleCountSetsSettled : Obligations.SettleCountSetsSettled := by
  intro s l ha ht hs hc hn
  refine ⟨{ s with thermal := s.thermal.markSettled l }, ?_, ?_, fun m hm => ?_, ?_, (kept_settle _).keeps⟩
  · cases l <;> rfl
  · simp [Thermal.loop_markSettled]
  · simp [Thermal.loop_markSettled, hm]
  · simp [exec, execLoopSettled, settledDue, ha, ht, hs, hc, hn]

/-- After the consequences of a step a standing cut has taken the grants and the outputs. -/
theorem settle_notPermitted {s : State} (h : NotPermitted s.settle) :
    s.settle.thermal.pot.grant = 0 ∧ (∀ z, (s.settle.thermal.zones.get z).grant = 0) ∧
      ∀ k, s.settle.thermal.outputs.get k = false :=
  (settle_heatersCut s).permit h

/-- Settles O36: the cut rule of the settled state, at the condition that the command brings. -/
theorem thermostatAndEstopCutTheHeaters : Obligations.ThermostatAndEstopCutTheHeaters := by
  intro s
  refine ⟨?_, ?_, rfl⟩
  · let a : State := { s with pins := { s.pins with thermostatOpen := true } }
    obtain ⟨halts, keeps, -⟩ := raise_settles (s := s) (a := a) .potOvertemp rfl
    have hot : overtemp (a.raiseCause .potOvertemp).settle = true := by
      simp [overtemp, keeps.pins, State.causesOf, a]
    obtain ⟨grant, out0, out1⟩ := (settle_heatersCut (a.raiseCause .potOvertemp)).pot (.inr (.inl hot))
    exact ⟨(a.raiseCause .potOvertemp).settle, rfl, halts, grant, out0, out1, keeps⟩
  · let a : State := { s with pins := { s.pins with estop := true } }
    obtain ⟨halts, keeps, stops⟩ := raise_settles (s := s) (a := a) .estop rfl
    have stopped : (a.raiseCause .estop).settle.pins.estop = true := by simp [keeps.pins, State.causesOf, a]
    obtain ⟨pot, zones, outputs⟩ := settle_notPermitted (s := a.raiseCause .estop) (.inr (.inr stopped))
    exact ⟨(a.raiseCause .estop).settle, rfl, halts, pot, zones, outputs, stops, keeps⟩

end Sys2Proof.Machine
end


section
/-! SETTLED, the targets and the settle counts through the consequences of a step (R84, R90, R91), and O37. -/

namespace Sys2Proof.Machine

open Sys2Proof.Config

/-! ## SETTLED fits HEAT_AUTH and the target (R91) -/

theorem Loop.formSettled_settledFormed (l : Loop) (auth : Bool) : (l.formSettled auth).SettledFormed auth := by
  unfold Loop.formSettled Loop.SettledFormed
  cases auth
  · simp
  · by_cases h : l.target = 0 <;> simp [h]

theorem settledFormed_reformPotTarget (s : State) : SettledFormed s.reformPotTarget :=
  ⟨Loop.formSettled_settledFormed _ _, fun z => by
    simpa [State.reformPotTarget] using Loop.formSettled_settledFormed (s.thermal.zones.get z) s.thermal.auth⟩

/-- The rule reads the thermal unit alone. -/
theorem SettledFormed.of_thermal {s t : State} (h : SettledFormed s) (ht : t.thermal = s.thermal) : SettledFormed t := by
  unfold SettledFormed; rw [ht]; exact h

theorem reform_settledFormed (s : State) : SettledFormed s.reform := by
  unfold State.reform State.reformTargets
  generalize s.modeStage.reformFans.reformHorn.reformGuards.reformZones.reformPumpTargets = u
  exact (settledFormed_reformPotTarget u).of_thermal (by simp)

theorem settle_settledFormed (s : State) : SettledFormed s.settle := reform_settledFormed _

/-! ## The writes of HEAT_AUTH (R102) -/

/-- After HEAT_AUTH has gone to DISABLED nothing is granted, on or SETTLED. -/
theorem settle_unauthorized {s : State} (h : s.settle.thermal.auth = false) :
    s.settle.thermal.pot.grant = 0 ∧ (∀ z, (s.settle.thermal.zones.get z).grant = 0) ∧
      (∀ k, s.settle.thermal.outputs.get k = false) ∧ s.settle.thermal.pot.settled = false ∧
      ∀ z, (s.settle.thermal.zones.get z).settled = false := by
  obtain ⟨pot, zones, outputs⟩ := settle_notPermitted (.inl h)
  obtain ⟨potSettled, zonesSettled⟩ := settle_settledFormed s
  exact ⟨pot, zones, outputs, (potSettled.1 h).1, fun z => ((zonesSettled z).1 h).1⟩

/-- Settles O37, by the three values of a write. -/
theorem heatAuthWritesActByTheirValue : Obligations.HeatAuthWritesActByTheirValue := by
  intro s
  refine ⟨rfl, fun h => by simp [exec, execHeatAuthEnable, h], fun h => ⟨s.setAuth true, rfl, ?_, (kept_settle _).keeps⟩,
    fun h => by simp [exec, execHeatAuthDisable, h], fun h => ?_, fun v hv hw => ?_⟩
  · simp [exec, execHeatAuthEnable, h]
  · have frame : Keeps (s.setAuth false) (s.setAuth false).settle := (kept_settle _).keeps
    obtain ⟨pot, zones, outputs, potSettled, zonesSettled⟩ :=
      settle_unauthorized (s := s.setAuth false) frame.thermalAuth
    exact ⟨(s.setAuth false).settle, by simp [exec, execHeatAuthDisable, h], pot, zones, outputs, potSettled, zonesSettled,
      frame⟩
  · obtain ⟨halts, keeps, -⟩ := raise_settles (s := s) (a := s.setAuth false) .authority rfl
    have invalid : ¬ (v = authCode ∨ v = noAuthCode) := by simpa [authCode, noAuthCode] using ⟨hv, hw⟩
    obtain ⟨pot, zones, outputs, -⟩ :=
      settle_unauthorized (s := (s.setAuth false).raiseCause .authority) keeps.thermalAuth
    exact ⟨((s.setAuth false).raiseCause .authority).settle, by simp [exec, execHeatAuthInvalid, invalid], halts, pot, zones,
      outputs, keeps⟩

end Sys2Proof.Machine
end


section
/-! What the consequences of a step make of the fans and the outfeed, in one formula each (R137, R140, R157, R158); O44, O46,
O48. -/

namespace Sys2Proof.Machine

open Sys2Proof.Config

/-! ## The fans (R137 to R140) -/

theorem Extr.command_of_eq {x : Extr} {on : Bool} (h : x.fan = on) (now : Clock) : x.command on now = x := by
  unfold Extr.command; cases on <;> simp [h]

theorem reform_extr (s : State) : s.reform.extr = s.modeStage.reformFans.reformHorn.extr := by
  simp [State.reform]

theorem pass_extr (s : State) : s.pass.extr = s.modeStage.reformFans.reformHorn.extr := by
  simp [State.pass, reform_extr]

theorem pass_fan (s : State) : s.pass.extr.fan = fanCommand s.pass := by
  have h := reform_fan s
  simpa [State.pass, fanCommand] using h

/-- After a pass the fans stand as commanded, so the next re-forming leaves them and the points. -/
theorem reformFans_pass (s : State) : s.pass.modeStage.reformFans.extr = s.pass.extr := by
  rw [pass_still]
  exact Extr.command_of_eq (pass_fan s) _

/-- The alarm points and the fans after the consequences of a step: those that the fan command of the mode leaves. -/
theorem settle_fans (s : State) :
    s.settle.extr.points = (s.extr.command (fanCommand s.modeStage) s.clock).points ∧
      s.settle.extr.fan = fanCommand s.modeStage := by
  have first : s.pass.extr.points = (s.extr.command (fanCommand s.modeStage) s.clock).points ∧
      s.pass.extr.fan = fanCommand s.modeStage := by
    rw [pass_extr]
    exact ⟨by simp [State.reformHorn, State.reformFans], by simp [State.reformHorn, State.reformFans, Extr.command_fan]⟩
  have again : ∀ u : State, u.modeStage.reformFans.extr = u.extr →
      u.modeStage.reformFans.reformHorn.extr.points = u.extr.points ∧
        u.modeStage.reformFans.reformHorn.extr.fan = u.extr.fan := fun u h => by
    rw [← h]; exact ⟨rfl, rfl⟩
  obtain ⟨points₂, fan₂⟩ := again s.pass (reformFans_pass s)
  obtain ⟨points₃, fan₃⟩ := again s.pass.pass (reformFans_pass s.pass)
  rw [← pass_extr s.pass] at points₂ fan₂
  rw [← reform_extr s.pass.pass] at points₃ fan₃
  exact ⟨(points₃.trans points₂).trans first.1, (fan₃.trans fan₂).trans first.2⟩

theorem fanPoint_iff (k : Idx8) : fanPoint (pointKind k) = true ↔ k.val < 4 := by
  match k with
  | 0 | 1 | 2 | 3 | 4 | 5 | 6 | 7 => decide

theorem Point.fanOff_inactive (p : Point) (now : Clock) :
    (p.fanOff now).ann ≠ .activeUnack ∧ (p.fanOff now).ann ≠ .activeAck := by
  unfold Point.fanOff Point.clear Point.active
  cases h : p.ann <;> simp

/-- R140: the points where the fans go off. -/
theorem command_off_point {x : Extr} (h : x.fan = true) (now : Clock) (k : Idx8) :
    (x.command false now).points.get k = if k.val < 4 then (x.points.get k).fanOff now else x.points.get k := by
  simp [Extr.command, h, Extr.fanOffPoints, fanPoint_iff]

/-! ## The outfeed (R157, R158) -/

@[simp] theorem handshake_idem (st : OutfeedState) (p r : Bool) : handshake (handshake st p r) p r = handshake st p r := by
  cases st <;> cases p <;> cases r <;> rfl

/-- The stop request that a re-forming leaves, from the outfeed state `st` that it leaves (R158). -/
def stopFormed (s : State) (st : OutfeedState) : Bool :=
  st != .empty && (s.outfeed.stop || nextBoardNear s st || (st != s.outfeed.state && heldTail s st))

theorem backPressure_core (s : State) : backPressure s.core = backPressure s := by
  have find : ∀ l : List Record, exitCandidate (l.map Record.core) = (exitCandidate l).map Record.core := fun l => by
    unfold exitCandidate; rw [List.find?_map]; rfl
  have any : anyExiting s.core.track.records = anyExiting s.track.records := by
    simp only [anyExiting, State.core, List.any_map]; rfl
  unfold backPressure
  rw [any, show s.core.track.records = s.track.records.map Record.core from rfl, find]
  cases exitCandidate s.track.records <;> rfl

theorem Kept.backPressure {s t : State} (h : Kept s t) : backPressure t = backPressure s := by
  rw [← backPressure_core t, h.core, backPressure_core]

theorem Kept.nearAndTail {s t : State} (h : Kept s t) (st : OutfeedState) :
    Machine.nextBoardNear t st = Machine.nextBoardNear s st ∧ heldTail t st = heldTail s st := by
  unfold Machine.nextBoardNear heldTail
  rw [h.backPressure, h.keeps.trackExitEye]
  exact ⟨rfl, rfl⟩

theorem reform_outfeed (s : State) :
    s.reform.outfeed.state = handshake s.outfeed.state s.modeStage.modes.mode.outfeedMoves s.pins.downstream ∧
      s.reform.outfeed.stop = stopFormed s s.reform.outfeed.state := by
  obtain ⟨u, hu, hk, hout, hm⟩ : ∃ u : State, u = s.modeStage.reformFans.reformHorn.reformGuards.reformTargets ∧ Kept s u ∧
      u.outfeed = s.outfeed ∧ u.modes = s.modeStage.modes :=
    ⟨_, rfl, (((((kept_modeStage s).trans (kept_reformFans _)).trans (kept_reformHorn _)).trans (kept_reformGuards _)).trans
      (kept_reformTargets _)), by simp, by simp⟩
  have state : s.reform.outfeed.state = u.reformOutfeed.outfeed.state := by
    simp [State.reform, State.reformMotion, State.reformDrive, hu]
  have stop : s.reform.outfeed.stop = u.reformOutfeed.outfeed.stop := by
    simp [State.reform, State.reformMotion, State.reformDrive, hu]
  rw [stop, state]
  obtain ⟨near, tail⟩ := hk.nearAndTail u.reformOutfeed.outfeed.state
  refine ⟨by simp [State.reformOutfeed, hout, hm, hk.keeps.pins], ?_⟩
  rw [stopFormed, ← near, ← tail, ← hout]
  rfl

theorem pass_outfeed (s : State) : s.pass.outfeed = s.reform.outfeed := by simp [State.pass]

/-- The outfeed state and the stop request after the consequences of a step. -/
theorem settle_outfeed (s : State) :
    s.settle.outfeed.state = handshake s.outfeed.state s.settle.modes.mode.outfeedMoves s.pins.downstream ∧
      s.settle.outfeed.stop = stopFormed s s.settle.outfeed.state := by
  have again : ∀ u : State, Kept s u → u.modeStage.modes.mode = s.modeStage.modes.mode →
      u.outfeed.state = handshake s.outfeed.state s.modeStage.modes.mode.outfeedMoves s.pins.downstream ∧
        u.outfeed.stop = stopFormed s u.outfeed.state →
      u.reform.outfeed.state = handshake s.outfeed.state s.modeStage.modes.mode.outfeedMoves s.pins.downstream ∧
        u.reform.outfeed.stop = stopFormed s u.reform.outfeed.state := fun u hk hm ⟨state, stop⟩ => by
    obtain ⟨state', stop'⟩ := reform_outfeed u
    have same : u.reform.outfeed.state = u.outfeed.state := by
      rw [state', hm, hk.keeps.pins, state, handshake_idem]
    obtain ⟨near, tail⟩ := hk.nearAndTail u.outfeed.state
    refine ⟨same.trans state, stop'.trans ?_⟩
    rw [same, stopFormed, near, tail, stop, stopFormed]
    cases u.outfeed.state != .empty <;> simp
    cases s.outfeed.stop <;> cases nextBoardNear s u.outfeed.state <;> simp
  obtain h₁ := reform_outfeed s
  rw [← pass_outfeed] at h₁
  have m₁ : s.pass.modeStage.modes.mode = s.modeStage.modes.mode := by
    rw [pass_still]; exact (mode_of_modes (pass_modes s)).1
  have m₂ : s.pass.pass.modeStage.modes.mode = s.modeStage.modes.mode := by
    rw [pass_still, (mode_of_modes (pass_modes s.pass)).1, m₁]
  have h₂ := again s.pass (kept_pass s) m₁ h₁
  rw [← pass_outfeed] at h₂
  have h₃ := again s.pass.pass ((kept_pass s).trans (kept_pass _)) m₂ h₂
  rw [settle_mode]
  exact h₃

end Sys2Proof.Machine
end


section
/-! The fan timers, the handover lines and the mode controller's timers: O44, O46, O48. -/

namespace Sys2Proof.Machine

open Sys2Proof.Config

/-- An event that has happened before the consequences of a step stays pending. -/
theorem settle_pending {s : State} {n : Notice} (h : Pending s n) : Pending s.settle n :=
  (follows_settle s).notices _ h

theorem notify_pending (p : Port) (n : Notice) : (p.notify n).notices.getLsbD n.bit = true := by
  cases n <;> simp [Port.notify, Notice.bit, Notice.mask]

theorem enterMode_of_ne {s : State} {m : Mode} (h : s.modes.mode ≠ m) :
    s.enterMode m =
      { s with
        modes :=
          { s.modes with
            mode := m, runOn := runOnAt s m
            wakeArm := if m = .economy then some s.pins.upstream else none }
        gate := s.gate.atMode m
        pot := { s.pot with feeder := s.pot.feeder.atMode m }
        port := s.port.notify .modeChanged } :=
  if_neg h

theorem enterMode_mode (s : State) (m : Mode) : (s.enterMode m).modes.mode = m := by
  unfold State.enterMode; split <;> simp_all

theorem enterMode_pending {s : State} {m : Mode} (h : s.modes.mode ≠ m) : Pending (s.enterMode m) .modeChanged := by
  rw [enterMode_of_ne h]; exact notify_pending s.port .modeChanged

/-- A change to a mode that no condition leaves, with its consequences. -/
theorem enterMode_settles {s : State} {m : Mode} (h : s.modes.mode ≠ m) (hc : m ≠ .cooldown) (hp : m ≠ .production) :
    (s.enterMode m).settle.modes.mode = m ∧ (s.enterMode m).settle.modes.runOn = runOnAt s m ∧
      (s.enterMode m).settle.modes.wakeArm = (if m = .economy then some s.pins.upstream else none) ∧
      Pending (s.enterMode m).settle .modeChanged ∧ Kept s (s.enterMode m).settle := by
  obtain ⟨mode, wakeArm, runOn⟩ := settle_mode_stays (s := s.enterMode m) (by rwa [enterMode_mode]) (by rwa [enterMode_mode])
  refine ⟨by rw [mode, enterMode_mode], ?_, ?_, settle_pending (enterMode_pending h),
    (kept_enterMode s m).trans (kept_settle _)⟩
  · rw [runOn, enterMode_of_ne h]
  · rw [wakeArm, enterMode_of_ne h]

/-! ## The fans and the vapour halt -/

/-- In OFF with the run-on timer stopped, the consequences of a step command the fans off. -/
theorem settle_fans_off {s : State} (hm : s.modes.mode = .off) (hr : s.modes.runOn = none) (hf : s.extr.fan = true) :
    s.settle.extr.fan = false ∧
      ∀ k, s.settle.extr.points.get k =
        if k.val < 4 then (s.extr.points.get k).fanOff s.clock else s.extr.points.get k := by
  obtain ⟨points, fan⟩ := settle_fans s
  have still : s.modeStage = s := modeStage_of_still (by simp [cooldownDone, hm]) (by simp [hostLostEconomy, hm])
  have off : fanCommand s.modeStage = false := by rw [still]; simp [fanCommand, hm, hr]
  rw [off] at points fan
  exact ⟨fan, fun k => by rw [points, command_off_point hf]⟩

/-- Settles O44: the cause, the end of the run-on time, the end of a grace. -/
theorem vapourHaltsAndFanTimersEnd : Obligations.VapourHaltsAndFanTimersEnd := by
  intro s
  refine ⟨fun hv => ?_, fun r hm hr hf => ?_, fun h r hr => ?_⟩
  · obtain ⟨halts, keeps, -⟩ := raise_settles (s := s) (a := s) .vapour rfl
    exact ⟨(s.raiseCause .vapour).settle, by simp [exec, execVapourHalt, hv], halts, keeps⟩
  · let a : State := { s.advance r with modes := { (s.advance r).modes with runOn := none } }
    obtain ⟨mode, -, runOn⟩ := settle_mode_stays (s := a) (by simp [a, State.advance, hm]) (by simp [a, State.advance, hm])
    obtain ⟨fan, points⟩ := settle_fans_off (s := a) hm rfl hf
    have frame : Kept (s.advance r) a := Kept.of_core rfl rfl
    refine ⟨a.settle, by simp [exec, execRunOnTimerExpiry, hr, a], runOn, fan, mode.trans hm, fun k hk => ?_, fun k hk => ?_,
      (kept_settle a).keeps.clock, (frame.trans (kept_settle a)).keeps⟩
    · rw [points, if_pos hk]; exact Point.fanOff_inactive _ _
    · rw [points, if_neg (by omega)]; rfl
  · refine ⟨{ s.advance r with extr := (s.advance r).extr.endGrace h }, by simp [exec, execStartGraceEnd, hr], ?_, ?_, rfl⟩
    · cases h <;> rfl
    · cases h <;> rfl

/-! ## The handover lines -/

theorem handshake_taken {st : OutfeedState} (h : st = .holding) : handshake st true true = .delivering := by rw [h]; rfl

/-- A motion that is permitted stays so: no consequence enters OFF from HOLDING or DELIVERING, and ECONOMY permits it too. -/
theorem settle_outfeedMoves {s : State} (h : s.outfeed.state ≠ .empty) :
    s.settle.modes.mode.outfeedMoves = s.modes.mode.outfeedMoves := by
  have cool : cooldownDone s = false := by simp [cooldownDone, drained, h]
  rw [settle_mode, State.modeStage, cool]
  simp only [Bool.false_eq_true, if_false]
  split
  · next hl =>
    have mode : s.modes.mode = .production := by
      unfold hostLostEconomy at hl; simp at hl; exact hl.1.1
    rw [enterMode_mode, mode]; rfl
  · rfl

/-- Settles O46: the four cases of the two lines. -/
theorem handoverLinesCountTheirChanges : Obligations.HandoverLinesCountTheirChanges := by
  intro s b
  refine ⟨fun h => by simp [exec, execUpstreamAvailableChange, h], fun h => ?_,
    fun h => by simp [exec, execDownstreamReadyChange, h], fun h => ?_⟩
  · let a : State :=
      { s with
        pins := { s.pins with upstream := b }, gate := { s.gate with upstreamCount := s.gate.upstreamCount + 1 } }
    have frame : Kept a (a.wakeOn b).settle := by
      refine Kept.trans ?_ (kept_settle _)
      unfold State.wakeOn
      split
      · exact kept_enterMode a _
      · exact Kept.refl a
    refine ⟨(a.wakeOn b).settle, by simp [exec, execUpstreamAvailableChange, h, a], fun hb hm => ?_, frame.keeps⟩
    have wakes : a.wakeOn b = a.enterMode .warmup := by simp [State.wakeOn, hb, a, hm]
    obtain ⟨mode, -, -, pending, -⟩ :=
      enterMode_settles (s := a) (m := .warmup) (by simp [a, hm]) (by decide) (by decide)
    rw [wakes]; exact ⟨mode, pending⟩
  · let a : State :=
      { s with
        pins := { s.pins with downstream := b }
        outfeed := { s.outfeed with readyCount := s.outfeed.readyCount + 1 } }
    obtain ⟨state, stop⟩ := settle_outfeed a
    refine ⟨a.settle, by simp [exec, execDownstreamReadyChange, h, a], fun hs hb hoff hhalt => ?_, fun hs hb => ?_,
      (kept_settle a).keeps⟩
    · have moves : s.modes.mode.outfeedMoves = true := by
        cases hm : s.modes.mode <;> simp_all [Mode.outfeedMoves, Mode.runs]
      rw [state, settle_outfeedMoves (s := a) (by simp [a, hs])]
      simp [a, hs, hb, moves, handshake]
    · have held : a.settle.outfeed.state = .holding := by rw [state]; simp [a, hs, hb, handshake]
      refine ⟨held, fun he => ?_⟩
      rw [stop, held]
      simp [stopFormed, a, hs, heldTail, he]

/-! ## The mode controller's timers -/

theorem widthReady_iff (s : State) : widthReady s = true ↔
    s.gate.width.state = .idle ∧ s.gate.namedClass.map (·.width) = some s.gate.width.pos := by
  simp [widthReady, namedWidth]

theorem loopsReady_iff (s : State) : loopsReady s = true ↔
    s.thermal.pot.settled = true ∧ ∀ z, (s.thermal.zones.get z).target = 0 ∨ (s.thermal.zones.get z).settled = true := by
  simp [loopsReady, Tab6.toList, Fin.forall_fin_succ, Tab6.get]

/-- R165: the WARMUP completion condition, as the model tests it. -/
theorem warmupReady_iff (s : State) : warmupReady s = true ↔ s.modes.mode = .warmup ∧ WarmupMet s := by
  have alarms : (s.extr.points.toList.any Point.alarming) = false ↔ ∀ k, (s.extr.points.get k).sev ≠ .alarm := by
    simp [Tab8.toList, Fin.forall_fin_succ, Tab8.get, Point.alarming]
  unfold warmupReady
  simp only [Bool.and_eq_true, Bool.or_eq_true, beq_iff_eq, Option.isSome_iff_ne_none, widthReady_iff, loopsReady_iff,
    Bool.not_eq_true', alarms, namedSpeed]
  constructor
  · rintro ⟨⟨⟨⟨⟨⟨⟨⟨⟨⟨mode, lineClass⟩, phase⟩, width⟩, ref⟩, stable⟩, loops⟩, level⟩, low⟩, alarm⟩, auth⟩
    exact ⟨mode, lineClass, phase, width, ⟨ref, stable⟩, loops, ⟨level, low⟩, alarm, auth⟩
  · rintro ⟨mode, lineClass, phase, width, ⟨ref, stable⟩, loops, ⟨level, low⟩, alarm, auth⟩
    exact ⟨⟨⟨⟨⟨⟨⟨⟨⟨⟨mode, lineClass⟩, phase⟩, width⟩, ref⟩, stable⟩, loops⟩, level⟩, low⟩, alarm⟩, auth⟩

/-- Settles O48, command by command. -/
theorem timersAndWarmupChangeTheMode : Obligations.TimersAndWarmupChangeTheMode := by
  intro s
  refine ⟨fun e n hm he hn => ?_, fun n hs hn => ?_, fun hm hw hl => ?_, fun h => ?_⟩
  · obtain ⟨mode, -, wakeArm, pending, kept⟩ :=
      enterMode_settles (s := s.advance n) (m := .economy) (by simp [State.advance, hm]) (by decide) (by decide)
    exact ⟨((s.advance n).enterMode .economy).settle, by simp [exec, execIdleTimerExpiry, idleLeft, he, hm, hn], mode, wakeArm,
      pending, kept.keeps.clock, kept.keeps⟩
  · let a : State := { s.advance n with port := (s.advance n).port.expire }
    have frame : Kept { s.advance n with port := { (s.advance n).port with hostLost := true, supRunning := false } } a :=
      Kept.of_core rfl rfl
    refine ⟨a.settle, by simp [exec, execSupervisionExpired, hs, hn, a], settle_pending (notify_pending _ .supervisionExpired),
      fun hm hr => ?_, (kept_settle a).keeps.clock, (frame.trans (kept_settle a)).keeps⟩
    have mode : a.modes.mode = .production := hm
    have records : a.track.records = [] := hr
    have lost : a.port.hostLost = true := rfl
    rw [settle_mode, State.modeStage]
    simp [cooldownDone, hostLostEconomy, mode, records, lost, enterMode_mode]
  · have still : cooldownDone (s.enterMode .production) = false ∧ hostLostEconomy (s.enterMode .production) = false := by
      have lost : (s.enterMode .production).port.hostLost = s.port.hostLost := (kept_enterMode s _).keeps.portHostLost
      refine ⟨by simp [cooldownDone, enterMode_mode], ?_⟩
      rcases hl with hl | hl <;> simp [hostLostEconomy, lost, hl]
    refine ⟨(s.enterMode .production).settle, by simp [exec, execWarmupComplete, (warmupReady_iff s).mpr ⟨hm, hw⟩], ?_,
      settle_pending (enterMode_pending (by simp [hm])), ((kept_enterMode s _).trans (kept_settle _)).keeps⟩
    rw [settle_mode_of_still still.1 still.2, enterMode_mode]
  · have unready : warmupReady s = false := by
      rw [Bool.eq_false_iff, ne_eq, warmupReady_iff]
      rintro ⟨hm, hw⟩
      exact h.elim (· hm) (· hw)
    simp [exec, execWarmupComplete, unready]

end Sys2Proof.Machine
end


section
/-! The pot unit's commands: O38, O39. -/

namespace Sys2Proof.Machine

open Sys2Proof.Config

/-! ## The level flags and PUMP_STABLE (R117 to R119, R122, R128) -/

/-- A judged level changes the dwell counts of the three flags alone. -/
theorem Pot.judgeLevel_eq (p : Pot) (c : Option Setup) (v : Int) :
    p.judgeLevel c v =
        { p with high := (p.judgeLevel c v).high, low := (p.judgeLevel c v).low, lowlow := (p.judgeLevel c v).lowlow } ∧
      (p.judgeLevel c v).high.set = p.high.set ∧ (p.judgeLevel c v).low.set = p.low.set ∧
      (p.judgeLevel c v).lowlow.set = p.lowlow.set := by
  cases c <;> exact ⟨rfl, rfl, rfl, rfl⟩

/-- The change of a flag moves the flag and, for HIGH, the feeder (R118, R122). -/
theorem Pot.changeFlag_eq (p : Pot) (f : LevelFlag) :
    p.changeFlag f = { p.setFlag f (p.flag f).toggle with feeder := (p.changeFlag f).feeder } := rfl

theorem Pot.changeFlag_feeder {p : Pot} {r : Nat} (h : p.high.set = false) (hf : p.feeder = .feeding r) :
    (p.changeFlag .high).feeder = .settling settlingTime := by
  simp [Pot.changeFlag, Pot.setFlag, Pot.flag, Level.toggle, h, hf, Feeder.atHigh]

theorem Pot.pump_markStable (p : Pot) (w v : Wave) :
    (p.markStable w).pump v = if v = w then { p.pump w with stable := true } else p.pump v := by
  cases w <;> cases v <;> rfl

theorem flagDwell_eq (f : LevelFlag) : flagDwell f = match f with | .high => 20 | .low => 20 | .lowlow => 2 := by
  cases f <;> rfl

/-- Settles O38, command by command. -/
theorem levelFlagsAndPumpsFollowTheirCounts : Obligations.LevelFlagsAndPumpsFollowTheirCounts := by
  intro s
  refine ⟨fun hg hr => ?_, fun f hg hc => ?_, fun w hs hc => ?_⟩
  · let p := ({ s.pot with levelGood := true } : Pot).judgeLevel s.port.setup s.pot.level
    let a : State := { s with pot := p, port := s.port.notify .potEvent }
    obtain ⟨shape, high, low, lowlow⟩ := Pot.judgeLevel_eq { s.pot with levelGood := true } s.port.setup s.pot.level
    have keeps := (kept_settle a).keeps
    have frame :
        Kept
          { s with
            pot :=
              { s.pot with
                levelGood := true, high := a.settle.pot.high, low := a.settle.pot.low, lowlow := a.settle.pot.lowlow } }
          a := by
      rw [keeps.potHigh, keeps.potLow, keeps.potLowlow]
      refine Kept.of_core ?_ rfl
      simp only [a, p]; rw [shape]; rfl
    exact ⟨a.settle, by simp [exec, execLevelInputRecovered, levelRecoveryDue, hg, hr, a, p], by rw [keeps.potHigh]; exact high,
      by rw [keeps.potLow]; exact low, by rw [keeps.potLowlow]; exact lowlow, settle_pending (notify_pending _ .potEvent),
      (frame.trans (kept_settle a)).keeps⟩
  · let b : State := { s with pot := s.pot.changeFlag f, port := s.port.notify .potEvent }
    have due : flagDue s f = true := by
      simp only [flagDue, hg, Bool.true_and, decide_eq_true_eq, flagDwell_eq]; exact hc
    have lowlow : (s.pot.changeFlag .lowlow).lowlow.set = !s.pot.lowlow.set := rfl
    have run : exec (.levelFlagChange f) s =
        .next (b.raiseIf (f == .lowlow && (s.pot.changeFlag f).lowlow.set) .potLevel).settle := by
      simp [exec, execLevelFlagChange, due, b]
    have pending : Pending b .potEvent := notify_pending _ .potEvent
    by_cases hl : f = .lowlow ∧ s.pot.lowlow.set = false
    · obtain ⟨rfl, hl⟩ := hl
      obtain ⟨halts, keeps, -⟩ := raise_settles (s := s) (a := b) .potLevel rfl
      have frame :
          Kept { s.causesOf (b.raiseCause .potLevel).settle with
            pot := s.pot.setFlag .lowlow { set := !(s.pot.flag .lowlow).set, count := 0 } }
          (b.causesOf (b.raiseCause .potLevel).settle) := Kept.of_core rfl rfl
      refine ⟨(b.raiseCause .potLevel).settle, by rw [run, lowlow, hl]; rfl, ?_, fun _ _ => halts, fun h => ?_, nofun,
        (frame.trans (kept_raise_settle b .potLevel)).keeps⟩
      · exact settle_pending (raiseCause_notices b .potLevel _ pending)
      · simp [hl] at h
    · have quiet : (f == .lowlow && (s.pot.changeFlag f).lowlow.set) = false := by
        cases f
        · rfl
        · rfl
        · rw [lowlow]; simp_all
      have frame :
          Kept { s.causesOf b.settle with pot := s.pot.setFlag f { set := !(s.pot.flag f).set, count := 0 } } b := by
        rw [show s.causesOf b.settle = s from by
          rw [State.causesOf, (kept_settle b).keeps.modesCauses]]
        refine Kept.of_core ?_ rfl
        cases f <;> rfl
      refine ⟨b.settle, by rw [run, quiet]; rfl, settle_pending pending, fun h1 h2 => absurd ⟨h1, h2⟩ hl,
        fun _ => (kept_settle b).keeps.modesCauses, fun r h1 h2 h3 => ?_, (frame.trans (kept_settle b)).keeps⟩
      subst h1
      have feeder : b.pot.feeder = .settling settlingTime := Pot.changeFlag_feeder h2 h3
      exact ((follows_settle b).feeder (by simp [feeder])).trans feeder
  · refine ⟨{ s with pot := s.pot.markStable w }, by cases w <;> rfl, ?_, fun v hv => ?_, ?_, (kept_settle _).keeps⟩
    · simp [Pot.pump_markStable]
    · simp [Pot.pump_markStable, hv]
    · simp [exec, execPumpStableSet, Pump.stableDue, hs, hc]

/-! ## The feeder (R121 to R124) -/

/-- What the settling test leaves (R123). -/
theorem Pot.settleFeed_eq (p : Pot) (n : Nat) :
    p.settleFeed n =
      { p with
        misses := (p.settleFeed n).misses, feeder := (p.settleFeed n).feeder, feedTest := (p.settleFeed n).feedTest } := by
  unfold Pot.settleFeed; split <;> [rfl; split <;> rfl]

/-- Settles O39, command by command. -/
theorem feederShotRunsItsCourse : Obligations.FeederShotRunsItsCourse := by
  intro s
  refine ⟨fun v hf hl hh hg hp hsp hv hn hoff hhalt ht => ?_, fun ht => by simp [exec, execFeederShotStart, ht],
    fun r n hf hn => ⟨?_, rfl⟩, fun r hf => ?_, fun h rest n hh hn => ⟨?_, rfl⟩⟩
  · have runs : s.modes.mode.runs = true := by cases hm : s.modes.mode <;> simp_all [Mode.runs]
    have due : shotDue s = true := by simp [shotDue, hf, hl, hh, hg, hotEnough, hp, hsp, hv, hn, runs]
    simp [exec, execFeederShotStart, ht, due, Pot.startShot]
  · simp [exec, execFeederShotComplete, shotLeft, hf, hn, settlingTime]
  · let p := (s.advance r).pot.settleFeed s.ws.minRise
    let q := ((s.advance r).port.notifyIf (p.feeder == .jammed) .potEvent).formLine
    have level : (s.advance r).pot.level = s.pot.level ∧ (s.advance r).pot.shotLevel = s.pot.shotLevel ∧
        (s.advance r).pot.misses = s.pot.misses := ⟨rfl, rfl, rfl⟩
    refine ⟨{ s.advance r with pot := p, port := q }, by simp [exec, execFeederSettlingComplete, settlingLeft, hf]; rfl, ?_, ?_,
      rfl⟩
    · have pending : p.feeder = .jammed → q.notices.getLsbD Notice.potEvent.bit = true := fun h =>
        (notifyIf_pending (s.advance r).port (p.feeder == .jammed) .potEvent).mpr (.inr (by simp [h]))
      have misses : p = (s.advance r).pot.settleFeed s.ws.minRise := rfl
      unfold Pot.settleFeed at misses
      rw [level.1, level.2.1, level.2.2] at misses
      split at misses
      · next h => rw [if_pos h]; simp [misses]
      · next h =>
        rw [if_neg h]
        split at misses
        · next h3 => rw [if_pos h3]; exact ⟨by simp [misses], by simp [misses], pending (by simp [misses])⟩
        · next h3 => rw [if_neg h3]; simp [misses]
    · have shape : p = { s.pot with misses := p.misses, feeder := p.feeder, feedTest := p.feedTest } := by
        conv_lhs => rw [show p = (s.advance r).pot.settleFeed s.ws.minRise from rfl, Pot.settleFeed_eq]
        rfl
      have port : q = { (s.advance r).port with notices := q.notices, marks := q.marks, line := q.line } := by
        rcases Port.notifyIf_cases (s.advance r).port (p.feeder == .jammed) .potEvent with h | h <;>
          simp only [q, h] <;> rfl
      exact congrArg₂ (fun a b => ({ s.advance r with pot := a, port := b } : State)) shape port
  · simp [exec, execShotHistoryExpiry, hh, hn, shotAge, elapsed]

end Sys2Proof.Machine
end


section
/-! The alarm points' commands: O43. -/

namespace Sys2Proof.Machine

open Sys2Proof.Config

theorem Point.active_iff (p : Point) : p.active = true ↔ p.ann = .activeUnack ∨ p.ann = .activeAck := by
  simp [Point.active]

theorem Point.active_eq_false_iff (p : Point) : p.active = false ↔ p.ann = .normal ∨ p.ann = .clearedUnack := by
  unfold Point.active; cases p.ann <;> decide

/-- Table 8-3: the points that have both severities. -/
theorem escalates_iff (k : Idx8) : (pointKind k).escalates = true ↔ k = 0 ∨ k = 1 ∨ k = 7 := by
  fin_cases k <;> decide

theorem atWarning_iff (s : State) (k : Idx8) : atWarning s k = true ↔ AtWarning s k := by
  simp [atWarning, AtWarning, Point.active_iff, escalates_iff, and_assoc]

/-- R147: the activation value is the reading of the point's own sample. -/
theorem activationValue_word (s : State) (k : Idx8) : ActivationWord s k (activationValue s.extr (pointKind k)) := by
  fin_cases k <;> simp +contextual [ActivationWord, activationValue, pointKind, Extr.duct, wordOf]

theorem activationDue_iff (s : State) (k : Idx8) :
    activationDue s k = true ↔ (s.extr.points.get k).active = false ∧ (AlarmDwellMet s k ∨ WarnDwellMet s k) := by
  simp [activationDue, alarmMet_iff, warnMet_iff]

theorem riseDue_iff (s : State) (k : Idx8) : riseDue s k = true ↔ AtWarning s k ∧ AlarmDwellMet s k := by
  simp [riseDue, atWarning_iff, alarmMet_iff]

theorem escalationDue_iff (s : State) (k : Idx8) :
    escalationDue s k = true ↔ s.extr.sampled = true ∧ AtWarning s k ∧ s.loaded = true ∧
      4 * s.ws.escalation ≤ (s.extr.points.get k).escCount ∧ ¬ ClearDwellMet s k := by
  have clear : clearDue s k = false ↔ (s.extr.points.get k).active = false ∨ ¬ ClearDwellMet s k := by
    rw [← Bool.not_eq_true, clearDue_iff, not_and_or, Bool.not_eq_true]
  have active : AtWarning s k → (s.extr.points.get k).active ≠ false := fun h => by
    simp [(Point.active_iff _).mpr h.1]
  simp only [escalationDue, Bool.and_eq_true, atWarning_iff, decide_eq_true_eq, Bool.not_eq_true', clear, and_assoc]
  constructor
  · rintro ⟨sampled, warn, loaded, count, h⟩
    exact ⟨sampled, warn, loaded, count, h.resolve_left (active warn)⟩
  · rintro ⟨sampled, warn, loaded, count, h⟩
    exact ⟨sampled, warn, loaded, count, .inr h⟩

/-- The fans stand as before a change of a point. -/
theorem FansFormed.of_eq {s t : State} (h : FansFormed s) (hf : t.extr.fan = s.extr.fan) (hm : t.modes.mode = s.modes.mode)
    (hr : t.modes.runOn = s.modes.runOn) : FansFormed t :=
  ⟨by rw [hf, hm, hr]; exact h.fan, by rw [hm, hr]; exact h.runOn⟩

/-- A point that changes, with the consequences: the fans stand where they are formed, so no other point changes. -/
theorem changePoint_settles {s : State} (hf : FansFormed s) (k : Idx8) (f : Point → Point) :
    (s.changePoint k f).settle.extr.points = s.extr.points.set k (f (s.extr.points.get k)) ∧
      Pending (s.changePoint k f).settle .alarmChanged ∧ Keeps s (s.changePoint k f).settle := by
  have fans : FansFormed (s.changePoint k f) := hf.of_eq rfl rfl rfl
  have frame : Kept s (s.changePoint k f) := Kept.of_core rfl rfl
  exact ⟨((follows_settle _).fans fans).2.2, settle_pending (notify_pending _ .alarmChanged),
    (frame.trans (kept_settle _)).keeps⟩

/-- The same for a point that clears. -/
theorem clearPoint_settles {s : State} (hf : FansFormed s) (k : Idx8) :
    (s.clearPoint k).settle.extr.points = s.extr.points.set k ((s.extr.points.get k).clear s.clock) ∧
      Pending (s.clearPoint k).settle .alarmChanged ∧
      Keeps { s with extr := { s.extr with vapourCount := if k = 7 then 0 else s.extr.vapourCount } }
        (s.clearPoint k).settle := by
  have fans : FansFormed (s.clearPoint k) := hf.of_eq rfl rfl rfl
  have frame :
      Kept { s with extr := { s.extr with vapourCount := if k = 7 then 0 else s.extr.vapourCount } } (s.clearPoint k) :=
    Kept.of_core rfl rfl
  exact ⟨((follows_settle _).fans fans).2.2, settle_pending (notify_pending _ .alarmChanged),
    (frame.trans (kept_settle _)).keeps⟩

/-- Settles O43: each step by its dwell, and without it nothing. -/
theorem alarmPointsTakeTheirSteps : Obligations.AlarmPointsTakeTheirSteps := by
  rintro s k p hf rfl
  refine ⟨fun h1 h2 => ⟨fun hd sev ha hw => ?_, fun ha hw => ?_⟩, fun ha => ?_,
    fun hw => ⟨fun ha => ?_, fun hs hl hc hn => ?_⟩, fun h => ?_, fun h => ?_, fun ha hc => ?_, fun h => ?_⟩
  · have quiet : (s.extr.points.get k).active = false := by
      rw [← Bool.not_eq_true, Point.active_iff]; exact not_or.mpr ⟨h1, h2⟩
    have due := (activationDue_iff s k).mpr ⟨quiet, hd⟩
    have severity : (if alarmMet s k then Severity.alarm else .warning) = sev := by
      by_cases h : alarmMet s k = true
      · rw [if_pos h, ha ((alarmMet_iff s k).mp h)]
      · rw [if_neg h, hw fun h' => h ((alarmMet_iff s k).mpr h')]
    obtain ⟨points, pending, keeps⟩ := changePoint_settles hf k fun p =>
      p.activate sev (activationValue s.extr (pointKind k)) s.clock
    refine ⟨_, activationValue s.extr (pointKind k), ?_, activationValue_word s k, points, pending, keeps⟩
    simp [exec, execAlarmActivation, due, State.activatePoint, severity]
  · have due : activationDue s k = false := by
      rw [← Bool.not_eq_true, activationDue_iff]; exact fun h => h.2.elim ha hw
    simp [exec, execAlarmActivation, due]
  · have due : activationDue s k = false := by
      rw [← Bool.not_eq_true, activationDue_iff, Point.active_eq_false_iff]
      rintro ⟨h, -⟩
      rcases ha with ha | ha <;> simp [ha] at h
    simp [exec, execAlarmActivation, due]
  · obtain ⟨points, pending, keeps⟩ := changePoint_settles hf k fun p => p.rise s.clock
    exact ⟨_, by simp [exec, execAlarmSeverityRise, (riseDue_iff s k).mpr ⟨hw, ha⟩, State.risePoint], points, pending, keeps⟩
  · obtain ⟨points, pending, keeps⟩ := changePoint_settles hf k fun p => p.rise s.clock
    exact ⟨_, by simp [exec, execAlarmEscalation, (escalationDue_iff s k).mpr ⟨hs, hw, hl, hc, hn⟩, State.risePoint], points,
      pending, keeps⟩
  · have due : riseDue s k = false := by
      rw [← Bool.not_eq_true, riseDue_iff]; exact fun ⟨hw, ha⟩ => h.elim (· hw) (· ha)
    simp [exec, execAlarmSeverityRise, due]
  · have due : escalationDue s k = false := by
      rw [← Bool.not_eq_true, escalationDue_iff]
      rintro ⟨sampled, warn, loaded, count, clear⟩
      rcases h with h | h | h | h | h
      · exact h warn
      · simp [h] at sampled
      · simp [h] at loaded
      · omega
      · exact clear h
    simp [exec, execAlarmEscalation, due]
  · obtain ⟨points, pending, keeps⟩ := clearPoint_settles hf k
    exact ⟨_, by simp [exec, execAlarmClear, (clearDue_iff s k).mpr ⟨(Point.active_iff _).mpr ha, hc⟩], points, pending, keeps⟩
  · have due : clearDue s k = false := by
      rw [← Bool.not_eq_true, clearDue_iff]
      rintro ⟨active, met⟩
      rcases h with h | h
      · rw [(Point.active_eq_false_iff _).mpr h] at active; simp at active
      · exact h met
    simp [exec, execAlarmClear, due]

end Sys2Proof.Machine
end


section
/-! The end sensor: O47. -/

namespace Sys2Proof.Machine

open Sys2Proof.Config

/-- With no record EXITING the exit candidate is the oldest record (R15). -/
theorem exitCandidate_of_none_exiting {rs : List Record} (h : ∀ r ∈ rs, r.stage ≠ .exiting) : exitCandidate rs = rs.head? := by
  cases rs with
  | nil => rfl
  | cons r rest => simp [exitCandidate, h r (by simp)]

/-- R158: the first condition, as the model tests it. -/
theorem backPressure_iff (s : State) : backPressure s = true ↔ NextBoardNear s := by
  refine ⟨fun h => ?_, NextBoardNear.backPressure⟩
  unfold backPressure at h
  rw [Bool.and_eq_true] at h
  obtain ⟨stages, near⟩ := h
  have stages : ∀ r ∈ s.track.records, r.stage ≠ .exiting := by simpa [anyExiting] using stages
  rw [exitCandidate_of_none_exiting stages] at near
  cases hr : s.track.records.head? with
  | none => simp [hr] at near
  | some r => exact ⟨stages, r, hr, by simpa [hr, relLead] using near⟩

theorem backPressure_congr {s t : State} (ht : t.track = s.track) (hp : t.port.setup = s.port.setup) :
    backPressure t = backPressure s := by
  unfold backPressure relLead State.ws; rw [ht, hp]

/-- The stop request that a re-forming leaves, where the request of the change itself stands in `s`. -/
theorem stopFormed_of_taken {s : State} {st : OutfeedState} (hs : s.outfeed.state = .holding)
    (ht : s.outfeed.stop = (s.outfeed.stop || backPressure s || s.track.exitEye.accepted))
    (h : st = .holding ∨ st = .delivering) : stopFormed s st = s.outfeed.stop := by
  rw [stopFormed, ht]
  rcases h with rfl | rfl <;> simp [nextBoardNear, heldTail, hs] <;>
    cases s.outfeed.stop <;> cases backPressure s <;> cases s.track.exitEye.accepted <;> simp_all

theorem handshake_holding (p r : Bool) : handshake .holding p r = .holding ∨ handshake .holding p r = .delivering := by
  cases p <;> cases r <;> simp [handshake]

/-- A sensor that is accepted blocked takes EMPTY and LOADING to HOLDING, with both tests of the stop request (R154, R158). -/
theorem acceptSensor_blocked {s : State} (ha : s.outfeed.sensor.accepted = false)
    (hs : s.outfeed.state = .empty ∨ s.outfeed.state = .loading) :
    s.acceptSensor =
      { s with
        outfeed :=
          { s.outfeed with
            sensor := s.outfeed.sensor.accept, state := .holding
            stop := s.outfeed.stop || backPressure s || s.track.exitEye.accepted } } := by
  rcases hs with hs | hs <;>
    simp [State.acceptSensor, State.outfeedSensor, ha, hs, State.testStop, nextBoardNear, heldTail] <;> rfl

/-- A sensor that is accepted clear takes HOLDING and DELIVERING to EMPTY, or on to LOADING (R154). -/
theorem acceptSensor_cleared {s : State} (ha : s.outfeed.sensor.accepted = true)
    (hs : s.outfeed.state = .holding ∨ s.outfeed.state = .delivering) :
    s.acceptSensor =
      { s with
        outfeed :=
          { s.outfeed with
            sensor := s.outfeed.sensor.accept
            state := if s.track.exitEye.accepted then .loading else .empty
            stop := false } } := by
  rcases hs with hs | hs <;> simp [State.acceptSensor, State.outfeedSensor, ha, hs, State.enterEmpty]

theorem kept_acceptSensor (s : State) :
    Kept { s with outfeed := { s.outfeed with sensor := s.outfeed.sensor.accept } } s.acceptSensor := by
  unfold State.acceptSensor State.outfeedSensor
  dsimp only
  split <;> exact Kept.of_core rfl rfl

/-- Settles O47: the pending change, then the two changes of the accepted state. -/
theorem endSensorQualifiesAndMovesTheOutfeed : Obligations.EndSensorQualifiesAndMovesTheOutfeed := by
  intro s
  refine ⟨fun b => ?_, fun p n hp hn => ?_⟩
  · by_cases hb : b = s.outfeed.sensor.accepted <;> simp [exec, execEndSensorRawChange, Qualifier.raw, hb]
  · let a := s.advance n
    have run : exec .endSensorEvent s = .next a.acceptSensor.settle := by
      subst hn; simp [exec, execEndSensorEvent, hp, a, sensorTime, elapsed]
    have kept : Kept { a with outfeed := { a.outfeed with sensor := a.outfeed.sensor.accept } } a.acceptSensor.settle :=
      (kept_acceptSensor a).trans (kept_settle _)
    obtain ⟨state, stop⟩ := settle_outfeed a.acceptSensor
    have near : backPressure a = backPressure s := backPressure_congr rfl rfl
    refine ⟨a.acceptSensor.settle, run, fun ha hs => ?_, fun ha hs => ?_, kept.keeps.clock, kept.keeps⟩
    · have taken := acceptSensor_blocked (s := a) ha hs
      have holding : a.acceptSensor.outfeed.state = .holding := by rw [taken]
      have moved : a.acceptSensor.settle.outfeed.state = .holding ∨ a.acceptSensor.settle.outfeed.state = .delivering := by
        rw [state, holding]; exact handshake_holding _ _
      refine ⟨moved, ?_⟩
      rw [stop, stopFormed_of_taken holding ?_ moved]
      · rw [taken]; simp [a, near, backPressure_iff, or_comm, or_left_comm]
      · have same : backPressure a.acceptSensor = backPressure a := backPressure_congr (by rw [taken]) (by rw [taken])
        rw [same, taken]
        cases a.outfeed.stop <;> cases backPressure a <;> cases a.track.exitEye.accepted <;> rfl
    · have taken := acceptSensor_cleared (s := a) ha hs
      have same : backPressure a.acceptSensor = backPressure a := backPressure_congr (by rw [taken]) (by rw [taken])
      have cleared : a.acceptSensor.settle.outfeed.state = if s.track.exitEye.accepted then .loading else .empty := by
        have arrived : a.acceptSensor.outfeed.state = if s.track.exitEye.accepted then .loading else .empty := by rw [taken]; rfl
        rw [state, arrived]; split <;> rfl
      refine ⟨cleared, ?_⟩
      rw [stop, cleared, stopFormed, nextBoardNear, same, near, taken]
      cases he : s.track.exitEye.accepted <;> simp [a, he, heldTail, backPressure_iff]

end Sys2Proof.Machine
end


section
/-! The mode controller's requests: O51, O52. -/

namespace Sys2Proof.Machine

open Sys2Proof.Config

/-! ## A standing changeover (R56) -/

theorem gateTransition_class (s : State) :
    s.gateTransition.gate.lineClass = s.gate.lineClass ∧ s.gateTransition.gate.phase = s.gate.phase ∧
      s.gateTransition.gate.target = s.gate.target ∧ s.gateTransition.gate.width = s.gate.width := by
  unfold State.gateTransition State.openGate State.closeGate State.lateGate
  split
  · split
    · split <;> exact ⟨rfl, rfl, rfl, rfl⟩
    · exact ⟨rfl, rfl, rfl, rfl⟩
  · split
    · exact ⟨rfl, rfl, rfl, rfl⟩
    · split <;> exact ⟨rfl, rfl, rfl, rfl⟩
  · split <;> exact ⟨rfl, rfl, rfl, rfl⟩
  · exact ⟨rfl, rfl, rfl, rfl⟩

/-- R56: no changeover runs in a mode that has none. -/
theorem changeover_of_still {s : State} (h : s.modes.mode.changesOver = false) (n : Nat) : s.changeover n = s := by
  cases n with
  | zero => rfl
  | succ n => simp [State.changeover, State.phaseStep, h]

/-- The phase and its target in a mode that has no changeover. -/
theorem gateEval_phase {s : State} (h : s.modes.mode.changesOver = false) :
    s.gateEval.gate.phase = s.gate.phase ∧ s.gateEval.gate.target = s.gate.target := by
  have still : s.reformDocket.takeClass.changeover 8 = s.reformDocket.takeClass :=
    changeover_of_still (by simpa using h) 8
  obtain ⟨-, phase, target, -⟩ := gateTransition_class (s.reformDocket.takeClass.takeHolds)
  unfold State.gateEval
  rw [still, phase, target]
  simp [State.takeHolds, State.takeClass]

theorem gateStage_phase {s : State} (h : s.modes.mode.changesOver = false) :
    s.gateStage.gate.phase = s.gate.phase ∧ s.gateStage.gate.target = s.gate.target := by
  have still := changeover_of_still h 8
  rcases s.gateStage_cases with e | e | e | e <;> rw [e] <;> try rw [still]
  · exact ⟨rfl, rfl⟩
  · exact gateEval_phase h
  · exact ⟨rfl, rfl⟩
  · exact gateEval_phase h

/-- A re-forming moves the phase only with the mode. -/
theorem reform_phase (s : State) :
    s.reform.gate.phase = s.modeStage.gate.phase ∧ s.reform.gate.target = s.modeStage.gate.target ∧
      s.reform.gate.lineClass = s.modeStage.gate.lineClass := by
  simp [State.reform, State.reformMotion, State.reformWaits, State.reformWidth]

/-- The phase and the target after the consequences of a step, in a mode that no condition leaves and that has no changeover. -/
theorem settle_phase {s : State} (h : s.modes.mode.changesOver = false) (hc : s.modes.mode ≠ .cooldown) :
    s.settle.gate.phase = s.gate.phase ∧ s.settle.gate.target = s.gate.target := by
  have pass : ∀ u : State, u.modeStage = u → u.modes.mode.changesOver = false →
      u.reform.gate.phase = u.gate.phase ∧ u.reform.gate.target = u.gate.target ∧
        u.pass.gate.phase = u.gate.phase ∧ u.pass.gate.target = u.gate.target := fun u still hm => by
    obtain ⟨phase, target, -⟩ := reform_phase u
    rw [still] at phase target
    have moves : u.reform.modes.mode.changesOver = false := by
      rw [(mode_of_modes (reform_modes u)).1, still]; exact hm
    obtain ⟨phase', target'⟩ := gateStage_phase moves
    exact ⟨phase, target, phase'.trans phase, target'.trans target⟩
  have mode : ∀ u : State, u.modeStage = u → u.pass.modes.mode = u.modes.mode := fun u still => by
    rw [(mode_of_modes (pass_modes u)).1, still]
  have still : s.modeStage = s :=
    modeStage_of_still (by simp [cooldownDone, hc])
      (by simp only [hostLostEconomy]; cases hm : s.modes.mode <;> simp_all [Mode.changesOver])
  have m₁ := mode s still
  have m₂ := mode s.pass pass_still
  obtain ⟨-, -, p₁, t₁⟩ := pass s still h
  obtain ⟨-, -, p₂, t₂⟩ := pass s.pass pass_still (by rw [m₁]; exact h)
  obtain ⟨p₃, t₃, -, -⟩ := pass s.pass.pass pass_still (by rw [m₂, m₁]; exact h)
  exact ⟨p₃.trans (p₂.trans p₁), t₃.trans (t₂.trans t₁)⟩

/-! ## START and SHUTDOWN (R164, R169) -/

theorem Feeder.atMode_warmup (f : Feeder) : f.atMode .warmup = f := by cases f <;> rfl

theorem settle_runOn (s : State) : s.settle.modes.runOn = s.modeStage.modes.runOn := (mode_of_modes (settle_modes s)).2.2.2

/-- R169: the entry to COOLDOWN, and on to OFF where the machine is empty. -/
theorem enterCooldown_settles {s : State} (h : s.modes.mode ≠ .cooldown) :
    (s.enterMode .cooldown).settle.modes.mode =
        (if s.track.records = [] ∧ s.outfeed.state = .empty then .off else .cooldown) ∧
      ((s.enterMode .cooldown).settle.modes.mode = .off →
        (s.enterMode .cooldown).settle.modes.runOn = some (1000 * s.ws.fanRunOn)) ∧
      Pending (s.enterMode .cooldown).settle .modeChanged ∧ Keeps s (s.enterMode .cooldown).settle := by
  have mode : (s.enterMode .cooldown).modes.mode = .cooldown := enterMode_mode s _
  have done : cooldownDone (s.enterMode .cooldown) = true ↔ s.track.records = [] ∧ s.outfeed.state = .empty := by
    simp [cooldownDone, drained, mode]
  have setup : (s.enterMode .cooldown).ws = s.ws := by simp [State.ws, enterMode_of_ne h, Port.notify]
  refine ⟨?_, fun hm => ?_, settle_pending (enterMode_pending h), ((kept_enterMode s _).trans (kept_settle _)).keeps⟩
  · rw [settle_mode, State.modeStage]
    by_cases hd : cooldownDone (s.enterMode .cooldown) = true
    · rw [if_pos hd, if_pos (done.mp hd), enterMode_mode]
    · rw [if_neg hd, if_neg (fun e => hd (done.mpr e))]
      simp [hostLostEconomy, mode]
  · rw [settle_mode, State.modeStage] at hm
    rw [settle_runOn, State.modeStage]
    by_cases hd : cooldownDone (s.enterMode .cooldown) = true
    · rw [if_pos hd, enterMode_of_ne (by rw [mode]; decide)]
      simp [runOnAt, setup]
    · rw [if_neg hd] at hm
      simp [hostLostEconomy, mode] at hm

/-- The fans run in every mode but OFF (R137). -/
theorem settle_fan_on {s : State} (h : s.settle.modes.mode ≠ .off) : s.settle.extr.fan = true := by
  rw [(settle_fans s).2]
  simp [fanCommand, ← settle_mode, h]

/-- Settles O51: the cases of the two requests in their order. -/
theorem startAndShutdownChangeTheMode : Obligations.StartAndShutdownChangeTheMode := by
  intro s w ws
  refine ⟨fun hp hw => ?_, fun hp hw => ?_⟩
  · have run : exec (.start ws) s = .next ((decideStart w).2.answer (decideStart w).1) := by
      rw [hw]; exact congrArg Host.Outcome.next (request_of_posts hp decideStart)
    have modes : w.modes = s.modes := by rw [hw]; rfl
    have loaded : w.loaded = s.loaded := by rw [hw]; rfl
    have pins : w.pins = s.pins := by rw [hw]; rfl
    refine ⟨fun hm => ?_, fun hm hl => ?_, fun hm hl hc => ?_, fun hm hl he hc => ?_⟩
    · rw [run]; simp [decideStart, modes, hm, refuse]
    · rw [run]; simp [decideStart, modes, hm, loaded, hl, refuse]
    · rw [run]
      rcases hc with hc | hc <;> simp [decideStart, modes, hm, loaded, hl, pins, hc, refuse]
    · let b : State := { w with gate := { w.gate with lineClass := w.nextClass } }
      have off : b.modes.mode ≠ .warmup := by simp [b, modes, hm]
      have shape : b.enterMode .warmup =
          { w with
            gate := { s.gate with lineClass := s.nextBoard.map fun b => b.recipe.cls }
            modes := { s.modes with mode := .warmup, runOn := none, wakeArm := none }
            port := { w.port with notices := w.port.notices ||| 4, marks := w.port.marks &&& ~~~4 } } := by
        rw [enterMode_of_ne off, Feeder.atMode_warmup]
        subst hw; rfl
      obtain ⟨mode, runOn, -, pending, kept⟩ := enterMode_settles off (by decide) (by decide)
      have frame : Kept w b := Kept.of_core rfl rfl
      refine ⟨b.enterMode .warmup, shape, ?_, mode, runOn, settle_fan_on (by rw [mode]; decide), pending,
        (frame.trans kept).keeps⟩
      rw [run]; simp [decideStart, modes, hm, loaded, hl, pins, he, hc, accept, b]
  · have run : exec (.shutdown ws) s = .next ((decideShutdown w).2.answer (decideShutdown w).1) := by
      rw [hw]; exact congrArg Host.Outcome.next (request_of_posts hp decideShutdown)
    have modes : w.modes = s.modes := by rw [hw]; rfl
    have lists : w.track = s.track ∧ w.outfeed = s.outfeed ∧ w.ws = s.ws := by rw [hw]; exact ⟨rfl, rfl, rfl⟩
    obtain ⟨track, outfeed, setup⟩ := lists
    refine ⟨fun hm => ?_, fun hm => ?_, fun hm => ?_⟩
    · rw [run]; rcases hm with hm | hm <;> simp [decideShutdown, modes, hm, refuse]
    · obtain ⟨mode, runOn, pending, keeps⟩ := enterCooldown_settles (s := w)
        (by rw [modes]; rcases hm with hm | hm | hm <;> simp [hm])
      rw [track, outfeed] at mode
      rw [setup] at runOn
      refine ⟨(w.enterMode .cooldown).settle, ?_, mode, runOn, pending, keeps⟩
      rw [run]; rcases hm with hm | hm | hm <;> simp [decideShutdown, modes, hm, accept]
    · obtain ⟨mode, runOn, -, pending, kept⟩ :=
        enterMode_settles (s := w) (m := .off) (by simp [modes, hm]) (by decide) (by decide)
      refine ⟨(w.enterMode .off).settle, ?_, mode, by rw [runOn, runOnAt, setup], pending, kept.keeps⟩
      rw [run]; simp [decideShutdown, modes, hm, accept]

/-! ## STOP, ECONOMY and WAKE (R171, R167, R168) -/

/-- Settles O52: the cases of the three requests in their order. -/
theorem stopEconomyAndWakeChangeTheMode : Obligations.StopEconomyAndWakeChangeTheMode := by
  intro s w ws
  refine ⟨fun hp hw => ?_, fun hp hw => ?_, fun hp hw => ?_⟩
  · have run : exec (.stop ws) s = .next ((decideStop w).2.answer (decideStop w).1) := by
      rw [hw]; exact congrArg Host.Outcome.next (request_of_posts hp decideStop)
    have modes : w.modes = s.modes := by rw [hw]; rfl
    refine ⟨fun hm => ?_, fun hm => ?_⟩
    · rw [run]; simp [decideStop, modes, hm, refuse]
    · obtain ⟨halts, keeps, -⟩ := raise_settles (s := w) (a := w) .stopRequest rfl
      refine ⟨(w.raiseCause .stopRequest).settle, ?_, halts, keeps⟩
      rw [run]; simp [decideStop, modes, hm, accept]
  · have run : exec (.economy ws) s = .next ((decideEconomy w).2.answer (decideEconomy w).1) := by
      rw [hw]; exact congrArg Host.Outcome.next (request_of_posts hp decideEconomy)
    have modes : w.modes = s.modes := by rw [hw]; rfl
    have records : w.track.records = s.track.records := by rw [hw]; rfl
    have pins : w.pins = s.pins := by rw [hw]; rfl
    refine ⟨fun h1 h2 => ?_, fun hm hr => ?_, fun hm hr => ?_⟩
    · rw [run]; simp [decideEconomy, modes, h1, h2, refuse]
    · rw [run]; simp [decideEconomy, modes, hm, records, hr, refuse]
    · have ne : w.modes.mode ≠ .economy := by rw [modes]; rcases hm with hm | hm <;> simp [hm]
      obtain ⟨mode, -, wakeArm, pending, kept⟩ := enterMode_settles ne (by decide) (by decide)
      have entered : (w.enterMode .economy).modes.mode = .economy := enterMode_mode w _
      obtain ⟨phase, target⟩ := settle_phase (s := w.enterMode .economy) (by rw [entered]; rfl) (by rw [entered]; decide)
      refine ⟨(w.enterMode .economy).settle, ?_, mode, by rw [wakeArm, if_pos rfl, pins], ?_, ?_, pending, kept.keeps⟩
      · rw [run]; simp [decideEconomy, modes, hm, records, hr, accept]
      · rw [phase, enterMode_of_ne ne]; rfl
      · rw [target, enterMode_of_ne ne]; rfl
  · have run : exec (.wake ws) s = .next ((decideWake w).2.answer (decideWake w).1) := by
      rw [hw]; exact congrArg Host.Outcome.next (request_of_posts hp decideWake)
    have modes : w.modes = s.modes := by rw [hw]; rfl
    refine ⟨fun hm => ?_, fun hm => ?_⟩
    · rw [run]; simp [decideWake, modes, hm, refuse]
    · obtain ⟨mode, -, wakeArm, pending, kept⟩ :=
        enterMode_settles (s := w) (m := .warmup) (by simp [modes, hm]) (by decide) (by decide)
      refine ⟨(w.enterMode .warmup).settle, ?_, mode, wakeArm, pending, kept.keeps⟩
      rw [run]; simp [decideWake, modes, hm, accept]

end Sys2Proof.Machine
end


section
/-! The width drive: O45. -/

namespace Sys2Proof.Machine

open Sys2Proof.Config

/-- The drive goes to FAULT, with the consequences: it is no motion, so nothing moves it on (R58 to R60). -/
theorem faultWidth_settles {s a : State} (ha : a.modes = s.modes) :
    WidthFaulted s a.faultWidth.settle a.gate.width.target ∧
      Keeps (a.causesOf a.faultWidth.settle) a.faultWidth.settle := by
  let b : State := { a with gate := { a.gate with width := { a.gate.width with state := .fault, pos := 0, travel := 0 } } }
  obtain ⟨halts, -, -⟩ := raise_settles (s := s) (a := b) .widthDrive ha
  have width : (b.raiseCause .widthDrive).gate.width = b.gate.width := by
    unfold State.raiseCause State.enterMode
    dsimp only
    split
    · rfl
    · split
      · split <;> rfl
      · rfl
  have stands : (b.raiseCause .widthDrive).settle.gate.width = b.gate.width := by
    rw [(follows_settle _).width (by rw [width]; rfl), width]
  have frame : Kept (a.causesOf (b.raiseCause .widthDrive).settle) (b.causesOf (b.raiseCause .widthDrive).settle) :=
    Kept.of_core rfl rfl
  exact ⟨⟨halts, stands⟩, (frame.trans (kept_raise_settle b .widthDrive)).keeps⟩

theorem limitDue_iff (s : State) : limitDue s = true ↔
    (s.gate.width.outward = some true ∧ s.pins.limitMax = true) ∨
      (s.gate.width.outward = some false ∧ s.pins.limitMin = true) := by
  unfold limitDue
  split <;> simp_all

theorem widthMayMove_iff (s : State) : widthMayMove s = true ↔
    (s.modes.mode = .warmup ∨ s.modes.mode = .production) ∧ s.track.records = [] ∧ s.outfeed.state = .empty := by
  have mode : s.modes.mode.changesOver = true ↔ s.modes.mode = .warmup ∨ s.modes.mode = .production := by
    cases s.modes.mode <;> decide
  simp [widthMayMove, mode, and_assoc]

/-- WIDTH_MOTION_START where a motion is due (R57). -/
theorem exec_widthMotionStart {s : State} (h : motionDue s = true) :
    exec .widthMotionStart s = .next s.beginMotion.superviseLimit.settle := by
  simp [exec, execWidthMotionStart, h]

/-- A motion that begins towards a clear end. -/
theorem beginMotion_clear {s : State} (h : motionDue s = true) (hl : limitDue s.beginMotion = false) :
    exec .widthMotionStart s = .next s.beginMotion.settle := by
  rw [exec_widthMotionStart h, State.superviseLimit, hl]; rfl

/-- A motion that begins towards an active limit switch. -/
theorem beginMotion_limited {s : State} (h : motionDue s = true) (hl : limitDue s.beginMotion = true) :
    ∃ t, exec .widthMotionStart s = .next t ∧ WidthFaulted s t s.beginMotion.gate.width.target ∧ Keeps (s.causesOf t) t := by
  obtain ⟨faulted, keeps⟩ := faultWidth_settles (s := s) (a := s.beginMotion) rfl
  refine ⟨s.beginMotion.faultWidth.settle, ?_, faulted, ?_⟩
  · rw [exec_widthMotionStart h, State.superviseLimit, hl]; rfl
  · have frame : Kept (s.causesOf s.beginMotion.faultWidth.settle)
        (s.beginMotion.causesOf s.beginMotion.faultWidth.settle) := Kept.of_core rfl rfl
    let b : State :=
      { s.beginMotion with
        gate :=
          { s.beginMotion.gate with width := { s.beginMotion.gate.width with state := .fault, pos := 0, travel := 0 } } }
    have fault : Kept (s.beginMotion.causesOf s.beginMotion.faultWidth.settle) (b.causesOf s.beginMotion.faultWidth.settle) :=
      Kept.of_core rfl rfl
    exact (frame.trans (fault.trans (kept_raise_settle b .widthDrive))).keeps

/-- Homing begins outward exactly where the home switch reads active (R58). -/
theorem beginMotion_unreferenced {s : State} (h : s.gate.width.state = .unreferenced) :
    s.beginMotion =
      { s with gate := { s.gate with width := { s.gate.width with state := .homing s.pins.homeActive, travel := 0 } } } := by
  simp [State.beginMotion, Width.begin, h]

/-- A move begins to the named width (R59). -/
theorem beginMotion_idle {s : State} {w : Nat} (h : s.gate.width.state = .idle) (hw : namedWidth s = some w)
    (hp : s.gate.width.pos ≠ w) :
    s.beginMotion = { s with gate := { s.gate with width := { s.gate.width with state := .moving, target := w } } } := by
  simp [State.beginMotion, Width.begin, h, hw, hp]

theorem motionDue_of {s : State} (hm : s.modes.mode = .warmup ∨ s.modes.mode = .production) (hr : s.track.records = [])
    (ho : s.outfeed.state = .empty) (hb : s.beginMotion.gate.width.state ≠ s.gate.width.state) : motionDue s = true := by
  have moves := (widthMayMove_iff s).mpr ⟨hm, hr, ho⟩
  have begins : s.gate.width.begin s.pins.homeActive (namedWidth s) ≠ s.gate.width := fun e =>
    hb (congrArg Width.state e)
  simp [motionDue, moves, begins]

/-- A drive that stands is left by the consequences of a step. -/
theorem settle_width {s : State} (h : s.gate.width.inMotion = false) : s.settle.gate.width = s.gate.width :=
  (follows_settle s).width h

/-- Settles O45, command by command. -/
theorem widthDriveHomesMovesAndFaults : Obligations.WidthDriveHomesMovesAndFaults := by
  intro s
  refine ⟨fun hs hm hr ho h1 h2 => ?_, fun hs hm hr ho hl => ?_, fun o hs => ?_, fun hs hl => ?_, fun a ha => ⟨fun hs h1 h2 => ?_,
    fun hl => ?_⟩, fun hs => ?_, fun w hs hw hp hm hr ho => ⟨fun h1 h2 => ?_, fun hl => ?_⟩, fun hs hp => ?_, fun hs hp => ?_,
    fun h => ?_, fun e => ?_⟩
  · have begins := beginMotion_unreferenced hs
    have due : motionDue s = true := motionDue_of hm hr ho (by rw [begins, hs]; nofun)
    refine ⟨s.beginMotion, begins, beginMotion_clear due ?_, (kept_settle _).keeps⟩
    rw [Bool.eq_false_iff, ne_eq, limitDue_iff, begins]
    cases hh : s.pins.homeActive <;> simp_all [Width.outward]
  · have begins := beginMotion_unreferenced hs
    have due : motionDue s = true := motionDue_of hm hr ho (by rw [begins, hs]; nofun)
    have limited : limitDue s.beginMotion = true := by
      rw [limitDue_iff, begins]
      rcases hl with ⟨h1, h2⟩ | ⟨h1, h2⟩ <;> simp [Width.outward, h1, h2]
    obtain ⟨t, run, faulted, keeps⟩ := beginMotion_limited due limited
    rw [begins] at faulted
    exact ⟨t, run, faulted, keeps⟩
  · simp [exec, execWidthStepperStep, Width.step, hs]
  · simp [exec, execHomeSwitchInactive, Width.turnInward, hs, limitDue, Width.outward, hl]
  · subst ha
    have clear : limitDue { s with pins := { s.pins with homeActive := false } } = false := by
      rw [Bool.eq_false_iff, ne_eq, limitDue_iff]
      rintro (⟨ho, hl⟩ | ⟨ho, hl⟩)
      · simp_all
      · simp_all
    simp [exec, execHomeSwitchInactive, Width.turnInward, hs, clear]
  · let u : State :=
      { s with
        pins := { s.pins with homeActive := false }, gate := { s.gate with width := s.gate.width.turnInward } }
    have target : u.gate.width.target = s.gate.width.target := by
      simp only [u, Width.turnInward]; split <;> rfl
    have due : limitDue u = true := by
      rw [limitDue_iff]
      by_cases ht : s.gate.width.state = .homing true
      · rcases hl with ⟨-, hl⟩ | ⟨hn, -⟩
        · exact .inr ⟨by simp [u, Width.turnInward, ht, Width.outward], hl⟩
        · exact absurd ht hn
      · have stays : u.gate.width = s.gate.width := by simp [u, Width.turnInward, ht]
        rw [stays]
        rcases hl with ⟨h1, hl⟩ | ⟨-, h1, hl⟩
        · exact .inr ⟨h1.resolve_left ht, hl⟩
        · exact .inl ⟨h1, hl⟩
    obtain ⟨faulted, -⟩ := faultWidth_settles (s := s) (a := u) rfl
    rw [target] at faulted
    let b : State := { u with gate := { u.gate with width := { u.gate.width with state := .fault, pos := 0, travel := 0 } } }
    have frame : Kept (a.causesOf u.faultWidth.settle) (b.causesOf u.faultWidth.settle) := by
      subst ha; exact Kept.of_core rfl rfl
    refine ⟨u.faultWidth.settle, ?_, faulted, (frame.trans (kept_raise_settle b .widthDrive)).keeps⟩
    exact congrArg Host.Outcome.next (if_pos due)
  · let u : State :=
      { s with pins := { s.pins with homeActive := true }, gate := { s.gate with width := s.gate.width.home } }
    have frame : Kept { s with pins := { s.pins with homeActive := true } } u := Kept.of_core rfl rfl
    exact ⟨u.settle, by simp [exec, execHomingComplete, homingDone, hs, u], settle_width rfl,
      (frame.trans (kept_settle u)).keeps⟩
  · have begins := beginMotion_idle hs hw hp
    have due : motionDue s = true := motionDue_of hm hr ho (by rw [begins, hs]; nofun)
    refine ⟨s.beginMotion, begins, beginMotion_clear due ?_, (kept_settle _).keeps⟩
    rw [Bool.eq_false_iff, ne_eq, limitDue_iff, begins]
    rintro (⟨ho, hl⟩ | ⟨ho, hl⟩)
    · simp [Width.outward, hp] at ho; simp_all
    · simp [Width.outward, hp] at ho
      have : w < s.gate.width.pos := by omega
      simp_all
  · have begins := beginMotion_idle hs hw hp
    have due : motionDue s = true := motionDue_of hm hr ho (by rw [begins, hs]; nofun)
    have limited : limitDue s.beginMotion = true := by
      rw [limitDue_iff, begins]
      rcases hl with ⟨h1, h2⟩ | ⟨h1, h2⟩
      · exact .inl ⟨by simp [Width.outward, hp, h1], h2⟩
      · exact .inr ⟨by simp [Width.outward, hp]; omega, h2⟩
    obtain ⟨t, run, faulted, keeps⟩ := beginMotion_limited due limited
    rw [begins] at faulted
    exact ⟨t, run, faulted, keeps⟩
  · rcases Nat.lt_or_gt_of_ne hp with hp | hp
    · simp [exec, execWidthStepperStep, Width.step, hs, hp]
    · simp [exec, execWidthStepperStep, Width.step, hs, hp, Nat.lt_asymm hp]
  · let u : State := { s with gate := { s.gate with width := { s.gate.width with state := .idle } } }
    have frame : Kept s u := Kept.of_core rfl rfl
    exact ⟨u.settle, by simp [exec, execWidthMoveComplete, moveDone, hs, hp, u], settle_width rfl,
      (frame.trans (kept_settle u)).keeps⟩
  · have due : homingExceeded s = true := by
      rcases h with ⟨h1, h2, h3⟩ | ⟨h1, h2, h3⟩ <;> simp [homingExceeded, h1, h2, homeOutward, homeInward, h3]
    obtain ⟨faulted, keeps⟩ := faultWidth_settles (s := s) (a := s) rfl
    exact ⟨s.faultWidth.settle, by simp [exec, execHomingTravelExceeded, due], faulted, keeps⟩
  · let u : State := { s with pins := s.pins.setLimit e }
    by_cases hw : s.gate.width.outward = some (e == .maximum)
    · obtain ⟨faulted, -⟩ := faultWidth_settles (s := s) (a := u) rfl
      let b : State := { u with gate := { u.gate with width := { u.gate.width with state := .fault, pos := 0, travel := 0 } } }
      have frame : Kept { s.causesOf u.faultWidth.settle with pins := s.pins.setLimit e } (b.causesOf u.faultWidth.settle) :=
        Kept.of_core rfl rfl
      exact ⟨u.faultWidth.settle, congrArg Host.Outcome.next (if_pos hw),
        fun _ => ⟨faulted, (frame.trans (kept_raise_settle b .widthDrive)).keeps⟩, fun h => absurd hw h⟩
    · exact ⟨u, congrArg Host.Outcome.next (if_neg hw), fun h => absurd h hw, fun _ => rfl⟩

end Sys2Proof.Machine
end


section
/-! Where a record lies, what a raise that may or may not come leaves, and the three commands of the temperature inputs: O31. -/

namespace Sys2Proof.Machine

open Sys2Proof.Config

/-! ## Records -/

theorem Record.isIntruder_iff (r : Record) : r.isIntruder = true ↔ r.origin = .intruder := by
  simp [Record.isIntruder]

/-- R104, as the model computes it. -/
theorem overStretch_iff (s : State) (r : Record) (a b : Nat) : overStretch s r a b = true ↔ Over s r a b := by
  unfold overStretch Over trailBefore relLead
  cases r.trail <;> simp

theorem zoneOverlap_iff (s : State) (z : Zone) (r : Record) :
    zoneOverlap s z r = true ↔ r.origin ≠ .intruder ∧ Over s r (s.ws.zoneStart z) (s.ws.zoneEnd z) := by
  simp [zoneOverlap, overStretch_iff, ← Record.isIntruder_iff]

theorem getLsbD_bitMask (k i : Nat) (hk : k < 16) : (bitMask k).getLsbD i = decide (i = k) := by
  have e : bitMask k = BitVec.twoPow 16 k := (BitVec.twoPow_eq 16 k).symm
  rw [e, BitVec.getLsbD_twoPow]
  simp [hk, eq_comm]

/-- A record before and after what a step keeps, by its place in the list. -/
theorem Kept.record {s t : State} (h : Kept s t) {j : Nat} {q : Record} (hq : t.track.records[j]? = some q) :
    ∃ r, s.track.records[j]? = some r ∧ q.core = r.core := by
  have e : t.track.records.map Record.core = s.track.records.map Record.core := h.keeps.trackRecords
  have := congrArg (·[j]?) e
  simp only [List.getElem?_map, hq, Option.map_some] at this
  obtain ⟨r, hr, hc⟩ := Option.map_eq_some_iff.mp this.symm
  exact ⟨r, hr, hc.symm⟩

theorem places_of_core {rs qs : List Record} (h : qs.map Record.core = rs.map Record.core) :
    qs.map Record.place = rs.map Record.place := by
  have e : ∀ l : List Record, l.map Record.place = (l.map Record.core).map Record.place := fun l => by
    rw [List.map_map]; rfl
  rw [e, h, ← e]

theorem Kept.places {s t : State} (h : Kept s t) :
    t.track.records.map Record.place = s.track.records.map Record.place :=
  places_of_core h.keeps.trackRecords

/-- A frame may name the records that the step leaves. -/
theorem Kept.withRecords {a t : State} (h : Kept a t) :
    Kept { a with track := { a.track with records := t.track.records } } t := by
  refine ⟨?_, h.mem⟩
  have e : State.core { a with track := { a.track with records := t.track.records } } =
      { a.core with track := { a.core.track with records := t.core.track.records } } := rfl
  rw [e, h.core]

/-! ## A raise that may or may not come -/

/-- What raises leave: no notice is lost, and where the set has changed, notice HALTED is pending and a line that ran is
HALTED. -/
structure Raises (s t : State) : Prop where
  notices : ∀ k, s.port.notices.getLsbD k = true → t.port.notices.getLsbD k = true
  mode : t.modes.mode = s.modes.mode ∨ t.modes.mode = .halted
  causes : t.modes.causes = s.modes.causes ∨
    (Pending t .halted ∧ (s.modes.mode.runs = true → t.modes.mode = .halted))

theorem Raises.refl (s : State) : Raises s s := ⟨fun _ => id, .inl rfl, .inl rfl⟩

theorem Raises.trans {s t u : State} (h : Raises s t) (g : Raises t u) : Raises s u := by
  have halted : t.modes.mode = .halted → u.modes.mode = .halted := fun e => g.mode.elim (·.trans e) id
  refine ⟨fun k x => g.notices k (h.notices k x), ?_, ?_⟩
  · exact h.mode.elim (fun e => e ▸ g.mode) fun e => .inr (halted e)
  · rcases g.causes with e | ⟨pend, stop⟩
    · exact h.causes.elim (fun e' => .inl (e.trans e')) fun ⟨p, x⟩ => .inr ⟨g.notices _ p, fun r => halted (x r)⟩
    · exact .inr ⟨pend, fun r => h.mode.elim (fun e => stop (e ▸ r)) halted⟩

theorem raises_raiseCause (s : State) (c : HaltCause) : Raises s (s.raiseCause c) := by
  have halts := halts_raiseCause s c
  refine ⟨raiseCause_notices s c, ?_, ?_⟩
  · unfold State.raiseCause
    split
    · exact .inl rfl
    · dsimp only
      split
      · exact .inr (enterMode_mode _ _)
      · exact .inl rfl
  · by_cases hc : c ∈ s.modes.causes
    · exact .inl (by rw [halts.causes, if_pos hc])
    · exact .inr ⟨halts.notice hc, fun hr => halts.mode hr hc⟩

theorem raises_raiseIf (s : State) (b : Bool) (c : HaltCause) : Raises s (s.raiseIf b c) := by
  unfold State.raiseIf
  split
  · exact raises_raiseCause s c
  · exact .refl s

theorem raiseIf_causes (s : State) (b : Bool) (c : HaltCause) :
    (s.raiseIf b c).modes.causes = joinCause b c s.modes.causes := by
  unfold State.raiseIf joinCause
  cases b
  · simp
  · simp [(halts_raiseCause s c).causes]

theorem kept_raiseIf (s : State) (b : Bool) (c : HaltCause) : Kept (s.causesOf (s.raiseIf b c)) (s.raiseIf b c) := by
  unfold State.raiseIf
  split
  · exact kept_raiseCause s c
  · exact .refl s

/-- Raises and the consequences of the step. -/
theorem Raises.settle {s u : State} (h : Raises s u) (hc : u.settle.modes.causes ≠ s.modes.causes) :
    Pending u.settle .halted ∧ (s.modes.mode.runs = true → u.settle.modes.mode = .halted) := by
  rw [(kept_settle u).keeps.modesCauses] at hc
  obtain ⟨pend, stop⟩ := h.causes.resolve_left hc
  refine ⟨(follows_settle u).notices _ pend, fun r => ?_⟩
  rw [(settle_mode_stays (by simp [stop r]) (by simp [stop r])).1, stop r]

/-! ## Inputs and zones -/

theorem inputZone_eq_some (k : Idx8) (z : Zone) : inputZone k = some z ↔ k = zoneInput z := by
  revert k z; decide

theorem zoneInput_ne_pot (z : Zone) : zoneInput z ≠ potInput := by revert z; decide

/-- R111: the marks of an input's fault are the zone bit of the records over the zone, and change nothing but the records. -/
theorem markInputFault_eq (s : State) (k : Idx8) :
    ∃ rs, s.markInputFault k = { s with track := { s.track with records := rs } } ∧
      rs.map Record.place = s.track.records.map Record.place ∧
      ∀ z, k = zoneInput z → s.thermal.zoneFaulted z = false →
        rs = mapRecords (fun r => zoneOverlap s z r && r.zone z != 0) (fun r => r.deviates z) s.track.records := by
  unfold State.markInputFault
  cases hk : inputZone k with
  | none =>
    refine ⟨s.track.records, rfl, rfl, fun z h => ?_⟩
    rw [(inputZone_eq_some k z).mpr h] at hk; cases hk
  | some y =>
    dsimp only
    cases hf : s.thermal.zoneFaulted y with
    | true =>
      refine ⟨s.track.records, rfl, rfl, fun z h g => ?_⟩
      rw [(inputZone_eq_some k z).mpr h] at hk
      cases hk; rw [hf] at g; cases g
    | false =>
      refine ⟨_, rfl, ?_, fun z h _ => ?_⟩
      · simp only [mapRecords, List.map_map]
        exact List.map_congr_left fun r _ => by simp only [Function.comp]; split <;> rfl
      · rw [(inputZone_eq_some k z).mpr h] at hk
        cases hk; rfl

/-- A record that deviates from a zone's setpoint takes the zone's bit, and keeps the others. -/
theorem Record.deviates_zoneMask (r : Record) (z : Zone) : (r.deviates z).zoneMask.getLsbD z.val = true := by
  have hz := z.isLt
  simp [Record.deviates, Record.mark, getLsbD_bitMask _ _ (show z.val < 16 by omega)]

theorem inputFault_settles {s : State} {k : Idx8} (h : (s.thermal.inputs.get k).faultDue = true) :
    ∃ rs b, exec (.inputFault k) s = .next (State.raiseIf b (k == potInput) .potSensor).settle ∧
      b = { s with
        track := { s.track with records := rs }, thermal := s.thermal.setInput k (s.thermal.inputs.get k).fault } ∧
      rs.map Record.place = s.track.records.map Record.place ∧
      ∀ z, k = zoneInput z → s.thermal.zoneFaulted z = false →
        rs = mapRecords (fun r => zoneOverlap s z r && r.zone z != 0) (fun r => r.deviates z) s.track.records := by
  obtain ⟨rs, hm, hp, hz⟩ := markInputFault_eq s k
  refine ⟨rs, _, ?_, rfl, hp, hz⟩
  simp only [exec, execInputFault, h, if_true, hm]

/-- A second bad sample makes the input FAULTED (R81, R83, R111). -/
theorem inputFault_acts (s : State) (k : Idx8) (i : Input) (hi : i = s.thermal.inputs.get k) (hg : i.state = .good)
    (hb : 2 ≤ i.bad) : ∃ t, exec (.inputFault k) s = .next t ∧
      (k = 6 → Halts s t .potSensor) ∧ (k ≠ 6 → t.modes.causes = s.modes.causes) ∧
      (∀ (z : Zone) (j : Nat) (r q : Record), k = zoneInput z → s.thermal.latches.get z = false →
        s.track.records[j]? = some r → t.track.records[j]? = some q →
        (q.zoneMask.getLsbD z.val = true ↔ r.zoneMask.getLsbD z.val = true ∨
          (r.origin ≠ .intruder ∧ Over s r (s.ws.zoneStart z) (s.ws.zoneEnd z) ∧ r.zone z ≠ 0))) ∧
      t.track.records.map Record.place = s.track.records.map Record.place ∧
      Keeps
        { s.causesOf t with
          track := { s.track with records := t.track.records }
          thermal :=
            { s.thermal with inputs := s.thermal.inputs.set k { i with state := .faulted, ring := [], good := 0 } } }
        t := by
  subst hi
  obtain ⟨rs, b, run, hb', places, marked⟩ := inputFault_settles (s := s) (k := k) (by simp [Input.faultDue, hg, hb])
  have raised := kept_raiseIf b (k == potInput) .potSensor
  have causes := raiseIf_causes b (k == potInput) .potSensor
  generalize hu : b.raiseIf (k == potInput) .potSensor = u at run raised causes
  have settled := kept_settle u
  have same : u.settle.modes.causes = u.modes.causes := settled.keeps.modesCauses
  have modes : b.modes = s.modes := by rw [hb']
  have frame : Kept (b.causesOf u.settle) u.settle := by
    unfold State.causesOf; rw [same]; exact raised.trans settled
  refine ⟨_, run, fun h6 => ?_, fun h6 => ?_, fun z j r q hz hl hr hq => ?_, ?_, ?_⟩
  · have e : u = b.raiseCause .potSensor := by rw [← hu, h6]; rfl
    rw [e]; exact (raise_settles .potSensor modes).1
  · have : (k == potInput) = false := beq_false_of_ne h6
    rw [same, causes, this, ← modes]; rfl
  · obtain ⟨r', hr', core⟩ := frame.record hq
    have faulted : s.thermal.zoneFaulted z = false := by simp [Thermal.zoneFaulted, ← hz, hg, hl]
    have hrs : b.track.records = _ := (congrArg (·.track.records) hb').trans (marked z hz faulted)
    have er : r' = if zoneOverlap s z r && r.zone z != 0 then r.deviates z else r := by
      have : b.track.records[j]? = some r' := hr'
      rw [hrs, mapRecords, List.getElem?_map, hr] at this
      exact (Option.some.inj this).symm
    have mask : q.zoneMask = r'.zoneMask := (congrArg Record.zoneMask core :)
    rw [mask, er, ← and_assoc, ← zoneOverlap_iff]
    split
    · next h => simp [Record.deviates_zoneMask, (by simpa using h : zoneOverlap s z r = true ∧ r.zone z ≠ 0)]
    · next h => simp only [iff_self_or]; exact fun g => absurd (by simpa using g) h
  · have : b.track.records = rs := congrArg (·.track.records) hb'
    exact frame.places.trans ((congrArg _ this).trans places)
  · have moved := frame.withRecords.keeps
    rw [hb'] at moved
    exact moved

/-- R100: what the limit test of an input's sample does to the latches. -/
theorem latchInput_eq (s : State) (k : Idx8) :
    ∃ ls, s.latchInput k = { s with thermal := { s.thermal with latches := ls } } ∧
      ∀ z, ls.get z = true ↔ s.thermal.latches.get z = true ∨ (k = zoneInput z ∧ overZoneLimit s z = true) := by
  unfold State.latchInput
  cases hk : inputZone k with
  | none =>
    refine ⟨s.thermal.latches, rfl, fun z => ⟨.inl, fun h => h.elim id fun ⟨h, _⟩ => ?_⟩⟩
    rw [(inputZone_eq_some k z).mpr h] at hk; cases hk
  | some y =>
    refine ⟨_, rfl, fun z => ?_⟩
    have : k = zoneInput z ↔ z = y := by
      rw [← inputZone_eq_some, hk]; exact ⟨fun h => (Option.some.inj h).symm, fun h => h ▸ rfl⟩
    rw [Tab6.get_set, this]
    split
    · next h => subst h; simp
    · next h => simp [h]

theorem overZoneLimit_iff (s : State) (z : Zone) : overZoneLimit s z = true ↔
    s.loaded = true ∧ ∃ v, s.thermal.zonePV z = some v ∧ s.ws.zoneHard ≤ v := by
  unfold overZoneLimit
  cases s.thermal.zonePV z <;> simp

theorem overtemp_iff (s : State) : overtemp s = true ↔
    s.pins.thermostatOpen = true ∨ (s.loaded = true ∧ ∃ v, s.thermal.potPV = some v ∧ s.ws.potHard ≤ v) := by
  unfold overtemp
  cases s.thermal.potPV <;> simp

/-- An input that leaves FAULTED or FILLING: the pot's fault, and the limit tests of its sample (R83, R99, R100). -/
theorem testedInput_settles (s : State) (k : Idx8) (i : Input) (lost : Bool) :
    ∃ S u t, S = { s with thermal := s.thermal.setInput k i } ∧
      u = (S.raiseIf (k == potInput && lost) .potSensor).testLimit k ∧ t = u.settle ∧
      t.modes.causes =
        joinCause (k == 6 && overtemp S) .potOvertemp (joinCause (k == 6 && lost) .potSensor s.modes.causes) ∧
      Raises s u ∧
      (∀ z, t.thermal.latches.get z = true ↔ s.thermal.latches.get z = true ∨
        (k = zoneInput z ∧ overZoneLimit S z = true)) ∧
      Kept { S.causesOf t with thermal := { S.thermal with latches := t.thermal.latches } } t := by
  obtain ⟨S, hS⟩ : ∃ S, S = { s with thermal := s.thermal.setInput k i } := ⟨_, rfl⟩
  have modes : S.modes = s.modes := by rw [hS]
  have notices : S.port = s.port := by rw [hS]
  have latches : S.thermal.latches = s.thermal.latches := by rw [hS]; rfl
  have first := kept_raiseIf S (k == potInput && lost) .potSensor
  have firstRaises := raises_raiseIf S (k == potInput && lost) .potSensor
  have firstCauses := raiseIf_causes S (k == potInput && lost) .potSensor
  obtain ⟨v, hv⟩ : ∃ v, v = S.raiseIf (k == potInput && lost) .potSensor := ⟨_, rfl⟩
  rw [← hv] at first firstRaises firstCauses
  have thermal := first.keeps
  obtain ⟨ls, hlatch, hls⟩ := latchInput_eq v k
  obtain ⟨w, hw⟩ : ∃ w, w = { v with thermal := { v.thermal with latches := ls } } := ⟨_, rfl⟩
  have pins : v.pins = S.pins := thermal.pins
  have inputs : v.thermal.inputs = S.thermal.inputs := thermal.thermalInputs
  have setup : v.port.setup = S.port.setup := thermal.portSetup
  have hot : overtemp v = overtemp S := by
    unfold overtemp Thermal.potPV State.loaded State.ws
    rw [pins, inputs, setup]
  have limit : ∀ z, overZoneLimit v z = overZoneLimit S z := fun z => by
    unfold overZoneLimit Thermal.zonePV State.loaded State.ws
    rw [inputs, setup]
  have hu : v.testLimit k = w.raiseIf (k == potInput && overtemp v) .potOvertemp := by
    rw [State.testLimit, hlatch, ← hw]
  have last := kept_raiseIf w (k == potInput && overtemp v) .potOvertemp
  have lastRaises := raises_raiseIf w (k == potInput && overtemp v) .potOvertemp
  have lastCauses := raiseIf_causes w (k == potInput && overtemp v) .potOvertemp
  rw [← hu] at last lastRaises lastCauses
  have settled := kept_settle (v.testLimit k)
  generalize hT : (v.testLimit k).settle = t at settled
  have same := settled.keeps.modesCauses
  have kept : Kept (w.causesOf t) t := by
    unfold State.causesOf; rw [same]; exact last.trans settled
  have latched : t.thermal.latches = ls := kept.keeps.thermalLatches.trans (by rw [hw]; rfl)
  refine ⟨S, v.testLimit k, t, hS, by rw [hv], hT.symm, ?_, ?_, fun z => ?_, ?_⟩
  · have : w.modes = v.modes := by rw [hw]
    rw [same, lastCauses, this, firstCauses, modes, hot]; rfl
  · have start : Raises s S := ⟨fun _ h => notices ▸ h, .inl (by rw [modes]), .inl (by rw [modes])⟩
    have mid : Raises v w := by rw [hw]; exact ⟨fun _ => id, .inl rfl, .inl rfl⟩
    exact start.trans (firstRaises.trans (mid.trans lastRaises))
  · have : v.thermal.latches = S.thermal.latches := thermal.thermalLatches
    rw [latched, hls, limit, this, latches]
  · have frame : Kept { S.causesOf t with thermal := { S.thermal with latches := ls } } (w.causesOf t) := by
      have e : State.core (w.causesOf t) = { (State.core v) with
          modes := (State.core t).modes
          thermal := { (State.core v).thermal with latches := ls } } := by rw [hw]; rfl
      refine ⟨?_, ?_⟩
      · rw [e, first.core]; rfl
      · rw [hw]; exact first.mem
    rw [latched]
    exact frame.trans kept

theorem recovery_run {s : State} {k : Idx8} (h : (s.thermal.inputs.get k).recoveryDue = true) {S u : State}
    (hS : S = { s with thermal := s.thermal.setInput k (s.thermal.inputs.get k).recover })
    (hu : u = (S.raiseIf (k == potInput && false) .potSensor).testLimit k) :
    exec (.inputRecovery k) s = .next u.settle := by
  subst hu hS
  simp only [exec, execInputRecovery, h, if_true, Bool.and_false]
  rfl

theorem fillingEnd_run {s : State} {k : Idx8} (h : (s.thermal.inputs.get k).fillingDue = true) {S u : State} {lost : Bool}
    (hS : S = { s with thermal := s.thermal.setInput k (s.thermal.inputs.get k).endFilling })
    (hl : lost = ((s.thermal.inputs.get k).endFilling.state == .faulted))
    (hu : u = (S.raiseIf (k == potInput && lost) .potSensor).testLimit k) :
    exec (.inputFillingEnd k) s = .next u.settle := by
  subst hu hS hl
  simp only [exec, execInputFillingEnd, h, if_true]

/-- Settles O31: a fault's marks, and the two ways out of FAULTED and FILLING by one lemma about the limit tests. -/
theorem inputStatesFollowTheirCounts : Obligations.InputStatesFollowTheirCounts := by
  intro s k i hi
  refine ⟨fun hg hb => inputFault_acts s k i hi hg hb, fun hcase => ?_⟩
  obtain ⟨lost, hlost⟩ : ∃ lost, lost = decide (i.state = .filling ∧ i.good < 4) := ⟨_, rfl⟩
  obtain ⟨S, u, t, hS, hu, ht, causes, raises, latches, frame⟩ := testedInput_settles s k
    (if lost = true then { i with state := .faulted, ring := i.ring.drop (i.ring.length - i.good) }
      else { i with state := .good, bad := 0 }) lost
  have run : exec (if i.state = .faulted then .inputRecovery k else .inputFillingEnd k) s = .next t := by
    rw [ht]
    rcases hcase with ⟨hf, hn⟩ | ⟨hf, hn⟩
    · have l : lost = false := by simp [hlost, hf]
      subst l hi
      rw [if_pos hf]
      exact recovery_run (by simp [Input.recoveryDue, hf, hn]) hS hu
    · rw [if_neg (by simp [hf])]
      have e : (if lost = true then { i with state := .faulted, ring := i.ring.drop (i.ring.length - i.good) }
          else { i with state := .good, bad := 0 }) = i.endFilling := by
        unfold Input.endFilling
        by_cases g : 4 ≤ i.good
        · simp [hlost, g]
        · simp [hlost, g, hf, Nat.lt_of_not_le g]
      have l : lost = (i.endFilling.state == .faulted) := by
        rw [← e]; cases lost <;> rfl
      rw [e] at hS
      subst hi
      exact fillingEnd_run (by simp [Input.fillingDue, hf, hn]) hS l hu
  have pins : S.pins = s.pins := by rw [hS]
  have loaded : S.loaded = s.loaded := by rw [hS]; rfl
  have ws : S.ws = s.ws := by rw [hS]; rfl
  have inputs : t.thermal.inputs = S.thermal.inputs := frame.keeps.thermalInputs
  refine ⟨t, lost, overtemp S, run, by simp [hlost], ?_, causes, fun hc => ?_, fun z => ?_, ?_⟩
  · rw [overtemp_iff, pins, loaded, ws]
    unfold Thermal.potPV; rw [inputs]
  · rw [ht] at hc ⊢; exact raises.settle hc
  · rw [latches, overZoneLimit_iff, loaded, ws]
    unfold Thermal.zonePV; rw [inputs]
  · have moved := frame.keeps
    rw [hS] at moved
    exact moved

end Sys2Proof.Machine
end


section
/-! The consequences of a step as a sequence of stages, so that a relation that every stage keeps holds over them all; and the
slots that they reject. -/

namespace Sys2Proof.Machine

open Sys2Proof.Config

/-! ## Moves -/

/-- One stage of the consequences of a step. -/
inductive Move : State → State → Prop
  | mode (s) : Move s s.modeStage
  | fans (s) : Move s s.reformFans
  | horn (s) : Move s s.reformHorn
  | inhibit (s) : Move s s.reformInhibit
  | grants (s) : Move s s.cutGrants
  | zones (s) : Move s s.reformZones
  | pumpTargets (s) : Move s s.reformPumpTargets
  | potTarget (s) : Move s s.reformPotTarget
  | outfeed (s) : Move s s.reformOutfeed
  | width (s) : Move s s.reformWidth
  | followDrop (s) : Move s s.followDrop
  | endDrop (s) : Move s s.endDrop
  | ref (s) : Move s s.reformRef
  | pumpRefs (s) : Move s s.reformPumpRefs
  | drive (s) : Move s s.reformDrive
  | waits (s) : Move s s.reformWaits
  | idle (s) : Move s s.reformIdle
  | line (s) : Move s s.reformLine
  | findings (s c n a b d) : Move s (s.findings c n a b d)
  | reject (s) (n : SlotIx) (r) (hh : n ∉ s.docket.held) (hp : slotState s.mem n = .posted) : Move s (s.rejectSlot n r)
  | expected (s) (e : Word) (hs : s.docket.source = .docket) : Move s (s.setExpected e)
  | phase (s p t l) : Move s { s with gate := { s.gate with phase := p, target := t, lineClass := l } }
  | holds (s) : Move s s.takeHolds
  | transition (s) : Move s s.gateTransition

/-- A sequence of stages. -/
def Moves : State → State → Prop := Relation.ReflTransGen Move

/-- A relation that every stage keeps holds over a sequence of them. -/
theorem Moves.lift {R : State → State → Prop} (refl : ∀ s, R s s) (trans : ∀ {s t u}, R s t → R t u → R s u)
    (stage : ∀ {s t}, Move s t → R s t) {s t : State} (h : Moves s t) : R s t := by
  induction h with
  | refl => exact refl s
  | tail _ g ih => exact trans ih (stage g)

theorem Moves.refl (s : State) : Moves s s := Relation.ReflTransGen.refl

theorem Moves.trans {s t u : State} (h : Moves s t) (g : Moves t u) : Moves s u := Relation.ReflTransGen.trans h g

theorem Move.one {s t : State} (h : Move s t) : Moves s t := Relation.ReflTransGen.single h

theorem Moves.then {s t u : State} (h : Moves s t) (g : Move t u) : Moves s u := h.trans g.one

theorem Moves.ite {s t u : State} {c : Prop} [Decidable c] (ht : Moves s t) (hu : Moves s u) :
    Moves s (if c then t else u) := by
  split <;> assumption

theorem moves_reformConveyor (s : State) : Moves s s.reformConveyor :=
  ((((Moves.refl s).then (.followDrop _)).then (.endDrop _)).then (.ref _)).then (.pumpRefs _)

theorem moves_reform (s : State) : Moves s s.reform := by
  have guards : Moves s s.modeStage.reformFans.reformHorn.reformGuards :=
    ((((Moves.refl s).then (.mode _)).then (.fans _)).then (.horn _)).then (.inhibit _) |>.then (.grants _)
  have targets := ((guards.then (.zones _)).then (.pumpTargets _)).then (.potTarget _)
  have motion := (((targets.then (.outfeed _)).then (.width _)).trans (moves_reformConveyor _)).then (.drive _)
  exact ((motion.then (.waits _)).then (.idle _)).then (.line _)

theorem moves_nameClass (s : State) : Moves s s.nameClass :=
  (((Moves.refl s).then (.potTarget _)).then (.width _)).trans (moves_reformConveyor _)

theorem moves_phaseNone (s : State) : Moves s s.phaseNone := by
  unfold State.phaseNone
  split
  · exact .ite (.refl s) (Move.phase s _ _ _).one
  · exact .refl s

theorem moves_phaseDraining (s : State) : Moves s s.phaseDraining := by
  unfold State.phaseDraining
  split
  · exact (Move.phase s _ _ _).one
  · refine .ite (Move.phase s _ _ _).one (.ite ?_ (Move.phase s _ _ _).one)
    exact (Move.phase s _ _ _).one.trans (moves_nameClass _)

theorem moves_retargetClass (s : State) : Moves s s.retargetClass := by
  unfold State.retargetClass
  split
  · exact .refl s
  · exact .ite (.refl s) ((Move.phase s _ _ _).one.trans (moves_nameClass _))

theorem moves_phaseMoving (s : State) : Moves s s.phaseMoving := by
  unfold State.phaseMoving
  dsimp only
  split
  · exact .ite ((moves_retargetClass s).then (.phase _ _ _ _)) (moves_retargetClass s)
  · exact moves_retargetClass s

theorem moves_phaseSettling (s : State) : Moves s s.phaseSettling := by
  unfold State.phaseSettling
  dsimp only
  split
  · exact .ite ((moves_retargetClass s).then (.phase _ _ _ _))
      (.ite ((moves_retargetClass s).then (.phase _ _ _ _)) (moves_retargetClass s))
  · exact moves_retargetClass s

theorem moves_phaseStep (s : State) : Moves s s.phaseStep := by
  unfold State.phaseStep
  split
  · split
    · exact moves_phaseNone s
    · exact moves_phaseDraining s
    · exact moves_phaseMoving s
    · exact moves_phaseSettling s
  · exact .refl s

theorem moves_changeover (fuel : Nat) (s : State) : Moves s (s.changeover fuel) := by
  induction fuel generalizing s with
  | zero => exact .refl s
  | succ k ih => exact .ite (moves_phaseStep s) ((moves_phaseStep s).trans (ih _))

theorem moves_rejectSlots (s : State) (ns : List SlotIx) (r : RejectReason) (hd : ns.Nodup)
    (h : ∀ n ∈ ns, n ∉ s.docket.held ∧ slotState s.mem n = .posted) : Moves s (s.rejectSlots ns r) := by
  unfold State.rejectSlots
  induction ns generalizing s with
  | nil => exact .refl s
  | cons n ns ih =>
    obtain ⟨fresh, nodup⟩ := List.nodup_cons.mp hd
    obtain ⟨held, posted⟩ := h n (by simp)
    refine (Move.reject s n r held posted).one.trans (ih _ nodup fun x hx => ?_)
    obtain ⟨xheld, xposted⟩ := h x (by simp [hx])
    exact ⟨xheld, (rejectSlot_slotState fun e : x = n => fresh (e ▸ hx)).trans xposted⟩

theorem rejectSlots_docket (s : State) (ns : List SlotIx) (r : RejectReason) : (s.rejectSlots ns r).docket = s.docket := by
  unfold State.rejectSlots
  induction ns generalizing s with
  | nil => rfl
  | cons n ns ih => exact (ih _).trans rfl

/-- What one round of the slot scan works on: the posted slots behind E, and those at E (R23, R24). -/
theorem scan_slots (s : State) :
    (∀ n ∈ postedSlots s, n ∉ s.docket.held ∧ slotState s.mem n = .posted) ∧ (postedSlots s).Nodup ∧
      ∀ n ∈ (postedSlots s).filter (fun n => slotSequence s.mem n == s.docket.expected),
        n ∉ (postedSlots s).filter fun n => isStale s.docket.expected (slotSequence s.mem n) := by
  refine ⟨fun n h => ?_, allSlots_nodup.filter _, fun n h g => ?_⟩
  · simpa using (List.mem_filter.mp h).2
  · have at' := (List.mem_filter.mp h).2
    have stale := (List.mem_filter.mp g).2
    rw [eq_of_beq at'] at stale
    simp [isStale] at stale

theorem moves_slotScan (fuel : Nat) (s : State) (hs : s.docket.source = .docket) : Moves s (s.slotScan fuel) := by
  induction fuel generalizing s with
  | zero => exact (Move.findings s _ _ _ _ _).one
  | succ k ih =>
    obtain ⟨posted, nodup, apart⟩ := scan_slots s
    unfold State.slotScan
    dsimp only
    have stale := moves_rejectSlots s _ .stale (nodup.filter fun n => isStale s.docket.expected (slotSequence s.mem n))
      (fun n h => posted n (List.mem_filter.mp h).1)
    split
    · exact stale.then (.findings _ _ _ _ _ _)
    · next n others he =>
      have here : ∀ x ∈ n :: others, x ∉ (s.rejectSlots ((postedSlots s).filter fun n =>
          isStale s.docket.expected (slotSequence s.mem n)) .stale).docket.held ∧
          slotState (s.rejectSlots ((postedSlots s).filter fun n =>
            isStale s.docket.expected (slotSequence s.mem n)) .stale).mem x = .posted := fun x hx => by
        rw [rejectSlots_held, rejectSlots_slotState (apart x (he ▸ hx))]
        exact posted x (List.mem_filter.mp (he ▸ hx)).1
      obtain ⟨fresh, nodup'⟩ := List.nodup_cons.mp (he ▸ nodup.filter _ : (n :: others).Nodup)
      have duplicates := stale.trans (moves_rejectSlots _ others .duplicate nodup' fun x hx => here x (by simp [hx]))
      split
      · refine (duplicates.then (.reject _ n .badRecipe ?_ ?_)).then (.expected _ _ ?_) |>.trans (ih _ ?_)
        · rw [rejectSlots_held]; exact (here n (by simp)).1
        · rw [rejectSlots_slotState fresh]; exact (here n (by simp)).2
        · show (State.rejectSlots _ others .duplicate).docket.source = .docket
          rw [rejectSlots_docket, rejectSlots_docket, hs]
        · show (State.rejectSlots _ others .duplicate).docket.source = .docket
          rw [rejectSlots_docket, rejectSlots_docket, hs]
      · exact duplicates.then (.findings _ _ _ _ _ _)
      · exact duplicates.then (.findings _ _ _ _ _ _)

theorem moves_reformDocket (s : State) : Moves s s.reformDocket := by
  unfold State.reformDocket
  split
  · exact .refl s
  · exact .refl s
  · split
    · next hs => exact .ite (moves_slotScan _ _ hs) (Move.findings _ _ _ _ _ _).one
    · split <;> exact (Move.findings _ _ _ _ _ _).one

theorem moves_gateEval (s : State) : Moves s s.gateEval :=
  ((((moves_reformDocket s).then (.phase _ _ _ _)).trans (moves_changeover 8 _)).then (.holds _)).then (.transition _)

theorem moves_gateStage (s : State) : Moves s s.gateStage := by
  rcases State.gateStage_cases s with h | h | h | h <;> rw [h]
  · exact .refl s
  · exact moves_gateEval s
  · exact moves_changeover 8 s
  · exact (moves_changeover 8 s).trans (moves_gateEval _)

theorem moves_pass (s : State) : Moves s s.pass := (moves_reform s).trans (moves_gateStage _)

theorem moves_settle (s : State) : Moves s s.settle := ((moves_pass s).trans (moves_pass _)).trans (moves_reform _)

theorem moves_settleEval (s : State) : Moves s s.settleEval :=
  ((moves_reform s).trans (moves_gateEval _)).trans (moves_settle _)

/-! ## The tank mirror -/

/-- Memory but for the two words of the tank mirror (R69). -/
def MirrorOnly (m n : Memory) : Prop :=
  ∀ a, a ≠ 4 → a ≠ 5 → n.read a = m.read a

theorem MirrorOnly.refl (m : Memory) : MirrorOnly m m := fun _ _ _ => rfl

theorem MirrorOnly.trans {m n o : Memory} (h : MirrorOnly m n) (g : MirrorOnly n o) : MirrorOnly m o :=
  fun a x y => (g a x y).trans (h a x y)

theorem mirrorOnly_writeBlock (m : Memory) (n : Nat) : MirrorOnly m (m.writeBlock mirrorTankAt (twoWords n)) := by
  intro a h h'
  refine Memory.read_writeBlock_of_outside ?_
  simp only [mirrorTankAt, twoWords_length]
  omega

theorem mirrorOnly_setTank (s : State) (c r : Nat) : MirrorOnly s.mem (s.setTank c r).mem := by
  show MirrorOnly s.mem (if c = s.flux.counter then s.mem else _)
  split
  · exact .refl _
  · exact mirrorOnly_writeBlock _ _

theorem mirrorOnly_cutPulse (s : State) (p : Pulse → Bool) (b : Bool) (l : Idx8) :
    MirrorOnly s.mem (s.cutPulse p b l).mem := by
  unfold State.cutPulse
  split
  · split
    · exact mirrorOnly_setTank { s with
        flux := { s.flux with pulses := s.flux.pulses.set l none }
        track := { s.track with records := _ } } _ _
    · exact .refl _
  · exact .refl _

theorem mirrorOnly_cutPulses (s : State) (p : Pulse → Bool) (b : Bool) : MirrorOnly s.mem (s.cutPulses p b).mem := by
  unfold State.cutPulses
  generalize allIdx8 = ls
  induction ls generalizing s with
  | nil => exact .refl _
  | cons l ls ih => exact (mirrorOnly_cutPulse s p b l).trans (ih _)

theorem mirrorOnly_creditPurge (s : State) : MirrorOnly s.mem s.creditPurge.mem := by
  unfold State.creditPurge
  split
  · exact .refl _
  · next g _ =>
    exact mirrorOnly_setTank { s with flux := { s.flux with purge := some { remaining := _, creditedAt := s.clock } } } _
      ((s.flux.remainder + totalFlow s.ws * min (elapsed g.creditedAt s.clock) g.remaining) % 1000)

theorem mirrorOnly_endPurge (s : State) : MirrorOnly s.mem s.endPurge.mem := by
  unfold State.endPurge
  split
  · exact .refl _
  · exact mirrorOnly_creditPurge s

theorem mirrorOnly_reformInhibit (s : State) : MirrorOnly s.mem s.reformInhibit.mem := by
  unfold State.reformInhibit
  dsimp only
  split
  · exact (mirrorOnly_cutPulses s _ _).trans (mirrorOnly_endPurge _)
  · exact .refl _

/-! ## The slots that the part rejects -/

/-- From `m` to `n` slots that read POSTED may come to read REJECTED, each counted; no other slot state changes (R36, R37). -/
structure Rejects (m n : Memory) : Prop where
  slots : ∀ k, slotState n k = slotState m k ∨ (slotState m k = .posted ∧ slotState n k = .rejected)
  count : CountsCloses m n 0

theorem rejectedSlots_length (m n : Memory) : (rejectedSlots m n).length =
    allSlots.countP fun k => slotState m k == .posted && slotState n k == .rejected :=
  List.countP_eq_length_filter.symm

theorem rejectedSlots_of_same {m n : Memory} (h : ∀ k, slotState n k = slotState m k) : rejectedSlots m n = [] := by
  refine List.filter_eq_nil_iff.mpr fun k _ => ?_
  rw [h k]
  cases slotState m k <;> decide

theorem Rejects.of_words {m n : Memory} (h : ∀ k, n.read (slotAt k) = m.read (slotAt k)) (g : n.read 6 = m.read 6) :
    Rejects m n := by
  have same : ∀ k, slotState n k = slotState m k := fun k => slotState_congr (h k)
  refine ⟨fun k => .inl (same k), ?_⟩
  simp [CountsCloses, rejectedSlots_of_same same, g]

theorem Rejects.refl (m : Memory) : Rejects m m := .of_words (fun _ => rfl) rfl

theorem MirrorOnly.rejects {m n : Memory} (h : MirrorOnly m n) : Rejects m n :=
  .of_words (fun k => have b := slotAt_bounds k; h _ (by omega) (by omega)) (h 6 (by decide) (by decide))

theorem countP_add {α : Type} {p q r : α → Bool} (l : List α) (h : ∀ x, (p x).toNat = (q x).toNat + (r x).toNat) :
    l.countP p = l.countP q + l.countP r := by
  induction l with
  | nil => rfl
  | cons x l ih =>
    have each : ∀ b : Bool, (if b = true then 1 else 0) = b.toNat := by decide
    simp only [List.countP_cons, ih, each, h x]
    omega

theorem Rejects.rejected_add {m n o : Memory} (h : Rejects m n) (g : Rejects n o) :
    (rejectedSlots m o).length = (rejectedSlots m n).length + (rejectedSlots n o).length := by
  rw [rejectedSlots_length, rejectedSlots_length, rejectedSlots_length]
  refine countP_add _ fun k => ?_
  rcases h.slots k with e | ⟨e, e'⟩ <;> rcases g.slots k with f | ⟨f, f'⟩
  · rw [f, e]; cases slotState m k <;> decide
  · rw [f', ← e, f]; decide
  · rw [f, e', e]; decide
  · rw [f', e', e]; decide

theorem Rejects.trans {m n o : Memory} (h : Rejects m n) (g : Rejects n o) : Rejects m o := by
  refine ⟨fun k => ?_, ?_⟩
  · rcases h.slots k with e | ⟨e, e'⟩ <;> rcases g.slots k with f | ⟨f, f'⟩ <;> simp_all
  · have c := g.count
    unfold CountsCloses at *
    rw [c, h.count, h.rejected_add g, BitVec.add_assoc, ← BitVec.ofNat_add]
    congr 2; omega

theorem rejectSlot_rejected (s : State) (n : SlotIx) (r : RejectReason) : slotState (s.rejectSlot n r).mem n = .rejected := by
  have : (s.rejectSlot n r).mem.read (slotAt n) = 4 := by
    have b := slotAt_bounds n
    unfold State.rejectSlot countClosed writeResult
    rw [Memory.read_write, if_neg (by simp [closedCountAt]; omega), Memory.read_write, if_pos rfl]
  simp [slotState, this]

theorem slot_once : ∀ n : SlotIx, (allSlots.filter (· == n)).length = 1 := by decide

theorem rejects_rejectSlot {s : State} {n : SlotIx} (hp : slotState s.mem n = .posted) (r : RejectReason) :
    Rejects s.mem (s.rejectSlot n r).mem := by
  refine ⟨fun k => ?_, ?_⟩
  · by_cases h : k = n
    · subst h; exact .inr ⟨hp, rejectSlot_rejected s k r⟩
    · exact .inl (rejectSlot_slotState h)
  · have one : (rejectedSlots s.mem (s.rejectSlot n r).mem).length = 1 := by
      rw [rejectedSlots_length]
      have : (fun k => slotState s.mem k == .posted && slotState (s.rejectSlot n r).mem k == .rejected) =
          fun k => k == n := by
        funext k
        by_cases h : k = n
        · subst h; simp [hp, rejectSlot_rejected]
        · rw [rejectSlot_slotState h]
          have : (k == n) = false := beq_false_of_ne h
          rw [this]; cases slotState s.mem k <;> decide
      rw [this, List.countP_eq_length_filter]
      exact slot_once n
    have b := slotAt_bounds n
    have six : (writeResult s.mem n (emptyResult 0 r.code) 4).read 6 = s.mem.read 6 := by
      unfold writeResult
      rw [Memory.read_write, if_neg (by omega), Memory.read_writeBlock_of_outside (.inl (by omega))]
    unfold CountsCloses
    rw [one]
    show (countClosed _).read 6 = _
    rw [countClosed, Memory.read_write, if_pos (by decide), show closedCountAt = 6 from rfl, six]
    rfl

theorem rejects_setExpected (s : State) (e : Word) : Rejects s.mem (s.setExpected e).mem := by
  refine .of_words (fun k => ?_) ?_
  · have b := slotAt_bounds k
    unfold State.setExpected
    rw [Memory.read_write, if_neg (by simp [mirrorEAt]; omega)]
  · unfold State.setExpected
    rw [Memory.read_write, if_neg (by decide)]

theorem Move.rejects {s t : State} (h : Move s t) : Rejects s.mem t.mem := by
  cases h with
  | reject n r hh hp => exact rejects_rejectSlot hp r
  | expected e hs => exact rejects_setExpected s e
  | inhibit => exact (mirrorOnly_reformInhibit s).rejects
  | _ => simp [Rejects.refl]

theorem Moves.rejects {s t : State} (h : Moves s t) : Rejects s.mem t.mem :=
  h.lift (R := fun s t => Rejects s.mem t.mem) (fun _ => .refl _) .trans Move.rejects

theorem rejects_settle (s : State) : Rejects s.mem s.settle.mem := (moves_settle s).rejects

theorem rejects_settleEval (s : State) : Rejects s.mem s.settleEval.mem := (moves_settleEval s).rejects

end Sys2Proof.Machine
end


section
/-! What a slot holds once its result is written, CANCEL_DOCKET and the heater outputs: O35, O55. -/

namespace Sys2Proof.Machine

open Sys2Proof.Config

/-! ## Slots -/

/-- The words of a slot whose result has been written and counted (R35 to R37). -/
theorem read_countClosed_writeResult (m : Memory) (n : SlotIx) {ws : List Word} (w : Word) (hl : ws.length = 19) {k : Nat}
    (hk : k < 64) : (countClosed (writeResult m n ws w)).read (slotAt n + k) =
      if k = 0 then w else if 16 ≤ k ∧ k < 35 then ws.getD (k - 16) 0 else m.read (slotAt n + k) := by
  have b := slotAt_bounds n
  unfold countClosed writeResult
  rw [Memory.read_write, if_neg (by simp [closedCountAt]; omega), Memory.read_write, Memory.read_writeBlock, hl]
  by_cases h : k = 0
  · simp [h]
  · rw [if_neg (by omega), if_neg h]
    by_cases g : 16 ≤ k ∧ k < 35
    · rw [if_pos (by omega), if_pos g, show slotAt n + k - (slotAt n + 16) = k - 16 by omega]
    · rw [if_neg (by omega), if_neg g]

theorem emptyResult_zero (c : Word) {i : Nat} (hi : i < 19) (h : i ≠ 2) : (emptyResult 0 c).getD i 0 = 0 := by
  unfold emptyResult
  interval_cases i <;> simp_all

theorem mem_rejectedSlots (m n : Memory) (k : SlotIx) :
    k ∈ rejectedSlots m n ↔ slotState m k = .posted ∧ slotState n k = .rejected := by
  have every : ∀ k : SlotIx, k ∈ allSlots := by decide
  simp [rejectedSlots, every]

theorem offering_iff (s : State) : offering s = true ↔ s.gate.state = .opened ∨ s.gate.state = .late := by
  simp [offering]

/-- A slot that is rejected and stays so: what the part has written of it (R36). -/
theorem rejectSlot_settles (w : State) (n : SlotIx) (r : RejectReason) (hp : slotState w.mem n = .posted) :
    (w.rejectSlot n r).settle.mem.read (slotAt n) = 4 ∧
      (w.rejectSlot n r).settle.mem.read (slotAt n + 18) = r.code ∧
      (∀ k, 16 ≤ k → k < 35 → k ≠ 18 → (w.rejectSlot n r).settle.mem.read (slotAt n + k) = 0) ∧
      Pending (w.rejectSlot n r).settle .slotClosed ∧ CountsCloses w.mem (w.rejectSlot n r).settle.mem 0 ∧
      n ∈ rejectedSlots w.mem (w.rejectSlot n r).settle.mem := by
  have follows := follows_settle (w.rejectSlot n r)
  have rejected := rejectSlot_rejected w n r
  have words : ∀ k, k < 64 → (w.rejectSlot n r).settle.mem.read (slotAt n + k) = (w.rejectSlot n r).mem.read (slotAt n + k) :=
    follows.slots n (.inr (by simp [rejected]))
  have write : ∀ k, k < 64 → (w.rejectSlot n r).mem.read (slotAt n + k) = _ := fun k hk =>
    read_countClosed_writeResult w.mem n 4 (emptyResult_length 0 r.code) hk
  refine ⟨(words 0 (by omega)).trans (write 0 (by omega)), (words 18 (by omega)).trans (write 18 (by omega)),
    fun k h h' h'' => ?_, follows.notices _ ?_, ((rejects_rejectSlot hp r).trans (rejects_settle _)).count,
    (mem_rejectedSlots ..).mpr ⟨hp, ?_⟩⟩
  · rw [words k (by omega), write k (by omega), if_neg (by omega), if_pos ⟨h, h'⟩]
    exact emptyResult_zero _ (by omega) (by omega)
  · simp [State.rejectSlot, Port.notify, Notice.mask, Notice.bit]
  · rw [slotState_congr (words 0 (by omega)), rejected]

/-- Settles O55, by the order of the request's tests. -/
theorem cancelDocketRejectsAPostedSlot : Obligations.CancelDocketRejectsAPostedSlot := by
  intro s w ws n hp hw
  have run : exec (.cancelDocket ws) s = .next ((decideCancelDocket w).2.answer (decideCancelDocket w).1) := by
    rw [hw]; exact congrArg Host.Outcome.next (request_of_posts hp decideCancelDocket)
  have arg : argument1 w = w.mem.read 0x0041 := rfl
  have gate : w.gate = s.gate := by rw [hw]; rfl
  have docket : w.docket = s.docket := by rw [hw]; rfl
  rw [run]
  unfold decideCancelDocket
  rw [arg]
  refine ⟨fun h => by rw [if_pos h]; rfl, fun h => ?_⟩
  have hn : Fin.ofNat 64 (w.mem.read 0x0041).toNat = n := by
    rw [h]; exact Fin.ext (Nat.mod_eq_of_lt n.isLt)
  have offered : (offering w && (w.docket.offer.map (·.slot)) == some n) = true ↔
      (s.gate.state = .opened ∨ s.gate.state = .late) ∧ ∃ o, s.docket.offer = some o ∧ o.slot = n := by
    rw [Bool.and_eq_true, offering_iff, gate, docket, beq_iff_eq, Option.map_eq_some_iff]
  have held : w.docket.held.contains n = true ↔ n ∈ s.docket.held := by rw [docket]; simp
  rw [if_neg (by rw [h]; have := n.isLt; omega)]
  dsimp only
  rw [hn]
  refine ⟨fun hcase => ?_, fun hfree hheld => ?_⟩
  · by_cases ho : (offering w && (w.docket.offer.map (·.slot)) == some n) = true
    · rw [if_pos ho]; rfl
    · rw [if_neg ho, if_pos (held.mpr (hcase.resolve_left fun c => ho (offered.mpr c)))]; rfl
  · rw [if_neg fun c => ?_, if_neg fun c => hheld (held.mp c)]
    · refine ⟨fun hs => by rw [if_neg hs]; rfl, fun hs => ?_⟩
      rw [if_pos hs]
      obtain ⟨state, reason, zero, pend, count, mem⟩ := rejectSlot_settles w n .cancelled hs
      exact ⟨_, rfl, state, reason, zero, pend, count, mem, ((kept_rejectSlot w n _).trans (kept_settle _)).keeps⟩
    · obtain ⟨hg, o, ho, he⟩ := offered.mp c
      rcases hfree with ⟨a, b⟩ | hfree
      · exact hg.elim a b
      · exact hfree o ho he

/-! ## The heater outputs (R97) -/

theorem outputAt_iff (s : State) (k : Idx8) (m : Nat) : outputAt s k m = true ↔
    s.ws.rating k ≠ 0 ∧ (m + 1000 - 125 * k.val) % 1000 < s.thermal.outputGrant k := by
  simp [outputAt, outputOn]

theorem nextSwitch_switches {s : State} {k : Idx8} {m : Nat} (h : nextSwitch s k = some m) : switchesAt s k m = true := by
  have := List.min?_mem h
  exact (List.mem_filter.mp this).2

/-- An output that stands otherwise than its stretch switches now. -/
theorem nextSwitch_now {s : State} {k : Idx8} (h : switchesAt s k (periodTime s) = true) :
    nextSwitch s k = some (periodTime s) := by
  refine List.min?_eq_some_iff.mpr ⟨List.mem_filter.mpr ⟨by simp [switchMoments], h⟩, fun m hm => ?_⟩
  have := (List.mem_filter.mp hm).2
  unfold switchesAt at this
  simp only [Bool.and_eq_true, decide_eq_true_eq] at this
  exact this.1.1

/-- Settles O35: a switch is due exactly where an output stands otherwise than its stretch. -/
theorem heaterOutputSwitchesWithItsStretch : Obligations.HeaterOutputSwitchesWithItsStretch := by
  intro s
  refine ⟨fun k m h => ?_, fun hd hp k => ?_⟩
  · have sw := nextSwitch_switches h
    unfold switchesAt at sw
    simp only [Bool.and_eq_true, decide_eq_true_eq, bne_iff_ne, ne_eq] at sw
    obtain ⟨⟨from_, below⟩, differs⟩ := sw
    have toggles : outputAt s k m = !s.thermal.outputs.get k := by
      cases h₁ : outputAt s k m <;> cases h₂ : s.thermal.outputs.get k <;> simp_all
    have run : exec (.heaterOutputSwitch k) s = .next { s.advance (m - periodTime s) with
        thermal := { s.thermal with outputs := s.thermal.outputs.set k (outputAt s k m) } } := by
      simp only [exec, execHeaterOutputSwitch, h]; rfl
    refine ⟨_, run, below, from_, by rw [toggles], ?_, rfl⟩
    rw [← outputAt_iff]
    simp [Tab8.get_set]
  · have quiet : nextSwitch s k ≠ some (periodTime s) := fun e => by
      have hn : ((duePost s ++ dueTrack s ++ dueThermal s ++ duePot s ++ dueAlarms s ++ dueWidth s ++ dueLines s ++ dueFlux s
          ++ dueBoundaries s).find? Prod.fst) = none := Option.map_eq_none_iff.mp hd
      have every : ∀ k : Idx8, k ∈ allIdx8 := by decide
      have := List.find?_eq_none.mp hn (nextSwitch s k == some (periodTime s), .heaterOutputSwitch k)
        (List.mem_append_right _ (List.mem_append_right _ (List.mem_map.mpr ⟨k, every k, rfl⟩)))
      simp [e] at this
    have same : switchesAt s k (periodTime s) = false := Bool.eq_false_iff.mpr fun e => quiet (nextSwitch_now e)
    have stands : outputAt s k (periodTime s) = s.thermal.outputs.get k := by
      simpa [switchesAt, hp] using same
    rw [← outputAt_iff, stands]

end Sys2Proof.Machine
end


section
/-! The flux unit: what a credit takes from the tank, what the end of pulses and of a purge leaves. -/

namespace Sys2Proof.Machine

open Sys2Proof.Config

/-! ## The tank (R69, R70) -/

theorem read32_writeBlock_mirror (m : Memory) (n : Nat) :
    (m.writeBlock mirrorTankAt (twoWords n)).read32 4 = n % 2 ^ 32 := by
  have low : (m.writeBlock mirrorTankAt (twoWords n)).read 4 = BitVec.ofNat 16 n := by
    rw [Memory.read_writeBlock]; rfl
  have high : (m.writeBlock mirrorTankAt (twoWords n)).read (4 + 1) = BitVec.ofNat 16 (n / 65536) := by
    rw [Memory.read_writeBlock]; rfl
  unfold Memory.read32
  rw [low, high, BitVec.toNat_ofNat, BitVec.toNat_ofNat]
  omega

theorem MirrorOnly.refl' {m n : Memory} (h : n = m) : MirrorOnly m n := h ▸ .refl m

/-- A credit and what it does to the counter, which it never raises. -/
structure TankFalls (s t : State) (v : Nat) : Prop where
  takes : TankTakes s t v
  le : t.flux.counter ≤ s.flux.counter

theorem TankFalls.of_same {s t : State} (hc : t.flux.counter = s.flux.counter) (hr : t.flux.remainder = s.flux.remainder)
    (hm : t.mem = s.mem) : TankFalls s t 0 := by
  refine ⟨⟨fun h => ?_, fun h => ?_, ?_⟩, hc.le⟩
  · rw [hc, Nat.add_zero, Nat.div_eq_of_lt h, Nat.sub_zero]
  · rw [hr, Nat.add_zero, Nat.mod_eq_of_lt h]
  · rw [if_pos hc, hm]

theorem TankFalls.refl (s : State) : TankFalls s s 0 := .of_same rfl rfl rfl

theorem TankFalls.trans {s t u : State} {v w : Nat} (h : TankFalls s t v) (g : TankFalls t u w) :
    TankFalls s u (v + w) := by
  refine ⟨⟨fun r => ?_, fun r => ?_, ?_⟩, g.le.trans h.le⟩
  · have small : t.flux.remainder < 1000 := by rw [h.takes.remainder r]; omega
    rw [g.takes.counter small, h.takes.counter r, h.takes.remainder r]
    omega
  · have small : t.flux.remainder < 1000 := by rw [h.takes.remainder r]; omega
    rw [g.takes.remainder small, h.takes.remainder r]
    omega
  · have a := h.le
    have b := g.le
    rw [g.takes.mirror, h.takes.mirror]
    split
    · next e =>
      split
      · next e' => rw [if_pos (e.trans e')]
      · next e' => rw [if_neg (by omega), e]
    · next e => rw [if_neg (by omega)]

/-- A credit to the tank of a state with the tank of `s`. -/
theorem tankFalls_creditTank {s u : State} (hc : u.flux.counter = s.flux.counter) (hr : u.flux.remainder = s.flux.remainder)
    (hm : u.mem = s.mem) (v : Nat) : TankFalls s (u.creditTank v) v := by
  refine ⟨⟨fun _ => ?_, fun _ => ?_, ?_⟩, ?_⟩
  · show u.flux.counter - (u.flux.remainder + v) / 1000 = _
    rw [hc, hr]
  · show (u.flux.remainder + v) % 1000 = _
    rw [hr]
  · show Memory.read32 (if u.flux.counter - (u.flux.remainder + v) / 1000 = u.flux.counter then u.mem else _) 4 = _
    show _ = if u.flux.counter - (u.flux.remainder + v) / 1000 = s.flux.counter then _ else _
    have after : (u.creditTank v).flux.counter = s.flux.counter - (u.flux.remainder + v) / 1000 := by rw [← hc]; rfl
    rw [after, hc, hm]
    split
    · rfl
    · rw [read32_writeBlock_mirror]
  · show u.flux.counter - _ ≤ _
    rw [hc]; exact Nat.sub_le _ _

theorem creditTank_events {s u : State} (hc : u.flux.counter = s.flux.counter) (hl : u.flux.low = s.flux.low)
    (hp : u.port = s.port) (v : Nat) : TankEvents s (u.creditTank v) := by
  have events : TankEvents u (u.creditTank v) := setTank_events u _ _
  generalize u.creditTank v = t at events
  obtain ⟨low, event⟩ := events
  unfold Pending at event
  rw [hc, hl, hp] at event
  exact ⟨low, event⟩

/-- The events of one consumption after another (R70). -/
theorem TankEvents.trans {s t u : State} (h : TankEvents s t) (g : TankEvents t u) (low : LowFormed s)
    (setup : t.port.setup = s.port.setup) (setup' : u.port.setup = t.port.setup)
    (le : t.flux.counter ≤ s.flux.counter) (le' : u.flux.counter ≤ t.flux.counter) : TankEvents s u := by
  refine ⟨g.low, ?_⟩
  have lt := h.low
  have lu := g.low
  unfold LowFormed State.loaded State.ws at low lt lu
  rw [setup] at lt
  rw [setup', setup] at lu
  rw [g.event, h.event]
  have falls : s.flux.low = true → t.flux.low = true := fun x => lt.mpr ⟨(low.mp x).1, le.trans_lt (low.mp x).2⟩
  have falls' : t.flux.low = true → u.flux.low = true := fun x => lu.mpr ⟨(lt.mp x).1, le'.trans_lt (lt.mp x).2⟩
  constructor
  · rintro ((h | ⟨a, b⟩ | ⟨a, b⟩) | ⟨a, b⟩ | ⟨a, b⟩)
    · exact .inl h
    · exact .inr (.inl ⟨a, by omega⟩)
    · exact .inr (.inr ⟨a, falls' b⟩)
    · exact .inr (.inl ⟨by omega, b⟩)
    · exact .inr (.inr ⟨Bool.eq_false_iff.mpr fun x => Bool.false_ne_true (a.symm.trans (falls x)), b⟩)
  · rintro (h | ⟨a, b⟩ | ⟨a, b⟩)
    · exact .inl (.inl h)
    · by_cases z : t.flux.counter = 0
      · exact .inl (.inr (.inl ⟨a, z⟩))
      · exact .inr (.inl ⟨z, b⟩)
    · by_cases z : t.flux.low = true
      · exact .inl (.inr (.inr ⟨a, z⟩))
      · exact .inr (.inr ⟨by simpa using z, b⟩)

/-- A consumption that leaves the tank alone reports nothing. -/
theorem TankEvents.of_same {s t : State} (low : LowFormed s) (hc : t.flux.counter = s.flux.counter)
    (hl : t.flux.low = s.flux.low) (hp : t.port = s.port) : TankEvents s t := by
  refine ⟨?_, ?_⟩
  · unfold LowFormed State.loaded State.ws at low ⊢
    rw [hc, hl, hp]; exact low
  · unfold Pending
    rw [hc, hl, hp]
    refine ⟨.inl, ?_⟩
    rintro (h | ⟨a, b⟩ | ⟨a, b⟩)
    · exact h
    · exact absurd b a
    · rw [a] at b; cases b

/-! ## The end of a pulse (R68) -/

/-- The state less what the end of a pulse or a credit writes. -/
def State.uncredited (s : State) : State :=
  { s with
    mem := []
    track := { s.track with records := [] }
    flux := { s.flux with pulses := Tab8.ofFn fun _ => none, counter := 0, remainder := 0, low := false }
    port := { s.port with notices := 0, marks := 0 } }

/-- The flux of a record that has taken credits of `n` nanolitres (R68). -/
def FluxTakes (n : Nat) (r q : Record) : Prop :=
  q = { r with flux := q.flux } ∧ (r.flux < 2 ^ 32 → q.flux = min (r.flux + n) (2 ^ 32 - 1))

theorem FluxTakes.refl (r : Record) : FluxTakes 0 r r := ⟨rfl, fun h => by omega⟩

theorem FluxTakes.trans {n m : Nat} {r q x : Record} (h : FluxTakes n r q) (g : FluxTakes m q x) :
    FluxTakes (n + m) r x := by
  obtain ⟨shape, flux⟩ := h
  obtain ⟨shape', flux'⟩ := g
  refine ⟨?_, fun hr => ?_⟩
  · rw [shape'] ; rw [shape]
  · rw [flux' (by rw [flux hr]; omega), flux hr]; omega

/-- Credits to the records of a list, to each by its ordinal. -/
def RecordsTake (c : BitVec 16 → Nat) (rs qs : List Record) : Prop :=
  List.Forall₂ (fun r q => FluxTakes (c r.ordinal) r q) rs qs

theorem RecordsTake.refl (rs : List Record) : RecordsTake (fun _ => 0) rs rs :=
  List.forall₂_same.mpr fun r _ => .refl r

theorem RecordsTake.trans {c d : BitVec 16 → Nat} {rs qs xs : List Record} (h : RecordsTake c rs qs)
    (g : RecordsTake d qs xs) : RecordsTake (fun o => c o + d o) rs xs := by
  unfold RecordsTake at *
  induction h generalizing xs with
  | nil => cases g; exact .nil
  | @cons r q _ _ hr _ ih =>
    cases g with
    | cons hq g =>
      refine .cons ?_ (ih g)
      have : q.ordinal = r.ordinal := by rw [hr.1]
      rw [this] at hq
      exact hr.trans hq

theorem recordsTake_creditRecord (o : BitVec 16) (n : Nat) (rs : List Record) :
    RecordsTake (fun x => if x = o then n else 0) rs (creditRecord o n rs) := by
  unfold RecordsTake creditRecord mapRecords
  rw [List.forall₂_map_right_iff]
  refine List.forall₂_same.mpr fun r _ => ?_
  dsimp only
  by_cases h : r.ordinal = o
  · rw [if_pos h, if_pos (beq_iff_eq.mpr h)]; exact ⟨rfl, fun _ => rfl⟩
  · rw [if_neg h, if_neg (by simpa using h)]; exact .refl r

/-- What the pulse of lane `k` is credited with where it satisfies `p` and ends now (R68). -/
def laneCredit (s : State) (p : Pulse → Bool) (k : Idx8) : Nat :=
  match s.flux.pulses.get k with
  | some u => if p u then s.ws.flow k * min (s.clock - u.start).toNat u.q else 0
  | none => 0

theorem pulseCredits_eq (s : State) (p : Pulse → Bool) : pulseCredits s p = (allIdx8.map (laneCredit s p)).sum := rfl

/-- The pulses of the lanes `ls` that satisfy `p` have ended from `s` to `t`, with their credits; those to the records where
`b`. -/
structure PulsesEnd (s t : State) (ls : List Idx8) (p : Pulse → Bool) (b : Bool) : Prop where
  rest : t.uncredited = s.uncredited
  pulses : ∀ k, t.flux.pulses.get k = if k ∈ ls then (s.flux.pulses.get k).filter fun u => !p u else s.flux.pulses.get k
  tank : TankFalls s t (ls.map (laneCredit s p)).sum
  records : RecordsTake (fun o => if b then (ls.map (laneCredit s fun u => p u && u.ordinal == o)).sum else 0)
    s.track.records t.track.records
  unread : b = false → t.track.records = s.track.records
  mirror : MirrorOnly s.mem t.mem
  events : LowFormed s → TankEvents s t

/-- What is outside a credit is as before. -/
theorem uncredited_frame {s t : State} (h : t.uncredited = s.uncredited) :
    t = { s with
          mem := t.mem, track := { s.track with records := t.track.records }
          flux :=
            { s.flux with
              pulses := t.flux.pulses, counter := t.flux.counter, remainder := t.flux.remainder, low := t.flux.low }
          port := { s.port with notices := t.port.notices, marks := t.port.marks } } := by
  have shape : ∀ u : State, u = { u.uncredited with
      mem := u.mem, track := { u.uncredited.track with records := u.track.records }
      flux :=
        { u.uncredited.flux with
          pulses := u.flux.pulses, counter := u.flux.counter, remainder := u.flux.remainder, low := u.flux.low }
      port := { u.uncredited.port with notices := u.port.notices, marks := u.port.marks } } := fun _ => rfl
  conv_lhs => rw [shape t, h]
  rfl

theorem uncredited_setTank (s : State) (c r : Nat) : (s.setTank c r).uncredited = s.uncredited := by
  unfold State.setTank
  generalize (decide (c = 0) && s.flux.counter != 0 || lowMark s c && !s.flux.low) = b
  cases b <;> rfl

theorem laneCredit_congr {s t : State} {k : Idx8} (hp : t.flux.pulses.get k = s.flux.pulses.get k)
    (h : t.uncredited = s.uncredited) (p : Pulse → Bool) : laneCredit t p k = laneCredit s p k := by
  have clock : t.clock = s.clock := (congrArg State.clock h :)
  have setup : t.port.setup = s.port.setup := (congrArg (fun u => u.port.setup) h :)
  unfold laneCredit State.ws
  rw [hp, clock, setup]

/-- One pulse that satisfies `p` ends. -/
theorem cutPulse_ends (s : State) (p : Pulse → Bool) (b : Bool) (k : Idx8) : PulsesEnd s (s.cutPulse p b k) [k] p b := by
  have none_ : ∀ h : laneCredit s p k = 0, (s.flux.pulses.get k).filter (fun u => !p u) = s.flux.pulses.get k →
      (∀ o, laneCredit s (fun u => p u && u.ordinal == o) k = 0) → PulsesEnd s s [k] p b := fun h hp ho => by
    refine ⟨rfl, fun j => ?_, ?_, ?_, fun _ => rfl, .refl _, fun low => .of_same low rfl rfl rfl⟩
    · split
      · next hj => rw [List.mem_singleton.mp hj, hp]
      · rfl
    · simpa [h] using TankFalls.refl s
    · simpa [ho] using RecordsTake.refl s.track.records
  unfold State.cutPulse
  split
  · next u hu =>
    split
    · next hp =>
      obtain ⟨a, ha⟩ : ∃ a : State, a = { s with
          flux := { s.flux with pulses := s.flux.pulses.set k none }
          track :=
            { s.track with
              records := if b then creditRecord u.ordinal (s.ws.flow k * pulseElapsed s u) s.track.records
                else s.track.records } } := ⟨_, rfl⟩
      have credit : laneCredit s p k = s.ws.flow k * pulseElapsed s u := by
        unfold laneCredit; rw [hu]; exact if_pos hp
      have same : a.uncredited = s.uncredited := by rw [ha]; rfl
      have tank : TankFalls s (a.creditTank (s.ws.flow k * pulseElapsed s u)) _ :=
        tankFalls_creditTank (by rw [ha]) (by rw [ha]) (by rw [ha]) _
      have step : s.endPulse k u (pulseElapsed s u) b = a.creditTank (s.ws.flow k * pulseElapsed s u) := by rw [ha]; rfl
      rw [step]
      refine ⟨(uncredited_setTank a _ _).trans same, fun j => ?_, ?_, ?_, fun hb => ?_, ?_, fun low => ?_⟩
      · show a.flux.pulses.get j = _
        have : a.flux.pulses = s.flux.pulses.set k none := by rw [ha]
        rw [this, Tab8.get_set]
        by_cases hj : j = k
        · subst hj
          rw [if_pos rfl, if_pos (List.mem_singleton.mpr rfl), hu, Option.filter_some, hp]; rfl
        · rw [if_neg hj, if_neg (by simpa using hj)]
      · simpa [credit] using tank
      · show RecordsTake _ _ a.track.records
        have : a.track.records = _ := congrArg (·.track.records) ha
        rw [this]
        cases b with
        | false => exact RecordsTake.refl _
        | true =>
          have each : (fun o => if u.ordinal = o then s.ws.flow k * pulseElapsed s u else 0) =
              fun o => ([k].map (laneCredit s fun u => p u && u.ordinal == o)).sum := by
            funext o
            simp only [List.map_cons, List.map_nil, List.sum_cons, List.sum_nil, Nat.add_zero]
            unfold laneCredit
            rw [hu]
            by_cases ho : u.ordinal = o
            · simp [hp, ho, pulseElapsed, elapsed]
            · simp [ho]
          have records := recordsTake_creditRecord u.ordinal (s.ws.flow k * pulseElapsed s u) s.track.records
          simp only [eq_comm (b := u.ordinal), each] at records
          exact records
      · show a.track.records = _
        rw [ha, hb]; rfl
      · have : a.mem = s.mem := by rw [ha]
        exact this ▸ mirrorOnly_setTank a _ _
      · exact creditTank_events (by rw [ha]) (by rw [ha]) (by rw [ha]) _
    · next hp =>
      have hp : p u = false := by simpa using hp
      exact none_ (by unfold laneCredit; rw [hu]; simp [hp]) (by simp [hu, hp]) fun o => by
        unfold laneCredit; rw [hu]; simp [hp]
  · next hu =>
    exact none_ (by unfold laneCredit; rw [hu]) (by simp [hu]) fun o => by unfold laneCredit; rw [hu]

theorem PulsesEnd.trans {s t u : State} {ls ms : List Idx8} {p : Pulse → Bool} {b : Bool} (h : PulsesEnd s t ls p b)
    (g : PulsesEnd t u ms p b) (apart : ∀ k ∈ ms, k ∉ ls) : PulsesEnd s u (ls ++ ms) p b := by
  have credits : ∀ q, (ms.map (laneCredit t q)).sum = (ms.map (laneCredit s q)).sum := fun q => by
    congr 1
    refine List.map_congr_left fun k hk => laneCredit_congr ?_ h.rest q
    rw [h.pulses, if_neg (apart k hk)]
  have setup : t.port.setup = s.port.setup := (congrArg (fun u => u.port.setup) h.rest :)
  have setup' : u.port.setup = t.port.setup := (congrArg (fun u => u.port.setup) g.rest :)
  refine ⟨g.rest.trans h.rest, fun k => ?_, ?_, ?_, fun hb => (g.unread hb).trans (h.unread hb),
    h.mirror.trans g.mirror,
    fun low => (h.events low).trans (g.events (h.events low).low) low setup setup' h.tank.le g.tank.le⟩
  · rw [g.pulses, h.pulses]
    by_cases hl : k ∈ ls <;> by_cases hm : k ∈ ms <;> simp [hl, hm]
  · rw [List.map_append, List.sum_append, ← credits]
    exact h.tank.trans g.tank
  · have r := h.records.trans g.records
    cases b <;> simpa [credits] using r

/-- R66, R68 and R73: every pulse that satisfies `p` ends, each with its credit. -/
theorem cutPulses_ends (s : State) (p : Pulse → Bool) (b : Bool) : PulsesEnd s (s.cutPulses p b) allIdx8 p b := by
  have all : ∀ (ls : List Idx8) (t : State), ls.Nodup →
      PulsesEnd t (ls.foldl (fun s lane => s.cutPulse p b lane) t) ls p b := fun ls => by
    induction ls with
    | nil =>
      intro t _
      refine ⟨rfl, fun k => by simp, .refl t, ?_, fun _ => rfl, .refl _, fun low => .of_same low rfl rfl rfl⟩
      have := RecordsTake.refl t.track.records
      cases b <;> exact this
    | cons k ls ih =>
      intro t nodup
      obtain ⟨fresh, nodup⟩ := List.nodup_cons.mp nodup
      exact (cutPulse_ends t p b k).trans (ih _ nodup) fun j hj hk => fresh (List.mem_singleton.mp hk ▸ hj)
  exact all allIdx8 s (by decide)

end Sys2Proof.Machine
end


section
/-! The purge and the inhibit (R73, R78), and what the consequences of a step make of the flux unit. -/

namespace Sys2Proof.Machine

open Sys2Proof.Config

/-! ## The purge (R78) -/

theorem totalFlow_eq (c : Setup) : totalFlow c = (allIdx8.map fun k => c.flow k).sum :=
  List.sum_eq_foldl.symm

/-- The purge after a credit of its elapsed milliseconds. -/
def Purge.credited (g : Purge) (now : Clock) : Purge :=
  { remaining := g.remaining - min (elapsed g.creditedAt now) g.remaining, creditedAt := now }

/-- A running purge takes its credit: what it leaves. -/
structure PurgeCredited (s t : State) : Prop where
  rest : t.uncredited = { s.uncredited with flux := { s.uncredited.flux with purge := t.flux.purge } }
  records : t.track.records = s.track.records
  pulses : t.flux.pulses = s.flux.pulses
  tank : TankFalls s t (purgeCredit s)
  mirror : MirrorOnly s.mem t.mem

theorem creditPurge_none {s : State} (h : s.flux.purge = none) : s.creditPurge = s := by
  unfold State.creditPurge; rw [h]

theorem creditPurge_some {s : State} {g : Purge} (h : s.flux.purge = some g) :
    s.creditPurge =
      State.creditTank { s with flux := { s.flux with purge := some (g.credited s.clock) } } (purgeCredit s) := by
  have credit : purgeCredit s = totalFlow s.ws * min (elapsed g.creditedAt s.clock) g.remaining := by
    unfold purgeCredit; rw [h, totalFlow_eq]; rfl
  unfold State.creditPurge
  rw [credit, h]
  rfl

theorem creditPurge_credited (s : State) : PurgeCredited s s.creditPurge ∧
    s.creditPurge.flux.purge = s.flux.purge.map (·.credited s.clock) ∧ (LowFormed s → TankEvents s s.creditPurge) := by
  have mirror := mirrorOnly_creditPurge s
  cases hg : s.flux.purge with
  | none =>
    have credit : purgeCredit s = 0 := by unfold purgeCredit; rw [hg]
    rw [creditPurge_none hg]
    exact ⟨⟨rfl, rfl, rfl, credit ▸ .refl s, .refl _⟩, hg, fun low => .of_same low rfl rfl rfl⟩
  | some g =>
    obtain ⟨a, ha⟩ : ∃ a : State, a = { s with flux := { s.flux with purge := some (g.credited s.clock) } } := ⟨_, rfl⟩
    rw [creditPurge_some hg, ← ha] at mirror ⊢
    refine ⟨⟨?_, ?_, ?_, tankFalls_creditTank (by rw [ha]) (by rw [ha]) (by rw [ha]) _, mirror⟩, ?_, fun _ =>
      creditTank_events (by rw [ha]) (by rw [ha]) (by rw [ha]) _⟩
    · refine (uncredited_setTank a _ _).trans ?_
      rw [show (a.creditTank (purgeCredit s)).flux.purge = a.flux.purge from rfl, ha]
      rfl
    · show a.track.records = _; rw [ha]
    · show a.flux.pulses = _; rw [ha]
    · show a.flux.purge = _; rw [ha]; rfl

/-- R78: a purge that ends. -/
theorem endPurge_ends (s : State) : PurgeCredited s s.endPurge ∧ s.endPurge.flux.purge = none ∧
    (s.flux.purge ≠ none → Pending s.endPurge .fluxEvent) := by
  obtain ⟨⟨rest, records, pulses, tank, mirror⟩, -, -⟩ := creditPurge_credited s
  unfold State.endPurge
  cases hg : s.flux.purge with
  | none =>
    rw [creditPurge_none hg] at rest tank mirror
    exact ⟨⟨rest, rfl, rfl, tank, mirror⟩, hg, fun h => absurd rfl h⟩
  | some g =>
    refine ⟨⟨?_, records, pulses, ⟨⟨tank.takes.counter, tank.takes.remainder, tank.takes.mirror⟩, tank.le⟩, mirror⟩, rfl,
      fun _ => ?_⟩
    · have : ∀ u : State, State.uncredited { u with
          flux := { u.flux with purge := none }, port := u.port.notify .fluxEvent } =
          { u.uncredited with flux := { u.uncredited.flux with purge := none } } := fun _ => rfl
      rw [this, rest]
    · simp [Pending, Port.notify, Notice.bit, Notice.mask]

/-! ## The inhibit (R73) -/

/-- The marks of ended windows on one record. -/
structure Incomplete (ws : List ActiveWindow) (r q : Record) : Prop where
  flux : q.flux = r.flux
  ordinal : q.ordinal = r.ordinal
  bits : ∀ n, n < 16 → (q.incomplete.getLsbD n = true ↔ r.incomplete.getLsbD n = true ∨
    ∃ w ∈ ws, w.ordinal = r.ordinal ∧ w.window = n)
  flag : (∃ w ∈ ws, w.ordinal = r.ordinal) → q.has .fluxIncomplete = true
  flags : MoreFlags r q

theorem getLsbD_bitMask' (k n : Nat) (hn : n < 16) : (bitMask k).getLsbD n = decide (n = k) := by
  have e : bitMask k = BitVec.twoPow 16 k := (BitVec.twoPow_eq 16 k).symm
  rw [e, BitVec.getLsbD_twoPow]
  by_cases h : n = k
  · subst h; simp [hn]
  · simp [h, Ne.symm h]

theorem Record.mark_has (r : Record) (f : Flag) : (r.mark f).has f = true := by
  have bit : f.bit < 16 := by cases f <;> decide
  show (r.flags ||| bitMask f.bit).getLsbD f.bit = true
  rw [BitVec.getLsbD_or, getLsbD_bitMask' _ _ bit]
  simp

theorem incomplete_markIncomplete (ws : List ActiveWindow) (rs : List Record) :
    List.Forall₂ (Incomplete ws) rs (markIncomplete ws rs) := by
  unfold markIncomplete
  induction ws generalizing rs with
  | nil => exact List.forall₂_same.mpr fun r _ => ⟨rfl, rfl, fun n _ => by simp, fun h => by simp at h, fun _ h => h⟩
  | cons w ws ih =>
    have rest := ih (mapRecords (fun r => r.ordinal == w.ordinal)
      (fun r => ({ r with incomplete := r.incomplete ||| bitMask w.window }).mark .fluxIncomplete) rs)
    rw [List.foldl_cons]
    rw [mapRecords, List.forall₂_map_left_iff] at rest
    refine rest.imp fun r q h => ?_
    by_cases hr : r.ordinal = w.ordinal
    · rw [if_pos (by simpa using hr)] at h
      refine ⟨h.flux, h.ordinal, fun n hn => ?_, fun _ => h.flags _ (Record.mark_has _ _),
        fun k g => h.flags k (moreFlags_mark _ _ k g)⟩
      have bit : (r.incomplete ||| bitMask w.window).getLsbD n = (r.incomplete.getLsbD n || decide (n = w.window)) := by
        rw [BitVec.getLsbD_or, getLsbD_bitMask' _ n hn]
      have here : q.incomplete.getLsbD n = true ↔ (r.incomplete ||| bitMask w.window).getLsbD n = true ∨
          ∃ v ∈ ws, v.ordinal = r.ordinal ∧ v.window = n := h.bits n hn
      rw [here, bit, Bool.or_eq_true, decide_eq_true_eq, or_assoc, List.exists_mem_cons_iff, hr]
      simp only [true_and, eq_comm (a := n)]
    · rw [if_neg (by simpa using hr)] at h
      refine ⟨h.flux, h.ordinal, fun n hn => ?_, fun g => h.flag ?_, h.flags⟩
      · rw [h.bits n hn]; simp [Ne.symm hr]
      · simpa [Ne.symm hr] using g

theorem forall₂_comp {α β γ : Type} {R : α → β → Prop} {S : β → γ → Prop} {l : List α} {m : List β} {n : List γ}
    (h : List.Forall₂ R l m) (g : List.Forall₂ S m n) : List.Forall₂ (fun a c => ∃ b, R a b ∧ S b c) l n := by
  induction h generalizing n with
  | nil => cases g; exact .nil
  | cons a _ ih => cases g with | cons b g => exact .cons ⟨_, a, b⟩ (ih g)

/-- R73: the inhibit begins from `s` to `t`. -/
structure InhibitCut (s t : State) : Prop where
  active : t.flux.active = []
  pulses : ∀ k, t.flux.pulses.get k = none
  purge : t.flux.purge = none
  tank : TankFalls s t (pulseCredits s (fun _ => true) + purgeCredit s)
  edges : t.flux.edges =
    s.flux.edges.filter fun e => e.opens || !s.flux.active.any fun w => w.ordinal == e.ordinal && w.window == e.window
  records : List.Forall₂
    (fun r q => ∃ x, FluxTakes (pulseCredits s fun u => u.ordinal == r.ordinal) r x ∧ Incomplete s.flux.active x q)
    s.track.records t.track.records

theorem purgeCredit_congr {s t : State} (hp : t.flux.purge = s.flux.purge) (hs : t.port.setup = s.port.setup)
    (hc : t.clock = s.clock) : purgeCredit t = purgeCredit s := by
  unfold purgeCredit State.ws
  rw [hp, hs, hc]

theorem beginInhibit_cuts (s : State) : InhibitCut s s.beginInhibit := by
  obtain ⟨a, ha⟩ : ∃ a : State, a = s.cutPulses (fun _ => true) true := ⟨_, rfl⟩
  obtain ⟨b, hb⟩ : ∃ b : State, b = a.endPurge := ⟨_, rfl⟩
  have pulsesEnd : PulsesEnd s a allIdx8 (fun _ => true) true := ha ▸ cutPulses_ends s _ _
  obtain ⟨purgeEnd, noPurge, -⟩ := endPurge_ends a
  rw [← hb] at purgeEnd noPurge
  have step : s.beginInhibit = { b with
      track := { b.track with records := markIncomplete b.flux.active b.track.records }
      flux :=
        { b.flux with
          edges := b.flux.edges.filter fun e => !closesOneOf b.flux.active e
          active := [] } } := by rw [hb, ha]; rfl
  have purge : a.flux.purge = s.flux.purge := (congrArg (fun u => u.flux.purge) pulsesEnd.rest :)
  have setup : a.port.setup = s.port.setup := (congrArg (fun u => u.port.setup) pulsesEnd.rest :)
  have clock : a.clock = s.clock := (congrArg (fun u => u.clock) pulsesEnd.rest :)
  have active : b.flux.active = s.flux.active :=
    (congrArg (fun u => u.flux.active) purgeEnd.rest :).trans (congrArg (fun u => u.flux.active) pulsesEnd.rest :)
  have edges : b.flux.edges = s.flux.edges :=
    (congrArg (fun u => u.flux.edges) purgeEnd.rest :).trans (congrArg (fun u => u.flux.edges) pulsesEnd.rest :)
  have every : ∀ k : Idx8, k ∈ allIdx8 := by decide
  rw [step]
  refine ⟨rfl, fun k => ?_, noPurge, ?_, ?_, ?_⟩
  · show b.flux.pulses.get k = none
    rw [purgeEnd.pulses, pulsesEnd.pulses, if_pos (every k)]
    cases s.flux.pulses.get k <;> rfl
  · have tank := pulsesEnd.tank.trans purgeEnd.tank
    rw [purgeCredit_congr purge setup clock] at tank
    exact ⟨⟨tank.takes.counter, tank.takes.remainder, tank.takes.mirror⟩, tank.le⟩
  · show b.flux.edges.filter _ = _
    rw [edges, active]
    refine List.filter_congr fun e _ => ?_
    simp [closesOneOf, Bool.not_and]
  · show List.Forall₂ _ _ (markIncomplete b.flux.active b.track.records)
    rw [active, purgeEnd.records]
    have takes := pulsesEnd.records
    have marks := incomplete_markIncomplete s.flux.active a.track.records
    unfold RecordsTake at takes
    simp only [Bool.true_and, if_true] at takes
    exact forall₂_comp takes marks

end Sys2Proof.Machine
end


section
/-! What the consequences of a step make of the flux unit, in one formula: the inhibit acts once, before every other stage that
the flux unit could see; O40, O41. -/

namespace Sys2Proof.Machine

open Sys2Proof.Config

/-! ## After the inhibit has been formed -/

/-- No mode change is called for, the fans stand as commanded, and the inhibit reasons are those that stand. -/
structure Rests (s : State) : Prop where
  cooldown : cooldownDone s = false
  economy : hostLostEconomy s = false
  fans : s.extr.fan = fanCommand s
  inhibit : s.flux.inhibit = inhibitReasons s

/-- What the consequences leave of a record once the inhibit has been formed: all but flags, of which none is lost. -/
def Flagged (r q : Record) : Prop :=
  { q with flags := 0 } = { r with flags := 0 } ∧ MoreFlags r q

theorem Flagged.refl (r : Record) : Flagged r r := ⟨rfl, fun _ h => h⟩

theorem Flagged.trans {r q x : Record} (h : Flagged r q) (g : Flagged q x) : Flagged r x :=
  ⟨g.1.trans h.1, fun k a => g.2 k (h.2 k a)⟩

theorem flagged_refl (rs : List Record) : List.Forall₂ Flagged rs rs := List.forall₂_same.mpr fun r _ => .refl r

theorem flagged_trans {rs qs xs : List Record} (h : List.Forall₂ Flagged rs qs) (g : List.Forall₂ Flagged qs xs) :
    List.Forall₂ Flagged rs xs :=
  (forall₂_comp h g).imp fun _ _ ⟨_, a, b⟩ => a.trans b

theorem Record.flagged_markIf (r : Record) (b : Bool) (f : Flag) : Flagged r (r.markIf b f) := by
  refine ⟨?_, moreFlags_markIf r b f⟩
  cases b <;> rfl

theorem flagged_stopMarks (s : State) (rs : List Record) : List.Forall₂ Flagged rs (rs.map (stopMarks s)) := by
  rw [List.forall₂_map_right_iff]
  exact List.forall₂_same.mpr fun r _ => (Record.flagged_markIf r _ _).trans (Record.flagged_markIf _ _ _)

/-- What a stage leaves of the flux unit, the alarm points and the modes once the inhibit has been formed. -/
structure Calm (s t : State) : Prop where
  flux : t.flux = s.flux
  records : List.Forall₂ Flagged s.track.records t.track.records
  fan : t.extr.fan = s.extr.fan
  points : t.extr.points = s.extr.points
  modes : { t.modes with idle := none } = { s.modes with idle := none }
  tank : t.mem.read 4 = s.mem.read 4 ∧ t.mem.read 5 = s.mem.read 5

theorem Calm.refl (s : State) : Calm s s := ⟨rfl, flagged_refl _, rfl, rfl, rfl, rfl, rfl⟩

theorem Calm.trans {s t u : State} (h : Calm s t) (g : Calm t u) : Calm s u :=
  ⟨g.flux.trans h.flux, flagged_trans h.records g.records, g.fan.trans h.fan, g.points.trans h.points,
    g.modes.trans h.modes, g.tank.1.trans h.tank.1, g.tank.2.trans h.tank.2⟩

/-- The inhibit that stands is not begun again. -/
theorem reformInhibit_of_rests {s : State} (h : Rests s) : s.reformInhibit = s := by
  unfold State.reformInhibit
  dsimp only
  have no : (s.flux.inhibit.isEmpty && !(inhibitReasons s).isEmpty) = false := by
    rw [h.inhibit]; cases (inhibitReasons s).isEmpty <;> rfl
  rw [if_neg (by rw [no]; exact Bool.false_ne_true), ← h.inhibit]

theorem reformFans_of_rests {s : State} (h : Rests s) : s.reformFans = s := by
  unfold State.reformFans
  have no : (s.extr.fan && !fanCommand s && s.extr.anyFanPoint) = false := by
    rw [h.fans]; cases fanCommand s <;> simp
  rw [no, Extr.command_of_eq h.fans]
  rfl

theorem tankWords_rejectSlot (s : State) (n : SlotIx) (r : RejectReason) {a : Nat} (h : a < 6) :
    (s.rejectSlot n r).mem.read a = s.mem.read a := by
  have b := slotAt_bounds n
  unfold State.rejectSlot countClosed writeResult
  rw [Memory.read_write, if_neg (by simp [closedCountAt]; omega), Memory.read_write, if_neg (by omega),
    Memory.read_writeBlock_of_outside (.inl (by omega))]

theorem tankWords_setExpected (s : State) (e : Word) {a : Nat} (h : a = 4 ∨ a = 5) :
    (s.setExpected e).mem.read a = s.mem.read a := by
  unfold State.setExpected
  rw [Memory.read_write, if_neg (by simp [mirrorEAt]; omega)]

theorem Move.calm {s t : State} (m : Move s t) (h : Rests s) : Calm s t := by
  cases m with
  | mode => rw [modeStage_of_still h.cooldown h.economy]; exact .refl s
  | fans => rw [reformFans_of_rests h]; exact .refl s
  | inhibit => rw [reformInhibit_of_rests h]; exact .refl s
  | horn => exact ⟨rfl, flagged_refl _, rfl, rfl, rfl, rfl, rfl⟩
  | ref =>
    have records : s.reformRef.track.records = s.track.records.map (stopMarks s) := by
      unfold State.reformRef Track.refer; dsimp only; split <;> rfl
    exact ⟨rfl, records ▸ flagged_stopMarks s _, rfl, rfl, rfl, rfl, rfl⟩
  | reject n r => exact ⟨rfl, flagged_refl _, rfl, rfl, rfl, tankWords_rejectSlot s n r (by decide),
      tankWords_rejectSlot s n r (by decide)⟩
  | expected e => exact ⟨rfl, flagged_refl _, rfl, rfl, rfl, tankWords_setExpected s e (.inl rfl),
      tankWords_setExpected s e (.inr rfl)⟩
  | transition => exact ⟨by simp, by simpa using flagged_refl _, by simp, by simp, by simp, by simp, by simp⟩
  | _ => exact ⟨rfl, flagged_refl _, rfl, rfl, rfl, rfl, rfl⟩

theorem Move.kept {s t : State} (m : Move s t) : Kept s t := by
  cases m with
  | mode => exact kept_modeStage s
  | fans => exact kept_reformFans s
  | horn => exact kept_reformHorn s
  | inhibit => exact kept_reformInhibit s
  | grants => exact kept_cutGrants s
  | zones => exact kept_reformZones s
  | pumpTargets => exact kept_reformPumpTargets s
  | potTarget => exact kept_reformPotTarget s
  | outfeed => exact kept_reformOutfeed s
  | width => exact kept_reformWidth s
  | followDrop => exact kept_followDrop s
  | endDrop => exact kept_endDrop s
  | ref => exact kept_reformRef s
  | pumpRefs => exact kept_reformPumpRefs s
  | drive => exact kept_reformDrive s
  | waits => exact kept_reformWaits s
  | idle => exact kept_reformIdle s
  | line => exact kept_reformLine s
  | findings => exact kept_findings s _ _ _ _ _
  | reject => exact kept_rejectSlot s _ _
  | expected => exact kept_setExpected s _
  | phase => exact .of_core rfl rfl
  | holds => exact kept_takeHolds s
  | transition => exact kept_gateTransition s

theorem Move.outfeedMoves {s t : State} (m : Move s t) : OutfeedMoves s.outfeed.state t.outfeed.state := by
  cases m with
  | outfeed => exact (follows_reformOutfeed s).outfeed
  | drive => exact (follows_reformDrive s).outfeed
  | _ => simp [OutfeedMoves.refl]

/-- The outfeed empties by no consequence, and what rests goes on resting. -/
theorem Move.rests {s t : State} (m : Move s t) (h : Rests s) : Rests t := by
  have calm := m.calm h
  obtain ⟨mode, -, -, runOn⟩ := mode_of_modes calm.modes
  have kept := m.kept
  have outfeed := m.outfeedMoves
  have lost : t.port.hostLost = s.port.hostLost := kept.keeps.portHostLost
  have empty : t.track.records.isEmpty = s.track.records.isEmpty := kept.records_isEmpty
  have still : (t.outfeed.state == .empty) = (s.outfeed.state == .empty) := by
    rw [Bool.eq_iff_iff]; simp [outfeed.empty_iff]
  refine ⟨?_, ?_, ?_, ?_⟩
  · have := h.cooldown
    unfold cooldownDone drained at this ⊢
    rw [mode, empty, still, this]
  · have := h.economy
    unfold hostLostEconomy at this ⊢
    rw [mode, empty, lost, this]
  · rw [calm.fan, h.fans]
    unfold fanCommand; rw [mode, runOn]
  · rw [calm.flux, h.inhibit]
    unfold inhibitReasons
    congr 1
    funext r
    cases r <;> simp [inhibited, calm.points, calm.flux, mode]

theorem Moves.calm {s t : State} (m : Moves s t) (h : Rests s) : Calm s t ∧ Rests t := by
  have := m.lift (R := fun s t => Rests s → Calm s t ∧ Rests t) (fun s h => ⟨.refl s, h⟩)
    (fun f g h => ⟨(f h).1.trans (g (f h).2).1, (g (f h).2).2⟩) (fun m h => ⟨m.calm h, m.rests h⟩)
  exact this h

/-! ## The whole -/

/-- The re-forming after the inhibit has been formed. -/
theorem moves_reformRest (u : State) :
    Moves u u.cutGrants.reformTargets.reformMotion.reformWaits.reformIdle.reformLine := by
  have targets := ((((Moves.refl u).then (.grants _)).then (.zones _)).then (.pumpTargets _)).then (.potTarget _)
  have motion := (((targets.then (.outfeed _)).then (.width _)).trans (moves_reformConveyor _)).then (.drive _)
  exact ((motion.then (.waits _)).then (.idle _)).then (.line _)

/-- The state in which the inhibit is formed. -/
def State.beforeInhibit (s : State) : State :=
  s.modeStage.reformFans.reformHorn

theorem kept_beforeInhibit (s : State) : Kept s s.beforeInhibit :=
  ((kept_modeStage s).trans (kept_reformFans _)).trans (kept_reformHorn _)

theorem blocks_beforeInhibit (s : State) : s.beforeInhibit.flux = s.flux ∧ s.beforeInhibit.track = s.track ∧
    s.beforeInhibit.mem = s.mem ∧ s.beforeInhibit.clock = s.clock ∧ s.beforeInhibit.port.setup = s.port.setup :=
  ⟨by simp [State.beforeInhibit], by simp [State.beforeInhibit], by simp [State.beforeInhibit],
    by simp [State.beforeInhibit], (kept_beforeInhibit s).keeps.portSetup⟩

theorem rests_reformInhibit (s : State) : Rests s.beforeInhibit.reformInhibit := by
  have kept := (kept_beforeInhibit s).trans (kept_reformInhibit _)
  have modes : s.beforeInhibit.reformInhibit.modes = s.modeStage.modes := by simp [State.beforeInhibit]
  obtain ⟨cooldown, economy⟩ := still_after kept (by simp [State.beforeInhibit, OutfeedMoves.refl]) (by rw [modes])
  refine ⟨cooldown, economy, ?_, rfl⟩
  have fan : s.beforeInhibit.reformInhibit.extr.fan = s.modeStage.reformFans.extr.fan := by simp [State.beforeInhibit, State.reformHorn]
  rw [fan]
  unfold fanCommand
  rw [modes]
  exact Extr.command_fan _ _ _

/-- Once the inhibit is formed, the consequences of a step leave the flux unit. -/
theorem settle_calm (s : State) : Calm s.beforeInhibit.reformInhibit s.settle ∧ Rests s.settle := by
  have first : Moves s.beforeInhibit.reformInhibit s.reform := moves_reformRest s.beforeInhibit.reformInhibit
  exact (((first.trans (moves_gateStage _)).trans (moves_pass _)).trans (moves_reform _)).calm (rests_reformInhibit s)

theorem settle_flux (s : State) : s.settle.flux = s.beforeInhibit.reformInhibit.flux := (settle_calm s).1.flux

/-- Where the inhibit does not begin, it changes the reasons alone. -/
theorem reformInhibit_still {s : State} (h : s.flux.inhibit ≠ [] ∨ inhibitReasons s = []) :
    s.reformInhibit = { s with flux := { s.flux with inhibit := inhibitReasons s } } := by
  unfold State.reformInhibit
  have no : (s.flux.inhibit.isEmpty && !(inhibitReasons s).isEmpty) = false := by
    rcases h with h | h
    · simp [h]
    · simp [h]
  dsimp only
  rw [if_neg (by rw [no]; exact Bool.false_ne_true)]

theorem reformInhibit_begins {s : State} (h : s.flux.inhibit = []) (g : inhibitReasons s ≠ []) :
    s.reformInhibit = { s.beginInhibit with
      flux := { s.beginInhibit.flux with inhibit := inhibitReasons s.beginInhibit } } := by
  unfold State.reformInhibit
  dsimp only
  rw [if_pos (by simp [h, g])]

/-! ## Whether the inhibit begins (R73) -/

theorem pulseCredits_congr {s t : State} (hp : t.flux.pulses = s.flux.pulses) (hs : t.port.setup = s.port.setup)
    (hc : t.clock = s.clock) (p : Pulse → Bool) : pulseCredits t p = pulseCredits s p := by
  unfold pulseCredits State.ws
  rw [hp, hs, hc]

theorem TankTakes.congr {s t s' t' : State} {v : Nat} (h : TankTakes s t v) (hs : s'.flux.counter = s.flux.counter)
    (hs' : s'.flux.remainder = s.flux.remainder) (hm : s'.mem.read32 4 = s.mem.read32 4)
    (ht : t'.flux.counter = t.flux.counter) (ht' : t'.flux.remainder = t.flux.remainder)
    (hn : t'.mem.read32 4 = t.mem.read32 4) : TankTakes s' t' v := by
  refine ⟨fun r => ?_, fun r => ?_, ?_⟩
  · rw [ht, hs, hs']; exact h.counter (hs' ▸ r)
  · rw [ht', hs']; exact h.remainder (hs' ▸ r)
  · rw [hn, ht, hs, hm]; exact h.mirror

theorem Calm.read32 {s t : State} (h : Calm s t) : t.mem.read32 4 = s.mem.read32 4 := by
  unfold Memory.read32; rw [h.tank.1, h.tank.2]

/-- The reasons that stand when the inhibit begins stand after it. -/
theorem inhibitReasons_beginInhibit {s : State} (h : inhibitReasons s ≠ []) : inhibitReasons s.beginInhibit ≠ [] := by
  obtain ⟨r, hr⟩ := List.exists_mem_of_ne_nil _ h
  refine List.ne_nil_of_mem (a := r) ((mem_inhibitReasons _ r).mpr ?_)
  have before := (mem_inhibitReasons s r).mp hr
  have fault : s.beginInhibit.flux.pressureFault = s.flux.pressureFault := (kept_beginInhibit s).keeps.fluxPressureFault
  have counter := (beginInhibit_cuts s).tank.le
  cases r with
  | tank =>
    simp only [inhibited, decide_eq_true_eq] at before ⊢
    omega
  | pressure => simpa [inhibited, fault] using before
  | extraction => simpa [inhibited] using before
  | vapour => simpa [inhibited] using before
  | mode => simpa [inhibited] using before

/-- What a step's consequences leave where the inhibit does not begin. -/
theorem settle_stands {s : State} (h : s.flux.inhibit ≠ [] ∨ inhibitReasons s.beforeInhibit = []) :
    s.settle.flux = { s.flux with inhibit := inhibitReasons s.beforeInhibit } ∧
      List.Forall₂ Flagged s.track.records s.settle.track.records ∧ s.settle.mem.read32 4 = s.mem.read32 4 := by
  obtain ⟨flux, track, mem, -, -⟩ := blocks_beforeInhibit s
  obtain ⟨calm, -⟩ := settle_calm s
  have still := reformInhibit_still (s := s.beforeInhibit) (flux.symm ▸ h)
  generalize inhibitReasons s.beforeInhibit = rs at still
  have memory := calm.read32
  obtain ⟨calmFlux, records, -, -, -, -⟩ := calm
  rw [still] at calmFlux records memory
  rw [← flux, ← track, ← mem]
  exact ⟨calmFlux, records, memory⟩

/-- What they leave where it begins. -/
structure InhibitBegun (s t : State) : Prop where
  reasons : t.flux.inhibit ≠ []
  active : t.flux.active = []
  pulses : ∀ k, t.flux.pulses.get k = none
  purge : t.flux.purge = none
  tank : TankTakes s t (pulseCredits s (fun _ => true) + purgeCredit s)
  edges : t.flux.edges =
    s.flux.edges.filter fun e => e.opens || !s.flux.active.any fun w => w.ordinal == e.ordinal && w.window == e.window
  records : List.Forall₂
    (fun r q => ∃ x, FluxTakes (pulseCredits s fun u => u.ordinal == r.ordinal) r x ∧ Incomplete s.flux.active x q)
    s.track.records t.track.records

theorem Incomplete.flagged {ws : List ActiveWindow} {r q x : Record} (h : Incomplete ws r q) (g : Flagged q x) :
    Incomplete ws r x := by
  obtain ⟨same, more⟩ := g
  have flux : x.flux = q.flux := (congrArg Record.flux same :)
  have ordinal : x.ordinal = q.ordinal := (congrArg Record.ordinal same :)
  have bits : x.incomplete = q.incomplete := (congrArg Record.incomplete same :)
  exact ⟨flux.trans h.flux, ordinal.trans h.ordinal, fun n hn => bits ▸ h.bits n hn, fun w => more _ (h.flag w),
    fun k b => more k (h.flags k b)⟩

theorem settle_begins {s : State} (h : s.flux.inhibit = []) (g : inhibitReasons s.beforeInhibit ≠ []) :
    InhibitBegun s s.settle := by
  obtain ⟨flux, track, mem, clock, setup⟩ := blocks_beforeInhibit s
  obtain ⟨calm, -⟩ := settle_calm s
  have begins := reformInhibit_begins (s := s.beforeInhibit) (flux.symm ▸ h) g
  have stands := inhibitReasons_beginInhibit g
  have cuts := beginInhibit_cuts s.beforeInhibit
  generalize s.beforeInhibit.beginInhibit = b at begins stands cuts
  generalize s.settle = t at calm ⊢
  have memory := calm.read32
  obtain ⟨calmFlux, records, -, -, -, -⟩ := calm
  rw [begins] at calmFlux records memory
  obtain ⟨active, pulses, purge, tank, edges, marked⟩ := cuts
  have credit : ∀ p, pulseCredits s.beforeInhibit p = pulseCredits s p :=
    pulseCredits_congr (by rw [flux]) setup clock
  simp only [credit, flux, track, purgeCredit_congr (t := s.beforeInhibit) (by rw [flux]) setup clock] at tank edges marked
  refine ⟨by rw [calmFlux]; exact stands, by rw [calmFlux]; exact active, fun k => by rw [calmFlux]; exact pulses k,
    by rw [calmFlux]; exact purge,
    tank.takes.congr (by rw [flux]) (by rw [flux]) (by rw [mem]) (by rw [calmFlux]) (by rw [calmFlux]) memory,
    by rw [calmFlux]; exact edges, (forall₂_comp marked records).imp ?_⟩
  rintro r q ⟨x, ⟨y, hy, hx⟩, hq⟩
  exact ⟨y, hy, hx.flagged hq⟩

/-- R73: the inhibit begins in the consequences of a step exactly where none stood and a reason appears. -/
theorem inhibitBegins_settle (s : State) :
    InhibitBegins s s.settle ↔ s.flux.inhibit = [] ∧ inhibitReasons s.beforeInhibit ≠ [] := by
  unfold InhibitBegins
  by_cases h : s.flux.inhibit = []
  · by_cases g : inhibitReasons s.beforeInhibit = []
    · simp [h, g, (settle_stands (.inr g)).1]
    · simp [h, g, (settle_begins h g).reasons]
  · simp [h]

theorem fluxSettles_settle (s : State) : FluxSettles s s.settle := by
  constructor <;> rw [inhibitBegins_settle]
  · intro h
    have stands : s.flux.inhibit ≠ [] ∨ inhibitReasons s.beforeInhibit = [] := by
      by_contra c; push Not at c; exact h c
    rw [(settle_stands stands).1]
    exact ⟨rfl, rfl, rfl, rfl⟩
  · rintro ⟨h, g⟩
    have b := settle_begins h g
    exact ⟨b.active, b.pulses, b.purge, b.edges⟩

/-! ## FLUX_PRESSURE and the end of a purge (R76, R78) -/

theorem forall₂_getElem? {α β : Type} {R : α → β → Prop} {l : List α} {m : List β} (h : List.Forall₂ R l m) {j : Nat}
    {a : α} {b : β} (ha : l[j]? = some a) (hb : m[j]? = some b) : R a b := by
  induction h generalizing j with
  | nil => simp at ha
  | cons r _ ih =>
    cases j with
    | zero => cases ha; cases hb; exact r
    | succ j => exact ih ha hb

theorem fluxPressure_latches (s : State) (hf : s.flux.pressureFault = false) (hc : 4 ≤ s.flux.pressureCount) :
    ∃ t, exec .fluxPressure s = .next t ∧ .pressure ∈ t.flux.inhibit ∧ Pending t .fluxEvent ∧
      (s.flux.inhibit = [] → InhibitBegun s t) ∧ Keeps { s with flux := { s.flux with pressureFault := true } } t := by
  let a : State := { s with flux := { s.flux with pressureFault := true }, port := s.port.notify .fluxEvent }
  have due : pressureDue s = true := by simp [pressureDue, hf, hc]
  have run : exec .fluxPressure s = .next a.settle := by simp only [exec, execFluxPressure, due, if_true]; rfl
  have frame : Kept { s with flux := { s.flux with pressureFault := true } } a := .of_core rfl rfl
  have fault : a.settle.flux.pressureFault = true := (kept_settle a).keeps.fluxPressureFault
  have reason : ∀ u : State, u.flux.pressureFault = true → .pressure ∈ inhibitReasons u := fun u h =>
    (mem_inhibitReasons u .pressure).mpr h
  refine ⟨_, run, ?_, ?_, fun hi => ?_, (frame.trans (kept_settle a)).keeps⟩
  · rw [(settle_calm a).2.inhibit]; exact reason _ fault
  · refine (follows_settle a).notices _ ?_
    simp [a, Port.notify, Notice.bit, Notice.mask]
  · have flux := (blocks_beforeInhibit a).1
    have begun := settle_begins (s := a) hi (List.ne_nil_of_mem (reason _ (by rw [flux])))
    obtain ⟨r, ac, p, pu, ta, e, re⟩ := begun
    exact ⟨r, ac, p, pu, ⟨ta.counter, ta.remainder, ta.mirror⟩, e, re⟩

/-- The end of a purge writes the flux unit, memory and the notices. -/
theorem endPurge_frame (s : State) :
    s.endPurge = { s with flux := s.endPurge.flux, mem := s.endPurge.mem, port := s.endPurge.port } := by
  unfold State.endPurge
  cases hg : s.flux.purge with
  | none => rfl
  | some g => rw [creditPurge_some hg]; rfl

/-- A purge that is carried to its end has run its whole duration (R78). -/
theorem purge_runs {now from_ : Clock} {remaining : Nat} (h : remaining < 2 ^ 32) :
    min (now + BitVec.ofNat 32 (remaining - (now - from_).toNat) - from_).toNat remaining = remaining := by
  have apart : now + BitVec.ofNat 32 (remaining - (now - from_).toNat) - from_ =
      (now - from_) + BitVec.ofNat 32 (remaining - (now - from_).toNat) := by
    ring
  have small := (now - from_).isLt
  rw [apart, BitVec.toNat_add, BitVec.toNat_ofNat]
  omega

/-- Settles O40: the inhibit that begins in the consequences of the latch, and the purge's own end. -/
theorem fluxPressureLatchesAndPurgeEnds : Obligations.FluxPressureLatchesAndPurgeEnds := by
  intro s
  refine ⟨fun hf hc => ?_, fun g n v hg hr hn hv => ?_⟩
  · obtain ⟨t, run, reason, pend, begins, frame⟩ := fluxPressure_latches s hf hc
    refine ⟨t, run, reason, pend, fun hi => ?_, frame⟩
    obtain ⟨-, active, pulses, purge, tank, edges, records⟩ := begins hi
    refine ⟨active, pulses, purge, tank, edges, fun j r q hr hq => ?_⟩
    obtain ⟨x, takes, marks⟩ := forall₂_getElem? records hr hq
    have ordinal : x.ordinal = r.ordinal := by rw [takes.1]
    have incomplete : x.incomplete = r.incomplete := by rw [takes.1]
    refine ⟨fun h => marks.flux.trans (takes.2 h), fun k hk => ?_, fun h => marks.flag (ordinal ▸ h)⟩
    rw [marks.bits k hk, incomplete, ordinal]
  · obtain ⟨b, hb⟩ : ∃ b : State, b = s.advance n := ⟨_, rfl⟩
    have run : exec .purgeDurationComplete s = .next b.endPurge.settle := by
      simp only [exec, execPurgeDurationComplete, hg, hb, hn]; rfl
    have purge : b.flux.purge = some g := by rw [hb]; exact hg
    have flux : b.flux = s.flux := by rw [hb]; rfl
    have mem : b.mem = s.mem := by rw [hb]; rfl
    have credit : purgeCredit b = v := by
      have time : min (b.clock - g.creditedAt).toNat g.remaining = g.remaining := by
        rw [hb, hn]; exact purge_runs hr
      have ws : b.ws = s.ws := by rw [hb]; rfl
      unfold purgeCredit
      rw [purge]
      dsimp only
      rw [time, hv, ws, Nat.mul_comm]
      simp only [allIdx8, List.map_cons, List.map_nil, List.sum_cons, List.sum_nil, Nat.add_zero, Nat.add_assoc]
    obtain ⟨ends, noPurge, pend⟩ := endPurge_ends b
    have frame := endPurge_frame b
    have follows := follows_settle b.endPurge
    refine ⟨b.endPurge, run, (kept_settle _).keeps, follows.purge noPurge,
      follows.notices _ (pend (by rw [purge]; exact Option.some_ne_none g)), ?_, ?_, noPurge, ?_, ?_, ?_, ?_, fun x h h' => ?_⟩
    · exact frame.trans (by rw [hb])
    · rw [frame, hb]; rfl
    · exact (congrArg (fun u => u.flux.edges) ends.rest :).trans (by rw [← flux]; rfl)
    · exact (congrArg (fun u => u.flux.active) ends.rest :).trans (by rw [← flux]; rfl)
    · rw [ends.pulses, flux]
    · have takes := ends.tank.takes
      rw [credit] at takes
      exact takes.congr (by rw [flux]) (by rw [flux]) (by rw [mem]) rfl rfl rfl
    · rw [ends.mirror x h h', mem]

end Sys2Proof.Machine
end


section
/-! The time grids, the flux requests and the modulation boundary: O41, O42, O56. -/

namespace Sys2Proof.Machine

open Sys2Proof.Config

/-! ## Time grids (2.4) -/

/-- The boundary that the clock is carried to is the next one. -/
theorem nextBoundary_until {g : Nat} (hg : 0 < g) (hs : g < 2 ^ 32) (taken now : Clock) :
    NextBoundary g taken now (now + BitVec.ofNat 32 (untilBoundary g taken now)) := by
  have small := now.isLt
  have next : ∀ n, now.toNat + n < 2 ^ 32 → (now + BitVec.ofNat 32 n).toNat = now.toNat + n := fun n h => by
    rw [BitVec.toNat_add, BitVec.toNat_ofNat]; omega
  refine ⟨untilBoundary g taken now, rfl, ?_⟩
  unfold untilBoundary
  split
  · next h =>
    refine ⟨?_, Nat.zero_le _, fun m hm => absurd hm (Nat.not_lt_zero m)⟩
    rw [next 0 (by omega)]; exact h.1
  · next h =>
    have quotient := Nat.div_add_mod now.toNat g
    have rest := Nat.mod_lt now.toNat hg
    have expand : (now.toNat / g + 1) * g = g * (now.toNat / g) + g := by ring
    rw [expand]
    refine ⟨?_, by omega, fun m hm hz => ?_⟩
    · by_cases c : g * (now.toNat / g) + g < 2 ^ 32
      · rw [Nat.min_eq_left (by omega), next _ (by omega),
          show now.toNat + (g * (now.toNat / g) + g - now.toNat) = (now.toNat / g + 1) * g by rw [expand]; omega]
        exact Nat.mul_mod_left _ _
      · have wraps : (now.toNat + (2 ^ 32 - now.toNat) % 2 ^ 32) % 2 ^ 32 = 0 := by omega
        rw [Nat.min_eq_right (by omega), BitVec.toNat_add, BitVec.toNat_ofNat, wraps, Nat.zero_mod]
    · rw [next m (by omega), show now.toNat + m = g * (now.toNat / g) + (now.toNat % g + m) by omega, Nat.mul_add_mod,
        Nat.mod_eq_of_lt (by omega)] at hz
      refine ⟨by omega, ?_⟩
      by_contra taken'
      exact h ⟨by omega, taken'⟩

/-! ## LANE_PULSE_END (R68) -/

theorem Tab8.ext_get {α : Type} {a b : Tab8 α} (h : ∀ k, a.get k = b.get k) : a = b := by
  cases a
  cases b
  rw [Tab8.mk.injEq]
  exact ⟨h 0, h 1, h 2, h 3, h 4, h 5, h 6, h 7⟩

/-- Settles O41: one pulse's end, and the valve that a whole period holds open. -/
theorem lanePulseEndCreditsFlowTimesQ : Obligations.LanePulseEndCreditsFlowTimesQ := by
  intro s lane u n hu hn
  refine ⟨fun hq => by simp only [exec, execLanePulseEnd, hu, if_pos hq], fun hq => ?_⟩
  obtain ⟨b, hb⟩ : ∃ b : State, b = { s.advance n with
      flux := { s.flux with pulses := s.flux.pulses.set lane none }
      track := { s.track with records := creditRecord u.ordinal (s.ws.flow lane * u.q) s.track.records } } := ⟨_, rfl⟩
  obtain ⟨a, ha⟩ : ∃ a : State, a = (b.creditTank (s.ws.flow lane * u.q)).holdValve lane u := ⟨_, rfl⟩
  have run : exec (.lanePulseEnd lane) s = .next a.settle := by
    simp only [exec, execLanePulseEnd, hu, if_neg hq, ha, hb, hn]; rfl
  have hold : ∀ c : State, c.holdValve lane u = { c with flux := { c.flux with
      pulses := if 16 ≤ u.q then c.flux.pulses.set lane (some { u with q := 0 }) else c.flux.pulses } } := fun c => by
    unfold State.holdValve modPeriod; split <;> rfl
  have counter : b.flux.counter = s.flux.counter := by rw [hb]
  have remainder : b.flux.remainder = s.flux.remainder := by rw [hb]
  have lowMark : b.flux.low = s.flux.low := by rw [hb]
  have mem : b.mem = s.mem := by rw [hb]; rfl
  have mirror : MirrorOnly b.mem (b.creditTank (s.ws.flow lane * u.q)).mem := mirrorOnly_setTank b _ _
  have falls : TankFalls s (b.creditTank (s.ws.flow lane * u.q)) _ := tankFalls_creditTank counter remainder mem _
  have events : TankEvents b (b.creditTank (s.ws.flow lane * u.q)) := setTank_events b _ _
  have shape : b.creditTank (s.ws.flow lane * u.q) = { b with
      flux := (b.creditTank (s.ws.flow lane * u.q)).flux, mem := (b.creditTank (s.ws.flow lane * u.q)).mem
      port := (b.creditTank (s.ws.flow lane * u.q)).port } := rfl
  have flux : (b.creditTank (s.ws.flow lane * u.q)).flux = { b.flux with
      counter := (b.creditTank (s.ws.flow lane * u.q)).flux.counter
      remainder := (b.creditTank (s.ws.flow lane * u.q)).flux.remainder
      low := (b.creditTank (s.ws.flow lane * u.q)).flux.low } := rfl
  generalize b.creditTank (s.ws.flow lane * u.q) = c at ha mirror falls events shape flux
  rw [hold] at ha
  refine ⟨a, run, (kept_settle a).keeps, ?_, ?_, ?_, ?_, ?_, fun _ => ?_, fun x h h' => ?_, ?_, ?_, ?_⟩
  · rw [ha, shape, hb]
  · rw [ha, shape, hb]; rfl
  · rw [ha]
    show (if 16 ≤ u.q then c.flux.pulses.set lane _ else c.flux.pulses) = _
    rw [flux, hb]
    refine Tab8.ext_get fun k => ?_
    split
    · simp only [Tab8.get_set]; split <;> rfl
    · rfl
  · rw [ha, shape, hb]
    show creditRecord _ _ _ = _
    simp [creditRecord, mapRecords]
  · rw [ha]; exact falls.takes.congr rfl rfl rfl rfl rfl rfl
  · have port : b.port.notices = s.port.notices := by rw [hb]; rfl
    obtain ⟨low, event⟩ := events
    unfold Pending at event
    rw [counter, lowMark, port] at event
    rw [ha]
    exact ⟨low, event⟩
  · rw [ha]
    exact (mirror x h h').trans (by rw [mem])
  · rw [ha, flux, hb]
  · rw [ha, flux, hb]
  · rw [ha, flux, hb]

/-! ## The flux requests (R71, R77) -/

theorem FluxTakes.place {n : Nat} {r q : Record} (h : FluxTakes n r q) : q.place = r.place := by
  rw [h.1]; rfl

theorem places_of_forall₂ {R : Record → Record → Prop} (hR : ∀ r q, R r q → q.place = r.place) {rs qs : List Record}
    (h : List.Forall₂ R rs qs) : qs.map Record.place = rs.map Record.place := by
  induction h with
  | nil => rfl
  | cons a _ ih => rw [List.map_cons, List.map_cons, hR _ _ a, ih]

theorem RecordsTake.places {c : BitVec 16 → Nat} {rs qs : List Record} (h : RecordsTake c rs qs) :
    qs.map Record.place = rs.map Record.place :=
  places_of_forall₂ (fun _ _ => FluxTakes.place) h

theorem inPurgeBand_iff (s : State) (r : Record) : inPurgeBand s r = true ↔
    s.ws.barF - 500 ≤ (s.track.pos - r.lead).toNat ∧ (s.track.pos - r.lead).toNat ≤ s.ws.barF + 6000 := by
  exact decide_eq_true_iff

theorem changesOver_iff (m : Mode) : m.changesOver = true ↔ m = .warmup ∨ m = .production := by
  cases m <;> simp [Mode.changesOver]

/-- R71: the tank after a declared refill. -/
theorem refill_tank (w : State) {v : Nat} (h : v ≠ 0) (hv : v ≤ 50000000) :
    w.refill v = { w with
        flux := { w.flux with counter := v, remainder := 0, bound := v, low := lowMark w v }
        mem := (w.refill v).mem, port := (w.refill v).port } ∧
      (Pending (w.refill v) .fluxEvent ↔ Pending w .fluxEvent ∨ (w.flux.low = false ∧ (w.refill v).flux.low = true)) ∧
      (w.refill v).mem.read32 4 = v ∧ MirrorOnly w.mem (w.refill v).mem := by
  refine ⟨rfl, ?_, ?_, (mirrorOnly_setTank w v 0).trans (mirrorOnly_writeBlock _ _)⟩
  · have event := (setTank_events w v 0).event
    show Pending (w.setTank v 0) .fluxEvent ↔ Pending w .fluxEvent ∨ (w.flux.low = false ∧ (w.setTank v 0).flux.low = true)
    have counter : (w.setTank v 0).flux.counter = v := rfl
    rw [event, counter]
    simp [h]
  · show Memory.read32 (Memory.writeBlock _ mirrorTankAt (twoWords v)) 4 = v
    rw [read32_writeBlock_mirror]
    omega

/-- R77: the valves open and the pulses end with their credits. -/
theorem startPurge_opens (w : State) (d : Nat) :
    (w.startPurge d).flux.purge = some { remaining := d, creditedAt := w.clock } ∧
      (∀ k, (w.startPurge d).flux.pulses.get k = none) ∧ (∀ k, (w.startPurge d).flux.valveOpen k = true) ∧
      (w.startPurge d).flux.edges = w.flux.edges ∧ (w.startPurge d).flux.active = w.flux.active ∧
      (w.startPurge d).track.records.map Record.place = w.track.records.map Record.place ∧
      w.startPurge d = { w with
        flux := (w.startPurge d).flux, track := { w.track with records := (w.startPurge d).track.records }
        mem := (w.startPurge d).mem, port := (w.startPurge d).port } ∧
      MirrorOnly w.mem (w.startPurge d).mem := by
  have ends := cutPulses_ends w (fun _ => true) true
  have every : ∀ k : Idx8, k ∈ allIdx8 := by decide
  unfold State.startPurge
  generalize w.cutPulses (fun _ => true) true = b at ends
  have clock : b.clock = w.clock := (congrArg State.clock ends.rest :)
  refine ⟨by rw [← clock], fun k => ?_, fun k => by simp [Flux.valveOpen], (congrArg (fun u => u.flux.edges) ends.rest :),
    (congrArg (fun u => u.flux.active) ends.rest :), ends.records.places, ?_, ends.mirror⟩
  · show b.flux.pulses.get k = none
    rw [ends.pulses, if_pos (every k)]
    cases w.flux.pulses.get k <;> rfl
  · have frame := uncredited_frame ends.rest
    dsimp only
    rw [frame]

/-- Settles O56, request by request in the order of its refusals. -/
theorem alarmAndFluxRequestsAreDecided : Obligations.AlarmAndFluxRequestsAreDecided := by
  intro s w ws
  refine ⟨fun hp hw => ?_, fun hp hw v hv => ?_, fun hp hw d hd => ?_⟩
  · have run : exec (.ackAlarms ws) s = .next ((decideAckAlarms w).2.answer (decideAckAlarms w).1) := by
      rw [hw]; exact congrArg Host.Outcome.next (request_of_posts hp decideAckAlarms)
    have extr : w.extr = s.extr := by rw [hw]; rfl
    have modes : w.modes = s.modes := by rw [hw]; rfl
    have clock : w.clock = s.clock := by rw [hw]; rfl
    have arg : argument1 w = w.mem.read 0x0041 := rfl
    rw [run]
    unfold decideAckAlarms
    rw [arg]
    refine ⟨fun h => by rw [if_pos h]; rfl, fun h hf => ?_⟩
    rw [if_neg (by omega)]
    obtain ⟨a, ha⟩ : ∃ a : State, a = w.acknowledgePoints (w.mem.read 0x0041) := ⟨_, rfl⟩
    have points : a.extr.points = s.extr.points.mapIdx fun k p =>
        if (w.mem.read 0x0041).getLsbD k.val then p.acknowledge s.clock else p := by
      rw [ha, ← extr, ← clock]; rfl
    have formed : FansFormed a := FansFormed.of_eq hf (by rw [ha, ← extr]; rfl) (by rw [ha, ← modes]; rfl)
      (by rw [ha, ← modes]; rfl)
    obtain ⟨-, -, same⟩ := (follows_settle a).fans formed
    have frame : Kept w a := by rw [ha]; exact .of_core (core_notifyIf { w with extr := _ } _ _) rfl
    rw [← ha]
    refine ⟨a.settle, rfl, (frame.trans (kept_settle a)).keeps, fun hne => (follows_settle a).notices _ ?_, fun k p hk => ?_⟩
    · rw [same] at hne
      rw [ha]
      refine (notifyIf_pending w.port _ .alarmChanged).mpr (.inr ?_)
      rw [points] at hne
      rw [extr, clock]
      simpa using hne
    · rw [same, points, Tab8.get_mapIdx, ← hk]
      cases hann : p.ann <;> simp [Point.acknowledge, hann]
  · have run : exec (.fluxRefilled ws) s = .next ((decideFluxRefilled w).2.answer (decideFluxRefilled w).1) := by
      rw [hw]; exact congrArg Host.Outcome.next (request_of_posts hp decideFluxRefilled)
    have flux : w.flux = s.flux := by rw [hw]; rfl
    have mark : lowMark w v = (s.loaded && decide (v < s.ws.tankLowMark)) := by rw [hw]; rfl
    have notices : w.port.notices = s.port.notices := by rw [hw]; rfl
    have arg : refillVolume w = v := hv.symm
    rw [run]
    unfold decideFluxRefilled tankMax
    rw [arg, flux]
    refine ⟨fun h => by rw [if_pos h]; rfl, fun h h' he => ?_, fun h h' he => ?_⟩
    · rw [if_neg (by omega), he]; rfl
    · rw [if_neg (by omega), he]
      obtain ⟨shape, event, mirror, words⟩ := refill_tank w h h'
      refine ⟨w.refill v, rfl, (kept_settle _).keeps, ?_, ?_, mirror, words⟩
      · rw [flux, mark] at shape; exact shape
      · rw [event, flux]; unfold Pending; rw [notices]
  · have run : exec (.purgeFluxer ws) s = .next ((decidePurgeFluxer w).2.answer (decidePurgeFluxer w).1) := by
      rw [hw]; exact congrArg Host.Outcome.next (request_of_posts hp decidePurgeFluxer)
    have flux : w.flux = s.flux := by rw [hw]; rfl
    have track : w.track = s.track := by rw [hw]; rfl
    have modes : w.modes = s.modes := by rw [hw]; rfl
    have clock : w.clock = s.clock := by rw [hw]; rfl
    have setup : w.ws = s.ws := by rw [hw]; rfl
    have arg : (argument1 w).toNat = d := hd.symm
    have band : w.track.records.any (inPurgeBand w) = true ↔ ∃ r ∈ s.track.records,
        s.ws.barF - 500 ≤ (s.track.pos - r.lead).toNat ∧ (s.track.pos - r.lead).toNat ≤ s.ws.barF + 6000 := by
      simp only [List.any_eq_true, inPurgeBand_iff, track, setup]
    rw [run]
    unfold decidePurgeFluxer
    dsimp only
    rw [arg, flux, modes]
    refine ⟨fun h => by rw [if_pos h]; rfl, fun h h' hm hm' => ?_, fun h h' hm => ⟨fun hc => ?_, fun hn hr => ⟨fun hi => ?_, fun hi => ?_⟩⟩⟩
    · have no : s.modes.mode.changesOver = false := by
        rw [Bool.eq_false_iff, ne_eq, changesOver_iff]; simp [hm, hm']
      rw [if_neg (by omega), no]; rfl
    all_goals
      rw [if_neg (by omega), (changesOver_iff _).mpr hm, if_neg (by simp)]
    · by_cases hg : s.flux.purge = none
      · have any := band.mpr (hc.resolve_left fun c => c hg)
        rw [hg, any]; rfl
      · rw [if_pos (by simpa [Option.isSome_iff_ne_none] using hg)]; rfl
    all_goals
      have none_ : w.track.records.any (inPurgeBand w) = false := by
        rw [Bool.eq_false_iff, ne_eq, band]
        rintro ⟨r, hr', a, b⟩
        have := hr r hr'
        omega
      rw [hn, none_]
    · have inhibited : s.flux.isInhibited = true := by simp [Flux.isInhibited, hi]
      rw [inhibited]; rfl
    · have free : s.flux.isInhibited = false := by simp [Flux.isInhibited, hi]
      rw [free]
      obtain ⟨purge, pulses, valves, edges, active, places, shape, words⟩ := startPurge_opens w d
      refine ⟨w.startPurge d, rfl, (kept_settle _).keeps, by rw [purge, clock], pulses, valves, by rw [edges, flux],
        by rw [active, flux], by rw [places, track], ?_, words⟩
      rw [track, modes] at shape; exact shape

end Sys2Proof.Machine
end


section
/-! The modulation boundary (R66, R68, R74): the edges it consumes, the windows that own the lanes; O42. -/

namespace Sys2Proof.Machine

open Sys2Proof.Config

/-! ## The owner of a lane (R68) -/

theorem ownsBefore_iff (rs : List Record) (b a : ActiveWindow) : ownsBefore rs b a = true ↔
    a.duty < b.duty ∨ (a.duty = b.duty ∧ (placeOf rs b.ordinal < placeOf rs a.ordinal ∨
      (placeOf rs b.ordinal = placeOf rs a.ordinal ∧ b.window < a.window))) := by
  simp [ownsBefore]

/-- The window that a lane's choice prefers so far. -/
def preferWindow (rs : List Record) (best : Option ActiveWindow) (w : ActiveWindow) : Option ActiveWindow :=
  match best with
  | none => some w
  | some a => if ownsBefore rs w a then some w else some a

/-- No window of the list owns the lane before the one chosen. -/
theorem prefer_foldl (rs : List Record) (ws : List ActiveWindow) (best : Option ActiveWindow) :
    (ws.foldl (preferWindow rs) best = none → best = none ∧ ws = []) ∧
      ∀ a, ws.foldl (preferWindow rs) best = some a → (best = some a ∨ a ∈ ws) ∧
        (∀ b, best = some b → ownsBefore rs b a = false) ∧ ∀ v ∈ ws, ownsBefore rs v a = false := by
  have irrefl : ∀ a, ownsBefore rs a a = false := fun a => by
    rw [Bool.eq_false_iff, ne_eq, ownsBefore_iff]; omega
  have step : ∀ {x y z}, ownsBefore rs y z = false → ownsBefore rs x y = false → ownsBefore rs x z = false := by
    intro x y z h g
    rw [Bool.eq_false_iff, ne_eq, ownsBefore_iff] at *
    omega
  have below : ∀ {x y z}, ownsBefore rs y z = false → ownsBefore rs y x = true → ownsBefore rs x z = false := by
    intro x y z h g
    rw [ownsBefore_iff] at g
    rw [Bool.eq_false_iff, ne_eq, ownsBefore_iff] at *
    omega
  induction ws generalizing best with
  | nil => exact ⟨fun h => ⟨h, rfl⟩, fun a h => ⟨.inl h, fun b hb => by rw [hb] at h; cases h; exact irrefl a, by simp⟩⟩
  | cons w ws ih =>
    obtain ⟨none_, some_⟩ := ih (preferWindow rs best w)
    refine ⟨fun h => ?_, fun a h => ?_⟩
    · have := (none_ h).1
      unfold preferWindow at this
      split at this
      · cases this
      · split at this <;> cases this
    · obtain ⟨mem, first, rest⟩ := some_ a h
      unfold preferWindow at mem first
      cases best with
      | none =>
        have head := first w rfl
        refine ⟨.inr ?_, nofun, fun v hv => ?_⟩
        · rcases mem with e | m
          · exact List.mem_cons.mpr (.inl (Option.some.inj e).symm)
          · exact List.mem_cons_of_mem _ m
        · rcases List.mem_cons.mp hv with rfl | hv
          · exact head
          · exact rest v hv
      | some b =>
        dsimp only at mem first
        by_cases c : ownsBefore rs w b = true
        · rw [if_pos c] at mem first
          have head := first w rfl
          refine ⟨.inr ?_, fun x hx => ?_, fun v hv => ?_⟩
          · rcases mem with e | m
            · exact List.mem_cons.mpr (.inl (Option.some.inj e).symm)
            · exact List.mem_cons_of_mem _ m
          · cases hx; exact below head c
          · rcases List.mem_cons.mp hv with rfl | hv
            · exact head
            · exact rest v hv
        · rw [if_neg c] at mem first
          have head := first b rfl
          refine ⟨mem.imp id (List.mem_cons_of_mem _), fun x hx => ?_, fun v hv => ?_⟩
          · cases hx; exact head
          · rcases List.mem_cons.mp hv with rfl | hv
            · exact step head (by simpa using c)
            · exact rest v hv

theorem laneOwner_eq (s : State) (lane : Idx8) : laneOwner s lane =
    (s.flux.active.filter fun w => w.lanes.getLsbD lane.val).foldl (preferWindow s.track.records) none := rfl

theorem laneOwner_none {s : State} {lane : Idx8} (h : laneOwner s lane = none) (w : ActiveWindow)
    (hw : w ∈ s.flux.active) : w.lanes.getLsbD lane.val = false := by
  have := ((prefer_foldl s.track.records _ none).1 (laneOwner_eq s lane ▸ h)).2
  have no := List.filter_eq_nil_iff.mp this w hw
  simpa using no

theorem laneOwner_some {s : State} {lane : Idx8} {w : ActiveWindow} (h : laneOwner s lane = some w) :
    w ∈ s.flux.active ∧ w.lanes.getLsbD lane.val = true ∧
      ∀ v ∈ s.flux.active, v.lanes.getLsbD lane.val = true → ownsBefore s.track.records v w = false := by
  obtain ⟨mem, -, rest⟩ := (prefer_foldl s.track.records _ none).2 w (laneOwner_eq s lane ▸ h)
  obtain ⟨active, carries⟩ := List.mem_filter.mp (mem.resolve_left nofun)
  exact ⟨active, carries, fun v hv hc => rest v (List.mem_filter.mpr ⟨hv, hc⟩)⟩

/-! ## The edges of a boundary (R66, R74) -/

/-- The marks of skipped windows on one record. -/
structure Skipped (es : List Edge) (r q : Record) : Prop where
  place : q.place = r.place
  flux : q.flux = r.flux
  ordinal : q.ordinal = r.ordinal
  bits : ∀ n, n < 16 → (q.skipped.getLsbD n = true ↔ r.skipped.getLsbD n = true ∨
    ∃ e ∈ es, e.ordinal = r.ordinal ∧ e.window = n)
  flag : (∃ e ∈ es, e.ordinal = r.ordinal) → q.has .fluxSkipped = true
  flags : MoreFlags r q

theorem skipped_markSkipped (es : List Edge) (rs : List Record) : List.Forall₂ (Skipped es) rs (markSkipped es rs) := by
  unfold markSkipped
  induction es generalizing rs with
  | nil => exact List.forall₂_same.mpr fun r _ => ⟨rfl, rfl, rfl, fun n _ => by simp, fun h => by simp at h, fun _ h => h⟩
  | cons e es ih =>
    have rest := ih (mapRecords (fun r => r.ordinal == e.ordinal)
      (fun r => ({ r with skipped := r.skipped ||| bitMask e.window }).mark .fluxSkipped) rs)
    rw [List.foldl_cons]
    rw [mapRecords, List.forall₂_map_left_iff] at rest
    refine rest.imp fun r q h => ?_
    by_cases hr : r.ordinal = e.ordinal
    · rw [if_pos (by simpa using hr)] at h
      refine ⟨h.place, h.flux, h.ordinal, fun n hn => ?_, fun _ => h.flags _ (Record.mark_has _ _),
        fun k g => h.flags k (moreFlags_mark _ _ k g)⟩
      have bit : (r.skipped ||| bitMask e.window).getLsbD n = (r.skipped.getLsbD n || decide (n = e.window)) := by
        rw [BitVec.getLsbD_or, getLsbD_bitMask' _ n hn]
      have here : q.skipped.getLsbD n = true ↔ (r.skipped ||| bitMask e.window).getLsbD n = true ∨
          ∃ d ∈ es, d.ordinal = r.ordinal ∧ d.window = n := h.bits n hn
      rw [here, bit, Bool.or_eq_true, decide_eq_true_eq, or_assoc, List.exists_mem_cons_iff, hr]
      simp only [true_and, eq_comm (a := n)]
    · rw [if_neg (by simpa using hr)] at h
      refine ⟨h.place, h.flux, h.ordinal, fun n hn => ?_, fun g => h.flag ?_, h.flags⟩
      · rw [h.bits n hn]; simp [Ne.symm hr]
      · simpa [Ne.symm hr] using g

theorem consumeEdges_closes (due : List Edge) (active : List ActiveWindow) :
    (due.filter fun e => !e.opens).foldl consumeEdge active =
      active.filter fun w => !due.any fun e => !e.opens && w.ordinal == e.ordinal && w.window == e.window := by
  induction due generalizing active with
  | nil => simp
  | cons e due ih =>
    cases he : e.opens with
    | true => simp [he, ih]
    | false =>
      rw [List.filter_cons_of_pos (by simp [he]), List.foldl_cons, ih, consumeEdge, he, if_neg Bool.false_ne_true,
        List.filter_filter]
      refine List.filter_congr fun w _ => ?_
      rw [List.any_cons, he, Bool.not_or, Bool.and_comm]
      rfl

/-- What the consumption of the due edges leaves, the list cut at the first edge that P has not reached. -/
theorem consumeEdges_free {s : State} (h : s.flux.inhibit = []) {later : List Edge}
    (hl : s.flux.edges = dueEdges s ++ later) :
    s.consumeEdges.flux.edges = later ∧
      s.consumeEdges.flux.active = (dueEdges s).foldl consumeEdge s.flux.active ∧
      List.Forall₂ (Skipped []) s.track.records s.consumeEdges.track.records := by
  have drop : (s.flux.edges.dropWhile fun e => atOrAfter s.track.pos e.pos) = later := by
    have := List.takeWhile_append_dropWhile (p := fun e : Edge => atOrAfter s.track.pos e.pos) (l := s.flux.edges)
    exact List.append_cancel_left (this.trans hl)
  have free : s.flux.isInhibited = false := by simp [Flux.isInhibited, h]
  refine ⟨?_, ?_, ?_⟩
  · simp [State.consumeEdges, free, laterEdges, drop]
  · simp [State.consumeEdges, free]
  · have := skipped_markSkipped [] s.track.records
    simpa [State.consumeEdges, free] using this

theorem consumeEdges_inhibited {s : State} (h : s.flux.inhibit ≠ []) {later : List Edge}
    (hl : s.flux.edges = dueEdges s ++ later) :
    s.consumeEdges.flux.edges = later.filter (fun e => e.opens ||
        !(dueEdges s).any fun d => d.opens && d.ordinal == e.ordinal && d.window == e.window) ∧
      s.consumeEdges.flux.active = s.flux.active.filter (fun w =>
        !(dueEdges s).any fun e => !e.opens && w.ordinal == e.ordinal && w.window == e.window) ∧
      List.Forall₂ (Skipped ((dueEdges s).filter (·.opens))) s.track.records s.consumeEdges.track.records := by
  have drop : (s.flux.edges.dropWhile fun e => atOrAfter s.track.pos e.pos) = later := by
    have := List.takeWhile_append_dropWhile (p := fun e : Edge => atOrAfter s.track.pos e.pos) (l := s.flux.edges)
    exact List.append_cancel_left (this.trans hl)
  have stands : s.flux.isInhibited = true := by simp [Flux.isInhibited, h]
  refine ⟨?_, ?_, ?_⟩
  · simp [State.consumeEdges, stands, laterEdges, drop, List.any_filter, Bool.and_assoc]
  · simp only [State.consumeEdges, stands, if_true]
    exact consumeEdges_closes _ _
  · simpa only [State.consumeEdges, stands, if_true] using skipped_markSkipped _ s.track.records

/-! ## The lanes that open (R68) -/

theorem startPulses_lanes (s : State) :
    (∀ lane w, w ∈ s.startPulses.flux.active → w.lanes.getLsbD lane.val = true →
      w.duty ≤ s.startPulses.flux.duties.get lane) ∧
    (∀ lane, s.startPulses.flux.duties.get lane = 0 ∨
      ∃ w ∈ s.startPulses.flux.active, w.lanes.getLsbD lane.val = true ∧ s.startPulses.flux.duties.get lane = w.duty) ∧
    (∀ lane, s.startPulses.flux.pulses.get lane ≠ none ↔ s.startPulses.flux.duties.get lane ≠ 0 ∧
      s.flux.inhibit = [] ∧ s.flux.purge = none ∧ s.track.ref ≠ 0) ∧
    (∀ lane u, s.startPulses.flux.pulses.get lane = some u →
      u.start = s.clock ∧ u.q = s.startPulses.flux.duties.get lane ∧
        ∃ w, OwnsLane s.startPulses lane w ∧ u.ordinal = w.ordinal ∧ u.window = w.window) := by
  have duty : ∀ lane, s.startPulses.flux.duties.get lane = ((laneOwner s lane).map (·.duty)).getD 0 := fun lane => by
    simp [State.startPulses]
  have pulse : ∀ lane, s.startPulses.flux.pulses.get lane = match laneOwner s lane with
      | some w => if (!s.flux.isInhibited && s.flux.purge.isNone && s.track.ref != 0) && w.duty != 0 then
          some { start := s.clock, q := w.duty, ordinal := w.ordinal, window := w.window } else none
      | none => none := fun lane => Tab8.get_ofFn _ lane
  refine ⟨fun lane w hw hl => ?_, fun lane => ?_, fun lane => ?_, fun lane u hu => ?_⟩
  · rw [duty]
    cases ho : laneOwner s lane with
    | none => rw [laneOwner_none ho w hw] at hl; cases hl
    | some v =>
      obtain ⟨-, -, first⟩ := laneOwner_some ho
      have := first w hw hl
      rw [Bool.eq_false_iff, ne_eq, ownsBefore_iff] at this
      show w.duty ≤ v.duty
      omega
  · rw [duty]
    cases ho : laneOwner s lane with
    | none => exact .inl rfl
    | some v =>
      obtain ⟨active, carries, -⟩ := laneOwner_some ho
      exact .inr ⟨v, active, carries, rfl⟩
  · rw [duty, pulse]
    have may : (!s.flux.isInhibited && s.flux.purge.isNone && s.track.ref != 0) = true ↔
        s.flux.inhibit = [] ∧ s.flux.purge = none ∧ s.track.ref ≠ 0 := by
      simp [Flux.isInhibited, and_assoc]
    cases laneOwner s lane with
    | none => simp
    | some v =>
      dsimp only [Option.map_some, Option.getD_some]
      rw [← may]
      generalize (!s.flux.isInhibited && s.flux.purge.isNone && s.track.ref != 0) = m
      cases m <;> by_cases hd : v.duty = 0 <;> simp [hd]
  · rw [pulse] at hu
    cases ho : laneOwner s lane with
    | none => rw [ho] at hu; cases hu
    | some v =>
      rw [ho] at hu
      dsimp only at hu
      split at hu
      · obtain ⟨active, carries, first⟩ := laneOwner_some ho
        cases hu
        have lead : s.startPulses.flux.duties.get lane = v.duty := by rw [duty, ho]; rfl
        refine ⟨rfl, lead.symm, v, ⟨active, carries, lead.symm, fun x hx hc hd => ?_⟩, rfl, rfl⟩
        have := first x hx hc
        rw [Bool.eq_false_iff, ne_eq, ownsBefore_iff] at this
        show placeOf s.track.records v.ordinal < placeOf s.track.records x.ordinal ∨
          (placeOf s.track.records v.ordinal = placeOf s.track.records x.ordinal ∧ v.window ≤ x.window)
        omega
      · cases hu

/-! ## The boundary -/

/-- The credits of a modulation boundary, made in the state of its clock (R68, R78). -/
structure BoundaryCredits (s b : State) : Prop where
  frame : b = { s with
    flux := b.flux, track := { s.track with records := b.track.records }, mem := b.mem, port := b.port }
  edges : b.flux.edges = s.flux.edges
  active : b.flux.active = s.flux.active
  inhibit : b.flux.inhibit = s.flux.inhibit
  purge : b.flux.purge = s.flux.purge.map (·.credited s.clock)
  tank : TankFalls s b (pulseCredits s (fun _ => true) + purgeCredit s)
  records : RecordsTake (fun o => pulseCredits s fun u => u.ordinal == o) s.track.records b.track.records
  mirror : MirrorOnly s.mem b.mem
  events : LowFormed s → TankEvents s b

theorem boundaryCredits (s : State) : BoundaryCredits s s.finishPulses.creditPurge := by
  have ends : PulsesEnd s s.finishPulses allIdx8 (fun _ => true) true := cutPulses_ends s _ _
  obtain ⟨credited, purge, events⟩ := creditPurge_credited s.finishPulses
  generalize s.finishPulses = b at ends credited purge events
  generalize b.creditPurge = c at credited purge events ⊢
  have setup : b.port.setup = s.port.setup := (congrArg (fun u => u.port.setup) ends.rest :)
  have setup' : c.port.setup = b.port.setup := (congrArg (fun u => u.port.setup) credited.rest :)
  have clock : b.clock = s.clock := (congrArg State.clock ends.rest :)
  have purge' : b.flux.purge = s.flux.purge := (congrArg (fun u => u.flux.purge) ends.rest :)
  have shape : ∀ u : State, u = { u.uncredited with
      mem := u.mem, track := { u.uncredited.track with records := u.track.records }, flux := u.flux, port := u.port } :=
    fun _ => rfl
  refine ⟨?_, ?_, ?_, ?_, by rw [purge, purge', clock], ?_, ?_, ends.mirror.trans credited.mirror, fun low => ?_⟩
  · conv_lhs => rw [shape c, credited.rest, ends.rest]
    rfl
  · exact (congrArg (fun u => u.flux.edges) credited.rest :).trans (congrArg (fun u => u.flux.edges) ends.rest :)
  · exact (congrArg (fun u => u.flux.active) credited.rest :).trans (congrArg (fun u => u.flux.active) ends.rest :)
  · exact (congrArg (fun u => u.flux.inhibit) credited.rest :).trans (congrArg (fun u => u.flux.inhibit) ends.rest :)
  · have tank := ends.tank.trans credited.tank
    rw [purgeCredit_congr purge' setup clock] at tank
    exact tank
  · rw [credited.records]
    have records := ends.records
    simp only [Bool.true_and, if_true] at records
    exact records
  · have first := ends.events low
    exact first.trans (events first.low) low setup setup' ends.tank.le credited.tank.le

theorem advance_toModulation (s : State) : ∃ n, s.toModulation =
    { s.advance n with modAt := s.toModulation.modAt } ∧ s.toModulation.modAt = s.toModulation.clock ∧
      NextBoundary 16 s.modAt s.clock s.toModulation.clock :=
  ⟨untilBoundary modPeriod s.modAt s.clock, rfl, rfl, nextBoundary_until (by decide) (by decide) _ _⟩

/-- Settles O42: the credits, the edges in their two cases, the lanes. -/
theorem modulationBoundaryFormsDutiesAndOpensLanes : Obligations.ModulationBoundaryFormsDutiesAndOpensLanes := by
  intro s due later hd hl
  obtain ⟨n, start, at', next⟩ := advance_toModulation s
  obtain ⟨b, hb⟩ : ∃ b : State, b = s.toModulation := ⟨_, rfl⟩
  obtain ⟨c, hc⟩ : ∃ c : State, c = b.finishPulses.creditPurge := ⟨_, rfl⟩
  have credits : BoundaryCredits b c := hc ▸ boundaryCredits b
  obtain ⟨d, hdd⟩ : ∃ d : State, d = c.consumeEdges := ⟨_, rfl⟩
  have run : exec .modulationBoundary s = .next d.startPulses.settle := by rw [hdd, hc, hb]; rfl
  rw [← hb] at start at' next
  have bflux : b.flux = s.flux := by rw [start]; rfl
  have btrack : b.track = s.track := by rw [start]; rfl
  have bmem : b.mem = s.mem := by rw [start]; rfl
  have bnotices : b.port.notices = s.port.notices := by rw [start]; rfl
  have bsetup : b.port.setup = s.port.setup := by rw [start]; rfl
  have bclock : b.clock = (s.advance n).clock := by rw [start]
  have pos : c.track.pos = s.track.pos := by rw [credits.frame, ← btrack]
  have ref : c.track.ref = s.track.ref := by rw [credits.frame, ← btrack]
  have cclock : c.clock = b.clock := by rw [credits.frame]
  have edges : c.flux.edges = s.flux.edges := by rw [credits.edges, bflux]
  have active : c.flux.active = s.flux.active := by rw [credits.active, bflux]
  have inhibit : c.flux.inhibit = s.flux.inhibit := by rw [credits.inhibit, bflux]
  have due' : dueEdges c = due := by unfold dueEdges; rw [edges, pos, hd]
  have cut : c.flux.edges = dueEdges c ++ later := by rw [due', edges, hl]
  have dframe : d = { c with
      track := { c.track with records := d.track.records }
      flux := { c.flux with edges := d.flux.edges, active := d.flux.active } } := by rw [hdd]; rfl
  have aframe : d.startPulses = { d with
      flux := { d.flux with duties := d.startPulses.flux.duties, pulses := d.startPulses.flux.pulses } } := rfl
  obtain ⟨greatest, attained, opens, owned⟩ := startPulses_lanes d
  have dinhibit : d.flux.inhibit = s.flux.inhibit := by rw [dframe, ← inhibit]
  have dpurge : d.flux.purge = c.flux.purge := by rw [dframe]
  have dref : d.track.ref = s.track.ref := by rw [dframe, ← ref]
  have dclock : d.clock = b.clock := by rw [dframe, ← cclock]
  have nopurge : d.flux.purge = none ↔ s.flux.purge = none := by
    rw [dpurge, credits.purge, bflux]; simp
  have records : List.Forall₂
      (Skipped (if s.flux.inhibit = [] then [] else due.filter (·.opens))) c.track.records d.track.records := by
    rw [hdd]
    split
    · next h => exact (consumeEdges_free (inhibit.trans h) cut).2.2
    · next h =>
      have := (consumeEdges_inhibited (by rw [inhibit]; exact h) cut).2.2
      rwa [due'] at this
  have both := forall₂_comp credits.records records
  have pulses : ∀ p, pulseCredits b p = pulseCredits (s.advance n) p :=
    pulseCredits_congr (by rw [bflux]; rfl) (by rw [bsetup]; rfl) bclock
  have purged : purgeCredit b = purgeCredit (s.advance n) :=
    purgeCredit_congr (by rw [bflux]; rfl) (by rw [bsetup]; rfl) bclock
  generalize hset : d.startPulses = a at run aframe greatest attained opens owned
  have keeps : Keeps a a.settle := (kept_settle a).keeps
  have aclock : a.clock = b.clock := by rw [aframe, ← dclock]
  have acred : a.flux.counter = c.flux.counter ∧ a.flux.remainder = c.flux.remainder ∧ a.mem = c.mem ∧
      a.flux.low = c.flux.low ∧ a.port = c.port ∧ a.track.records = d.track.records ∧ a.flux.edges = d.flux.edges ∧
      a.flux.active = d.flux.active ∧ a.flux.purge = c.flux.purge := by
    rw [aframe, dframe]; exact ⟨rfl, rfl, rfl, rfl, rfl, rfl, rfl, rfl, rfl⟩
  obtain ⟨acounter, aremainder, amem, alow, aport, arecords, aedges, aactive, apurge⟩ := acred
  refine ⟨a, run, keeps, by rw [aclock]; exact next, ?_, fun h => ?_, fun h => ?_, fun j r q hr hq => ?_, greatest, attained,
    fun lane => ?_, fun lane u hu => ?_, ?_, n, ?_, fun x h h' => ?_, ?_, fun low => ?_, fun j r q hr hq => ?_, ?_⟩
  · rw [aclock, ← at', aframe, dframe, credits.frame]
  · obtain ⟨e, w, -⟩ := consumeEdges_free (inhibit.trans h) cut
    rw [aedges, aactive, hdd, e, w, due', active]
    exact ⟨rfl, rfl⟩
  · obtain ⟨e, w, -⟩ := consumeEdges_inhibited (by rw [inhibit]; exact h) cut
    rw [aedges, aactive, hdd, e, w, due', active]
    exact ⟨rfl, rfl⟩
  · rw [← btrack] at hr
    rw [arecords] at hq
    obtain ⟨x, takes, marks⟩ := forall₂_getElem? both hr hq
    have skipped : x.skipped = r.skipped := by rw [takes.1]
    have ordinal : x.ordinal = r.ordinal := by rw [takes.1]
    refine ⟨fun k hk => ?_, fun h hm => marks.flag ?_⟩
    · rw [marks.bits k hk, skipped, ordinal]
      by_cases h : s.flux.inhibit = [] <;> simp [h, and_assoc]
    · rw [if_neg h, ordinal]
      obtain ⟨e, he, ho, hor⟩ := hm
      exact ⟨e, List.mem_filter.mpr ⟨he, ho⟩, hor⟩
  · rw [opens, dinhibit, nopurge, dref]
  · rw [aclock, ← dclock]; exact owned lane u hu
  · rw [arecords, ← btrack]
    exact places_of_forall₂ (fun r q ⟨x, t, m⟩ => m.place.trans t.place) both
  · have onC : a = { c with flux := a.flux, track := { c.track with records := a.track.records } } := by
      rw [aframe, dframe]
    have onB : a = { b with
        flux := a.flux, track := { b.track with records := a.track.records }, mem := a.mem, port := a.port } := by
      rw [amem, aport]
      conv_lhs => rw [onC, credits.frame]
    have amod : a.modAt = b.modAt := by rw [onB]
    rw [start] at onB
    exact onB.trans (by rw [amod]; rfl)
  · rw [amem, credits.mirror x h h', bmem]
  · have tank := credits.tank.takes
    rw [pulses, purged] at tank
    exact tank.congr (by rw [bflux]) (by rw [bflux]) (by rw [bmem]) acounter aremainder (by rw [amem])
  · have lowb : LowFormed b := by
      unfold LowFormed State.loaded State.ws at low ⊢
      rw [bflux, bsetup]; exact low
    obtain ⟨after, event⟩ := credits.events lowb
    refine ⟨?_, ?_⟩
    · unfold LowFormed State.loaded State.ws at after ⊢
      rw [alow, acounter, aport]; exact after
    · unfold Pending at event ⊢
      rw [bflux, bnotices] at event
      rw [alow, acounter, aport]; exact event
  · rw [← btrack] at hr
    rw [arecords] at hq
    obtain ⟨x, takes, marks⟩ := forall₂_getElem? both hr hq
    intro small
    rw [marks.flux, takes.2 small, ← pulses]
  · rw [apurge, credits.purge, bflux, aclock]
    cases s.flux.purge with
    | none => rfl
    | some g =>
      simp only [Option.map_some, Purge.credited, elapsed]
      congr 2
      omega

end Sys2Proof.Machine
end


section
/-! CLEAR (R172, R173): O53. -/

namespace Sys2Proof.Machine

open Sys2Proof.Config

theorem causeStands_congr {s t : State} (hp : t.pins = s.pins) (hi : t.thermal.inputs = s.thermal.inputs)
    (hl : t.pot.lowlow = s.pot.lowlow) (he : t.extr = s.extr) (hs : t.port.setup = s.port.setup) (c : HaltCause) :
    causeStands t c = causeStands s c := by
  have hot : overtemp t = overtemp s := by
    unfold overtemp Thermal.potPV State.loaded State.ws
    rw [hp, hi, hs]
  cases c <;> simp only [causeStands, hot, Thermal.potPV, hp, hi, hl, he]

theorem causeStands_iff (s : State) (c : HaltCause) : causeStands s c = true ↔
    (c = .estop ∧ s.pins.estop = true) ∨ (c = .entryJam ∧ s.pins.entryEye = true) ∨
      (c = .potOvertemp ∧ (overtemp s = true ∨ s.thermal.potPV = none)) ∨
      (c = .potSensor ∧ (s.thermal.inputs.get 6).state ≠ .good) ∨ (c = .potLevel ∧ s.pot.lowlow.set = true) ∨
      (c = .widthDrive ∧ (s.pins.limitMin = true ∨ s.pins.limitMax = true)) ∨
      (c = .vapour ∧ (s.extr.points.get 7).sev = .alarm) := by
  cases c <;> simp [causeStands, Point.alarming, potInput]

theorem latchStays_iff (s : State) (z : Zone) : latchStays s z = true ↔
    ¬ ∃ v, s.thermal.zonePV z = some v ∧ s.loaded = true ∧ v < s.ws.zoneHard := by
  unfold latchStays
  cases s.thermal.zonePV z <;> cases s.loaded <;> simp

/-- What step 1 of CLEAR leaves (R60, R77, R101, R125, R161). -/
structure FaultsReleased (s u : State) : Prop where
  frame : u = { s with
    pot := s.pot.atClear
    flux := { s.flux with pressureFault := s.flux.pressureFault && !s.flux.pressureInBand }
    thermal := { s.thermal with latches := s.thermal.latches.mapIdx fun z l => l && latchStays s z }
    gate := { s.gate with width := s.gate.width.atClear (s.pins.limitMin || s.pins.limitMax) }
    outfeed := u.outfeed }
  outfeed : s.outfeed.state = .loading → s.track.exitEye.accepted = false → s.outfeed.sensor.accepted = false →
    u.outfeed.state = .empty
  sensor : u.outfeed.sensor = s.outfeed.sensor ∧ u.outfeed.readyCount = s.outfeed.readyCount

theorem releaseFaults_released (s : State) : FaultsReleased s s.releaseFaults := by
  unfold State.releaseFaults
  dsimp only
  split
  · exact ⟨rfl, fun _ b _ => by simp [State.enterEmpty, b], rfl, rfl⟩
  · next h => exact ⟨rfl, fun a b c => absurd (by simp [stalled, a, b, c]) h, rfl, rfl⟩

/-- Step 3 of CLEAR, from a state with its causes removed. -/
theorem leaveHalt_cases (s : State) :
    (s.modes.mode = .halted ∧ s.modes.causes = [] ∧ s.leaveHalt = s.enterMode .warmup) ∨
      ((s.modes.mode ≠ .halted ∨ s.modes.causes ≠ []) ∧ s.leaveHalt = s) := by
  unfold State.leaveHalt
  by_cases h : s.modes.mode = .halted ∧ s.modes.causes = []
  · exact .inl ⟨h.1, h.2, if_pos ⟨h.1, by simp [h.2]⟩⟩
  · refine .inr ⟨by by_contra c; push Not at c; exact h c, if_neg fun c => h ⟨c.1, by simpa using c.2⟩⟩

theorem kept_leaveHalt (s : State) : Kept s s.leaveHalt := by
  rcases leaveHalt_cases s with ⟨-, -, h⟩ | ⟨-, h⟩ <;> rw [h]
  · exact kept_enterMode s _
  · exact .refl s

/-- What the exit from HALTED leaves of the feeder, the drive and the outfeed. -/
theorem leaveHalt_blocks (s : State) : s.leaveHalt.outfeed = s.outfeed ∧ s.leaveHalt.gate.width = s.gate.width ∧
    ((∀ r, s.pot.feeder ≠ .feeding r) → s.leaveHalt.pot = s.pot) := by
  rcases leaveHalt_cases s with ⟨hm, -, h⟩ | ⟨-, h⟩ <;> rw [h]
  · refine ⟨by simp, ?_, fun hf => ?_⟩
    · rw [enterMode_of_ne (by simp [hm])]; rfl
    · rw [enterMode_of_ne (by simp [hm])]
      show ({ s.pot with feeder := s.pot.feeder.atMode .warmup } : Pot) = s.pot
      rw [Feeder.atMode_of_not_feeding hf]
  · exact ⟨rfl, rfl, fun _ => rfl⟩

/-- The mode after CLEAR (R172, R173). -/
theorem leaveHalt_settle_mode (s : State) :
    (s.modes.mode = .halted → s.leaveHalt.settle.modes.mode = .halted ∧ s.modes.causes ≠ [] ∨
      s.leaveHalt.settle.modes.mode = .warmup ∧ s.modes.causes = [] ∧ Pending s.leaveHalt.settle .modeChanged) ∧
    (s.modes.mode ≠ .halted → s.leaveHalt.settle.modes.mode =
      if s.modes.mode = .cooldown ∧ s.track.records = [] ∧ s.leaveHalt.settle.outfeed.state = .empty then .off
      else if s.modes.mode = .production ∧ s.track.records = [] ∧ s.port.hostLost = true then .economy
      else s.modes.mode) := by
  rcases leaveHalt_cases s with ⟨hm, hc, h⟩ | ⟨hcase, h⟩ <;> rw [h]
  · refine ⟨fun _ => .inr ⟨?_, hc, settle_pending (enterMode_pending (by simp [hm]))⟩, fun c => absurd hm c⟩
    have mode := enterMode_mode s .warmup
    rw [(settle_mode_stays (by simp [mode]) (by simp [mode])).1, mode]
  · refine ⟨fun hm => .inl ⟨?_, hcase.resolve_left fun c => c hm⟩, fun _ => ?_⟩
    · rw [(settle_mode_stays (by simp [hm]) (by simp [hm])).1, hm]
    · have outfeed := (follows_settle s).outfeed.empty_iff
      rw [settle_mode]
      simp only [outfeed]
      unfold State.modeStage cooldownDone hostLostEconomy drained
      by_cases hc : s.modes.mode = .cooldown ∧ s.track.records = [] ∧ s.outfeed.state = .empty
      · rw [if_pos hc, if_pos (by simp [hc]), enterMode_mode]
      · rw [if_neg hc, if_neg (by simpa using hc)]
        by_cases hp : s.modes.mode = .production ∧ s.track.records = [] ∧ s.port.hostLost = true
        · rw [if_pos hp, if_pos (by simp [hp]), enterMode_mode]
        · rw [if_neg hp, if_neg (by simpa [and_comm, and_left_comm] using hp)]

/-- Settles O53: the three steps of CLEAR, one after the other. -/
theorem clearReleasesFaultsAndCauses : Obligations.ClearReleasesFaultsAndCauses := by
  intro s w ws stands hp hw hst
  have run : exec (.clear ws) s = .next ((decideClear w).2.answer (decideClear w).1) := by
    rw [hw]; exact congrArg Host.Outcome.next (request_of_posts hp decideClear)
  obtain ⟨frame, empties, sensor, ready⟩ := releaseFaults_released w
  obtain ⟨u, hu⟩ : ∃ u : State, u = w.releaseFaults := ⟨_, rfl⟩
  rw [← hu] at frame empties sensor ready
  obtain ⟨v, hv⟩ : ∃ v : State, v = u.removeCauses := ⟨_, rfl⟩
  have vframe : v = { u with modes := { u.modes with causes := u.modes.causes.filter (causeStands u) } } := hv
  have stay : ∀ c, causeStands u c = true ↔ stands c := fun c => by
    rw [hst, causeStands_congr (s := s) (by rw [frame, hw]; rfl) (by rw [frame, hw]; rfl) ?_ (by rw [frame, hw]; rfl)
      (by rw [frame, hw]; rfl), causeStands_iff]
    rw [frame, hw]
    show (s.pot.atClear).lowlow = _
    unfold Pot.atClear; split <;> rfl
  have causes : v.modes.causes = s.modes.causes.filter (causeStands u) := by
    rw [vframe, show u.modes = s.modes by rw [frame, hw]; rfl]
  have mode : v.modes.mode = s.modes.mode := by rw [vframe, frame, hw]; rfl
  have records : v.track.records = s.track.records := by rw [vframe, frame, hw]; rfl
  have lost : v.port.hostLost = s.port.hostLost := by rw [vframe, frame, hw]; rfl
  have pot : v.pot = s.pot.atClear := by rw [vframe, frame, hw]; rfl
  have width : v.gate.width = s.gate.width.atClear (s.pins.limitMin || s.pins.limitMax) := by rw [vframe, frame, hw]; rfl
  have state : v.outfeed.state = u.outfeed.state := by rw [vframe]
  obtain ⟨sameOutfeed, sameWidth, samePot⟩ := leaveHalt_blocks v
  obtain ⟨halted, others⟩ := leaveHalt_settle_mode v
  have follows := follows_settle v.leaveHalt
  have kept := (kept_leaveHalt v).trans (kept_settle v.leaveHalt)
  have after : (decideClear w).2 = v.leaveHalt.settle := by rw [hv, hu]; rfl
  rw [mode, records, lost] at others
  rw [mode] at halted
  rw [run, after]
  generalize v.leaveHalt.settle = t at halted others follows kept
  have keeps := kept.keeps
  have tcauses : t.modes.causes = v.modes.causes := keeps.modesCauses
  refine ⟨t, rfl, fun c => ?_, fun h => ?_, fun h => others h, fun h => ?_, fun h => ?_, ?_, fun z => ?_, fun h h' h'' => ?_,
    fun h h' h'' => ?_, ?_⟩
  · rw [tcauses, causes, List.mem_filter, stay]
  · rw [tcauses]; exact halted h
  · have released : s.pot.atClear = { s.pot with feeder := .idle, misses := 0, feedTest := true } := if_pos h
    have idle : v.pot.feeder = .idle := by rw [pot, released]
    refine ⟨?_, ?_⟩
    · rw [follows.feeder (by rw [samePot (by simp [idle])]; simp [idle]), samePot (by simp [idle]), idle]
    · rw [keeps.potMisses, pot, released]
  · rw [keeps.potMisses, pot]
    unfold Pot.atClear; rw [if_neg h]
  · rw [keeps.fluxPressureFault, vframe, frame, hw]; rfl
  · have latches : t.thermal.latches = s.thermal.latches.mapIdx fun z l => l && latchStays w z := by
      rw [keeps.thermalLatches, vframe, frame, hw]; rfl
    have same : latchStays w z = latchStays s z := by rw [hw]; rfl
    rw [latches, Tab6.get_mapIdx, Bool.and_eq_true, same, latchStays_iff]
  · have released : v.gate.width = { s.gate.width with state := .unreferenced } := by
      rw [width, h', h'']
      exact if_pos ⟨h, rfl⟩
    rw [follows.width (by rw [sameWidth, released]; rfl), sameWidth, released]
  · have empty : v.outfeed.state = .empty := by
      rw [state]; exact empties (by rw [hw]; exact h) (by rw [hw]; exact h') (by rw [hw]; exact h'')
    exact follows.outfeed.empty_iff.mpr (by rw [sameOutfeed, empty])
  · have misses : t.pot.misses = v.pot.misses := keeps.potMisses
    have feedTest : t.pot.feedTest = v.pot.feedTest := keeps.potFeedTest
    have fault : t.flux.pressureFault = v.flux.pressureFault := keeps.fluxPressureFault
    have latches : t.thermal.latches = v.thermal.latches := keeps.thermalLatches
    refine (Kept.trans (.of_core ?_ ?_) kept).keeps
    · rw [misses, feedTest, fault, latches]
      unfold State.causesOf
      rw [tcauses, vframe, frame]
      simp only [State.core, sensor, ready, hw]
      unfold Pot.atClear
      split <;> rfl
    · rw [vframe, frame]; rfl

end Sys2Proof.Machine
end


section
/-! The hold set that the conditions form (R41, R42), reason by reason. -/

namespace Sys2Proof.Machine

open Sys2Proof.Config

theorem mem_formHolds (s : State) (r : HoldReason) : r ∈ formHolds s ↔ holdStands s r = true := by
  have every : r ∈ allReasons := by cases r <;> decide
  simp [formHolds, every]

theorem docketReports_iff (s : State) :
    docketReports s = true ↔ s.gate.state ≠ .opened ∧ s.gate.state ≠ .late := by
  simp [docketReports]

theorem changeoverHold_iff (s : State) : changeoverHold s = true ↔
    s.gate.phase ≠ .none ∨ ∃ b ∈ s.nextBoard, s.gate.lineClass ≠ some b.recipe.cls := by
  unfold changeoverHold State.nextClass
  cases s.nextBoard <;> simp

theorem fluxHold_iff (s : State) : holdStands s .flux = true ↔
    s.flux.purge ≠ none ∨ (s.flux.inhibit ≠ [] ∧ ∃ b ∈ s.nextBoard, b.skipFlux = false ∧ 0 < b.recipe.windowCount) := by
  have purge : s.flux.purge.isSome = true ↔ s.flux.purge ≠ none := by simp [Option.isSome_iff_ne_none]
  have sprays : nextSprays s = true ↔ ∃ b ∈ s.nextBoard, b.skipFlux = false ∧ 0 < b.recipe.windowCount := by
    unfold nextSprays NextBoard.sprays
    cases s.nextBoard with
    | none => simp
    | some b => cases h : b.skipFlux <;> simp [h]
  unfold holdStands
  rw [Bool.or_eq_true, Bool.and_eq_true, purge, sprays]
  simp [Flux.isInhibited]

theorem edgeRoomHold_iff (s : State) : edgeRoomHold s = true ↔
    ∃ b ∈ s.nextBoard, b.skipFlux = false ∧ 32 - s.flux.edges.length < 2 * b.recipe.windowCount := by
  unfold edgeRoomHold NextBoard.sprays Flux.freeEdges edgeMax
  cases s.nextBoard with
  | none => simp
  | some b => cases h : b.skipFlux <;> simp [h]

theorem zoneFaultHold_iff (s : State) : zoneFaultHold s = true ↔
    ∃ b ∈ s.nextBoard, ∃ z, b.recipe.zones.get z ≠ 0 ∧
      ((s.thermal.inputs.get (zoneInput z)).state ≠ .good ∨ s.thermal.latches.get z = true ∨
        s.ws.rating (zoneOutput z) = 0) := by
  have every : ∀ z : Zone, z ∈ allZones := by decide
  unfold zoneFaultHold Thermal.zoneFaulted Recipe.zone
  cases s.nextBoard with
  | none => simp
  | some b => simp [every, or_assoc]

theorem spacingHold_iff (s : State) : spacingHold s = true ↔
    s.track.entryEye.accepted = true ∨ (∃ r ∈ s.track.records.getLast?, r.stage = .entering) ∨
      ∃ q ∈ s.track.lastTrail, atOrAfter s.track.pos (q + tenths s.ws.minGap) = false := by
  unfold spacingHold
  cases s.track.records.getLast? <;> cases s.track.lastTrail <;> simp [or_assoc]

/-- A hold set that holds each reason exactly where it stands is that of Table 3-2. -/
theorem holdsFormed_of {s : State} (h : ∀ r, r ∈ s.gate.holds ↔ holdStands s r = true) : HoldsFormed s where
  modeHold := by rw [h]; simp [holdStands]
  listFull := by rw [h]; exact decide_eq_true_iff
  noDocket := by rw [h, holdStands, Bool.and_eq_true, docketReports_iff, and_comm]
  recipe := by rw [h, holdStands, Bool.and_eq_true, docketReports_iff, and_comm]
  noSlot := by rw [h, holdStands, Bool.and_eq_true, docketReports_iff, and_comm]
  changeover := by rw [h]; exact changeoverHold_iff s
  flux := by rw [h]; exact fluxHold_iff s
  edgeRoom := by rw [h]; exact edgeRoomHold_iff s
  x2Extraction := by rw [h]; simp [holdStands, x2Hold, Point.alarming, or_assoc]
  pot := by rw [h]; simp [holdStands]
  zoneFault := by rw [h]; exact zoneFaultHold_iff s
  hostLost := by rw [h]; rfl
  outfeed := by rw [h]; simp [holdStands, outfeedHold]
  spacing := by rw [h]; exact spacingHold_iff s

end Sys2Proof.Machine
end


section
/-! The resets (R39, R40): the memory that they leave, and the blocks; O17, O18, O19, O59. -/

namespace Sys2Proof.Machine

open Sys2Proof.Config

/-! ## Reset exit -/

/-- Reset exit of a state that is OFF without a cause (R41, R171, R175). -/
theorem resetExit_eq {s : State} (hm : s.modes.mode = .off) (hc : s.modes.causes = []) :
    s.resetExit = { s with
      gate := { s.gate with holds := formHolds s, told := s.outfeed.state }
      modes := { s.modes with causes := if s.pins.estop then [.estop] else [] }
      port := if s.pins.estop then s.port.notify .halted else s.port } := by
  unfold State.resetExit State.raiseIf
  cases he : s.pins.estop with
  | false =>
    rw [if_neg (by simp), if_neg (by simp), if_neg (by simp), ← hc]
  | true =>
    rw [if_pos rfl, raiseCause_stopped (by rw [hm]; rfl), if_neg (by simp [hc])]
    simp [hc]

theorem resetExit_holds (s : State) (hm : s.modes.mode = .off) (hc : s.modes.causes = []) : HoldsFormed s.resetExit := by
  refine holdsFormed_of fun r => ?_
  rw [resetExit_eq hm hc]
  refine (mem_formHolds s r).trans ?_
  have lost : (if s.pins.estop then s.port.notify .halted else s.port).hostLost = s.port.hostLost := by split <;> rfl
  have setup : (if s.pins.estop then s.port.notify .halted else s.port).setup = s.port.setup := by split <;> rfl
  generalize (if s.pins.estop then s.port.notify .halted else s.port) = p at lost setup ⊢
  obtain ⟨t, ht⟩ : ∃ t : State, t = { s with
    gate := { s.gate with holds := formHolds s, told := s.outfeed.state }
    modes := { s.modes with causes := if s.pins.estop then [.estop] else [] }
    port := p } := ⟨_, rfl⟩
  rw [← ht]
  have ws : t.ws = s.ws := by rw [ht, State.ws, setup]; rfl
  have track : t.track = s.track := by rw [ht]
  have thermal : t.thermal = s.thermal := by rw [ht]
  have next : t.nextBoard = s.nextBoard := by rw [ht]; rfl
  cases r with
  | zoneFault =>
    refine Iff.of_eq (congrArg (· = true) (?_ : zoneFaultHold s = zoneFaultHold t))
    rw [Bool.eq_iff_iff, zoneFaultHold_iff, zoneFaultHold_iff, ws, thermal, next]
  | spacing =>
    refine Iff.of_eq (congrArg (· = true) (?_ : spacingHold s = spacingHold t))
    rw [Bool.eq_iff_iff, spacingHold_iff, spacingHold_iff, ws, track]
  | hostLost => rw [holdStands, holdStands, ht, lost]
  | _ => rw [ht]; exact Iff.rfl

/-! ## The closes of a port reset (R37, R40) -/

/-- The memory after the close of one slot that reads ADMITTED. -/
def abortMemory (m : Memory) (n : SlotIx) : Memory :=
  if slotState m n = .admitted then countClosed (writeResult m n (emptyResult 3 0) 3) else m

theorem notify_notify (p : Port) (n : Notice) : (p.notify n).notify n = p.notify n := by
  unfold Port.notify
  simp only [BitVec.or_assoc, BitVec.or_self, BitVec.and_assoc, BitVec.and_self]

/-- The closes write memory, and set SLOT_CLOSED where there is one. -/
theorem abortSlots_eq (ns : List SlotIx) (s : State) (hd : ns.Nodup) :
    ns.foldl State.abortSlot s = { s with
      mem := ns.foldl abortMemory s.mem
      port := if ns.any (fun n => slotState s.mem n == .admitted) then s.port.notify .slotClosed else s.port } := by
  induction ns generalizing s with
  | nil => rfl
  | cons n ns ih =>
    obtain ⟨fresh, nodup⟩ := List.nodup_cons.mp hd
    rw [List.foldl_cons, List.foldl_cons, ih _ nodup, List.any_cons]
    by_cases h : slotState s.mem n = .admitted
    · have step : s.abortSlot n = { s with mem := abortMemory s.mem n, port := s.port.notify .slotClosed } := by
        unfold State.abortSlot abortMemory; rw [if_pos h, if_pos h]
      rw [step, h]
      simp only [notify_notify, ite_self]
      rfl
    · have step : s.abortSlot n = s := if_neg h
      have mem : abortMemory s.mem n = s.mem := if_neg h
      rw [step, mem, beq_false_of_ne h, Bool.false_or]

theorem slotState_other {m : Memory} {n k : SlotIx} (h : k ≠ n) : slotState (abortMemory m n) k = slotState m k := by
  unfold abortMemory
  split
  · exact slotState_congr (read_other_slot h _ _ (emptyResult_length 3 0) (k := 0) (by decide))
  · rfl

/-- What the closes leave of memory: the closed slots, the count, and every other word as it was. -/
structure Aborted (m n : Memory) (ns : List SlotIx) : Prop where
  low : ∀ a, a < 0x1000 → a ≠ 6 → n.read a = m.read a
  count : n.read 6 = m.read 6 + BitVec.ofNat 16 (ns.countP fun k => slotState m k == .admitted)
  slot : ∀ k j, j < 64 → n.read (slotAt k + j) =
    if k ∈ ns ∧ slotState m k = .admitted then
      if j = 0 then 3 else if 16 ≤ j ∧ j < 35 then (emptyResult 3 0).getD (j - 16) 0 else m.read (slotAt k + j)
    else m.read (slotAt k + j)

theorem aborted_one (m : Memory) (n : SlotIx) : Aborted m (abortMemory m n) [n] := by
  have b := slotAt_bounds n
  unfold abortMemory
  by_cases h : slotState m n = .admitted
  · rw [if_pos h]
    refine ⟨fun a ha h6 => ?_, ?_, fun k j hj => ?_⟩
    · unfold countClosed writeResult
      rw [Memory.read_write, if_neg (show a ≠ closedCountAt from h6), Memory.read_write, if_neg (by omega),
        Memory.read_writeBlock_of_outside (.inl (by omega))]
    · have six : (writeResult m n (emptyResult 3 0) 3).read 6 = m.read 6 := by
        unfold writeResult
        rw [Memory.read_write, if_neg (by omega), Memory.read_writeBlock_of_outside (.inl (by omega))]
      rw [List.countP_singleton, h]
      unfold countClosed
      rw [Memory.read_write, if_pos (by decide), show closedCountAt = 6 from rfl, six]
      rfl
    · by_cases hk : k = n
      · subst hk
        rw [read_countClosed_writeResult m k 3 (emptyResult_length 3 0) hj]
        exact (if_pos ⟨List.mem_singleton.mpr rfl, h⟩).symm
      · rw [read_other_slot hk _ _ (emptyResult_length 3 0) hj, if_neg fun c => hk (List.mem_singleton.mp c.1)]
  · rw [if_neg h]
    refine ⟨fun _ _ _ => rfl, ?_, fun k j _ => ?_⟩
    · rw [List.countP_singleton, beq_false_of_ne h]; simp
    · rw [if_neg]
      rintro ⟨hk, hs⟩
      exact h (List.mem_singleton.mp hk ▸ hs)

theorem aborted_foldl (ns : List SlotIx) (m : Memory) (hd : ns.Nodup) : Aborted m (ns.foldl abortMemory m) ns := by
  induction ns generalizing m with
  | nil => exact ⟨fun _ _ _ => rfl, by simp, fun k j _ => by simp⟩
  | cons n ns ih =>
    obtain ⟨fresh, nodup⟩ := List.nodup_cons.mp hd
    have first := aborted_one m n
    have rest := ih (abortMemory m n) nodup
    have apart : ∀ k ∈ ns, k ≠ n := fun k hk e => fresh (e ▸ hk)
    rw [List.foldl_cons]
    refine ⟨fun a ha h6 => (rest.low a ha h6).trans (first.low a ha h6), ?_, fun k j hj => ?_⟩
    · have same : (ns.countP fun k => slotState (abortMemory m n) k == .admitted) =
          ns.countP fun k => slotState m k == .admitted :=
        List.countP_congr fun k hk => by rw [slotState_other (apart k hk)]
      rw [rest.count, first.count, same, BitVec.add_assoc, ← BitVec.ofNat_add, List.countP_singleton, List.countP_cons,
        Nat.add_comm]
    · rw [rest.slot k j hj, first.slot k j hj]
      by_cases hk : k = n
      · subst hk
        rw [if_neg fun c => fresh c.1]
        simp
      · rw [slotState_other hk]
        have one : ¬ (k ∈ [n] ∧ slotState m k = .admitted) := fun c => hk (List.mem_singleton.mp c.1)
        rw [if_neg one]
        simp only [List.mem_cons, hk, false_or]

/-! ## Power-on reset -/

theorem freeSlots_read (ns : List SlotIx) (m : Memory) (a : Nat) :
    (ns.foldl (fun m n => m.write (slotAt n) 0) m).read a = if ∃ n ∈ ns, a = slotAt n then 0 else m.read a := by
  induction ns generalizing m with
  | nil => simp
  | cons n ns ih =>
    rw [List.foldl_cons, ih, Memory.read_write]
    simp only [List.mem_cons, exists_eq_or_imp]
    by_cases h : ∃ k ∈ ns, a = slotAt k <;> by_cases h' : a = slotAt n <;> simp [h, h']

/-- Each word of memory after a power-on reset. -/
theorem powerOnMemory_read (ws : List HostWrite) (a : Nat) :
    (powerOnMemory ws).read a = if ∃ n, a = slotAt n then 0
      else if 0x0160 ≤ a ∧ a < 0x0360 then 0
      else if a < 64 then headerAtPowerOn.getD a 0 else (hostWrites ws []).read a := by
  unfold powerOnMemory freeSlots
  rw [freeSlots_read, Memory.read_writeBlock, Memory.read_writeBlock]
  have every : (∃ n ∈ allSlots, a = slotAt n) ↔ ∃ n, a = slotAt n :=
    ⟨fun ⟨n, _, h⟩ => ⟨n, h⟩, fun ⟨n, h⟩ => ⟨n, List.mem_finRange n, h⟩⟩
  have header : headerAtPowerOn.length = 64 := row_length _ _
  have status : (row statusWords []).length = 512 := row_length _ _
  simp only [every, header, status, show Config.statusAt = 0x0160 from rfl]
  by_cases h : 0x0160 ≤ a ∧ a < 0x0360
  · have zero : ∀ j, (row statusWords []).getD j 0 = 0 := fun j => by
      simp only [row, List.take_nil, List.nil_append, List.length_nil, List.getD_eq_getElem?_getD, List.getElem?_replicate]
      split <;> rfl
    rw [if_pos h, if_pos h, zero]
  · rw [if_neg h, if_neg h]
    simp

theorem exec_powerOnReset (ws : List HostWrite) (s : State) :
    exec (.powerOnReset ws) s = .next (s.powerOn ws).resetExit := rfl

theorem exec_portReset (s : State) : exec .portReset s =
    .next (allSlots.foldl State.abortSlot
      ((s.tearRefresh (refreshCut s.clock s.port.generation)).cutPulses (fun _ => true) false).portRebuild).resetExit := rfl

theorem slotAt_congr {n k : SlotIx} {i j : Nat} (hi : i < 64) (hj : j < 64) (h : slotAt n + i = slotAt k + j) : i = j := by
  unfold slotAt at h; omega

/-- Settles O17: power-on reset, word by word. -/
theorem powerOnResetWritesHeaderAndSlotStates : Obligations.PowerOnResetWritesHeaderAndSlotStates := by
  unfold Obligations.PowerOnResetWritesHeaderAndSlotStates
  intro ws s
  refine ⟨_, exec_powerOnReset ws s, ?_⟩
  have eq := resetExit_eq (s := s.powerOn ws) rfl rfl
  have mem : (s.powerOn ws).resetExit.mem = powerOnMemory ws := by rw [eq]; rfl
  have docket : (s.powerOn ws).resetExit.docket = Docket.atReset 1 := by rw [eq]; rfl
  have port : (s.powerOn ws).resetExit.port = if s.pins.estop then Port.atReset.notify .halted else Port.atReset := by
    rw [eq]; rfl
  have low : ∀ a, a < 64 → ¬ ∃ n, a = slotAt n := fun a ha ⟨n, h⟩ => by have := slotAt_bounds n; omega
  have header : ∀ a, a < 64 → (powerOnMemory ws).read a = headerAtPowerOn.getD a 0 := fun a ha => by
    rw [powerOnMemory_read, if_neg (low a ha), if_neg (by omega), if_pos ha]
  have record : ∀ a, a < 0x1000 → ¬ ∃ n, a = slotAt n := fun a ha ⟨n, h⟩ => by have := slotAt_bounds n; omega
  rw [mem, docket, port]
  refine ⟨fun n => ?_, fun n k h1 h64 => ?_, header 0 (by omega), header 1 (by omega), header 2 (by omega),
    header 3 (by omega), header 4 (by omega), header 5 (by omega), header 6 (by omega), header 7 (by omega),
    header 8 (by omega), by rw [eq]; rfl, fun a h h' => ?_, fun a h => ?_, rfl, rfl, rfl, rfl, rfl, ?_, ?_, by rw [eq]; rfl, ?_⟩
  · rw [powerOnMemory_read, if_pos ⟨n, rfl⟩]
  · have := slotAt_bounds n
    rw [powerOnMemory_read, if_neg, if_neg (by omega), if_neg (by omega)]
    rintro ⟨m, h⟩
    have := slotAt_congr (j := 0) h64 (by omega) h
    omega
  · rw [powerOnMemory_read, if_neg (record a (by omega)), if_pos ⟨h, h'⟩]
  · rw [powerOnMemory_read, if_neg (record a (by omega)), if_neg (by omega), if_neg (by omega)]
  · split <;> rfl
  · unfold Pending
    rw [port]
    split <;> decide
  · split <;> rfl

/-! ## Port reset -/

/-- The state before a port reset closes the slots: the refresh is cut short, the pulses are credited, the blocks rebuilt. -/
def State.rebuilt (s : State) : State :=
  ((s.tearRefresh (refreshCut s.clock s.port.generation)).cutPulses (fun _ => true) false).portRebuild

/-- The notices after a port reset: SLOT_CLOSED where a slot was closed, HALTED where the E-STOP input is active. -/
def resetNotices (p : Port) (aborted estop : Bool) : Port :=
  let q := if aborted then p.notify .slotClosed else p
  if estop then q.notify .halted else q

/-- The slots that read ADMITTED are there to close. -/
def hasAdmitted (m : Memory) : Bool :=
  allSlots.any fun n => slotState m n == .admitted

theorem hasAdmitted_iff (m : Memory) : hasAdmitted m = true ↔ ∃ n, slotState m n = .admitted := by
  rw [hasAdmitted, List.any_eq_true]
  exact ⟨fun ⟨n, _, h⟩ => ⟨n, eq_of_beq h⟩, fun ⟨n, h⟩ => ⟨n, List.mem_finRange n, by rw [h]; rfl⟩⟩

/-- A port reset, block by block. -/
theorem exec_portReset_eq (s : State) : ∃ t h, exec .portReset s = .next t ∧ HoldsFormed t ∧
    t = { s.rebuilt with
      mem := allSlots.foldl abortMemory s.rebuilt.mem
      gate := { Gate.atReset with holds := h, told := s.rebuilt.outfeed.state }
      modes := { mode := .off, causes := if s.pins.estop then [.estop] else [], idle := none, wakeArm := none
                 runOn := some 3600000 }
      port := resetNotices s.rebuilt.port (hasAdmitted s.rebuilt.mem) s.pins.estop } := by
  obtain ⟨v, hv⟩ : ∃ v : State, v = allSlots.foldl State.abortSlot s.rebuilt := ⟨_, rfl⟩
  have shape := hv.trans (abortSlots_eq allSlots s.rebuilt allSlots_nodup)
  have pins : s.rebuilt.pins = s.pins := by
    show ((s.tearRefresh _).cutPulses _ _).pins = s.pins
    simp
  have off : v.modes.mode = .off := by rw [shape]; rfl
  have none : v.modes.causes = [] := by rw [shape]; rfl
  refine ⟨v.resetExit, formHolds v, ?_, resetExit_holds v off none, ?_⟩
  · rw [exec_portReset, hv]; rfl
  · have vpins : v.pins.estop = s.pins.estop := by rw [shape]; exact congrArg _ pins
    have told : v.outfeed.state = s.rebuilt.outfeed.state := by rw [shape]
    rw [resetExit_eq off none, vpins, told]
    generalize formHolds v = h
    have modes : s.rebuilt.modes = { Modes.atReset with runOn := some resetRunOn } := rfl
    have gate : s.rebuilt.gate = Gate.atReset := rfl
    rw [shape, modes, gate]
    unfold resetNotices hasAdmitted
    generalize s.rebuilt = w
    generalize allSlots = slots
    cases s.pins.estop <;> rfl

/-- What the rebuilt state is, with the tank of the pulses that were cut. -/
theorem rebuilt_mem (s : State) : ∃ v, s.rebuilt = v.portRebuild ∧
    PulsesEnd (s.tearRefresh (refreshCut s.clock s.port.generation)) v allIdx8 (fun _ => true) false ∧
    v.pins = s.pins ∧ v.clock = s.clock ∧ v.extr = s.extr ∧
    v.port.generation = (s.tearRefresh (refreshCut s.clock s.port.generation)).port.generation := by
  have ends := cutPulses_ends (s.tearRefresh (refreshCut s.clock s.port.generation)) (fun _ => true) false
  refine ⟨_, rfl, ends, by simp, by simp, by simp, ?_⟩
  rw [uncredited_frame ends.rest]

/-- The words of the eight alarm points. -/
theorem statusAlarms_length (s : State) : (statusAlarms s).length = 48 := by
  simp [statusAlarms, Tab8.toList, pointWords]

theorem statusLoops_length (s : State) : (statusLoops s).length = 49 := by
  simp [statusLoops, loopWords, allZones]

theorem statusBlock_length (s : State) : (statusBlock s).length = 512 := by
  have modes : (statusModes s).length = 31 := row_length _ _
  have track : (statusTrack s).length = 16 := by rw [statusTrack, List.length_append, row_length]; rfl
  have view : (statusView s).length = 96 := row_length _ _
  have pot : (statusPot s).length = 32 := row_length _ _
  have flux : (statusFlux s).length = 32 := row_length _ _
  have extraction : (statusExtraction s).length = 16 := row_length _ _
  have outfeed : (statusOutfeed s).length = 32 := row_length _ _
  unfold statusBlock
  simp only [List.length_append, row_length, modes, track, view, pot, flux, extraction, outfeed, statusAlarms_length,
    statusLoops_length, List.length_cons, List.length_nil]

theorem tornBlock_length (s : State) (written : BitVec 512) : (tornBlock s written).length = 512 := by
  rw [tornBlock, List.length_mapIdx, statusBlock_length]

theorem tearRefresh_low (s : State) (cut : Option (BitVec 512)) (a : Nat) (h : a < 0x0160 ∨ 0x0360 ≤ a) :
    (s.tearRefresh cut).mem.read a = s.mem.read a := by
  unfold State.tearRefresh
  split
  · split
    · rfl
    · refine Memory.read_writeBlock_of_outside ?_
      rw [tornBlock_length]
      exact h.imp id id
  · rfl

theorem resetNotices_latch (p : Port) (b e : Bool) : (resetNotices p b e).latch = p.latch := by
  cases b <;> cases e <;> rfl

theorem posHalf_append (p : Pos) : posHalf p .hi ++ posHalf p .lo = p := by
  unfold posHalf
  apply BitVec.eq_of_getLsbD_eq
  intro i hi
  rw [BitVec.getLsbD_append]
  by_cases h : i < 16
  · simp [h]
  · simp [h, show i - 16 < 16 by omega, show 16 + (i - 16) = i by omega]

/-- Settles O59: by the half that is latched. -/
theorem posReadPairIsOneValue : Obligations.PosReadPairIsOneValue := by
  unfold Obligations.PosReadPairIsOneValue
  intro s h k hk
  have k' : otherHalf h = k := match h, k, hk with
    | .lo, .hi, _ => rfl
    | .hi, .lo, _ => rfl
    | .lo, .lo, same => absurd rfl same
    | .hi, .hi, same => absurd rfl same
  refine ⟨fun free => ?_, fun v latched => ?_, posHalf_append, fun _ => rfl, ?_, fun ws => ⟨_, exec_powerOnReset ws s, ?_⟩⟩
  · show Host.Outcome.next _ = _
    have read : readPos s h = (posHalf s.track.pos h, some (k, posHalf s.track.pos k)) := by
      unfold readPos
      split
      · next j v hl =>
        rw [if_neg fun e => free v (by rw [hl, e]), k']
      · rw [k']
    rw [read]
  · show Host.Outcome.next _ = _
    have read : readPos s h = (v, none) := by
      unfold readPos
      rw [latched]
      exact if_pos rfl
    rw [read]
  · obtain ⟨t, g, run, -, shape⟩ := exec_portReset_eq s
    refine ⟨t, run, ?_⟩
    rw [shape]
    exact resetNotices_latch _ _ _
  · rw [resetExit_eq rfl rfl]
    exact resetNotices_latch Port.atReset false _

theorem untilBoundary_zero {g : Nat} (hg : 0 < g) (taken now : Clock) :
    untilBoundary g taken now = 0 ↔ now.toNat % g = 0 ∧ now ≠ taken := by
  unfold untilBoundary
  split
  · next h => exact ⟨fun _ => h, fun _ => rfl⟩
  · next h =>
    refine ⟨fun z => absurd z ?_, fun c => absurd c h⟩
    have := now.isLt
    have : now.toNat < (now.toNat / g + 1) * g := by
      rw [Nat.add_mul, Nat.one_mul]
      have := Nat.div_add_mod now.toNat g
      have := Nat.mod_lt now.toNat hg
      rw [Nat.mul_comm g] at *
      omega
    omega

/-- The state after a refresh that has been cut short: the words written so far, and the odd count (R185). -/
def State.tornAfter (s : State) (written : BitVec 512) : State :=
  { s with
    mem := s.mem.writeBlock Config.statusAt (tornBlock s written)
    port := { s.port with generation := oddGeneration s.port.generation }
    statusAt := s.clock }

/-- The refresh that a port reset cuts short, where one is due (R185). -/
theorem tearRefresh_eq (s : State) (cut : Option (BitVec 512)) : s.tearRefresh cut =
    ((if s.clock.toNat % 250 = 0 ∧ s.clock ≠ s.statusAt then cut else none).map s.tornAfter).getD s := by
  unfold State.tearRefresh
  have due : (untilBoundary statusPeriod s.statusAt s.clock = 0) ↔ s.clock.toNat % 250 = 0 ∧ s.clock ≠ s.statusAt :=
    untilBoundary_zero (g := 250) (by decide) _ _
  by_cases d : s.clock.toNat % 250 = 0 ∧ s.clock ≠ s.statusAt
  · rw [if_pos d, if_pos (due.mpr d)]
    cases cut <;> rfl
  · rw [if_neg d, if_neg fun z => d (due.mp z)]
    rfl

/-- Memory of the rebuilt state: the words apart from the reset cause, the tank mirror and the status block. -/
theorem rebuilt_read (s : State) (a : Nat) (h : a ≠ 2 ∧ a ≠ 4 ∧ a ≠ 5) :
    s.rebuilt.mem.read a = (s.tearRefresh (refreshCut s.clock s.port.generation)).mem.read a := by
  obtain ⟨v, hv, ends, -⟩ := rebuilt_mem s
  rw [hv]
  show ((v.mem.write resetCauseAt 2).writeBlock mirrorTankAt (twoWords (mirroredTank v.mem))).read a = _
  rw [Memory.read_writeBlock_of_outside (by simp [mirrorTankAt]; omega), Memory.read_write,
    if_neg (by simp [resetCauseAt]; omega), ends.mirror a h.2.1 h.2.2]

theorem rebuilt_slotState (s : State) (n : SlotIx) : slotState s.rebuilt.mem n = slotState s.mem n := by
  have := slotAt_bounds n
  exact slotState_congr (by rw [rebuilt_read s _ (by omega), tearRefresh_low _ _ _ (by omega)])

theorem tornBlock_getD (s : State) (written : BitVec 512) (j : Nat) (h : j < 512) : (tornBlock s written).getD j 0 =
    if j = 0 then oddGeneration s.port.generation
    else if written.getLsbD (fieldWord j) then (statusBlock s).getD j 0 else s.mem.read (Config.statusAt + j) := by
  have len := statusBlock_length s
  rw [tornBlock, List.getD_eq_getElem?_getD, List.getElem?_mapIdx, List.getD_eq_getElem?_getD,
    List.getElem?_eq_getElem (by omega)]
  rfl

/-- The words of a slot closed ABORTED_RESET, but its outcome. -/
theorem abortedResult_zero {i : Nat} (hi : i < 19) (h : i ≠ 1) : (emptyResult 3 0).getD i 0 = 0 := by
  revert h; revert i; decide

theorem resetNotices_generation (p : Port) (b e : Bool) : (resetNotices p b e).generation = p.generation := by
  cases b <;> cases e <;> rfl

theorem resetNotices_closed (p : Port) (e : Bool) :
    (resetNotices p true e).notices.getLsbD Notice.slotClosed.bit = true := by
  cases e <;> simp [resetNotices, Port.notify, Notice.mask, Notice.bit]

theorem read32_congr {m n : Memory} {a : Nat} (h : m.read a = n.read a) (h' : m.read (a + 1) = n.read (a + 1)) :
    m.read32 a = n.read32 a := by
  unfold Memory.read32
  rw [h, h']

/-- Settles O18: the slots by `aborted_foldl`, the tank by the pulses that were cut, the block by the refresh cut short. -/
theorem portResetClosesAdmittedSlots : Obligations.PortResetClosesAdmittedSlots := by
  unfold Obligations.PortResetClosesAdmittedSlots
  intro s torn htorn
  obtain ⟨t, g, run, -, shape⟩ := exec_portReset_eq s
  have closes := aborted_foldl allSlots s.rebuilt.mem allSlots_nodup
  have mem : t.mem = allSlots.foldl abortMemory s.rebuilt.mem := by rw [shape]
  rw [← mem] at closes
  have tear : s.tearRefresh (refreshCut s.clock s.port.generation) = (torn.map s.tornAfter).getD s := by
    rw [tearRefresh_eq, ← htorn]
  obtain ⟨u, hu⟩ : ∃ u : State, u = s.tearRefresh (refreshCut s.clock s.port.generation) := ⟨_, rfl⟩
  obtain ⟨v, hv, ends, pins, clock, extr, generation⟩ := rebuilt_mem s
  rw [← hu] at ends generation
  -- the words of a slot and of the rest, against the memory before
  have high : ∀ a, 0x0360 ≤ a → s.rebuilt.mem.read a = s.mem.read a := fun a h => by
    rw [rebuilt_read s a (by omega), tearRefresh_low _ _ _ (.inr h)]
  have admitted : ∀ n, slotState s.rebuilt.mem n = slotState s.mem n := rebuilt_slotState s
  have inSlot : ∀ n k, k < 64 → s.rebuilt.mem.read (slotAt n + k) = s.mem.read (slotAt n + k) := fun n k _ => by
    have := slotAt_bounds n
    exact high _ (by omega)
  have every : ∀ n : SlotIx, n ∈ allSlots := fun n => List.mem_finRange n
  have low : ∀ a, a < 0x1000 → a ≠ 6 → a ≠ 2 ∧ a ≠ 4 ∧ a ≠ 5 → a < 0x0160 ∨ 0x0360 ≤ a →
      t.mem.read a = s.mem.read a := fun a h h6 h' ho => by
    rw [closes.low a h h6, rebuilt_read s a h', tearRefresh_low _ _ _ ho]
  have port : t.port = resetNotices { Port.atReset with generation := u.port.generation } (hasAdmitted s.rebuilt.mem) s.pins.estop := by
    rw [shape, hv, ← generation]
    rfl
  refine ⟨t, run, fun n h => ⟨?_, ?_, fun k h1 h2 h3 => ?_, fun k hk => ?_⟩, fun n h k hk => ?_, ?_, ?_, ?_, fun a ha => ?_, ?_, fun j hj => ?_, ?_,
    fun c m hr hc hm => ?_, fun ⟨n, h⟩ => ?_, ?_, ?_, ?_, fun k => ?_⟩
  · have := closes.slot n 0 (by omega)
    rw [if_pos ⟨every n, (admitted n).trans h⟩] at this
    exact this
  · have := closes.slot n 17 (by omega)
    rw [if_pos ⟨every n, (admitted n).trans h⟩] at this
    exact this
  · have := closes.slot n k (by omega)
    rw [if_pos ⟨every n, (admitted n).trans h⟩, if_neg (by omega), if_pos (by omega)] at this
    exact this.trans (abortedResult_zero (by omega) (by omega))
  · have := closes.slot n k (by omega)
    rw [if_pos ⟨every n, (admitted n).trans h⟩, if_neg (by omega), if_neg (by omega), inSlot n k (by omega)] at this
    exact this
  · have := closes.slot n k hk
    rw [if_neg fun c => h ((admitted n).symm.trans c.2), inSlot n k hk] at this
    exact this
  · rw [closes.low 2 (by omega) (by omega), hv]
    show ((v.mem.write resetCauseAt 2).writeBlock mirrorTankAt (twoWords (mirroredTank v.mem))).read 2 = _
    rw [Memory.read_writeBlock_of_outside (.inl (by decide)), Memory.read_write]
    rfl
  · exact low 3 (by omega) (by omega) (by omega) (by omega)
  · rw [closes.count, rebuilt_read s 6 (by omega), tearRefresh_low _ _ _ (by omega), List.countP_eq_length_filter]
    simp only [admitted]
  · exact low a (by omega) (by omega) (by omega) (by omega)
  · rw [port, resetNotices_generation, hu, tear]
    cases torn <;> rfl
  · have at' : t.mem.read (0x0160 + j) = u.mem.read (0x0160 + j) := by
      rw [closes.low _ (by omega) (by omega), rebuilt_read s _ (by omega), ← hu]
    rw [at', port, resetNotices_generation, hu, tear]
    cases torn with
    | none => rfl
    | some written =>
      show (s.mem.writeBlock Config.statusAt (tornBlock s written)).read (Config.statusAt + j) = _
      rw [Memory.read_writeBlock, tornBlock_length, if_pos (by omega), Nat.add_sub_cancel_left, tornBlock_getD _ _ _ hj]
      rfl
  · rw [shape, hv]
    show v.mem.read 3 = _
    rw [ends.mirror 3 (by omega) (by omega), hu, tearRefresh_low _ _ _ (by omega)]
  · have flux : u.flux = s.flux := by rw [hu]; simp
    have setup : u.port.setup = s.port.setup := by rw [hu, tear]; cases torn <;> rfl
    have credits : pulseCredits u (fun _ => true) = pulseCredits s fun _ => true :=
      pulseCredits_congr (by rw [flux]) setup (by rw [hu]; simp) _
    have tank : TankTakes s v (pulseCredits s fun _ => true) := by
      rw [← credits]
      exact ends.tank.takes.congr (by rw [flux]) (by rw [flux])
        (read32_congr (by rw [hu, tearRefresh_low _ _ _ (by omega)]) (by rw [hu, tearRefresh_low _ _ _ (by omega)])) rfl rfl rfl
    have counter : v.flux.counter = c := (tank.counter hr).trans hc.symm
    have mirrored : mirroredTank v.mem = min m 50000000 := by
      rw [show mirroredTank v.mem = min (v.mem.read32 4) 50000000 from rfl, tank.mirror, counter, hm]
    have rebuilt : s.rebuilt.mem.read32 4 = min m 50000000 := by
      rw [hv]
      show ((v.mem.write resetCauseAt 2).writeBlock mirrorTankAt (twoWords (mirroredTank v.mem))).read32 4 = _
      rw [read32_writeBlock_mirror, mirrored]
      omega
    refine ⟨?_, (read32_congr (closes.low 4 (by omega) (by omega)) (closes.low 5 (by omega) (by omega))).trans rebuilt⟩
    rw [shape, hv]
    exact mirrored
  · rw [Pending, port, (hasAdmitted_iff _).mpr ⟨n, (admitted n).trans h⟩]
    exact resetNotices_closed _ _
  · rw [shape, hv]
    exact clock
  · rw [shape]
  · rw [shape]; rfl
  · rw [shape, hv, ← extr]
    show ((v.extr.points.mapIdx fun _ p => p.atPortReset).get k).activations = _
    rw [Tab8.get_mapIdx]
    rfl

/-! ## The blocks after either reset -/

/-- Every block after a reset, `port` of the port alone. -/
structure AfterReset (s t : State) (port : Bool) : Prop where
  pins : t.pins = s.pins
  pending : t.pending = s.pending
  track : t.track = Track.atReset s.pins port
  docket : ∃ e, t.docket = Docket.atReset e
  outfeed : t.outfeed = Outfeed.atReset s.pins
  gate : ∃ h, t.gate = { Gate.atReset with holds := h, told := t.outfeed.state }
  holds : HoldsFormed t
  flux : ∃ c, c ≤ tankMax ∧ t.flux = Flux.atReset c
  thermal : t.thermal = Thermal.atReset
  pot : t.pot = Pot.atReset port
  fan : t.extr.fan = port ∧ t.extr.grace1 = (if port then some 10000 else none) ∧
    t.extr.grace2 = (if port then some 10000 else none)
  points : ∀ k, t.extr.points.get k =
    { Point.atReset with activations := if port then (s.extr.points.get k).activations else 0 }
  lines : t.extr.vapourCount = 0 ∧ t.extr.horn = false ∧ t.extr.hornCount = 0 ∧ t.extr.beacon = false ∧
    t.extr.beaconCount = 0
  modes : t.modes =
    { mode := .off, causes := if s.pins.estop then [.estop] else [], idle := none, wakeArm := none
      runOn := if port then some 3600000 else none }
  notices : ∃ g b, t.port = resetNotices { Port.atReset with generation := g } b s.pins.estop ∧
    (b = true ↔ port = true ∧ ∃ n, slotState s.mem n = .admitted)

theorem powerOn_afterReset (s : State) (ws : List HostWrite) : AfterReset s (s.powerOn ws).resetExit false := by
  have holds := resetExit_holds (s.powerOn ws) rfl rfl
  have eq := resetExit_eq (s := s.powerOn ws) rfl rfl
  generalize (s.powerOn ws).resetExit = t at holds eq ⊢
  rw [eq] at holds ⊢
  exact {
    pins := rfl, pending := rfl, track := rfl, docket := ⟨1, rfl⟩, outfeed := rfl, gate := ⟨_, rfl⟩, holds
    flux := ⟨0, Nat.zero_le _, rfl⟩, thermal := rfl, pot := rfl, fan := ⟨rfl, rfl, rfl⟩
    points := fun k => Tab8.get_ofFn _ k
    lines := ⟨rfl, rfl, rfl, rfl, rfl⟩, modes := rfl
    notices := ⟨0, false, rfl, by simp⟩ }

theorem portReset_afterReset (s : State) : ∃ t, exec .portReset s = .next t ∧ AfterReset s t true := by
  obtain ⟨t, h, run, holds, shape⟩ := exec_portReset_eq s
  obtain ⟨v, hv, ends, pins, clock, extr, generation⟩ := rebuilt_mem s
  have queue : v.pending = s.pending := by rw [uncredited_frame ends.rest]; simp
  have slots : hasAdmitted s.rebuilt.mem = true ↔ ∃ n, slotState s.mem n = .admitted := by
    rw [hasAdmitted_iff]
    simp only [rebuilt_slotState]
  refine ⟨t, run, ?_⟩
  rw [hv] at shape slots
  rw [shape] at holds ⊢
  have point : ∀ k, (v.portRebuild.extr.points.get k) = { Point.atReset with activations := (s.extr.points.get k).activations } :=
    fun k => by rw [← extr]; exact Tab8.get_mapIdx _ _ k
  exact {
    pins := pins, pending := queue, track := by rw [← pins]; rfl, docket := ⟨v.mem.read mirrorEAt, rfl⟩
    outfeed := by rw [← pins]; rfl, gate := ⟨h, rfl⟩, holds
    flux := ⟨mirroredTank v.mem, Nat.min_le_right _ _, rfl⟩, thermal := rfl, pot := rfl, fan := ⟨rfl, rfl, rfl⟩
    points := point, lines := ⟨rfl, rfl, rfl, rfl, rfl⟩, modes := rfl
    notices := ⟨v.port.generation, hasAdmitted v.portRebuild.mem, rfl, slots.trans (by simp)⟩ }

theorem AfterReset.inhibit {s t : State} {port : Bool} (h : AfterReset s t port) : InhibitFormed t := by
  obtain ⟨c, -, flux⟩ := h.flux
  have quiet : ∀ k, (t.extr.points.get k).sev = .none := fun k => by rw [h.points]; rfl
  have off : t.modes.mode = .off := by rw [h.modes]
  have set : t.flux.inhibit = if c = 0 then [.tank, .mode] else [.mode] := by rw [flux]; rfl
  have counter : t.flux.counter = c := by rw [flux]; rfl
  have latch : t.flux.pressureFault = false := by rw [flux]; rfl
  constructor <;> simp only [quiet, off, set, counter, latch] <;> by_cases zero : c = 0 <;> simp [zero]

/-- The notices that a reset leaves. -/
theorem AfterReset.pendings {s t : State} {port : Bool} (h : AfterReset s t port) :
    (∀ n, Pending t n → n = .slotClosed ∨ n = .halted) ∧ (Pending t .halted ↔ s.pins.estop = true) ∧
    (Pending t .slotClosed ↔ port = true ∧ ∃ n, slotState s.mem n = .admitted) := by
  obtain ⟨g, b, eq, closed⟩ := h.notices
  rw [← closed]
  unfold Pending
  rw [eq]
  generalize s.pins.estop = e
  refine ⟨fun n => ?_, ?_, ?_⟩
  · cases b <;> cases e <;> cases n <;> simp [resetNotices, Port.notify, Port.atReset, Notice.mask, Notice.bit]
  · cases b <;> cases e <;> simp [resetNotices, Port.notify, Port.atReset, Notice.mask, Notice.bit]
  · cases b <;> cases e <;> simp [resetNotices, Port.notify, Port.atReset, Notice.mask, Notice.bit]

/-- The port interface after a reset, its notices apart. -/
theorem resetNotices_rest (p : Port) (b e : Bool) : resetNotices p b e =
    { p with notices := (resetNotices p b e).notices, marks := (resetNotices p b e).marks } := by
  cases b <;> cases e <;> rfl

theorem resetNotices_marks {p : Port} (h : p.marks = 0) (b e : Bool) : (resetNotices p b e).marks = 0 := by
  cases b <;> cases e <;> simp [resetNotices, Port.notify, h]

/-- Settles O19: both resets leave the blocks of `AfterReset`. -/
theorem resetsLeaveTheBlocksAtRest : Obligations.ResetsLeaveTheBlocksAtRest := by
  unfold Obligations.ResetsLeaveTheBlocksAtRest
  intro c s port hc
  have reset : ∃ t, exec c s = .next t ∧ AfterReset s t port := by
    obtain ⟨hp, hc⟩ | ⟨hp, ws, hc⟩ := hc
    · rw [hp, hc]; exact portReset_afterReset s
    · rw [hp, hc]; exact ⟨_, exec_powerOnReset ws s, powerOn_afterReset s ws⟩
  obtain ⟨t, run, h⟩ := reset
  obtain ⟨e, docket⟩ := h.docket
  obtain ⟨holds, gate⟩ := h.gate
  obtain ⟨counter, -, flux⟩ := h.flux
  obtain ⟨g, b, notices, -⟩ := h.notices
  obtain ⟨fan, grace1, grace2⟩ := h.fan
  obtain ⟨vapour, horn, hornCount, beacon, beaconCount⟩ := h.lines
  obtain ⟨only, halted, closed⟩ := h.pendings
  refine ⟨t, run, h.pins, h.pending, h.track, by rw [docket]; rfl, by rw [gate]; rfl, h.holds, h.outfeed,
    by rw [flux]; rfl, by rw [flux]; rfl, fun k => ?_, fun k => ?_, by rw [flux]; rfl, by rw [flux]; rfl,
    by rw [flux]; rfl, by rw [flux]; rfl, by rw [flux]; rfl, by rw [flux]; rfl, h.inhibit, fun k => ?_, fun l hl => ?_,
    by rw [h.thermal]; rfl, fun z => ?_, fun k => ?_, by rw [h.thermal]; rfl, by rw [h.pot]; rfl, by rw [h.pot]; rfl,
    by rw [h.pot]; rfl, by rw [h.pot]; rfl, by rw [h.pot]; rfl, by rw [h.pot]; rfl, by rw [h.pot]; rfl,
    by rw [h.pot]; rfl, by rw [h.pot]; rfl, by rw [h.pot]; rfl, fun w => ?_, by rw [h.pot]; rfl, by rw [h.pot]; rfl, fan, grace1, grace2,
    h.points, vapour, horn, hornCount, beacon, beaconCount, h.modes, ?_, only, halted, closed⟩
  · rw [flux]; exact Tab8.get_ofFn _ k
  · rw [flux]; exact Tab8.get_ofFn _ k
  · rw [h.thermal]; exact Tab8.get_ofFn _ k
  · rw [h.thermal] at hl
    obtain pot | ⟨z, zone⟩ := hl
    · exact pot
    · exact zone.trans (Tab6.get_ofFn _ z)
  · rw [h.thermal]; exact Tab6.get_ofFn _ z
  · rw [h.thermal]; exact Tab8.get_ofFn _ k
  · rw [h.pot]; cases w <;> rfl
  · have rest := resetNotices_rest { Port.atReset with generation := g } b s.pins.estop
    rw [resetNotices_marks rfl] at rest
    rw [notices, rest]
    rfl

end Sys2Proof.Machine
end



section
/-! The state after power-on reset meets every rule (R39); O13. -/

namespace Sys2Proof.Machine

open Sys2Proof.Config

/-- At reset every alarm point is NORMAL. -/
theorem reset_point (k : Idx8) : State.reset.extr.points.get k = Point.atReset :=
  Tab8.get_ofFn _ k

theorem reset_zone (z : Zone) : State.reset.thermal.zones.get z = Loop.atReset :=
  Tab6.get_ofFn _ z

theorem reset_pump (w : Wave) : State.reset.pot.pump w = Pump.atReset := by
  cases w <;> rfl

theorem reset_notPermitted_grants : State.reset.thermal.pot.grant = 0 ∧
    (∀ z, (State.reset.thermal.zones.get z).grant = 0) ∧ ∀ k, State.reset.thermal.outputs.get k = false :=
  ⟨rfl, fun z => by rw [reset_zone]; rfl, fun k => Tab8.get_ofFn _ k⟩

theorem reset_holdsFormed : HoldsFormed State.reset :=
  holdsFormed_of fun r => by cases r <;> decide

theorem reset_heatersCut : HeatersCut State.reset := by
  obtain ⟨pot, zone, output⟩ := reset_notPermitted_grants
  exact ⟨fun _ => ⟨pot, zone, output⟩, fun _ => ⟨pot, output 0, output 1⟩, fun z _ => ⟨zone z, output _⟩⟩

theorem reset_gateFormed : GateFormed State.reset := by
  constructor <;> decide

theorem reset_fansFormed : FansFormed State.reset := by
  constructor <;> decide

theorem reset_annunciatorsFormed : AnnunciatorsFormed State.reset := by
  constructor <;> simp only [reset_point] <;> decide

theorem reset_outfeedFormed : OutfeedFormed State.reset := by
  constructor <;> decide

theorem reset_inhibitFormed : InhibitFormed State.reset := by
  constructor
  case extraction => simp only [reset_point]; decide
  case vapour => rw [reset_point]; decide
  all_goals decide

theorem reset_targetsFormed : TargetsFormed State.reset := by
  refine ⟨fun z => ?_, fun w => ?_, rfl⟩
  · constructor <;> rw [reset_zone] <;> simp [Loop.atReset, State.reset, Track.atReset, Modes.atReset]
  · constructor <;> rw [reset_pump] <;> simp [Pump.atReset, State.reset, Track.atReset, Modes.atReset]

/-- Settles O13, rule by rule. -/
theorem resetStateMeetsEveryRule : Obligations.ResetStateMeetsEveryRule := by
  unfold Obligations.ResetStateMeetsEveryRule
  refine ⟨Memory.nil_wf, rfl, fun w => ?_, reset_heatersCut, ?_, ?_, ?_, reset_gateFormed, reset_fansFormed,
    reset_annunciatorsFormed, reset_outfeedFormed, ?_, reset_inhibitFormed, ?_, ?_, ?_, ?_, ?_, reset_targetsFormed, ?_, ?_,
    reset_holdsFormed, ?_, ?_, ?_, ?_, ?_, ?_, ?_, ?_, ?_, ?_, ?_, ?_, ?_, ?_, ?_, rfl⟩
  · rw [reset_pump]; rfl
  · unfold WithinBudget; decide
  · refine ⟨?_, fun z => ?_⟩
    · unfold Loop.InRange; decide
    · rw [reset_zone]; unfold Loop.InRange; decide
  · exact fun _ => rfl
  · simp [NoticeLineFormed, State.reset, Port.atReset]
  · constructor <;> decide
  · unfold ListBounded; decide
  · exact ⟨rfl, List.nodup_nil, fun _ h => by cases h⟩
  · unfold TankBounded; decide
  · exact ⟨rfl, rfl⟩
  · refine ⟨?_, fun z => ?_⟩
    · unfold Loop.SettledFormed; decide
    · rw [reset_zone]; unfold Loop.SettledFormed; decide
  · constructor <;> decide
  · exact fun _ => by decide
  · constructor <;> decide
  · exact fun k => by rw [reset_point]; decide
  · constructor <;> decide
  · exact List.Pairwise.nil
  · exact fun _ h => by cases h
  · unfold HistoryBounded; decide
  · exact ⟨by decide, fun _ h => by cases h⟩
  · exact List.Pairwise.nil
  · exact ⟨List.forall_mem_nil _, List.forall_mem_nil _⟩
  · exact ⟨List.Pairwise.nil, List.forall_mem_nil _⟩
  · constructor <;> simp [State.reset, Gate.atReset, Track.atReset, Qualifier.atReset]
  · exact fun h => absurd rfl h
  · unfold LowFormed; decide
  · exact ⟨(fun h => by cases h), (fun h => by cases h)⟩

end Sys2Proof.Machine
end



section
/-! What each operation of a command leaves alone, block by block. -/

namespace Sys2Proof.Machine

open Sys2Proof.Config

/-! ## Position, setup and HEAT_AUTH through the operations of the flux unit and the mode controller -/

@[simp] theorem setup_notify (s : State) (n : Notice) : (s.notify n).port.setup = s.port.setup := rfl

@[simp] theorem setup_setTank (s : State) (c r : Nat) : (s.setTank c r).port.setup = s.port.setup :=
  (kept_setTank s c r).keeps.portSetup

@[simp] theorem pos_endPulse (s : State) (k : Idx8) (u : Pulse) (n : Nat) (b : Bool) :
    (s.endPulse k u n b).track.pos = s.track.pos ∧ (s.endPulse k u n b).port.setup = s.port.setup :=
  ⟨(kept_endPulse s k u n b).keeps.trackPos, (kept_endPulse s k u n b).keeps.portSetup⟩

@[simp] theorem pos_cutPulses (s : State) (p : Pulse → Bool) (b : Bool) :
    (s.cutPulses p b).track.pos = s.track.pos ∧ (s.cutPulses p b).port.setup = s.port.setup :=
  ⟨(kept_cutPulses s p b).keeps.trackPos, (kept_cutPulses s p b).keeps.portSetup⟩

@[simp] theorem setup_creditPurge (s : State) : s.creditPurge.port.setup = s.port.setup :=
  (kept_creditPurge s).keeps.portSetup

@[simp] theorem setup_endPurge (s : State) : s.endPurge.port.setup = s.port.setup :=
  (kept_endPurge s).keeps.portSetup

@[simp] theorem setup_enterMode (s : State) (m : Mode) : (s.enterMode m).port.setup = s.port.setup :=
  (kept_enterMode s m).keeps.portSetup

@[simp] theorem setup_raiseCause (s : State) (c : HaltCause) : (s.raiseCause c).port.setup = s.port.setup :=
  (kept_raiseCause s c).keeps.portSetup

@[simp] theorem setup_raiseIf (s : State) (b : Bool) (c : HaltCause) : (s.raiseIf b c).port.setup = s.port.setup := by
  cases b
  · rfl
  · exact setup_raiseCause s c

@[simp] theorem setup_advance (s : State) (n : Nat) : (s.advance n).port.setup = s.port.setup := rfl

@[simp] theorem pos_sampleContact (s : State) : s.sampleContact.track.pos = s.track.pos := rfl

@[simp] theorem setup_modeStage (s : State) : s.modeStage.port.setup = s.port.setup :=
  (kept_modeStage s).keeps.portSetup

@[simp] theorem auth_reformZones (s : State) : s.reformZones.thermal.auth = s.thermal.auth := rfl

@[simp] theorem pos_reformConveyor (s : State) : s.reformConveyor.track.pos = s.track.pos :=
  (kept_reformConveyor s).keeps.trackPos

@[simp] theorem setup_changePoint (s : State) (k : Idx8) (f : Point → Point) :
    (s.changePoint k f).port.setup = s.port.setup := rfl

@[simp] theorem setup_notifyIf (p : Port) (b : Bool) (n : Notice) : (p.notifyIf b n).setup = p.setup := by
  cases b <;> rfl

@[simp] theorem setup_port_notify (p : Port) (n : Notice) : (p.notify n).setup = p.setup := rfl

/-! ## The operations -/

@[simp] theorem State.blocks_trackFault (s : State) :
    s.trackFault.pins = s.pins ∧ s.trackFault.clock = s.clock ∧ s.trackFault.statusAt = s.statusAt ∧
    s.trackFault.heaterAt = s.heaterAt ∧ s.trackFault.modAt = s.modAt ∧ s.trackFault.mem = s.mem ∧
    s.trackFault.track = s.track ∧ s.trackFault.docket = s.docket ∧ s.trackFault.outfeed = s.outfeed ∧
    s.trackFault.flux = s.flux ∧ s.trackFault.thermal = s.thermal ∧ s.trackFault.extr = s.extr ∧
    s.trackFault.pending = s.pending ∧ s.trackFault.port.setup = s.port.setup := by
  simp [State.trackFault]

@[simp] theorem State.blocks_setOverflow (s : State) :
    s.setOverflow.pins = s.pins ∧ s.setOverflow.clock = s.clock ∧ s.setOverflow.statusAt = s.statusAt ∧
    s.setOverflow.heaterAt = s.heaterAt ∧ s.setOverflow.modAt = s.modAt ∧ s.setOverflow.mem = s.mem ∧
    s.setOverflow.docket = s.docket ∧ s.setOverflow.outfeed = s.outfeed ∧ s.setOverflow.flux = s.flux ∧
    s.setOverflow.thermal = s.thermal ∧ s.setOverflow.extr = s.extr ∧ s.setOverflow.pending = s.pending ∧
    s.setOverflow.port.setup = s.port.setup ∧ s.setOverflow.track.pos = s.track.pos := by
  simp [State.setOverflow]

@[simp] theorem State.blocks_setPhantom (s : State) :
    s.setPhantom.pins = s.pins ∧ s.setPhantom.clock = s.clock ∧ s.setPhantom.statusAt = s.statusAt ∧
    s.setPhantom.heaterAt = s.heaterAt ∧ s.setPhantom.modAt = s.modAt ∧ s.setPhantom.mem = s.mem ∧
    s.setPhantom.docket = s.docket ∧ s.setPhantom.outfeed = s.outfeed ∧ s.setPhantom.flux = s.flux ∧
    s.setPhantom.thermal = s.thermal ∧ s.setPhantom.extr = s.extr ∧ s.setPhantom.pending = s.pending ∧
    s.setPhantom.port.setup = s.port.setup ∧ s.setPhantom.track.pos = s.track.pos := by
  simp [State.setPhantom]

@[simp] theorem State.blocks_disown (s : State) :
    s.disown.pins = s.pins ∧ s.disown.clock = s.clock ∧ s.disown.statusAt = s.statusAt ∧
    s.disown.heaterAt = s.heaterAt ∧ s.disown.modAt = s.modAt ∧ s.disown.mem = s.mem ∧ s.disown.docket = s.docket ∧
    s.disown.gate = s.gate ∧ s.disown.outfeed = s.outfeed ∧ s.disown.flux = s.flux ∧ s.disown.thermal = s.thermal ∧
    s.disown.pot = s.pot ∧ s.disown.extr = s.extr ∧ s.disown.modes = s.modes ∧ s.disown.port = s.port ∧
    s.disown.pending = s.pending ∧ s.disown.track.pos = s.track.pos := by
  simp [State.disown]

@[simp] theorem State.blocks_append (s : State) (r : Record) :
    (s.append r).pins = s.pins ∧ (s.append r).clock = s.clock ∧ (s.append r).statusAt = s.statusAt ∧
    (s.append r).heaterAt = s.heaterAt ∧ (s.append r).modAt = s.modAt ∧ (s.append r).mem = s.mem ∧
    (s.append r).docket = s.docket ∧ (s.append r).gate = s.gate ∧ (s.append r).outfeed = s.outfeed ∧
    (s.append r).flux = s.flux ∧ (s.append r).thermal = s.thermal ∧ (s.append r).pot = s.pot ∧
    (s.append r).extr = s.extr ∧ (s.append r).modes = s.modes ∧ (s.append r).port = s.port ∧
    (s.append r).pending = s.pending ∧ (s.append r).track.pos = s.track.pos := by
  simp [State.append]

@[simp] theorem State.blocks_intrude (s : State) (p : Pos) :
    (s.intrude p).pins = s.pins ∧ (s.intrude p).clock = s.clock ∧ (s.intrude p).statusAt = s.statusAt ∧
    (s.intrude p).heaterAt = s.heaterAt ∧ (s.intrude p).modAt = s.modAt ∧ (s.intrude p).mem = s.mem ∧
    (s.intrude p).docket = s.docket ∧ (s.intrude p).gate = s.gate ∧ (s.intrude p).outfeed = s.outfeed ∧
    (s.intrude p).flux = s.flux ∧ (s.intrude p).thermal = s.thermal ∧ (s.intrude p).pot = s.pot ∧
    (s.intrude p).extr = s.extr ∧ (s.intrude p).modes = s.modes ∧ (s.intrude p).pending = s.pending ∧
    (s.intrude p).port.setup = s.port.setup ∧ (s.intrude p).track.pos = s.track.pos := by
  simp [State.intrude]

@[simp] theorem State.blocks_bindSlot (s : State) (o : Offer) :
    (s.bindSlot o).pins = s.pins ∧ (s.bindSlot o).clock = s.clock ∧ (s.bindSlot o).statusAt = s.statusAt ∧
    (s.bindSlot o).heaterAt = s.heaterAt ∧ (s.bindSlot o).modAt = s.modAt ∧ (s.bindSlot o).track = s.track ∧
    (s.bindSlot o).gate = s.gate ∧ (s.bindSlot o).outfeed = s.outfeed ∧ (s.bindSlot o).flux = s.flux ∧
    (s.bindSlot o).thermal = s.thermal ∧ (s.bindSlot o).pot = s.pot ∧ (s.bindSlot o).extr = s.extr ∧
    (s.bindSlot o).modes = s.modes ∧ (s.bindSlot o).port = s.port ∧ (s.bindSlot o).pending = s.pending := by
  unfold State.bindSlot; dsimp only; split <;> simp

@[simp] theorem State.blocks_scheduleEdges (s : State) (n : BitVec 16) (p : Pos) (o : Offer) :
    (s.scheduleEdges n p o).pins = s.pins ∧ (s.scheduleEdges n p o).clock = s.clock ∧
    (s.scheduleEdges n p o).statusAt = s.statusAt ∧ (s.scheduleEdges n p o).heaterAt = s.heaterAt ∧
    (s.scheduleEdges n p o).modAt = s.modAt ∧ (s.scheduleEdges n p o).mem = s.mem ∧
    (s.scheduleEdges n p o).track = s.track ∧ (s.scheduleEdges n p o).docket = s.docket ∧
    (s.scheduleEdges n p o).gate = s.gate ∧ (s.scheduleEdges n p o).outfeed = s.outfeed ∧
    (s.scheduleEdges n p o).thermal = s.thermal ∧ (s.scheduleEdges n p o).pot = s.pot ∧
    (s.scheduleEdges n p o).extr = s.extr ∧ (s.scheduleEdges n p o).modes = s.modes ∧
    (s.scheduleEdges n p o).port = s.port ∧ (s.scheduleEdges n p o).pending = s.pending := by
  unfold State.scheduleEdges; split <;> simp

@[simp] theorem State.blocks_admitBoard (s : State) (p : Pos) (o : Offer) (b : Bool) :
    (s.admitBoard p o b).pins = s.pins ∧ (s.admitBoard p o b).clock = s.clock ∧
    (s.admitBoard p o b).statusAt = s.statusAt ∧ (s.admitBoard p o b).heaterAt = s.heaterAt ∧
    (s.admitBoard p o b).modAt = s.modAt ∧ (s.admitBoard p o b).outfeed = s.outfeed ∧
    (s.admitBoard p o b).thermal = s.thermal ∧ (s.admitBoard p o b).pot = s.pot ∧ (s.admitBoard p o b).extr = s.extr ∧
    (s.admitBoard p o b).modes = s.modes ∧ (s.admitBoard p o b).port = s.port ∧
    (s.admitBoard p o b).pending = s.pending ∧ (s.admitBoard p o b).track.pos = s.track.pos := by
  simp [State.admitBoard]

@[simp] theorem State.blocks_handLeading (s : State) (p : Pos) :
    (s.handLeading p).pins = s.pins ∧ (s.handLeading p).clock = s.clock ∧ (s.handLeading p).statusAt = s.statusAt ∧
    (s.handLeading p).heaterAt = s.heaterAt ∧ (s.handLeading p).modAt = s.modAt ∧
    (s.handLeading p).outfeed = s.outfeed ∧ (s.handLeading p).thermal = s.thermal ∧ (s.handLeading p).pot = s.pot ∧
    (s.handLeading p).extr = s.extr ∧ (s.handLeading p).modes = s.modes ∧ (s.handLeading p).pending = s.pending ∧
    (s.handLeading p).port.setup = s.port.setup ∧ (s.handLeading p).track.pos = s.track.pos := by
  unfold State.handLeading; split <;> simp

@[simp] theorem State.blocks_appendAtBar (s : State) :
    s.appendAtBar.pins = s.pins ∧ s.appendAtBar.clock = s.clock ∧ s.appendAtBar.statusAt = s.statusAt ∧
    s.appendAtBar.heaterAt = s.heaterAt ∧ s.appendAtBar.modAt = s.modAt ∧ s.appendAtBar.track = s.track ∧
    s.appendAtBar.docket = s.docket ∧ s.appendAtBar.gate = s.gate ∧ s.appendAtBar.outfeed = s.outfeed ∧
    s.appendAtBar.thermal = s.thermal ∧ s.appendAtBar.pot = s.pot ∧ s.appendAtBar.extr = s.extr ∧
    s.appendAtBar.modes = s.modes ∧ s.appendAtBar.pending = s.pending ∧ s.appendAtBar.port.setup = s.port.setup := by
  unfold State.appendAtBar; split
  · split <;> simp
  · simp

@[simp] theorem State.blocks_clamp (s : State) (r : Record) (l : Nat) :
    (s.clamp r l).pins = s.pins ∧ (s.clamp r l).clock = s.clock ∧ (s.clamp r l).statusAt = s.statusAt ∧
    (s.clamp r l).heaterAt = s.heaterAt ∧ (s.clamp r l).modAt = s.modAt ∧ (s.clamp r l).docket = s.docket ∧
    (s.clamp r l).gate = s.gate ∧ (s.clamp r l).outfeed = s.outfeed ∧ (s.clamp r l).thermal = s.thermal ∧
    (s.clamp r l).pot = s.pot ∧ (s.clamp r l).extr = s.extr ∧ (s.clamp r l).modes = s.modes ∧
    (s.clamp r l).pending = s.pending ∧ (s.clamp r l).track.pos = s.track.pos ∧
    (s.clamp r l).port.setup = s.port.setup := by
  unfold State.clamp; split <;> simp

@[simp] theorem State.blocks_topside (s : State) :
    s.topside.pins = s.pins ∧ s.topside.clock = s.clock ∧ s.topside.statusAt = s.statusAt ∧
    s.topside.heaterAt = s.heaterAt ∧ s.topside.modAt = s.modAt ∧ s.topside.mem = s.mem ∧ s.topside.docket = s.docket ∧
    s.topside.gate = s.gate ∧ s.topside.outfeed = s.outfeed ∧ s.topside.flux = s.flux ∧ s.topside.thermal = s.thermal ∧
    s.topside.pot = s.pot ∧ s.topside.extr = s.extr ∧ s.topside.modes = s.modes ∧ s.topside.port = s.port ∧
    s.topside.pending = s.pending ∧ s.topside.track.pos = s.track.pos := by
  simp [State.topside]

@[simp] theorem State.blocks_takeTrail (s : State) (p : Pos) :
    (s.takeTrail p).pins = s.pins ∧ (s.takeTrail p).clock = s.clock ∧ (s.takeTrail p).statusAt = s.statusAt ∧
    (s.takeTrail p).heaterAt = s.heaterAt ∧ (s.takeTrail p).modAt = s.modAt ∧ (s.takeTrail p).docket = s.docket ∧
    (s.takeTrail p).gate = s.gate ∧ (s.takeTrail p).outfeed = s.outfeed ∧ (s.takeTrail p).thermal = s.thermal ∧
    (s.takeTrail p).pot = s.pot ∧ (s.takeTrail p).extr = s.extr ∧ (s.takeTrail p).modes = s.modes ∧
    (s.takeTrail p).pending = s.pending ∧ (s.takeTrail p).track.pos = s.track.pos ∧
    (s.takeTrail p).port.setup = s.port.setup := by
  unfold State.takeTrail; split <;> simp

@[simp] theorem State.blocks_handTrailing (s : State) :
    s.handTrailing.pins = s.pins ∧ s.handTrailing.clock = s.clock ∧ s.handTrailing.statusAt = s.statusAt ∧
    s.handTrailing.heaterAt = s.heaterAt ∧ s.handTrailing.modAt = s.modAt ∧ s.handTrailing.mem = s.mem ∧
    s.handTrailing.docket = s.docket ∧ s.handTrailing.outfeed = s.outfeed ∧ s.handTrailing.flux = s.flux ∧
    s.handTrailing.thermal = s.thermal ∧ s.handTrailing.pot = s.pot ∧ s.handTrailing.extr = s.extr ∧
    s.handTrailing.modes = s.modes ∧ s.handTrailing.port = s.port ∧ s.handTrailing.pending = s.pending ∧
    s.handTrailing.track.pos = s.track.pos := by
  unfold State.handTrailing; split <;> simp

@[simp] theorem State.blocks_reportClose (s : State) (r : Record) (c : CloseOutcome) (l : Nat) :
    (s.reportClose r c l).pins = s.pins ∧ (s.reportClose r c l).clock = s.clock ∧
    (s.reportClose r c l).statusAt = s.statusAt ∧ (s.reportClose r c l).heaterAt = s.heaterAt ∧
    (s.reportClose r c l).modAt = s.modAt ∧ (s.reportClose r c l).track = s.track ∧
    (s.reportClose r c l).gate = s.gate ∧ (s.reportClose r c l).outfeed = s.outfeed ∧
    (s.reportClose r c l).flux = s.flux ∧ (s.reportClose r c l).thermal = s.thermal ∧
    (s.reportClose r c l).pot = s.pot ∧ (s.reportClose r c l).extr = s.extr ∧ (s.reportClose r c l).modes = s.modes ∧
    (s.reportClose r c l).pending = s.pending ∧ (s.reportClose r c l).port.setup = s.port.setup := by
  unfold State.reportClose State.writeTraveller; split <;> simp

@[simp] theorem State.blocks_dropFlux (s : State) (n : BitVec 16) :
    (s.dropFlux n).pins = s.pins ∧ (s.dropFlux n).clock = s.clock ∧ (s.dropFlux n).statusAt = s.statusAt ∧
    (s.dropFlux n).heaterAt = s.heaterAt ∧ (s.dropFlux n).modAt = s.modAt ∧ (s.dropFlux n).docket = s.docket ∧
    (s.dropFlux n).gate = s.gate ∧ (s.dropFlux n).outfeed = s.outfeed ∧ (s.dropFlux n).thermal = s.thermal ∧
    (s.dropFlux n).pot = s.pot ∧ (s.dropFlux n).extr = s.extr ∧ (s.dropFlux n).modes = s.modes ∧
    (s.dropFlux n).pending = s.pending ∧ (s.dropFlux n).track.pos = s.track.pos ∧
    (s.dropFlux n).port.setup = s.port.setup := by
  simp [State.dropFlux]

@[simp] theorem State.blocks_removeRecord (s : State) (p : Record → Bool) :
    (s.removeRecord p).pins = s.pins ∧ (s.removeRecord p).clock = s.clock ∧ (s.removeRecord p).statusAt = s.statusAt ∧
    (s.removeRecord p).heaterAt = s.heaterAt ∧ (s.removeRecord p).modAt = s.modAt ∧ (s.removeRecord p).mem = s.mem ∧
    (s.removeRecord p).docket = s.docket ∧ (s.removeRecord p).gate = s.gate ∧ (s.removeRecord p).outfeed = s.outfeed ∧
    (s.removeRecord p).flux = s.flux ∧ (s.removeRecord p).thermal = s.thermal ∧ (s.removeRecord p).pot = s.pot ∧
    (s.removeRecord p).extr = s.extr ∧ (s.removeRecord p).modes = s.modes ∧ (s.removeRecord p).port = s.port ∧
    (s.removeRecord p).pending = s.pending ∧ (s.removeRecord p).track.pos = s.track.pos := by
  simp [State.removeRecord]

@[simp] theorem State.blocks_closeRecord (s : State) (p : Record → Bool) (r : Record) (c : CloseOutcome) (l : Nat) :
    (s.closeRecord p r c l).pins = s.pins ∧ (s.closeRecord p r c l).clock = s.clock ∧
    (s.closeRecord p r c l).statusAt = s.statusAt ∧ (s.closeRecord p r c l).heaterAt = s.heaterAt ∧
    (s.closeRecord p r c l).modAt = s.modAt ∧ (s.closeRecord p r c l).gate = s.gate ∧
    (s.closeRecord p r c l).outfeed = s.outfeed ∧ (s.closeRecord p r c l).thermal = s.thermal ∧
    (s.closeRecord p r c l).pot = s.pot ∧ (s.closeRecord p r c l).extr = s.extr ∧
    (s.closeRecord p r c l).modes = s.modes ∧ (s.closeRecord p r c l).pending = s.pending ∧
    (s.closeRecord p r c l).track.pos = s.track.pos ∧ (s.closeRecord p r c l).port.setup = s.port.setup := by
  simp [State.closeRecord]

@[simp] theorem State.blocks_closeLost (s : State) (n : Nat) :
    (s.closeLost n).pins = s.pins ∧ (s.closeLost n).clock = s.clock ∧ (s.closeLost n).statusAt = s.statusAt ∧
    (s.closeLost n).heaterAt = s.heaterAt ∧ (s.closeLost n).modAt = s.modAt ∧ (s.closeLost n).gate = s.gate ∧
    (s.closeLost n).outfeed = s.outfeed ∧ (s.closeLost n).thermal = s.thermal ∧ (s.closeLost n).pot = s.pot ∧
    (s.closeLost n).extr = s.extr ∧ (s.closeLost n).modes = s.modes ∧ (s.closeLost n).pending = s.pending ∧
    (s.closeLost n).track.pos = s.track.pos ∧ (s.closeLost n).port.setup = s.port.setup := by
  induction n generalizing s with
  | zero => simp [State.closeLost]
  | succ n ih =>
    unfold State.closeLost
    split
    · simp [ih]
    · simp

@[simp] theorem State.blocks_raiseLost (s : State) :
    s.raiseLost.pins = s.pins ∧ s.raiseLost.clock = s.clock ∧ s.raiseLost.statusAt = s.statusAt ∧
    s.raiseLost.heaterAt = s.heaterAt ∧ s.raiseLost.modAt = s.modAt ∧ s.raiseLost.mem = s.mem ∧
    s.raiseLost.track = s.track ∧ s.raiseLost.docket = s.docket ∧ s.raiseLost.outfeed = s.outfeed ∧
    s.raiseLost.flux = s.flux ∧ s.raiseLost.thermal = s.thermal ∧ s.raiseLost.extr = s.extr ∧
    s.raiseLost.pending = s.pending ∧ s.raiseLost.port.setup = s.port.setup := by
  simp [State.raiseLost]

@[simp] theorem State.blocks_loseBoards (s : State) :
    s.loseBoards.pins = s.pins ∧ s.loseBoards.clock = s.clock ∧ s.loseBoards.statusAt = s.statusAt ∧
    s.loseBoards.heaterAt = s.heaterAt ∧ s.loseBoards.modAt = s.modAt ∧ s.loseBoards.outfeed = s.outfeed ∧
    s.loseBoards.thermal = s.thermal ∧ s.loseBoards.extr = s.extr ∧ s.loseBoards.pending = s.pending ∧
    s.loseBoards.track.pos = s.track.pos ∧ s.loseBoards.port.setup = s.port.setup := by
  unfold State.loseBoards; split <;> simp

@[simp] theorem State.blocks_loseWaiting (s : State) :
    s.loseWaiting.pins = s.pins ∧ s.loseWaiting.clock = s.clock ∧ s.loseWaiting.statusAt = s.statusAt ∧
    s.loseWaiting.heaterAt = s.heaterAt ∧ s.loseWaiting.modAt = s.modAt ∧ s.loseWaiting.outfeed = s.outfeed ∧
    s.loseWaiting.thermal = s.thermal ∧ s.loseWaiting.extr = s.extr ∧ s.loseWaiting.pending = s.pending ∧
    s.loseWaiting.track.pos = s.track.pos ∧ s.loseWaiting.port.setup = s.port.setup := by
  unfold State.loseWaiting; split <;> simp

@[simp] theorem State.blocks_rawEye (s : State) (e : Eye) (b : Bool) :
    (s.rawEye e b).clock = s.clock ∧ (s.rawEye e b).statusAt = s.statusAt ∧ (s.rawEye e b).heaterAt = s.heaterAt ∧
    (s.rawEye e b).modAt = s.modAt ∧ (s.rawEye e b).mem = s.mem ∧ (s.rawEye e b).docket = s.docket ∧
    (s.rawEye e b).gate = s.gate ∧ (s.rawEye e b).outfeed = s.outfeed ∧ (s.rawEye e b).flux = s.flux ∧
    (s.rawEye e b).thermal = s.thermal ∧ (s.rawEye e b).pot = s.pot ∧ (s.rawEye e b).extr = s.extr ∧
    (s.rawEye e b).modes = s.modes ∧ (s.rawEye e b).port = s.port ∧ (s.rawEye e b).pending = s.pending ∧
    (s.rawEye e b).track.pos = s.track.pos := by
  cases e <;> simp [State.rawEye, Track.setEye]

@[simp] theorem State.blocks_matchExit (s : State) (r : Record) (p : Pos) :
    (s.matchExit r p).pins = s.pins ∧ (s.matchExit r p).clock = s.clock ∧ (s.matchExit r p).statusAt = s.statusAt ∧
    (s.matchExit r p).heaterAt = s.heaterAt ∧ (s.matchExit r p).modAt = s.modAt ∧ (s.matchExit r p).mem = s.mem ∧
    (s.matchExit r p).docket = s.docket ∧ (s.matchExit r p).gate = s.gate ∧ (s.matchExit r p).outfeed = s.outfeed ∧
    (s.matchExit r p).flux = s.flux ∧ (s.matchExit r p).thermal = s.thermal ∧ (s.matchExit r p).pot = s.pot ∧
    (s.matchExit r p).extr = s.extr ∧ (s.matchExit r p).modes = s.modes ∧ (s.matchExit r p).port = s.port ∧
    (s.matchExit r p).pending = s.pending ∧ (s.matchExit r p).track.pos = s.track.pos := by
  simp [State.matchExit]

@[simp] theorem State.blocks_outfeedEdge (s : State) :
    s.outfeedEdge.pins = s.pins ∧ s.outfeedEdge.clock = s.clock ∧ s.outfeedEdge.statusAt = s.statusAt ∧
    s.outfeedEdge.heaterAt = s.heaterAt ∧ s.outfeedEdge.modAt = s.modAt ∧ s.outfeedEdge.mem = s.mem ∧
    s.outfeedEdge.track = s.track ∧ s.outfeedEdge.docket = s.docket ∧ s.outfeedEdge.gate = s.gate ∧
    s.outfeedEdge.flux = s.flux ∧ s.outfeedEdge.thermal = s.thermal ∧ s.outfeedEdge.pot = s.pot ∧
    s.outfeedEdge.extr = s.extr ∧ s.outfeedEdge.modes = s.modes ∧ s.outfeedEdge.port = s.port ∧
    s.outfeedEdge.pending = s.pending := by
  simp [State.outfeedEdge]

@[simp] theorem State.blocks_testBackPressure (s : State) :
    s.testBackPressure.pins = s.pins ∧ s.testBackPressure.clock = s.clock ∧ s.testBackPressure.statusAt = s.statusAt ∧
    s.testBackPressure.heaterAt = s.heaterAt ∧ s.testBackPressure.modAt = s.modAt ∧ s.testBackPressure.mem = s.mem ∧
    s.testBackPressure.track = s.track ∧ s.testBackPressure.docket = s.docket ∧ s.testBackPressure.gate = s.gate ∧
    s.testBackPressure.flux = s.flux ∧ s.testBackPressure.thermal = s.thermal ∧ s.testBackPressure.pot = s.pot ∧
    s.testBackPressure.extr = s.extr ∧ s.testBackPressure.modes = s.modes ∧ s.testBackPressure.port = s.port ∧
    s.testBackPressure.pending = s.pending := by
  simp [State.testBackPressure]

@[simp] theorem State.blocks_testStop (s : State) :
    s.testStop.pins = s.pins ∧ s.testStop.clock = s.clock ∧ s.testStop.statusAt = s.statusAt ∧
    s.testStop.heaterAt = s.heaterAt ∧ s.testStop.modAt = s.modAt ∧ s.testStop.mem = s.mem ∧
    s.testStop.track = s.track ∧ s.testStop.docket = s.docket ∧ s.testStop.gate = s.gate ∧ s.testStop.flux = s.flux ∧
    s.testStop.thermal = s.thermal ∧ s.testStop.pot = s.pot ∧ s.testStop.extr = s.extr ∧ s.testStop.modes = s.modes ∧
    s.testStop.port = s.port ∧ s.testStop.pending = s.pending := by
  simp [State.testStop]

@[simp] theorem State.blocks_markJam (s : State) :
    s.markJam.pins = s.pins ∧ s.markJam.clock = s.clock ∧ s.markJam.statusAt = s.statusAt ∧
    s.markJam.heaterAt = s.heaterAt ∧ s.markJam.modAt = s.modAt ∧ s.markJam.mem = s.mem ∧ s.markJam.docket = s.docket ∧
    s.markJam.gate = s.gate ∧ s.markJam.outfeed = s.outfeed ∧ s.markJam.flux = s.flux ∧ s.markJam.thermal = s.thermal ∧
    s.markJam.pot = s.pot ∧ s.markJam.extr = s.extr ∧ s.markJam.modes = s.modes ∧ s.markJam.port = s.port ∧
    s.markJam.pending = s.pending ∧ s.markJam.track.pos = s.track.pos := by
  simp [State.markJam]

@[simp] theorem State.blocks_waveEntries (s : State) :
    s.waveEntries.pins = s.pins ∧ s.waveEntries.clock = s.clock ∧ s.waveEntries.statusAt = s.statusAt ∧
    s.waveEntries.heaterAt = s.heaterAt ∧ s.waveEntries.modAt = s.modAt ∧ s.waveEntries.mem = s.mem ∧
    s.waveEntries.docket = s.docket ∧ s.waveEntries.gate = s.gate ∧ s.waveEntries.outfeed = s.outfeed ∧
    s.waveEntries.flux = s.flux ∧ s.waveEntries.thermal = s.thermal ∧ s.waveEntries.pot = s.pot ∧
    s.waveEntries.extr = s.extr ∧ s.waveEntries.modes = s.modes ∧ s.waveEntries.port = s.port ∧
    s.waveEntries.pending = s.pending ∧ s.waveEntries.track.pos = s.track.pos := by
  simp [State.waveEntries]

@[simp] theorem State.blocks_afterMove (s : State) (b : Bool) :
    (s.afterMove b).pins = s.pins ∧ (s.afterMove b).clock = s.clock ∧ (s.afterMove b).statusAt = s.statusAt ∧
    (s.afterMove b).heaterAt = s.heaterAt ∧ (s.afterMove b).modAt = s.modAt ∧ (s.afterMove b).mem = s.mem ∧
    (s.afterMove b).docket = s.docket ∧ (s.afterMove b).gate = s.gate ∧ (s.afterMove b).flux = s.flux ∧
    (s.afterMove b).extr = s.extr ∧ (s.afterMove b).modes = s.modes ∧ (s.afterMove b).port = s.port ∧
    (s.afterMove b).pending = s.pending ∧ (s.afterMove b).track.pos = s.track.pos ∧
    (s.afterMove b).thermal.auth = s.thermal.auth := by
  cases b <;> simp [State.afterMove]

@[simp] theorem State.blocks_moveTenth (s : State) (b : Bool) :
    (s.moveTenth b).pins = s.pins ∧ (s.moveTenth b).clock = s.clock ∧ (s.moveTenth b).statusAt = s.statusAt ∧
    (s.moveTenth b).heaterAt = s.heaterAt ∧ (s.moveTenth b).modAt = s.modAt ∧ (s.moveTenth b).mem = s.mem ∧
    (s.moveTenth b).docket = s.docket ∧ (s.moveTenth b).gate = s.gate ∧ (s.moveTenth b).flux = s.flux ∧
    (s.moveTenth b).extr = s.extr ∧ (s.moveTenth b).modes = s.modes ∧ (s.moveTenth b).port = s.port ∧
    (s.moveTenth b).pending = s.pending ∧ (s.moveTenth b).thermal.auth = s.thermal.auth := by
  simp [State.moveTenth]

@[simp] theorem State.blocks_moveTenths (s : State) (b : Bool) (n : Nat) :
    (State.moveTenths n s b).pins = s.pins ∧ (State.moveTenths n s b).clock = s.clock ∧
    (State.moveTenths n s b).statusAt = s.statusAt ∧ (State.moveTenths n s b).heaterAt = s.heaterAt ∧
    (State.moveTenths n s b).modAt = s.modAt ∧ (State.moveTenths n s b).mem = s.mem ∧
    (State.moveTenths n s b).docket = s.docket ∧ (State.moveTenths n s b).gate = s.gate ∧
    (State.moveTenths n s b).flux = s.flux ∧ (State.moveTenths n s b).extr = s.extr ∧
    (State.moveTenths n s b).modes = s.modes ∧ (State.moveTenths n s b).port = s.port ∧
    (State.moveTenths n s b).pending = s.pending ∧ (State.moveTenths n s b).thermal.auth = s.thermal.auth := by
  induction n generalizing s with
  | zero => simp [State.moveTenths]
  | succ n ih => simp [State.moveTenths, ih]

@[simp] theorem State.blocks_approachBar (s : State) (n : Nat) (p : Pos) (d : Direction) :
    (s.approachBar n p d).pins = s.pins ∧ (s.approachBar n p d).clock = s.clock ∧
    (s.approachBar n p d).statusAt = s.statusAt ∧ (s.approachBar n p d).heaterAt = s.heaterAt ∧
    (s.approachBar n p d).modAt = s.modAt ∧ (s.approachBar n p d).track = s.track ∧
    (s.approachBar n p d).docket = s.docket ∧ (s.approachBar n p d).gate = s.gate ∧
    (s.approachBar n p d).outfeed = s.outfeed ∧ (s.approachBar n p d).thermal = s.thermal ∧
    (s.approachBar n p d).pot = s.pot ∧ (s.approachBar n p d).extr = s.extr ∧ (s.approachBar n p d).modes = s.modes ∧
    (s.approachBar n p d).pending = s.pending ∧ (s.approachBar n p d).port.setup = s.port.setup := by
  unfold State.approachBar; split <;> simp

@[simp] theorem State.blocks_countEncoder (s : State) (d : Direction) :
    (s.countEncoder d).pins = s.pins ∧ (s.countEncoder d).clock = s.clock ∧ (s.countEncoder d).statusAt = s.statusAt ∧
    (s.countEncoder d).heaterAt = s.heaterAt ∧ (s.countEncoder d).modAt = s.modAt ∧
    (s.countEncoder d).docket = s.docket ∧ (s.countEncoder d).gate = s.gate ∧ (s.countEncoder d).extr = s.extr ∧
    (s.countEncoder d).modes = s.modes ∧ (s.countEncoder d).pending = s.pending ∧
    (s.countEncoder d).thermal.auth = s.thermal.auth ∧ (s.countEncoder d).port.setup = s.port.setup := by
  simp [State.countEncoder]

@[simp] theorem State.blocks_present (s : State) (i : Readings) (ws : List HostWrite) :
    (s.present i ws).clock = s.clock ∧ (s.present i ws).statusAt = s.statusAt ∧ (s.present i ws).heaterAt = s.heaterAt ∧
    (s.present i ws).modAt = s.modAt ∧ (s.present i ws).track = s.track ∧ (s.present i ws).docket = s.docket ∧
    (s.present i ws).gate = s.gate ∧ (s.present i ws).outfeed = s.outfeed ∧ (s.present i ws).flux = s.flux ∧
    (s.present i ws).thermal = s.thermal ∧ (s.present i ws).pot = s.pot ∧ (s.present i ws).extr = s.extr ∧
    (s.present i ws).modes = s.modes ∧ (s.present i ws).port = s.port ∧ (s.present i ws).pending = s.pending := by
  simp [State.present]

@[simp] theorem State.blocks_toInterval (s : State) :
    s.toInterval.pins = s.pins ∧ s.toInterval.heaterAt = s.heaterAt ∧ s.toInterval.modAt = s.modAt ∧
    s.toInterval.mem = s.mem ∧ s.toInterval.track = s.track ∧ s.toInterval.docket = s.docket ∧
    s.toInterval.gate = s.gate ∧ s.toInterval.outfeed = s.outfeed ∧ s.toInterval.flux = s.flux ∧
    s.toInterval.thermal = s.thermal ∧ s.toInterval.pending = s.pending ∧ s.toInterval.port.setup = s.port.setup := by
  simp [State.toInterval]

@[simp] theorem State.blocks_sampleSpeed (s : State) :
    s.sampleSpeed.pins = s.pins ∧ s.sampleSpeed.clock = s.clock ∧ s.sampleSpeed.statusAt = s.statusAt ∧
    s.sampleSpeed.heaterAt = s.heaterAt ∧ s.sampleSpeed.modAt = s.modAt ∧ s.sampleSpeed.mem = s.mem ∧
    s.sampleSpeed.docket = s.docket ∧ s.sampleSpeed.gate = s.gate ∧ s.sampleSpeed.outfeed = s.outfeed ∧
    s.sampleSpeed.flux = s.flux ∧ s.sampleSpeed.thermal = s.thermal ∧ s.sampleSpeed.pot = s.pot ∧
    s.sampleSpeed.extr = s.extr ∧ s.sampleSpeed.modes = s.modes ∧ s.sampleSpeed.port = s.port ∧
    s.sampleSpeed.pending = s.pending ∧ s.sampleSpeed.track.pos = s.track.pos := by
  simp [State.sampleSpeed, Track.window]; split <;> rfl

@[simp] theorem State.blocks_sampleInputs (s : State) (i : Tab8 (Option Int)) :
    (s.sampleInputs i).pins = s.pins ∧ (s.sampleInputs i).clock = s.clock ∧ (s.sampleInputs i).statusAt = s.statusAt ∧
    (s.sampleInputs i).heaterAt = s.heaterAt ∧ (s.sampleInputs i).modAt = s.modAt ∧ (s.sampleInputs i).mem = s.mem ∧
    (s.sampleInputs i).track = s.track ∧ (s.sampleInputs i).docket = s.docket ∧ (s.sampleInputs i).gate = s.gate ∧
    (s.sampleInputs i).outfeed = s.outfeed ∧ (s.sampleInputs i).flux = s.flux ∧ (s.sampleInputs i).pot = s.pot ∧
    (s.sampleInputs i).extr = s.extr ∧ (s.sampleInputs i).modes = s.modes ∧ (s.sampleInputs i).port = s.port ∧
    (s.sampleInputs i).pending = s.pending ∧ (s.sampleInputs i).thermal.auth = s.thermal.auth := by
  simp [State.sampleInputs]

@[simp] theorem State.blocks_markZoneFault (s : State) (z : Zone) :
    (s.markZoneFault z).pins = s.pins ∧ (s.markZoneFault z).clock = s.clock ∧
    (s.markZoneFault z).statusAt = s.statusAt ∧ (s.markZoneFault z).heaterAt = s.heaterAt ∧
    (s.markZoneFault z).modAt = s.modAt ∧ (s.markZoneFault z).mem = s.mem ∧ (s.markZoneFault z).docket = s.docket ∧
    (s.markZoneFault z).gate = s.gate ∧ (s.markZoneFault z).outfeed = s.outfeed ∧ (s.markZoneFault z).flux = s.flux ∧
    (s.markZoneFault z).thermal = s.thermal ∧ (s.markZoneFault z).pot = s.pot ∧ (s.markZoneFault z).extr = s.extr ∧
    (s.markZoneFault z).modes = s.modes ∧ (s.markZoneFault z).port = s.port ∧ (s.markZoneFault z).pending = s.pending ∧
    (s.markZoneFault z).track.pos = s.track.pos := by
  simp [State.markZoneFault]

@[simp] theorem State.blocks_latchZone (s : State) (z : Zone) :
    (s.latchZone z).pins = s.pins ∧ (s.latchZone z).clock = s.clock ∧ (s.latchZone z).statusAt = s.statusAt ∧
    (s.latchZone z).heaterAt = s.heaterAt ∧ (s.latchZone z).modAt = s.modAt ∧ (s.latchZone z).mem = s.mem ∧
    (s.latchZone z).docket = s.docket ∧ (s.latchZone z).gate = s.gate ∧ (s.latchZone z).outfeed = s.outfeed ∧
    (s.latchZone z).flux = s.flux ∧ (s.latchZone z).pot = s.pot ∧ (s.latchZone z).extr = s.extr ∧
    (s.latchZone z).modes = s.modes ∧ (s.latchZone z).port = s.port ∧ (s.latchZone z).pending = s.pending ∧
    (s.latchZone z).track.pos = s.track.pos ∧ (s.latchZone z).thermal.auth = s.thermal.auth := by
  unfold State.latchZone; dsimp only; split <;> simp

@[simp] theorem State.blocks_latchZones (s : State) :
    s.latchZones.pins = s.pins ∧ s.latchZones.clock = s.clock ∧ s.latchZones.statusAt = s.statusAt ∧
    s.latchZones.heaterAt = s.heaterAt ∧ s.latchZones.modAt = s.modAt ∧ s.latchZones.mem = s.mem ∧
    s.latchZones.docket = s.docket ∧ s.latchZones.gate = s.gate ∧ s.latchZones.outfeed = s.outfeed ∧
    s.latchZones.flux = s.flux ∧ s.latchZones.pot = s.pot ∧ s.latchZones.extr = s.extr ∧ s.latchZones.modes = s.modes ∧
    s.latchZones.port = s.port ∧ s.latchZones.pending = s.pending ∧ s.latchZones.track.pos = s.track.pos ∧
    s.latchZones.thermal.auth = s.thermal.auth := by
  simp [State.latchZones, allZones]

@[simp] theorem State.blocks_sampleExtraction (s : State) (i : Readings) :
    (s.sampleExtraction i).pins = s.pins ∧ (s.sampleExtraction i).clock = s.clock ∧
    (s.sampleExtraction i).statusAt = s.statusAt ∧ (s.sampleExtraction i).heaterAt = s.heaterAt ∧
    (s.sampleExtraction i).modAt = s.modAt ∧ (s.sampleExtraction i).mem = s.mem ∧
    (s.sampleExtraction i).track = s.track ∧ (s.sampleExtraction i).docket = s.docket ∧
    (s.sampleExtraction i).gate = s.gate ∧ (s.sampleExtraction i).outfeed = s.outfeed ∧
    (s.sampleExtraction i).flux = s.flux ∧ (s.sampleExtraction i).thermal = s.thermal ∧
    (s.sampleExtraction i).pot = s.pot ∧ (s.sampleExtraction i).modes = s.modes ∧ (s.sampleExtraction i).port = s.port ∧
    (s.sampleExtraction i).pending = s.pending := by
  simp [State.sampleExtraction]

@[simp] theorem State.blocks_samplePumps (s : State) (c m : Nat) :
    (s.samplePumps c m).pins = s.pins ∧ (s.samplePumps c m).clock = s.clock ∧
    (s.samplePumps c m).statusAt = s.statusAt ∧ (s.samplePumps c m).heaterAt = s.heaterAt ∧
    (s.samplePumps c m).modAt = s.modAt ∧ (s.samplePumps c m).mem = s.mem ∧ (s.samplePumps c m).track = s.track ∧
    (s.samplePumps c m).docket = s.docket ∧ (s.samplePumps c m).gate = s.gate ∧
    (s.samplePumps c m).outfeed = s.outfeed ∧ (s.samplePumps c m).flux = s.flux ∧
    (s.samplePumps c m).thermal = s.thermal ∧ (s.samplePumps c m).extr = s.extr ∧ (s.samplePumps c m).modes = s.modes ∧
    (s.samplePumps c m).port = s.port ∧ (s.samplePumps c m).pending = s.pending := by
  simp [State.samplePumps]

@[simp] theorem State.blocks_sampleLevel (s : State) (r : Option Int) :
    (s.sampleLevel r).pins = s.pins ∧ (s.sampleLevel r).clock = s.clock ∧ (s.sampleLevel r).statusAt = s.statusAt ∧
    (s.sampleLevel r).heaterAt = s.heaterAt ∧ (s.sampleLevel r).modAt = s.modAt ∧ (s.sampleLevel r).mem = s.mem ∧
    (s.sampleLevel r).track = s.track ∧ (s.sampleLevel r).docket = s.docket ∧ (s.sampleLevel r).gate = s.gate ∧
    (s.sampleLevel r).outfeed = s.outfeed ∧ (s.sampleLevel r).flux = s.flux ∧ (s.sampleLevel r).thermal = s.thermal ∧
    (s.sampleLevel r).extr = s.extr ∧ (s.sampleLevel r).modes = s.modes ∧ (s.sampleLevel r).pending = s.pending ∧
    (s.sampleLevel r).port.setup = s.port.setup := by
  unfold State.sampleLevel; split <;> simp

@[simp] theorem State.blocks_samplePressure (s : State) (r : Option Int) :
    (s.samplePressure r).pins = s.pins ∧ (s.samplePressure r).clock = s.clock ∧
    (s.samplePressure r).statusAt = s.statusAt ∧ (s.samplePressure r).heaterAt = s.heaterAt ∧
    (s.samplePressure r).modAt = s.modAt ∧ (s.samplePressure r).mem = s.mem ∧ (s.samplePressure r).track = s.track ∧
    (s.samplePressure r).docket = s.docket ∧ (s.samplePressure r).gate = s.gate ∧
    (s.samplePressure r).outfeed = s.outfeed ∧ (s.samplePressure r).thermal = s.thermal ∧
    (s.samplePressure r).pot = s.pot ∧ (s.samplePressure r).extr = s.extr ∧ (s.samplePressure r).modes = s.modes ∧
    (s.samplePressure r).port = s.port ∧ (s.samplePressure r).pending = s.pending := by
  simp [State.samplePressure]

@[simp] theorem State.blocks_sampleTank (s : State) (b : Bool) :
    (s.sampleTank b).pins = s.pins ∧ (s.sampleTank b).clock = s.clock ∧ (s.sampleTank b).statusAt = s.statusAt ∧
    (s.sampleTank b).heaterAt = s.heaterAt ∧ (s.sampleTank b).modAt = s.modAt ∧ (s.sampleTank b).track = s.track ∧
    (s.sampleTank b).docket = s.docket ∧ (s.sampleTank b).gate = s.gate ∧ (s.sampleTank b).outfeed = s.outfeed ∧
    (s.sampleTank b).thermal = s.thermal ∧ (s.sampleTank b).pot = s.pot ∧ (s.sampleTank b).extr = s.extr ∧
    (s.sampleTank b).modes = s.modes ∧ (s.sampleTank b).pending = s.pending ∧
    (s.sampleTank b).port.setup = s.port.setup := by
  cases b <;> simp [State.sampleTank]

@[simp] theorem State.blocks_sampleAll (s : State) (i : Readings) :
    (s.sampleAll i).pins = s.pins ∧ (s.sampleAll i).clock = s.clock ∧ (s.sampleAll i).statusAt = s.statusAt ∧
    (s.sampleAll i).heaterAt = s.heaterAt ∧ (s.sampleAll i).modAt = s.modAt ∧ (s.sampleAll i).docket = s.docket ∧
    (s.sampleAll i).gate = s.gate ∧ (s.sampleAll i).outfeed = s.outfeed ∧ (s.sampleAll i).modes = s.modes ∧
    (s.sampleAll i).pending = s.pending ∧ (s.sampleAll i).track.pos = s.track.pos ∧
    (s.sampleAll i).thermal.auth = s.thermal.auth ∧ (s.sampleAll i).port.setup = s.port.setup := by
  simp [State.sampleAll]

@[simp] theorem State.blocks_intervalRaises (s : State) :
    s.intervalRaises.pins = s.pins ∧ s.intervalRaises.clock = s.clock ∧ s.intervalRaises.statusAt = s.statusAt ∧
    s.intervalRaises.heaterAt = s.heaterAt ∧ s.intervalRaises.modAt = s.modAt ∧ s.intervalRaises.mem = s.mem ∧
    s.intervalRaises.track = s.track ∧ s.intervalRaises.docket = s.docket ∧ s.intervalRaises.outfeed = s.outfeed ∧
    s.intervalRaises.flux = s.flux ∧ s.intervalRaises.thermal = s.thermal ∧ s.intervalRaises.extr = s.extr ∧
    s.intervalRaises.pending = s.pending ∧ s.intervalRaises.port.setup = s.port.setup := by
  simp [State.intervalRaises]

@[simp] theorem State.blocks_markInputFault (s : State) (k : Idx8) :
    (s.markInputFault k).pins = s.pins ∧ (s.markInputFault k).clock = s.clock ∧
    (s.markInputFault k).statusAt = s.statusAt ∧ (s.markInputFault k).heaterAt = s.heaterAt ∧
    (s.markInputFault k).modAt = s.modAt ∧ (s.markInputFault k).mem = s.mem ∧ (s.markInputFault k).docket = s.docket ∧
    (s.markInputFault k).gate = s.gate ∧ (s.markInputFault k).outfeed = s.outfeed ∧ (s.markInputFault k).flux = s.flux ∧
    (s.markInputFault k).thermal = s.thermal ∧ (s.markInputFault k).pot = s.pot ∧ (s.markInputFault k).extr = s.extr ∧
    (s.markInputFault k).modes = s.modes ∧ (s.markInputFault k).port = s.port ∧
    (s.markInputFault k).pending = s.pending ∧ (s.markInputFault k).track.pos = s.track.pos := by
  unfold State.markInputFault; split
  · split <;> simp
  · simp

@[simp] theorem State.blocks_latchInput (s : State) (k : Idx8) :
    (s.latchInput k).pins = s.pins ∧ (s.latchInput k).clock = s.clock ∧ (s.latchInput k).statusAt = s.statusAt ∧
    (s.latchInput k).heaterAt = s.heaterAt ∧ (s.latchInput k).modAt = s.modAt ∧ (s.latchInput k).mem = s.mem ∧
    (s.latchInput k).track = s.track ∧ (s.latchInput k).docket = s.docket ∧ (s.latchInput k).gate = s.gate ∧
    (s.latchInput k).outfeed = s.outfeed ∧ (s.latchInput k).flux = s.flux ∧ (s.latchInput k).pot = s.pot ∧
    (s.latchInput k).extr = s.extr ∧ (s.latchInput k).modes = s.modes ∧ (s.latchInput k).port = s.port ∧
    (s.latchInput k).pending = s.pending ∧ (s.latchInput k).thermal.auth = s.thermal.auth := by
  unfold State.latchInput; split <;> simp

@[simp] theorem State.blocks_testLimit (s : State) (k : Idx8) :
    (s.testLimit k).pins = s.pins ∧ (s.testLimit k).clock = s.clock ∧ (s.testLimit k).statusAt = s.statusAt ∧
    (s.testLimit k).heaterAt = s.heaterAt ∧ (s.testLimit k).modAt = s.modAt ∧ (s.testLimit k).mem = s.mem ∧
    (s.testLimit k).track = s.track ∧ (s.testLimit k).docket = s.docket ∧ (s.testLimit k).outfeed = s.outfeed ∧
    (s.testLimit k).flux = s.flux ∧ (s.testLimit k).extr = s.extr ∧ (s.testLimit k).pending = s.pending ∧
    (s.testLimit k).port.setup = s.port.setup ∧ (s.testLimit k).thermal.auth = s.thermal.auth := by
  simp [State.testLimit]

@[simp] theorem State.blocks_activatePoint (s : State) (k : Idx8) :
    (s.activatePoint k).pins = s.pins ∧ (s.activatePoint k).clock = s.clock ∧
    (s.activatePoint k).statusAt = s.statusAt ∧ (s.activatePoint k).heaterAt = s.heaterAt ∧
    (s.activatePoint k).modAt = s.modAt ∧ (s.activatePoint k).mem = s.mem ∧ (s.activatePoint k).track = s.track ∧
    (s.activatePoint k).docket = s.docket ∧ (s.activatePoint k).gate = s.gate ∧
    (s.activatePoint k).outfeed = s.outfeed ∧ (s.activatePoint k).flux = s.flux ∧
    (s.activatePoint k).thermal = s.thermal ∧ (s.activatePoint k).pot = s.pot ∧ (s.activatePoint k).modes = s.modes ∧
    (s.activatePoint k).pending = s.pending ∧ (s.activatePoint k).port.setup = s.port.setup := by
  simp [State.activatePoint]

@[simp] theorem State.blocks_risePoint (s : State) (k : Idx8) :
    (s.risePoint k).pins = s.pins ∧ (s.risePoint k).clock = s.clock ∧ (s.risePoint k).statusAt = s.statusAt ∧
    (s.risePoint k).heaterAt = s.heaterAt ∧ (s.risePoint k).modAt = s.modAt ∧ (s.risePoint k).mem = s.mem ∧
    (s.risePoint k).track = s.track ∧ (s.risePoint k).docket = s.docket ∧ (s.risePoint k).gate = s.gate ∧
    (s.risePoint k).outfeed = s.outfeed ∧ (s.risePoint k).flux = s.flux ∧ (s.risePoint k).thermal = s.thermal ∧
    (s.risePoint k).pot = s.pot ∧ (s.risePoint k).modes = s.modes ∧ (s.risePoint k).pending = s.pending ∧
    (s.risePoint k).port.setup = s.port.setup := by
  simp [State.risePoint]

@[simp] theorem State.blocks_clearPoint (s : State) (k : Idx8) :
    (s.clearPoint k).pins = s.pins ∧ (s.clearPoint k).clock = s.clock ∧ (s.clearPoint k).statusAt = s.statusAt ∧
    (s.clearPoint k).heaterAt = s.heaterAt ∧ (s.clearPoint k).modAt = s.modAt ∧ (s.clearPoint k).mem = s.mem ∧
    (s.clearPoint k).track = s.track ∧ (s.clearPoint k).docket = s.docket ∧ (s.clearPoint k).gate = s.gate ∧
    (s.clearPoint k).outfeed = s.outfeed ∧ (s.clearPoint k).flux = s.flux ∧ (s.clearPoint k).thermal = s.thermal ∧
    (s.clearPoint k).pot = s.pot ∧ (s.clearPoint k).modes = s.modes ∧ (s.clearPoint k).pending = s.pending ∧
    (s.clearPoint k).port.setup = s.port.setup := by
  simp [State.clearPoint]

@[simp] theorem State.blocks_acknowledgePoints (s : State) (m : Word) :
    (s.acknowledgePoints m).pins = s.pins ∧ (s.acknowledgePoints m).clock = s.clock ∧
    (s.acknowledgePoints m).statusAt = s.statusAt ∧ (s.acknowledgePoints m).heaterAt = s.heaterAt ∧
    (s.acknowledgePoints m).modAt = s.modAt ∧ (s.acknowledgePoints m).mem = s.mem ∧
    (s.acknowledgePoints m).track = s.track ∧ (s.acknowledgePoints m).docket = s.docket ∧
    (s.acknowledgePoints m).gate = s.gate ∧ (s.acknowledgePoints m).outfeed = s.outfeed ∧
    (s.acknowledgePoints m).flux = s.flux ∧ (s.acknowledgePoints m).thermal = s.thermal ∧
    (s.acknowledgePoints m).pot = s.pot ∧ (s.acknowledgePoints m).modes = s.modes ∧
    (s.acknowledgePoints m).pending = s.pending ∧ (s.acknowledgePoints m).port.setup = s.port.setup := by
  simp [State.acknowledgePoints]

@[simp] theorem State.blocks_toModulation (s : State) :
    s.toModulation.pins = s.pins ∧ s.toModulation.statusAt = s.statusAt ∧ s.toModulation.heaterAt = s.heaterAt ∧
    s.toModulation.mem = s.mem ∧ s.toModulation.track = s.track ∧ s.toModulation.docket = s.docket ∧
    s.toModulation.gate = s.gate ∧ s.toModulation.outfeed = s.outfeed ∧ s.toModulation.flux = s.flux ∧
    s.toModulation.thermal = s.thermal ∧ s.toModulation.pending = s.pending ∧
    s.toModulation.port.setup = s.port.setup := by
  simp [State.toModulation]

@[simp] theorem State.blocks_finishPulses (s : State) :
    s.finishPulses.pins = s.pins ∧ s.finishPulses.clock = s.clock ∧ s.finishPulses.statusAt = s.statusAt ∧
    s.finishPulses.heaterAt = s.heaterAt ∧ s.finishPulses.modAt = s.modAt ∧ s.finishPulses.docket = s.docket ∧
    s.finishPulses.gate = s.gate ∧ s.finishPulses.outfeed = s.outfeed ∧ s.finishPulses.thermal = s.thermal ∧
    s.finishPulses.pot = s.pot ∧ s.finishPulses.extr = s.extr ∧ s.finishPulses.modes = s.modes ∧
    s.finishPulses.pending = s.pending ∧ s.finishPulses.track.pos = s.track.pos ∧
    s.finishPulses.port.setup = s.port.setup := by
  simp [State.finishPulses]

@[simp] theorem State.blocks_consumeEdges (s : State) :
    s.consumeEdges.pins = s.pins ∧ s.consumeEdges.clock = s.clock ∧ s.consumeEdges.statusAt = s.statusAt ∧
    s.consumeEdges.heaterAt = s.heaterAt ∧ s.consumeEdges.modAt = s.modAt ∧ s.consumeEdges.mem = s.mem ∧
    s.consumeEdges.docket = s.docket ∧ s.consumeEdges.gate = s.gate ∧ s.consumeEdges.outfeed = s.outfeed ∧
    s.consumeEdges.thermal = s.thermal ∧ s.consumeEdges.pot = s.pot ∧ s.consumeEdges.extr = s.extr ∧
    s.consumeEdges.modes = s.modes ∧ s.consumeEdges.port = s.port ∧ s.consumeEdges.pending = s.pending ∧
    s.consumeEdges.track.pos = s.track.pos := by
  simp [State.consumeEdges]

@[simp] theorem State.blocks_startPulses (s : State) :
    s.startPulses.pins = s.pins ∧ s.startPulses.clock = s.clock ∧ s.startPulses.statusAt = s.statusAt ∧
    s.startPulses.heaterAt = s.heaterAt ∧ s.startPulses.modAt = s.modAt ∧ s.startPulses.mem = s.mem ∧
    s.startPulses.track = s.track ∧ s.startPulses.docket = s.docket ∧ s.startPulses.gate = s.gate ∧
    s.startPulses.outfeed = s.outfeed ∧ s.startPulses.thermal = s.thermal ∧ s.startPulses.pot = s.pot ∧
    s.startPulses.extr = s.extr ∧ s.startPulses.modes = s.modes ∧ s.startPulses.port = s.port ∧
    s.startPulses.pending = s.pending := by
  simp [State.startPulses]

@[simp] theorem State.blocks_faultWidth (s : State) :
    s.faultWidth.pins = s.pins ∧ s.faultWidth.clock = s.clock ∧ s.faultWidth.statusAt = s.statusAt ∧
    s.faultWidth.heaterAt = s.heaterAt ∧ s.faultWidth.modAt = s.modAt ∧ s.faultWidth.mem = s.mem ∧
    s.faultWidth.track = s.track ∧ s.faultWidth.docket = s.docket ∧ s.faultWidth.outfeed = s.outfeed ∧
    s.faultWidth.flux = s.flux ∧ s.faultWidth.thermal = s.thermal ∧ s.faultWidth.extr = s.extr ∧
    s.faultWidth.pending = s.pending ∧ s.faultWidth.port.setup = s.port.setup := by
  simp [State.faultWidth]

@[simp] theorem State.blocks_beginMotion (s : State) :
    s.beginMotion.pins = s.pins ∧ s.beginMotion.clock = s.clock ∧ s.beginMotion.statusAt = s.statusAt ∧
    s.beginMotion.heaterAt = s.heaterAt ∧ s.beginMotion.modAt = s.modAt ∧ s.beginMotion.mem = s.mem ∧
    s.beginMotion.track = s.track ∧ s.beginMotion.docket = s.docket ∧ s.beginMotion.outfeed = s.outfeed ∧
    s.beginMotion.flux = s.flux ∧ s.beginMotion.thermal = s.thermal ∧ s.beginMotion.pot = s.pot ∧
    s.beginMotion.extr = s.extr ∧ s.beginMotion.modes = s.modes ∧ s.beginMotion.port = s.port ∧
    s.beginMotion.pending = s.pending := by
  simp [State.beginMotion]

@[simp] theorem State.blocks_superviseLimit (s : State) :
    s.superviseLimit.pins = s.pins ∧ s.superviseLimit.clock = s.clock ∧ s.superviseLimit.statusAt = s.statusAt ∧
    s.superviseLimit.heaterAt = s.heaterAt ∧ s.superviseLimit.modAt = s.modAt ∧ s.superviseLimit.mem = s.mem ∧
    s.superviseLimit.track = s.track ∧ s.superviseLimit.docket = s.docket ∧ s.superviseLimit.outfeed = s.outfeed ∧
    s.superviseLimit.flux = s.flux ∧ s.superviseLimit.thermal = s.thermal ∧ s.superviseLimit.extr = s.extr ∧
    s.superviseLimit.pending = s.pending ∧ s.superviseLimit.port.setup = s.port.setup := by
  unfold State.superviseLimit; split <;> simp

@[simp] theorem State.blocks_enterEmpty (s : State) :
    s.enterEmpty.pins = s.pins ∧ s.enterEmpty.clock = s.clock ∧ s.enterEmpty.statusAt = s.statusAt ∧
    s.enterEmpty.heaterAt = s.heaterAt ∧ s.enterEmpty.modAt = s.modAt ∧ s.enterEmpty.mem = s.mem ∧
    s.enterEmpty.track = s.track ∧ s.enterEmpty.docket = s.docket ∧ s.enterEmpty.gate = s.gate ∧
    s.enterEmpty.flux = s.flux ∧ s.enterEmpty.thermal = s.thermal ∧ s.enterEmpty.pot = s.pot ∧
    s.enterEmpty.extr = s.extr ∧ s.enterEmpty.modes = s.modes ∧ s.enterEmpty.port = s.port ∧
    s.enterEmpty.pending = s.pending := by
  simp [State.enterEmpty]

@[simp] theorem State.blocks_outfeedSensor (s : State) (b : Bool) :
    (s.outfeedSensor b).pins = s.pins ∧ (s.outfeedSensor b).clock = s.clock ∧
    (s.outfeedSensor b).statusAt = s.statusAt ∧ (s.outfeedSensor b).heaterAt = s.heaterAt ∧
    (s.outfeedSensor b).modAt = s.modAt ∧ (s.outfeedSensor b).mem = s.mem ∧ (s.outfeedSensor b).track = s.track ∧
    (s.outfeedSensor b).docket = s.docket ∧ (s.outfeedSensor b).gate = s.gate ∧ (s.outfeedSensor b).flux = s.flux ∧
    (s.outfeedSensor b).thermal = s.thermal ∧ (s.outfeedSensor b).pot = s.pot ∧ (s.outfeedSensor b).extr = s.extr ∧
    (s.outfeedSensor b).modes = s.modes ∧ (s.outfeedSensor b).port = s.port ∧
    (s.outfeedSensor b).pending = s.pending := by
  unfold State.outfeedSensor; split <;> simp

@[simp] theorem State.blocks_acceptSensor (s : State) :
    s.acceptSensor.pins = s.pins ∧ s.acceptSensor.clock = s.clock ∧ s.acceptSensor.statusAt = s.statusAt ∧
    s.acceptSensor.heaterAt = s.heaterAt ∧ s.acceptSensor.modAt = s.modAt ∧ s.acceptSensor.mem = s.mem ∧
    s.acceptSensor.track = s.track ∧ s.acceptSensor.docket = s.docket ∧ s.acceptSensor.gate = s.gate ∧
    s.acceptSensor.flux = s.flux ∧ s.acceptSensor.thermal = s.thermal ∧ s.acceptSensor.pot = s.pot ∧
    s.acceptSensor.extr = s.extr ∧ s.acceptSensor.modes = s.modes ∧ s.acceptSensor.port = s.port ∧
    s.acceptSensor.pending = s.pending := by
  simp [State.acceptSensor]

@[simp] theorem State.blocks_wakeOn (s : State) (b : Bool) :
    (s.wakeOn b).pins = s.pins ∧ (s.wakeOn b).clock = s.clock ∧ (s.wakeOn b).statusAt = s.statusAt ∧
    (s.wakeOn b).heaterAt = s.heaterAt ∧ (s.wakeOn b).modAt = s.modAt ∧ (s.wakeOn b).mem = s.mem ∧
    (s.wakeOn b).track = s.track ∧ (s.wakeOn b).docket = s.docket ∧ (s.wakeOn b).outfeed = s.outfeed ∧
    (s.wakeOn b).flux = s.flux ∧ (s.wakeOn b).thermal = s.thermal ∧ (s.wakeOn b).extr = s.extr ∧
    (s.wakeOn b).pending = s.pending ∧ (s.wakeOn b).port.setup = s.port.setup := by
  unfold State.wakeOn; split <;> simp

@[simp] theorem State.blocks_takeSetup (s : State) (c : Setup) :
    (s.takeSetup c).pins = s.pins ∧ (s.takeSetup c).clock = s.clock ∧ (s.takeSetup c).statusAt = s.statusAt ∧
    (s.takeSetup c).heaterAt = s.heaterAt ∧ (s.takeSetup c).modAt = s.modAt ∧ (s.takeSetup c).gate = s.gate ∧
    (s.takeSetup c).outfeed = s.outfeed ∧ (s.takeSetup c).thermal = s.thermal ∧ (s.takeSetup c).pending = s.pending ∧
    (s.takeSetup c).track.pos = s.track.pos := by
  unfold State.takeSetup; dsimp only; split <;> simp

@[simp] theorem State.blocks_refill (s : State) (v : Nat) :
    (s.refill v).pins = s.pins ∧ (s.refill v).clock = s.clock ∧ (s.refill v).statusAt = s.statusAt ∧
    (s.refill v).heaterAt = s.heaterAt ∧ (s.refill v).modAt = s.modAt ∧ (s.refill v).track = s.track ∧
    (s.refill v).docket = s.docket ∧ (s.refill v).gate = s.gate ∧ (s.refill v).outfeed = s.outfeed ∧
    (s.refill v).thermal = s.thermal ∧ (s.refill v).pot = s.pot ∧ (s.refill v).extr = s.extr ∧
    (s.refill v).modes = s.modes ∧ (s.refill v).pending = s.pending ∧ (s.refill v).port.setup = s.port.setup := by
  simp [State.refill]

@[simp] theorem State.blocks_startPurge (s : State) (d : Nat) :
    (s.startPurge d).pins = s.pins ∧ (s.startPurge d).clock = s.clock ∧ (s.startPurge d).statusAt = s.statusAt ∧
    (s.startPurge d).heaterAt = s.heaterAt ∧ (s.startPurge d).modAt = s.modAt ∧ (s.startPurge d).docket = s.docket ∧
    (s.startPurge d).gate = s.gate ∧ (s.startPurge d).outfeed = s.outfeed ∧ (s.startPurge d).thermal = s.thermal ∧
    (s.startPurge d).pot = s.pot ∧ (s.startPurge d).extr = s.extr ∧ (s.startPurge d).modes = s.modes ∧
    (s.startPurge d).pending = s.pending ∧ (s.startPurge d).track.pos = s.track.pos ∧
    (s.startPurge d).port.setup = s.port.setup := by
  simp [State.startPurge]

@[simp] theorem State.blocks_releaseFaults (s : State) :
    s.releaseFaults.pins = s.pins ∧ s.releaseFaults.clock = s.clock ∧ s.releaseFaults.statusAt = s.statusAt ∧
    s.releaseFaults.heaterAt = s.heaterAt ∧ s.releaseFaults.modAt = s.modAt ∧ s.releaseFaults.mem = s.mem ∧
    s.releaseFaults.track = s.track ∧ s.releaseFaults.docket = s.docket ∧ s.releaseFaults.extr = s.extr ∧
    s.releaseFaults.modes = s.modes ∧ s.releaseFaults.port = s.port ∧ s.releaseFaults.pending = s.pending ∧
    s.releaseFaults.thermal.auth = s.thermal.auth := by
  unfold State.releaseFaults; dsimp only; split <;> simp

@[simp] theorem State.blocks_removeCauses (s : State) :
    s.removeCauses.pins = s.pins ∧ s.removeCauses.clock = s.clock ∧ s.removeCauses.statusAt = s.statusAt ∧
    s.removeCauses.heaterAt = s.heaterAt ∧ s.removeCauses.modAt = s.modAt ∧ s.removeCauses.mem = s.mem ∧
    s.removeCauses.track = s.track ∧ s.removeCauses.docket = s.docket ∧ s.removeCauses.gate = s.gate ∧
    s.removeCauses.outfeed = s.outfeed ∧ s.removeCauses.flux = s.flux ∧ s.removeCauses.thermal = s.thermal ∧
    s.removeCauses.pot = s.pot ∧ s.removeCauses.extr = s.extr ∧ s.removeCauses.port = s.port ∧
    s.removeCauses.pending = s.pending := by
  simp [State.removeCauses]

@[simp] theorem State.blocks_leaveHalt (s : State) :
    s.leaveHalt.pins = s.pins ∧ s.leaveHalt.clock = s.clock ∧ s.leaveHalt.statusAt = s.statusAt ∧
    s.leaveHalt.heaterAt = s.heaterAt ∧ s.leaveHalt.modAt = s.modAt ∧ s.leaveHalt.mem = s.mem ∧
    s.leaveHalt.track = s.track ∧ s.leaveHalt.docket = s.docket ∧ s.leaveHalt.outfeed = s.outfeed ∧
    s.leaveHalt.flux = s.flux ∧ s.leaveHalt.thermal = s.thermal ∧ s.leaveHalt.extr = s.extr ∧
    s.leaveHalt.pending = s.pending ∧ s.leaveHalt.port.setup = s.port.setup := by
  unfold State.leaveHalt; split <;> simp

@[simp] theorem State.blocks_boundary (s : State) :
    s.boundary.pins = s.pins ∧ s.boundary.statusAt = s.statusAt ∧ s.boundary.modAt = s.modAt ∧ s.boundary.mem = s.mem ∧
    s.boundary.docket = s.docket ∧ s.boundary.gate = s.gate ∧ s.boundary.outfeed = s.outfeed ∧
    s.boundary.flux = s.flux ∧ s.boundary.pending = s.pending ∧ s.boundary.track.pos = s.track.pos ∧
    s.boundary.port.setup = s.port.setup ∧ s.boundary.thermal.auth = s.thermal.auth := by
  simp [State.boundary, State.toAllocation, State.toHeaterBoundary, State.rampStep, State.controlStep, State.settleStep,
    State.allocateStep, State.outputStep, State.markDeviations]

end Sys2Proof.Machine
end



section
/-! Which commands change the position, the working set, HEAT_AUTH and an alarm point; O14. -/

namespace Sys2Proof.Machine

open Sys2Proof.Config

/-- The blocks of the state in which a post is taken are those before it, but for memory and the port. -/
theorem Taken.blocks {s q : State} {code : Word} {ws : List HostWrite} (h : Taken s code ws q) :
    q = { s with mem := hostWrites ws s.mem, port := q.port } ∧ q.port.setup = s.port.setup ∧
    q.port.notices = s.port.notices ∧ q.port.marks = s.port.marks := by
  obtain ⟨-, -, h⟩ | ⟨-, h⟩ := h <;> rw [h] <;> exact ⟨rfl, rfl, rfl, rfl⟩

/-- The position, the setup and HEAT_AUTH of a state. -/
def State.owned (s : State) : Pos × Option Setup × Bool :=
  (s.track.pos, s.port.setup, s.thermal.auth)

theorem owned_refresh (t : State) : t.writeClock.refresh.owned = t.owned := rfl

theorem owned_answer (t : State) (a : Answer) : (t.answer a).owned = t.owned := by
  cases a <;> rfl

@[simp] theorem setEye_rest (t : Track) (e : Eye) (q : Qualifier) :
    (t.setEye e q).pos = t.pos ∧ (t.setEye e q).records = t.records ∧ (t.setEye e q).ref = t.ref ∧
    (t.setEye e q).ordinal = t.ordinal := by
  cases e <;> exact ⟨rfl, rfl, rfl, rfl⟩

theorem Ending.owned (e : Ending) (u : State) : (e.of u).owned = u.owned := by
  have settle : u.settle.owned = u.owned := by
    have k := (kept_settle u).keeps
    simp only [State.owned, k.trackPos, k.portSetup, k.thermalAuth]
  have settleEval : u.settleEval.owned = u.owned := by
    have k := (kept_settleEval u).keeps
    simp only [State.owned, k.trackPos, k.portSetup, k.thermalAuth]
  induction e with
  | still => rfl
  | settled => exact settle
  | evaluated => exact settleEval
  | interval => exact (owned_refresh u.settleEval).trans settleEval
  | answered e a ih => exact (owned_answer (e.of u) a).trans ih

/-- An accepted request leaves P and HEAT_AUTH; LOAD_SETUP alone takes a working set. -/
theorem Accepts.owned {q u : State} {c : Instr} {e : Ending} (h : Accepts q c e u) :
    u.track.pos = q.track.pos ∧ ((∀ ws, c ≠ .loadSetup ws) → u.port.setup = q.port.setup) ∧ u.thermal.auth = q.thermal.auth := by
  cases h with
  | loadSetup ws => exact ⟨by simp, fun h => absurd rfl (h ws), by simp⟩
  | cancelDocket ws n => exact ⟨by simp, fun _ => rfl, by simp⟩
  | _ => simp

theorem Effect.pos {s u : State} {c : Instr} {e : Ending} (h : Effect s c e u) (hc : ∀ d, c ≠ .encoderCount d) :
    u.track.pos = s.track.pos := by
  cases h with
  | encoderCount d => exact absurd rfl (hc d)
  | refused c code q rc f hc hq => rw [hq.blocks.1]
  | accepted c code q e u hc hq hr ha => rw [ha.owned.1, hq.blocks.1]
  | _ => simp

/-- The registers of the port that hold no setup. -/
@[simp] theorem setup_registers (p : Port) : p.expire.setup = p.setup ∧ p.readNotice.setup = p.setup ∧
    p.formLine.setup = p.setup :=
  ⟨rfl, rfl, rfl⟩

@[simp] theorem setup_writeNotice (p : Port) (v : Word) : (p.writeNotice v).setup = p.setup := rfl

@[simp] theorem setup_reformLine (s : State) : s.reformLine.port.setup = s.port.setup := rfl

@[simp] theorem auth_setInput (t : Thermal) (k : Idx8) (i : Input) : (t.setInput k i).auth = t.auth := rfl

@[simp] theorem auth_markSettled (t : Thermal) (l : LoopId) : (t.markSettled l).auth = t.auth := by
  cases l <;> rfl

/-- A command other than LOAD_SETUP leaves the working set before its consequences. -/
theorem Effect.setup {s u : State} {c : Instr} {e : Ending} (h : Effect s c e u) (hc : ∀ ws, c ≠ .loadSetup ws) :
    u.port.setup = s.port.setup := by
  cases h with
  | refused c code q rc f hp hq => exact hq.blocks.2.1
  | accepted c code q e u hp hq hr ha => rw [ha.owned.2.1 hc, hq.blocks.2.1]
  | requestOverrun code => split <;> rfl
  | _ => simp [State.beginMotion, State.startPulses]

theorem Effect.auth {s u : State} {c : Instr} {e : Ending} (h : Effect s c e u) (h1 : c ≠ .heatAuthEnable)
    (h2 : c ≠ .heatAuthDisable) (h3 : ∀ v, c ≠ .heatAuthInvalid v) : u.thermal.auth = s.thermal.auth := by
  cases h with
  | heatAuthEnable => exact absurd rfl h1
  | heatAuthDisable => exact absurd rfl h2
  | heatAuthInvalid v => exact absurd rfl (h3 v)
  | refused c code q rc f hp hq => rw [hq.blocks.1]
  | accepted c code q e u hp hq hr ha => rw [ha.owned.2.2, hq.blocks.1]
  | _ => simp

/-! ## The alarm points -/

/-- A re-forming acts on the alarm points by the fan command alone (R138, R140). -/
theorem points_of_calm {a t : State} (h : Calm a.beforeInhibit.reformInhibit t) :
    t.extr.points = (a.extr.command (fanCommand a.modeStage) a.clock).points ∧ t.extr.fan = fanCommand a.modeStage := by
  have extr : a.beforeInhibit.reformInhibit.extr = a.modeStage.reformFans.reformHorn.extr := by simp [State.beforeInhibit]
  rw [h.points, h.fan, extr]
  exact ⟨by simp [State.reformHorn, State.reformFans], by simp [State.reformHorn, State.reformFans, Extr.command_fan]⟩

theorem settleEval_calm (s : State) : Calm s.beforeInhibit.reformInhibit s.settleEval := by
  have first : Moves s.beforeInhibit.reformInhibit s.reform := moves_reformRest s.beforeInhibit.reformInhibit
  exact ((first.trans (moves_gateEval _)).trans (moves_settle _)).calm (rests_reformInhibit s) |>.1

/-- What the fans and their points do from `s` to `t`: all points stay, or the fans go off and take their points with them
(R140). -/
def FanPoints (s t : State) : Prop :=
  t.extr.points = s.extr.points ∨
    (s.extr.fan = true ∧ t.extr.fan = false ∧ t.extr.points = s.extr.fanOffPoints s.clock)

theorem fanPoints_of_calm {a t : State} (h : Calm a.beforeInhibit.reformInhibit t) : FanPoints a t := by
  obtain ⟨points, fan⟩ := points_of_calm h
  generalize fanCommand a.modeStage = on at points fan
  unfold FanPoints
  rw [points, fan]
  unfold Extr.command
  cases hf : a.extr.fan <;> cases on
  · exact .inl rfl
  · exact .inl rfl
  · exact .inr ⟨rfl, rfl, rfl⟩
  · exact .inl rfl

theorem extr_refresh (t : State) : t.writeClock.refresh.extr = t.extr := rfl

theorem extr_answer (t : State) (a : Answer) : (t.answer a).extr = t.extr := by
  cases a <;> rfl

theorem Ending.fanPoints (e : Ending) (u : State) : FanPoints u (e.of u) := by
  induction e with
  | still => exact .inl rfl
  | settled => exact fanPoints_of_calm (settle_calm u).1
  | evaluated => exact fanPoints_of_calm (settleEval_calm u)
  | interval =>
    unfold FanPoints Ending.of
    rw [extr_refresh]
    exact fanPoints_of_calm (settleEval_calm u)
  | answered e a ih =>
    unfold FanPoints Ending.of
    rw [extr_answer]
    exact ih

theorem clock_answer (t : State) (a : Answer) : (t.answer a).clock = t.clock := by
  cases a <;> rfl

theorem clock_refresh (t : State) : t.writeClock.refresh.clock = t.clock := rfl

/-- The consequences leave the clock. -/
theorem Ending.clock (e : Ending) (u : State) : (e.of u).clock = u.clock := by
  induction e with
  | still => rfl
  | settled => exact (kept_settle u).keeps.clock
  | evaluated => exact (kept_settleEval u).keeps.clock
  | interval => exact (clock_refresh u.settleEval).trans (kept_settleEval u).keeps.clock
  | answered e a ih => exact (clock_answer (e.of u) a).trans ih

/-- Time and the grids leave the points and the fans. -/
@[simp] theorem points_advance (s : State) (n : Nat) :
    (s.advance n).extr.points = s.extr.points ∧ (s.advance n).extr.fan = s.extr.fan :=
  ⟨rfl, rfl⟩

@[simp] theorem points_toModulation (s : State) :
    s.toModulation.extr.points = s.extr.points ∧ s.toModulation.extr.fan = s.extr.fan :=
  ⟨rfl, rfl⟩

@[simp] theorem points_boundary (s : State) :
    s.boundary.extr.points = s.extr.points ∧ s.boundary.extr.fan = s.extr.fan :=
  ⟨rfl, rfl⟩

@[simp] theorem points_endGrace (x : Extr) (h : Channel) : (x.endGrace h).points = x.points ∧ (x.endGrace h).fan = x.fan := by
  cases h <;> exact ⟨rfl, rfl⟩

theorem point_changePoint (s : State) {j k : Idx8} (f : Point → Point) (h : j ≠ k) :
    (s.changePoint j f).extr.points.get k = s.extr.points.get k ∧ (s.changePoint j f).extr.fan = s.extr.fan := by
  refine ⟨?_, rfl⟩
  show (s.extr.points.set j (f (s.extr.points.get j))).get k = _
  rw [Tab8.get_set, if_neg fun e => h e.symm]

/-- A command that owns no point leaves it before its consequences. -/
theorem Effect.point {s u : State} {c : Instr} {e : Ending} (h : Effect s c e u) (k : Idx8)
    (hi : ∀ i ws, c ≠ .statusIntervalEnd i ws) (hl : ∀ ws, c ≠ .loadSetup ws) (ha : ∀ ws, c ≠ .ackAlarms ws)
    (h1 : c ≠ .alarmActivation k) (h2 : c ≠ .alarmSeverityRise k) (h3 : c ≠ .alarmEscalation k) (h4 : c ≠ .alarmClear k) :
    u.extr.points.get k = s.extr.points.get k ∧ u.extr.fan = s.extr.fan := by
  cases h with
  | interval i ws => exact absurd rfl (hi i ws)
  | alarmActivation j => exact point_changePoint s _ fun e => h1 (e ▸ rfl)
  | alarmSeverityRise j => exact point_changePoint s _ fun e => h2 (e ▸ rfl)
  | alarmEscalation j => exact point_changePoint s _ fun e => h3 (e ▸ rfl)
  | alarmClear j => exact point_changePoint (j := j) s (fun p => p.clear s.clock) fun e => h4 (congrArg _ e)
  | refused c code q rc f hp hq => rw [hq.blocks.1]; exact ⟨rfl, rfl⟩
  | accepted c code q e u hp hq hr acc =>
    have before : q.extr = s.extr := by rw [hq.blocks.1]
    rw [← before]
    cases acc with
    | loadSetup ws => exact absurd rfl (hl ws)
    | ackAlarms ws => exact absurd rfl (ha ws)
    | _ => simp
  | _ => simp



/-- R140: a flow or fan point when its fan goes off. -/
theorem fanOff_cleared (p : Point) (now : Clock) : FanPointCleared p (p.fanOff now) now := by
  unfold Point.fanOff Point.clear Point.active
  constructor <;> cases h : p.ann <;> simp_all

/-- A command other than the resets ends in its effect and the consequences. -/
theorem effect_of_exec {c : Instr} {s t : State} (h : exec c s = .next t) (hp : c ≠ .portReset)
    (hr : ∀ ws, c ≠ .powerOnReset ws) : ∃ e u, Effect s c e u ∧ t = e.of u := by
  rcases exec_cases h with ⟨ws, hc, -⟩ | ⟨hc, -⟩ | effects
  · exact absurd hc (hr ws)
  · exact absurd hc hp
  · exact effects

/-- Settles O14: each owner by the effects, the rest by what the consequences leave. -/
theorem positionSetupAndAuthHaveOneOwner : Obligations.PositionSetupAndAuthHaveOneOwner := by
  unfold Obligations.PositionSetupAndAuthHaveOneOwner
  intro c s t h hp hr
  obtain ⟨e, u, effect, rfl⟩ := effect_of_exec h hp hr
  have owned := e.owned u
  simp only [State.owned, Prod.mk.injEq] at owned
  obtain ⟨pos, setup, auth⟩ := owned
  refine ⟨fun hc => pos.trans (effect.pos hc), fun hc => setup.trans (effect.setup hc),
    fun h1 h2 h3 => auth.trans (effect.auth h1 h2 h3), fun k hi hl ha h1 h2 h3 h4 => ?_⟩
  obtain ⟨point, fan⟩ := effect.point k hi hl ha h1 h2 h3 h4
  rw [← point, ← fan, e.clock u]
  obtain same | ⟨on, off, cleared⟩ := e.fanPoints u
  · exact .inl (by rw [same])
  · rw [cleared, Extr.fanOffPoints, Tab8.get_mapIdx]
    by_cases hk : k.val < 4
    · rw [if_pos ((fanPoint_iff k).mpr hk)]
      exact .inr ⟨hk, on, off, fanOff_cleared _ _⟩
    · rw [if_neg fun c => hk ((fanPoint_iff k).mp c)]
      exact .inl rfl

end Sys2Proof.Machine
end



section
/-! Which commands remove a halt cause, leave HALTED, and write the host's records; O15, O16. -/

namespace Sys2Proof.Machine

open Sys2Proof.Config

/-! ## Causes and HALTED -/

/-- No cause leaves the set from `s` to `t`, and a HALTED line stays so. -/
structure Stays (s t : State) : Prop where
  causes : ∀ x ∈ s.modes.causes, x ∈ t.modes.causes
  halted : s.modes.mode = .halted → t.modes.mode = .halted

theorem Stays.of_eq {s t : State} (hc : t.modes.causes = s.modes.causes) (hm : t.modes.mode = s.modes.mode) : Stays s t :=
  ⟨fun _ hx => hc ▸ hx, fun h => hm.trans h⟩

theorem Stays.of_modes {s t : State} (h : t.modes = s.modes) : Stays s t :=
  .of_eq (by rw [h]) (by rw [h])

theorem Stays.trans {s t u : State} (h : Stays s t) (g : Stays t u) : Stays s u :=
  ⟨fun x hx => g.causes x (h.causes x hx), fun hh => g.halted (h.halted hh)⟩

theorem Stays.after {s t u : State} (h : Stays t u) (hm : t.modes = s.modes) : Stays s u :=
  (Stays.of_modes hm).trans h

theorem causes_enterMode (s : State) (m : Mode) : (s.enterMode m).modes.causes = s.modes.causes :=
  (kept_enterMode s m).keeps.modesCauses

/-- A mode entered from a mode other than HALTED. -/
theorem stays_enterMode {s : State} {m : Mode} (h : s.modes.mode ≠ .halted) : Stays s (s.enterMode m) :=
  ⟨fun _ hx => causes_enterMode s m ▸ hx, fun hh => absurd hh h⟩

theorem stays_raiseCause (s : State) (c : HaltCause) : Stays s (s.raiseCause c) := by
  unfold State.raiseCause
  split
  · exact .of_modes rfl
  · dsimp only
    split
    · refine ⟨fun x hx => ?_, fun hh => enterMode_mode ..⟩
      rw [causes_enterMode]
      exact List.mem_append_left _ hx
    · exact ⟨fun x hx => List.mem_append_left _ hx, id⟩

theorem stays_raiseIf (s : State) (b : Bool) (c : HaltCause) : Stays s (s.raiseIf b c) := by
  cases b
  · exact .of_modes rfl
  · exact stays_raiseCause s c

theorem stays_trackFault (s : State) : Stays s s.trackFault :=
  (Stays.of_modes (s := s) (t := s.notify .trackFault) rfl).trans (stays_raiseIf _ s.ws.stopOnFault .trackFault)

theorem stays_settled {u t : State} (k : Keeps u t) (f : Follows u t) : Stays u t :=
  ⟨fun x hx => k.modesCauses ▸ hx, fun hh => by
    rcases f.mode with h | ⟨h, -⟩ | ⟨h, -⟩
    · exact h.trans hh
    · rw [hh] at h; cases h
    · rw [hh] at h; cases h⟩

theorem modes_refresh (t : State) : t.writeClock.refresh.modes = t.modes := rfl

theorem modes_answer (t : State) (a : Answer) : (t.answer a).modes = t.modes := by
  cases a <;> rfl

theorem Ending.stays (e : Ending) (u : State) : Stays u (e.of u) := by
  have evaluated := stays_settled (kept_settleEval u).keeps (follows_settleEval u)
  induction e with
  | still => exact .of_modes rfl
  | settled => exact stays_settled (kept_settle u).keeps (follows_settle u)
  | evaluated => exact evaluated
  | interval => exact evaluated.trans (.of_modes (modes_refresh u.settleEval))
  | answered e a ih => exact ih.trans (.of_modes (modes_answer (e.of u) a))

theorem stays_modeStage (s : State) : Stays s s.modeStage := by
  unfold State.modeStage
  split
  · next h => exact stays_enterMode (by simp [cooldownDone] at h; rw [h.1]; decide)
  · split
    · next h => exact stays_enterMode (by simp [hostLostEconomy] at h; rw [h.1.1]; decide)
    · exact .of_modes rfl

theorem stays_raiseLost (s : State) : Stays s s.raiseLost :=
  (stays_modeStage s).trans (stays_raiseCause _ _)

theorem stays_loseBoards (s : State) : Stays s s.loseBoards := by
  unfold State.loseBoards
  split
  · exact (Stays.of_modes (by simp)).trans (stays_raiseLost _)
  · exact .of_modes rfl

theorem stays_loseWaiting (s : State) : Stays s s.loseWaiting := by
  unfold State.loseWaiting
  split
  · exact (Stays.of_modes (by simp)).trans (stays_raiseLost _)
  · exact .of_modes rfl

theorem stays_faultWidth (s : State) : Stays s s.faultWidth := by
  unfold State.faultWidth
  exact (stays_raiseCause _ _).after rfl

theorem stays_superviseLimit (s : State) : Stays s s.superviseLimit := by
  unfold State.superviseLimit
  split
  · exact stays_faultWidth s
  · exact .of_modes rfl

theorem stays_intervalRaises (s : State) : Stays s s.intervalRaises :=
  (((stays_raiseIf s _ _).trans (stays_raiseIf _ _ _)).trans (stays_raiseIf _ _ _)).trans (stays_raiseIf _ _ _)

theorem stays_testLimit (s : State) (k : Idx8) : Stays s (s.testLimit k) :=
  .trans (.of_modes (by simp)) (stays_raiseIf (s.latchInput k) _ _)

theorem stays_wakeOn (s : State) (b : Bool) : Stays s (s.wakeOn b) := by
  unfold State.wakeOn
  split
  · next h => exact stays_enterMode (by simp at h; rw [h.2]; decide)
  · exact .of_modes rfl

/-- The time that passes leaves the mode and the causes. -/
@[simp] theorem modes_advance (s : State) (n : Nat) :
    (s.advance n).modes.causes = s.modes.causes ∧ (s.advance n).modes.mode = s.modes.mode :=
  ⟨rfl, rfl⟩

theorem stays_advance (s : State) (n : Nat) : Stays s (s.advance n) :=
  .of_eq rfl rfl

theorem stays_setOverflow {s : State} (t : State) (h : t.modes = s.modes) : Stays s t.setOverflow :=
  Stays.after (t := { t with track := { t.track with overflow := true } }) (stays_trackFault _) h

theorem stays_setPhantom {s : State} (t : State) (h : t.modes = s.modes) : Stays s t.setPhantom :=
  Stays.after (t := { t with track := { t.track with phantom := true } }) (stays_trackFault _) h

@[simp] theorem modes_toInterval (s : State) :
    s.toInterval.modes.causes = s.modes.causes ∧ s.toInterval.modes.mode = s.modes.mode :=
  ⟨rfl, rfl⟩

@[simp] theorem modes_toModulation (s : State) :
    s.toModulation.modes.causes = s.modes.causes ∧ s.toModulation.modes.mode = s.modes.mode :=
  ⟨rfl, rfl⟩

@[simp] theorem modes_boundary (s : State) :
    s.boundary.modes.causes = s.modes.causes ∧ s.boundary.modes.mode = s.modes.mode :=
  ⟨rfl, rfl⟩

theorem Stays.unless {s t : State} {p : Prop} (h : Stays s t) :
    (∀ x ∈ s.modes.causes, x ∈ t.modes.causes) ∧ (p → s.modes.mode = .halted → t.modes.mode = .halted) :=
  ⟨h.causes, fun _ => h.halted⟩

theorem Accepts.stays {q u : State} {c : Instr} {e : Ending} (h : Accepts q c e u) (hc : ∀ ws, c ≠ .clear ws) :
    (∀ x ∈ q.modes.causes, x ∈ u.modes.causes) ∧
      ((∀ ws, c ≠ .shutdown ws) → q.modes.mode = .halted → u.modes.mode = .halted) := by
  cases h with
  | loadSetup ws hm hr hf =>
    refine Stays.unless (.of_eq ?_ ?_) <;> unfold State.takeSetup <;> dsimp only <;> split <;> rfl
  | start ws hm => exact Stays.unless ((stays_enterMode (by simp [hm])).after rfl)
  | shutdown ws hm => exact Stays.unless (stays_enterMode (by rcases hm with h | h | h <;> rw [h] <;> decide))
  | shutdownHalted ws hm => exact ⟨fun x hx => causes_enterMode q .off ▸ hx, fun h => absurd rfl (h ws)⟩
  | stop ws hm => exact Stays.unless (stays_raiseCause _ _)
  | clear ws => exact absurd rfl (hc ws)
  | economy ws hm hr => exact Stays.unless (stays_enterMode (by rcases hm with h | h <;> rw [h] <;> decide))
  | wake ws hm => exact Stays.unless (stays_enterMode (by rw [hm]; decide))
  | _ => exact Stays.unless (.of_modes (by simp))

/-- A command other than CLEAR removes no cause before its consequences, and one other than SHUTDOWN leaves no HALTED. -/
theorem Effect.stays {s u : State} {c : Instr} {e : Ending} (h : Effect s c e u) (hc : ∀ ws, c ≠ .clear ws) :
    (∀ x ∈ s.modes.causes, x ∈ u.modes.causes) ∧
      ((∀ ws, c ≠ .shutdown ws) → s.modes.mode = .halted → u.modes.mode = .halted) := by
  cases h with
  | refused c code q rc f hp hq => rw [hq.blocks.1]; exact Stays.unless (.of_modes rfl)
  | accepted c code q e u hp hq hr acc =>
    have before : q.modes = s.modes := by rw [hq.blocks.1]
    exact before ▸ acc.stays hc
  | overflow => exact Stays.unless (stays_setOverflow _ rfl)
  | phantom => exact Stays.unless (stays_setPhantom _ rfl)
  | exitPhantom => 
    exact Stays.unless (Stays.trans (stays_setPhantom { s with track := s.track.setEye .exit (s.track.eye .exit).accept } rfl)
      (.of_modes (by simp)))
  | dropLost => exact Stays.unless ((stays_loseWaiting _).after rfl)
  | dropPast => exact Stays.unless ((stays_loseBoards _).after rfl)
  | boardLost => exact Stays.unless (stays_loseBoards _)
  | entryJam => exact Stays.unless ((stays_raiseCause _ _).after rfl)
  | conveyorSpeed => exact Stays.unless ((stays_raiseCause _ _).after rfl)
  | vapourHalt => exact Stays.unless (stays_raiseCause _ _)
  | thermostatContactOpen => exact Stays.unless ((stays_raiseCause _ _).after rfl)
  | estopInputActive => exact Stays.unless ((stays_raiseCause _ _).after rfl)
  | heatAuthInvalid v => exact Stays.unless ((stays_raiseCause _ _).after rfl)
  | interval i ws =>
    exact Stays.unless ((Stays.of_eq (s := s) (by simp) (by simp)).trans (stays_intervalRaises _))
  | inputFault k => exact Stays.unless ((stays_raiseIf _ _ _).after (by simp))
  | inputRecovery k => exact Stays.unless ((stays_testLimit _ _).after rfl)
  | inputFillingEnd k =>
    exact Stays.unless (((stays_raiseIf _ _ _).trans (stays_testLimit _ _)).after rfl)
  | levelFlagChange f => exact Stays.unless ((stays_raiseIf _ _ _).after rfl)
  | widthMotionStart => exact Stays.unless ((stays_superviseLimit _).after rfl)
  | homingTravelExceeded => exact Stays.unless (stays_faultWidth _)
  | widthLimitFault => exact Stays.unless ((stays_faultWidth _).after rfl)
  | homeSwitchFault => exact Stays.unless ((stays_faultWidth _).after rfl)
  | upstreamAvailableChange b => exact Stays.unless ((stays_wakeOn _ _).after rfl)
  | idleTimerExpiry r h hm => exact Stays.unless (.trans (stays_advance s r) (stays_enterMode (by simp [hm])))
  | warmupComplete h => exact Stays.unless (stays_enterMode (by simp [warmupReady] at h; simp [h]))
  | _ => exact Stays.unless (.of_eq (by simp) (by simp))

/-- Settles O15: by the effects and what the consequences leave of the mode. -/
theorem causesAndHaltedStayUntilTheHostActs : Obligations.CausesAndHaltedStayUntilTheHostActs := by
  unfold Obligations.CausesAndHaltedStayUntilTheHostActs
  intro c s t h hp hr hc
  obtain ⟨e, u, effect, rfl⟩ := effect_of_exec h hp hr
  obtain ⟨causes, halted⟩ := effect.stays hc
  have after := e.stays u
  exact ⟨fun x hx => after.causes x (causes x hx), fun hd hh => after.halted (halted hd hh)⟩

/-! ## Memory -/

/-- A word that the part writes at resets alone: the part code and the layout version, the request and setup records, and the
recipe table with what stands behind it (12.1). -/
def outsideWord (a : Nat) : Prop :=
  a < 2 ∨ (0x40 ≤ a ∧ a < 0x160) ∨ (0x360 ≤ a ∧ a < 0x1000)

/-- From memory `m` to memory `n` the canonical form and the words outside the part's own stay. -/
structure MemStep (m n : Memory) : Prop where
  form : m.wf → n.wf
  outside : ∀ a, outsideWord a → n.read a = m.read a

theorem MemStep.refl (m : Memory) : MemStep m m := ⟨id, fun _ _ => rfl⟩

theorem MemStep.of_eq {m n : Memory} (h : n = m) : MemStep m n := h ▸ .refl m

theorem MemStep.trans {m n o : Memory} (h : MemStep m n) (g : MemStep n o) : MemStep m o :=
  ⟨fun w => g.form (h.form w), fun a ha => (g.outside a ha).trans (h.outside a ha)⟩

theorem MemStep.after {l m n : Memory} (h : MemStep m n) (e : m = l) : MemStep l n := e ▸ h

theorem MemStep.of_keeps {s t : State} (k : Keeps s t) : MemStep s.mem t.mem :=
  ⟨k.memoryForm, fun a ha => k.memory a (by unfold outsideWord at ha; unfold quietWord; omega)⟩

/-- A block of words elsewhere. -/
theorem memStep_writeBlock (m : Memory) {base : Nat} {ws : List Word} (hr : base + ws.length ≤ memWords)
    (h : (2 ≤ base ∧ base + ws.length ≤ 0x40) ∨ (0x160 ≤ base ∧ base + ws.length ≤ 0x360) ∨ 0x1000 ≤ base) :
    MemStep m (m.writeBlock base ws) :=
  ⟨fun w => Memory.writeBlock_wf w hr, fun a ha => Memory.read_writeBlock_of_outside (by unfold outsideWord at ha; omega)⟩

theorem memStep_write (m : Memory) {a : Nat} (w : Word) (hr : a < memWords)
    (h : (2 ≤ a ∧ a < 0x40) ∨ (0x160 ≤ a ∧ a < 0x360) ∨ 0x1000 ≤ a) : MemStep m (m.write a w) :=
  ⟨fun f => Memory.write_wf f hr, fun b hb => by
    rw [Memory.read_write, if_neg (by unfold outsideWord at hb; omega)]⟩

theorem memStep_countClosed (m : Memory) : MemStep m (countClosed m) :=
  memStep_write m _ (by decide) (.inl (by decide))

theorem memStep_writeResult (m : Memory) (n : SlotIx) {r : List Word} (w : Word) (h : r.length = 19) :
    MemStep m (writeResult m n r w) := by
  have := slotAt_bounds n
  exact (memStep_writeBlock m (by omega) (by omega)).trans (memStep_write _ w (by omega) (by omega))

theorem memStep_setExpected (s : State) (e : Word) : MemStep s.mem (s.setExpected e).mem :=
  .of_keeps (kept_setExpected s e).keeps

theorem memStep_mirror (m : Memory) (n : Nat) : MemStep m (m.writeBlock mirrorTankAt (twoWords n)) :=
  memStep_writeBlock m (by rw [twoWords_length]; decide) (.inl (by rw [twoWords_length]; decide))

theorem travellerWords_length (r : Record) (o : CloseOutcome) (t : Clock) (l c : Nat) :
    (travellerWords r o t l c).length = 19 := rfl

theorem memStep_reportClose (s : State) (r : Record) (o : CloseOutcome) (l : Nat) :
    MemStep s.mem (s.reportClose r o l).mem := by
  unfold State.reportClose
  split
  · exact (memStep_writeResult _ _ _ (travellerWords_length ..)).trans (memStep_countClosed _)
  · exact .refl _

theorem memStep_cutPulses (s : State) (p : Pulse → Bool) (b : Bool) : MemStep s.mem (s.cutPulses p b).mem :=
  .of_keeps (kept_cutPulses s p b).keeps

theorem memStep_endPurge (s : State) : MemStep s.mem s.endPurge.mem :=
  .of_keeps (kept_endPurge s).keeps

theorem memStep_closeRecord (s : State) (p : Record → Bool) (r : Record) (o : CloseOutcome) (l : Nat) :
    MemStep s.mem (s.closeRecord p r o l).mem :=
  (memStep_reportClose s r o l).trans (memStep_cutPulses _ _ _)

theorem memStep_closeLost (n : Nat) (s : State) : MemStep s.mem (s.closeLost n).mem := by
  induction n generalizing s with
  | zero => exact .refl _
  | succ n ih =>
    unfold State.closeLost
    split
    · exact (memStep_closeRecord s _ _ _ _).trans (ih _)
    · exact .refl _

theorem memStep_loseBoards (s : State) : MemStep s.mem s.loseBoards.mem := by
  unfold State.loseBoards
  split
  · simp only [State.blocks_raiseLost]
    exact memStep_closeLost _ s
  · exact .refl _

theorem memStep_loseWaiting (s : State) : MemStep s.mem s.loseWaiting.mem := by
  unfold State.loseWaiting
  split
  · simp only [State.blocks_raiseLost]
    exact (memStep_closeRecord s _ _ _ _).trans (memStep_closeLost _ _)
  · exact .refl _

theorem memStep_bindSlot (s : State) (o : Offer) : MemStep s.mem (s.bindSlot o).mem := by
  have b := slotAt_bounds o.slot
  have length : (standingWords o).length = 16 := rfl
  unfold State.bindSlot
  dsimp only
  split
  · exact (memStep_writeBlock _ (by omega) (by omega)).trans (memStep_write _ _ (by omega) (by omega))
  · exact (memStep_write s.mem 2 (by omega) (by omega)).trans (memStep_write _ _ (by decide) (.inl (by decide)))

theorem memStep_admitBoard (s : State) (p : Pos) (o : Offer) (b : Bool) : MemStep s.mem (s.admitBoard p o b).mem := by
  simp only [State.admitBoard, State.blocks_scheduleEdges]
  exact memStep_bindSlot (s.append _) o

theorem memStep_handLeading (s : State) (p : Pos) : MemStep s.mem (s.handLeading p).mem := by
  unfold State.handLeading
  split
  · exact memStep_admitBoard s p _ _
  · exact memStep_admitBoard s p _ _
  · exact .of_eq (by simp)

theorem memStep_appendAtBar (s : State) : MemStep s.mem s.appendAtBar.mem := by
  unfold State.appendAtBar
  split
  · split
    · exact memStep_endPurge s
    · exact .refl _
  · exact .refl _

theorem memStep_clamp (s : State) (r : Record) (l : Nat) : MemStep s.mem (s.clamp r l).mem := by
  unfold State.clamp
  split
  · exact .refl _
  · exact memStep_cutPulses _ _ _

theorem memStep_takeTrail (s : State) (p : Pos) : MemStep s.mem (s.takeTrail p).mem := by
  unfold State.takeTrail
  split
  · simp only [State.blocks_topside]
    exact (memStep_clamp _ _ _).after rfl
  · exact .refl _

theorem memStep_approachBar (s : State) (n : Nat) (p : Pos) (d : Direction) : MemStep s.mem (s.approachBar n p d).mem := by
  unfold State.approachBar
  split
  · exact memStep_endPurge s
  · exact .refl _

theorem memStep_countEncoder (s : State) (d : Direction) : MemStep s.mem (s.countEncoder d).mem :=
  (memStep_approachBar _ _ _ _).after (by simp)

theorem memStep_sampleTank (s : State) (b : Bool) : MemStep s.mem (s.sampleTank b).mem := by
  cases b with
  | false => exact .of_eq (by simp [State.sampleTank])
  | true => exact (MemStep.of_keeps (kept_setTank s 0 0).keeps).trans (memStep_mirror _ _)

theorem memStep_sampleAll (s : State) (i : Readings) : MemStep s.mem (s.sampleAll i).mem := by
  unfold State.sampleAll
  simp only [State.blocks_sampleContact]
  exact (memStep_sampleTank _ _).after (by simp)

theorem memStep_takeSetup (s : State) (c : Setup) : MemStep s.mem (s.takeSetup c).mem := by
  unfold State.takeSetup
  dsimp only
  split
  · exact .refl _
  · exact memStep_write s.mem _ (by decide) (.inl (by decide))

theorem memStep_refill (s : State) (v : Nat) : MemStep s.mem (s.refill v).mem :=
  (MemStep.of_keeps (kept_setTank s v 0).keeps).trans (memStep_mirror _ _)

theorem Accepts.memory {q u : State} {c : Instr} {e : Ending} (h : Accepts q c e u) : MemStep q.mem u.mem := by
  cases h with
  | loadSetup ws => exact memStep_takeSetup _ _
  | setSequence ws => exact memStep_setExpected _ _
  | cancelDocket ws n => exact .of_keeps (kept_rejectSlot q n .cancelled).keeps
  | fluxRefilled ws => exact memStep_refill _ _
  | purgeFluxer ws => exact memStep_cutPulses _ _ _
  | _ => exact .of_eq (by simp)

/-- Memory before the consequences: the host's writes where the command makes them, then the part's. -/
theorem Effect.memory {s u : State} {c : Instr} {e : Ending} (h : Effect s c e u) :
    ∃ ws, (ws = [] ∨ ws = carriedWrites c) ∧ MemStep (hostWrites ws s.mem) u.mem := by
  have alone : MemStep s.mem u.mem → ∃ ws, (ws = [] ∨ ws = carriedWrites c) ∧ MemStep (hostWrites ws s.mem) u.mem :=
    fun m => ⟨[], .inl rfl, m⟩
  cases h with
  | encoderCount d => exact alone (memStep_countEncoder s d)
  | dropLost b => exact alone ((memStep_loseWaiting _).after (by simp))
  | dropPast b => exact alone ((memStep_loseBoards _).after (by simp))
  | entryLeading p => exact alone (((memStep_handLeading _ _).trans (memStep_appendAtBar _)).after rfl)
  | entryTrailing p =>
    simp only [State.blocks_handTrailing] at alone ⊢
    exact alone ((memStep_takeTrail _ _).after rfl)
  | exitClosed p r => exact alone ((memStep_closeRecord _ _ _ _ _).after rfl)
  | boardLost => exact alone (memStep_loseBoards s)
  | interval i ws =>
    simp only [State.blocks_intervalRaises]
    exact ⟨ws, .inr rfl, (memStep_sampleAll _ i).after (by simp [State.present])⟩
  | modulationBoundary =>
    simp only [State.blocks_startPulses, State.blocks_consumeEdges] at alone ⊢
    exact alone (((MemStep.of_keeps (kept_cutPulses _ _ _).keeps).trans (.of_keeps (kept_creditPurge _).keeps)).after (by simp))
  | lanePulseEnd k v =>
    simp only [State.blocks_holdValve] at alone ⊢
    exact alone ((MemStep.of_keeps (kept_endPulse _ _ _ _ _).keeps).after (by simp))
  | purgeDurationComplete g => exact alone ((memStep_endPurge _).after (by simp))
  | overrun c code => exact ⟨_, .inr rfl, .refl _⟩
  | refused c code q rc f hp hq => exact ⟨_, .inr rfl, .of_eq (by rw [hq.blocks.1])⟩
  | accepted c code q e u hp hq hr acc => exact ⟨_, .inr rfl, acc.memory.after (by rw [hq.blocks.1])⟩
  | _ => exact alone (.of_eq (by simp))

theorem mem_answer (t : State) (a : Answer) : (t.answer a).mem = t.mem := by
  cases a <;> rfl

theorem memStep_writeClock (s : State) : MemStep s.mem s.writeClock.mem :=
  memStep_writeBlock _ (by rw [twoWords_length]; decide) (.inl (by rw [twoWords_length]; decide))

theorem memStep_refresh (s : State) : MemStep s.mem s.refresh.mem :=
  memStep_writeBlock _ (by rw [statusBlock_length]; decide) (.inr (.inl (by rw [statusBlock_length]; decide)))

/-- Memory through the consequences. -/
theorem Ending.memory (e : Ending) (u : State) : MemStep u.mem (e.of u).mem := by
  have evaluated := MemStep.of_keeps (kept_settleEval u).keeps
  induction e with
  | still => exact .refl _
  | settled => exact .of_keeps (kept_settle u).keeps
  | evaluated => exact evaluated
  | interval => exact (evaluated.trans (memStep_writeClock _)).trans (memStep_refresh _)
  | answered e a ih => exact ih.trans (.of_eq (mem_answer _ _))

theorem memStep_of_exec {c : Instr} {s t : State} (h : exec c s = .next t) (hp : c ≠ .portReset)
    (hr : ∀ ws, c ≠ .powerOnReset ws) :
    ∃ ws, (ws = [] ∨ ws = carriedWrites c) ∧ MemStep (hostWrites ws s.mem) t.mem := by
  obtain ⟨e, u, effect, rfl⟩ := effect_of_exec h hp hr
  obtain ⟨ws, hw, m⟩ := effect.memory
  exact ⟨ws, hw, m.trans (e.memory u)⟩

/-- Settles O16: the part's own writes lie elsewhere. -/
theorem hostRecordsAreNeverWritten : Obligations.HostRecordsAreNeverWritten := by
  unfold Obligations.HostRecordsAreNeverWritten
  intro c s t h hr none a ha
  by_cases hp : c = .portReset
  · obtain ⟨t', run, clauses⟩ := portResetClosesAdmittedSlots s _ rfl
    rw [hp, run] at h
    cases h
    exact clauses.2.2.2.2.2.1 a (by omega)
  · obtain ⟨ws, hw, m⟩ := memStep_of_exec h hp hr
    have empty : ws = [] := hw.elim id fun e => e.trans none
    rw [empty] at m
    exact m.outside a (by unfold outsideWord; omega)

end Sys2Proof.Machine
end



section
/-! The canonical form of memory and its header through every step (R186, R188); O3. -/

namespace Sys2Proof.Machine

open Sys2Proof.Config

theorem freeSlots_wf (ns : List SlotIx) {m : Memory} (h : m.wf) :
    (ns.foldl (fun m n => m.write (slotAt n) 0) m).wf := by
  induction ns generalizing m with
  | nil => exact h
  | cons n ns ih =>
    have := slotAt_bounds n
    exact ih (Memory.write_wf h (by omega))

theorem powerOnMemory_wf (ws : List HostWrite) : (powerOnMemory ws).wf := by
  have header : headerAtPowerOn.length = 64 := row_length _ _
  have status : (row statusWords []).length = 512 := row_length _ _
  refine freeSlots_wf _ (Memory.writeBlock_wf (Memory.writeBlock_wf (hostWrites_wf Memory.nil_wf ws) ?_) ?_)
  · rw [header]; decide
  · rw [status]; decide

theorem abortMemory_wf {m : Memory} (n : SlotIx) (h : m.wf) : (abortMemory m n).wf := by
  unfold abortMemory
  split
  · exact ((memStep_writeResult m n 3 (emptyResult_length 3 0)).trans (memStep_countClosed _)).form h
  · exact h

theorem abortMemory_foldl_wf (ns : List SlotIx) {m : Memory} (h : m.wf) : (ns.foldl abortMemory m).wf := by
  induction ns generalizing m with
  | nil => exact h
  | cons n ns ih => exact ih (abortMemory_wf n h)

theorem tearRefresh_wf {s : State} (cut : Option (BitVec 512)) (h : s.mem.wf) : (s.tearRefresh cut).mem.wf := by
  unfold State.tearRefresh
  split
  · split
    · exact h
    · exact Memory.writeBlock_wf h (by rw [tornBlock_length]; decide)
  · exact h

theorem rebuilt_wf {s : State} (h : s.mem.wf) : s.rebuilt.mem.wf :=
  Memory.writeBlock_wf
    (Memory.write_wf ((kept_cutPulses _ _ _).keeps.memoryForm (tearRefresh_wf _ h)) (by decide))
    (by rw [twoWords_length]; decide)

/-- The canonical form through every command. -/
theorem exec_wf {c : Instr} {s t : State} (h : exec c s = .next t) (hs : s.mem.wf) : t.mem.wf := by
  by_cases hr : ∃ ws, c = .powerOnReset ws
  · obtain ⟨ws, rfl⟩ := hr
    rw [exec_powerOnReset] at h
    cases h
    have eq := resetExit_eq (s := s.powerOn ws) rfl rfl
    rw [eq]
    exact powerOnMemory_wf ws
  · by_cases hp : c = .portReset
    · obtain ⟨t', g, run, -, shape⟩ := exec_portReset_eq s
      rw [hp, run] at h
      cases h
      have mem : t.mem = allSlots.foldl abortMemory s.rebuilt.mem := by rw [shape]
      rw [mem]
      exact abortMemory_foldl_wf _ (rebuilt_wf hs)
    · obtain ⟨ws, -, m⟩ := memStep_of_exec h hp fun ws e => hr ⟨ws, e⟩
      exact m.form (hostWrites_wf hs ws)

/-- The part code and the layout version through every command. -/
theorem exec_header {c : Instr} {s t : State} (h : exec c s = .next t) (hs : HeaderFormed s) : HeaderFormed t := by
  by_cases hr : ∃ ws, c = .powerOnReset ws
  · obtain ⟨ws, rfl⟩ := hr
    obtain ⟨t', run, -, -, part, layout, -⟩ := powerOnResetWritesHeaderAndSlotStates ws s
    rw [run] at h
    cases h
    exact ⟨part, layout⟩
  · by_cases hp : c = .portReset
    · obtain ⟨t', run, clauses⟩ := portResetClosesAdmittedSlots s _ rfl
      rw [hp, run] at h
      cases h
      obtain ⟨-, -, -, -, -, outside, -⟩ := clauses
      exact ⟨(outside 0 (by omega)).trans hs.1, (outside 1 (by omega)).trans hs.2⟩
    · obtain ⟨ws, -, m⟩ := memStep_of_exec h hp fun ws e => hr ⟨ws, e⟩
      have low : ∀ a, a < 2 → t.mem.read a = s.mem.read a := fun a ha => by
        rw [m.outside a (.inl ha), hostWrites_header ws s.mem ha]
      exact ⟨(low 0 (by omega)).trans hs.1, (low 1 (by omega)).trans hs.2⟩

/-- Settles O3: through every command; time leaves memory. -/
theorem memoryFormIsKept : Obligations.MemoryFormIsKept := by
  unfold Obligations.MemoryFormIsKept
  intro s t h
  exact ⟨step_of_exec (P := fun s => s.mem.wf) (fun _ _ => id) (fun _ => id) (fun _ _ _ => exec_wf) s t h,
    step_of_exec (P := HeaderFormed) (fun _ _ => id) (fun _ => id) (fun _ _ _ => exec_header) s t h⟩

end Sys2Proof.Machine
end



section
/-! The notice register through every command (R183, R184); O58. -/

namespace Sys2Proof.Machine

open Sys2Proof.Config

/-- From port `p` to port `q` bits become pending, none is taken away, no mark is set, and a bit that becomes pending has no mark. -/
structure PortNotes (p q : Port) : Prop where
  kept : ∀ k, p.notices.getLsbD k = true → q.notices.getLsbD k = true
  marked : ∀ k, q.marks.getLsbD k = true → p.marks.getLsbD k = true
  fresh : ∀ k, p.notices.getLsbD k = false → q.notices.getLsbD k = true → q.marks.getLsbD k = false

theorem PortNotes.of_eq {p q : Port} (hn : q.notices = p.notices) (hm : q.marks = p.marks) : PortNotes p q :=
  ⟨fun _ h => hn ▸ h, fun _ h => hm ▸ h, fun k h h' => by rw [hn, h] at h'; cases h'⟩

theorem PortNotes.refl (p : Port) : PortNotes p p := .of_eq rfl rfl

theorem PortNotes.trans {p q r : Port} (h : PortNotes p q) (g : PortNotes q r) : PortNotes p r := by
  refine ⟨fun k hk => g.kept k (h.kept k hk), fun k hk => h.marked k (g.marked k hk), fun k hp hr => ?_⟩
  cases hq : q.notices.getLsbD k with
  | false => exact g.fresh k hq hr
  | true =>
    have unmarked := h.fresh k hp hq
    cases hm : r.marks.getLsbD k with
    | false => rfl
    | true => rw [g.marked k hm] at unmarked; cases unmarked

theorem portNotes_notify (p : Port) (n : Notice) : PortNotes p (p.notify n) := by
  have notices : ∀ k, (p.notify n).notices.getLsbD k = (p.notices.getLsbD k || n.mask.getLsbD k) := fun k => by
    simp [Port.notify]
  have marks : ∀ k, (p.notify n).marks.getLsbD k = true → p.marks.getLsbD k = true ∧ n.mask.getLsbD k = false := fun k h => by
    simp only [Port.notify, BitVec.getLsbD_and, BitVec.getLsbD_not, Bool.and_eq_true, Bool.not_eq_true'] at h
    exact ⟨h.1, h.2.2⟩
  refine ⟨fun k h => by rw [notices, h]; rfl, fun k h => (marks k h).1, fun k h h' => ?_⟩
  rw [notices, h, Bool.false_or] at h'
  cases hm : (p.notify n).marks.getLsbD k with
  | false => rfl
  | true => rw [(marks k hm).2] at h'; cases h'

theorem portNotes_notifyIf (p : Port) (b : Bool) (n : Notice) : PortNotes p (p.notifyIf b n) := by
  cases b
  · exact .refl p
  · exact portNotes_notify p n

/-- The notices of a state through an operation. -/
def Notes (s t : State) : Prop :=
  PortNotes s.port t.port

theorem Notes.of_port {s t : State} (h : t.port = s.port) : Notes s t :=
  .of_eq (by rw [h]) (by rw [h])

theorem Notes.refl (s : State) : Notes s s := PortNotes.refl _

theorem Notes.trans {s t u : State} (h : Notes s t) (g : Notes t u) : Notes s u := PortNotes.trans h g

theorem Notes.after {s t u : State} (h : Notes t u) (e : t.port = s.port) : Notes s u := (Notes.of_port e).trans h

theorem PortNotes.after {p q r : Port} (h : PortNotes q r) (g : PortNotes p q) : PortNotes p r := g.trans h

theorem Notes.afterNotes {s t u : State} (h : Notes t u) (g : PortNotes s.port t.port) : Notes s u := PortNotes.trans g h

theorem portNotes_formLine (p : Port) : PortNotes p p.formLine := .of_eq rfl rfl

theorem notes_setTank (s : State) (c r : Nat) : Notes s (s.setTank c r) := portNotes_notifyIf _ _ _

theorem notes_endPulse (s : State) (k : Idx8) (u : Pulse) (n : Nat) (b : Bool) : Notes s (s.endPulse k u n b) :=
  (notes_setTank _ _ _).after rfl

theorem notes_cutPulse (s : State) (p : Pulse → Bool) (b : Bool) (k : Idx8) : Notes s (s.cutPulse p b k) := by
  unfold State.cutPulse
  split
  · split
    · exact notes_endPulse s _ _ _ _
    · exact .refl s
  · exact .refl s

theorem notes_foldl {α : Type} {f : State → α → State} (h : ∀ s a, Notes s (f s a)) (l : List α) (s : State) :
    Notes s (l.foldl f s) := by
  induction l generalizing s with
  | nil => exact .refl s
  | cons a l ih => exact (h s a).trans (ih _)

theorem notes_cutPulses (s : State) (p : Pulse → Bool) (b : Bool) : Notes s (s.cutPulses p b) :=
  notes_foldl (fun s k => notes_cutPulse s p b k) allIdx8 s

theorem notes_creditPurge (s : State) : Notes s s.creditPurge := by
  unfold State.creditPurge
  split
  · exact .refl s
  · exact (notes_setTank _ _ _).after rfl

theorem notes_endPurge (s : State) : Notes s s.endPurge := by
  unfold State.endPurge
  split
  · exact .refl s
  · exact (notes_creditPurge s).trans (portNotes_notify _ _)

theorem notes_beginInhibit (s : State) : Notes s s.beginInhibit :=
  (notes_cutPulses s _ _).trans (notes_endPurge _)

theorem notes_enterMode (s : State) (m : Mode) : Notes s (s.enterMode m) := by
  unfold State.enterMode
  split
  · exact .refl s
  · exact portNotes_notify _ _

theorem notes_modeStage (s : State) : Notes s s.modeStage := by
  unfold State.modeStage
  split
  · exact notes_enterMode s _
  · split
    · exact notes_enterMode s _
    · exact .refl s

theorem notes_reformInhibit (s : State) : Notes s s.reformInhibit := by
  unfold State.reformInhibit
  dsimp only
  split
  · exact notes_beginInhibit s
  · exact .refl s

theorem Move.notes {s t : State} (m : Move s t) : Notes s t := by
  cases m with
  | mode => exact notes_modeStage s
  | fans => exact portNotes_notifyIf _ _ _
  | inhibit => exact notes_reformInhibit s
  | line => exact .of_eq rfl rfl
  | reject n r => exact portNotes_notify _ _
  | holds => exact portNotes_notifyIf _ _ _
  | _ => exact .of_port (by simp)

theorem Moves.notes {s t : State} (m : Moves s t) : Notes s t :=
  m.lift (R := Notes) .refl .trans Move.notes

/-! ## The effects -/

theorem notes_raiseCause (s : State) (c : HaltCause) : Notes s (s.raiseCause c) := by
  unfold State.raiseCause
  split
  · exact .refl s
  · dsimp only
    split
    · exact (notes_enterMode _ _).afterNotes (portNotes_notify _ _)
    · exact portNotes_notify _ _

theorem notes_raiseIf (s : State) (b : Bool) (c : HaltCause) : Notes s (s.raiseIf b c) := by
  cases b
  · exact .refl s
  · exact notes_raiseCause s c

theorem notes_trackFault (s : State) : Notes s s.trackFault :=
  (portNotes_notify s.port .trackFault).trans (notes_raiseIf (s.notify .trackFault) s.ws.stopOnFault .trackFault)

theorem notes_setOverflow (s : State) : Notes s s.setOverflow := (notes_trackFault _).after rfl

theorem notes_setPhantom (s : State) : Notes s s.setPhantom := (notes_trackFault _).after rfl

theorem notes_reportClose (s : State) (r : Record) (o : CloseOutcome) (l : Nat) : Notes s (s.reportClose r o l) := by
  unfold State.reportClose
  split
  · exact portNotes_notify _ _
  · exact portNotes_notify _ _

theorem notes_closeRecord (s : State) (p : Record → Bool) (r : Record) (o : CloseOutcome) (l : Nat) :
    Notes s (s.closeRecord p r o l) :=
  (notes_reportClose s r o l).trans (notes_cutPulses _ _ _)

theorem notes_closeLost (n : Nat) (s : State) : Notes s (s.closeLost n) := by
  induction n generalizing s with
  | zero => exact .refl s
  | succ n ih =>
    unfold State.closeLost
    split
    · exact (notes_closeRecord s _ _ _ _).trans (ih _)
    · exact .refl s

theorem notes_raiseLost (s : State) : Notes s s.raiseLost :=
  (notes_modeStage s).trans (notes_raiseCause _ _)

theorem notes_loseBoards (s : State) : Notes s s.loseBoards := by
  unfold State.loseBoards
  split
  · exact (notes_closeLost _ s).trans (notes_raiseLost _)
  · exact .refl s

theorem notes_loseWaiting (s : State) : Notes s s.loseWaiting := by
  unfold State.loseWaiting
  split
  · exact ((notes_closeRecord s _ _ _ _).trans (notes_closeLost _ _)).trans (notes_raiseLost _)
  · exact .refl s

theorem notes_handLeading (s : State) (p : Pos) : Notes s (s.handLeading p) := by
  unfold State.handLeading
  split
  · exact .of_port (by simp)
  · exact .of_port (by simp)
  · exact (portNotes_notify s.port .intruder)

theorem notes_appendAtBar (s : State) : Notes s s.appendAtBar := by
  unfold State.appendAtBar
  split
  · split
    · exact notes_endPurge s
    · exact .refl s
  · exact .refl s

theorem notes_clamp (s : State) (r : Record) (l : Nat) : Notes s (s.clamp r l) := by
  unfold State.clamp
  split
  · exact .refl s
  · exact notes_cutPulses s _ _

theorem notes_takeTrail (s : State) (p : Pos) : Notes s (s.takeTrail p) := by
  unfold State.takeTrail
  split
  · simp only [Notes, State.blocks_topside]
    exact (notes_clamp _ _ _).after rfl
  · exact .refl s

theorem notes_approachBar (s : State) (n : Nat) (p : Pos) (d : Direction) : Notes s (s.approachBar n p d) := by
  unfold State.approachBar
  split
  · exact notes_endPurge s
  · exact .refl s

theorem notes_sampleLevel (s : State) (r : Option Int) : Notes s (s.sampleLevel r) := by
  unfold State.sampleLevel
  split
  · exact .refl s
  · exact .refl s
  · exact portNotes_notify _ _
  · exact .refl s

theorem notes_sampleTank (s : State) (b : Bool) : Notes s (s.sampleTank b) := by
  cases b with
  | false => exact .of_port rfl
  | true => exact (notes_setTank s 0 0).trans (.of_port rfl)

theorem notes_sampleAll (s : State) (i : Readings) : Notes s (s.sampleAll i) := by
  unfold State.sampleAll
  simp only [Notes, State.blocks_sampleContact]
  have pressure : ∀ t : State, Notes t (t.samplePressure i.pressure) := fun _ => .of_port rfl
  exact (((notes_sampleLevel _ _).after (by simp)).trans (pressure _)).trans (notes_sampleTank _ _)

theorem notes_intervalRaises (s : State) : Notes s s.intervalRaises :=
  (((notes_raiseIf s _ _).trans (notes_raiseIf _ _ _)).trans (notes_raiseIf _ _ _)).trans (notes_raiseIf _ _ _)

theorem notes_testLimit (s : State) (k : Idx8) : Notes s (s.testLimit k) := by
  unfold State.testLimit
  exact (notes_raiseIf _ _ _).after (by simp)

theorem notes_faultWidth (s : State) : Notes s s.faultWidth := by
  unfold State.faultWidth
  exact (notes_raiseCause _ _).after rfl

theorem notes_superviseLimit (s : State) : Notes s s.superviseLimit := by
  unfold State.superviseLimit
  split
  · exact notes_faultWidth s
  · exact .refl s

theorem notes_wakeOn (s : State) (b : Bool) : Notes s (s.wakeOn b) := by
  unfold State.wakeOn
  split
  · exact notes_enterMode s _
  · exact .refl s

theorem notes_advance (s : State) (n : Nat) : Notes s (s.advance n) := .of_eq rfl rfl

theorem Accepts.notes {q u : State} {c : Instr} {e : Ending} (h : Accepts q c e u) : Notes q u := by
  cases h with
  | loadSetup ws => unfold State.takeSetup; dsimp only; split <;> exact .of_eq rfl rfl
  | start ws => exact (notes_enterMode _ _).after rfl
  | shutdown ws => exact notes_enterMode q _
  | shutdownHalted ws => exact notes_enterMode q _
  | stop ws => exact notes_raiseCause q _
  | clear ws => 
    unfold State.leaveHalt
    split
    · exact (notes_enterMode _ _).after (by simp)
    · exact .of_port (by simp)
  | economy ws => exact notes_enterMode q _
  | wake ws => exact notes_enterMode q _
  | cancelDocket ws n => exact portNotes_notify _ _
  | ackAlarms ws => exact portNotes_notifyIf _ _ _
  | fluxRefilled ws => exact (notes_setTank q (refillVolume q) 0)
  | purgeFluxer ws => exact notes_cutPulses q _ _
  | _ => exact .of_port (by simp)

/-- A command other than the two on NOTICE adds notices alone before its consequences. -/
theorem Effect.notes {s u : State} {c : Instr} {e : Ending} (h : Effect s c e u) (hr : c ≠ .noticeRead)
    (hw : ∀ v, c ≠ .noticeWrite v) : Notes s u := by
  cases h with
  | noticeRead => exact absurd rfl hr
  | noticeWrite v => exact absurd rfl (hw v)
  | encoderCount d => exact (notes_approachBar _ _ _ _).after (by simp)
  | dropLost b => exact (notes_loseWaiting _).after (by simp)
  | dropPast b => exact (notes_loseBoards _).after (by simp)
  | overflow p => exact (notes_setOverflow _).after rfl
  | phantom p => exact (notes_setPhantom _).after rfl
  | entryLeading p => exact ((notes_handLeading _ _).trans (notes_appendAtBar _)).after rfl
  | entryTrailing p =>
    simp only [Notes, State.blocks_handTrailing]
    exact (notes_takeTrail _ _).after rfl
  | exitPhantom p =>
    simp only [Notes, State.blocks_testStop, State.blocks_outfeedEdge]
    exact (notes_setPhantom _).after rfl
  | exitClosed p r => exact (notes_closeRecord _ _ _ _ _).after rfl
  | entryJam => exact (notes_raiseCause _ _).after rfl
  | boardLost => exact notes_loseBoards s
  | interval i ws => exact ((notes_sampleAll _ _).trans (notes_intervalRaises _)).afterNotes (.of_eq rfl rfl)
  | inputFault k => exact (notes_raiseIf _ _ _).after (by simp)
  | inputRecovery k => exact (notes_testLimit _ _).after rfl
  | inputFillingEnd k => exact ((notes_raiseIf _ _ _).trans (notes_testLimit _ _)).after rfl
  | conveyorSpeed => exact (notes_raiseCause _ _).after rfl
  | levelInputRecovered => exact portNotes_notify _ _
  | levelFlagChange f => exact (notes_raiseIf _ _ _).afterNotes (portNotes_notify _ _)
  | fluxPressure => exact portNotes_notify _ _
  | alarmActivation k => exact portNotes_notify _ _
  | alarmSeverityRise k => exact portNotes_notify _ _
  | alarmEscalation k => exact portNotes_notify _ _
  | alarmClear k => exact portNotes_notify _ _
  | vapourHalt => exact notes_raiseCause s _
  | heaterPeriodBoundary => exact .of_eq rfl rfl
  | heaterOutputSwitch k m => exact .of_eq rfl rfl
  | modulationBoundary =>
    simp only [Notes, State.blocks_startPulses, State.blocks_consumeEdges]
    exact ((notes_cutPulses _ _ _).trans (notes_creditPurge _)).afterNotes (.of_eq rfl rfl)
  | lanePulseEnd k v =>
    simp only [Notes, State.blocks_holdValve]
    exact (notes_endPulse _ _ _ _ _).afterNotes (.of_eq rfl rfl)
  | purgeDurationComplete g => exact (notes_advance s _).trans (notes_endPurge _)
  | feederShotComplete r => exact .of_eq rfl rfl
  | feederSettlingComplete r => 
    exact ((portNotes_formLine _).after (portNotes_notifyIf _ _ _)).after (.of_eq (p := s.port) (q := (s.advance r).port) rfl rfl)
  | shotHistoryExpiry x l => exact .of_eq rfl rfl
  | widthMotionStart => exact (notes_superviseLimit _).after rfl
  | homingTravelExceeded => exact notes_faultWidth s
  | widthLimitFault e => exact (notes_faultWidth _).after rfl
  | homeSwitchFault => exact (notes_faultWidth _).after rfl
  | thermostatContactOpen => exact (notes_raiseCause _ _).after rfl
  | estopInputActive => exact (notes_raiseCause _ _).after rfl
  | heatAuthInvalid v => exact (notes_raiseCause _ _).after rfl
  | upstreamAvailableChange b => exact (notes_wakeOn _ _).after rfl
  | endSensorEvent p => 
    simp only [Notes, State.blocks_acceptSensor]
    exact notes_advance s _
  | idleTimerExpiry r => exact (notes_advance s r).trans (notes_enterMode _ _)
  | runOnTimerExpiry r => exact .of_eq rfl rfl
  | startGraceEnd x r => exact .of_eq rfl rfl
  | supervisionExpired => exact (portNotes_notify _ .supervisionExpired).after (.of_eq rfl rfl)
  | warmupComplete => exact notes_enterMode s _
  | overrun c code => exact .of_eq rfl rfl
  | refused c code q rc f hp hq => exact .of_eq hq.blocks.2.2.1 hq.blocks.2.2.2
  | accepted c code q e u hp hq hr acc => exact acc.notes.afterNotes (.of_eq hq.blocks.2.2.1 hq.blocks.2.2.2)
  | requestOverrun code => refine .of_eq ?_ ?_ <;> dsimp only <;> split <;> rfl
  | noticeEnWrite v => exact .of_eq rfl rfl
  | posRead x => exact .of_eq rfl rfl
  | hostAliveWrite v => exact .of_eq rfl rfl
  | _ => exact .of_port (by simp)

theorem portNotes_answer (p : Port) (a : Answer) : PortNotes p (p.answer a).formLine := by
  cases a with
  | done => exact ((portNotes_formLine _).after (portNotes_notify _ _)).after (.of_eq rfl rfl)
  | refused code field => exact ((portNotes_formLine _).after (portNotes_notify _ _)).after (.of_eq rfl rfl)

theorem notes_refresh (t : State) : Notes t t.writeClock.refresh := .of_eq rfl rfl

theorem Ending.notes (e : Ending) (u : State) : Notes u (e.of u) := by
  have evaluated := (moves_settleEval u).notes
  induction e with
  | still => exact .refl u
  | settled => exact (moves_settle u).notes
  | evaluated => exact evaluated
  | interval => exact evaluated.trans (notes_refresh u.settleEval)
  | answered e a ih => exact ih.trans (portNotes_answer _ a)

theorem noticeStep_of_notes {c : Instr} {s t : State} (h : Notes s t) : NoticeStep c s t :=
  ⟨fun _ => h.kept, fun _ => h.marked, h.fresh⟩

/-- Every command's step on the notice register. -/
theorem noticeStep_of_exec {c : Instr} {s t : State} (h : exec c s = .next t) (hp : c ≠ .portReset)
    (hr : ∀ ws, c ≠ .powerOnReset ws) : NoticeStep c s t := by
  by_cases read : c = .noticeRead
  · subst read
    cases h
    refine ⟨fun _ _ hk => hk, fun hc => absurd rfl hc, fun k hk hk' => ?_⟩
    have : s.port.notices.getLsbD k = true := hk'
    rw [hk] at this
    cases this
  · by_cases write : ∃ v, c = .noticeWrite v
    · obtain ⟨v, rfl⟩ := write
      cases h
      exact ⟨fun hc => absurd rfl (hc v), fun _ k hk => by simp [Port.writeNotice, Port.formLine] at hk,
        fun k _ _ => by simp [Port.writeNotice, Port.formLine]⟩
    · obtain ⟨e, u, effect, rfl⟩ := effect_of_exec h hp hr
      exact noticeStep_of_notes ((effect.notes read fun v hv => write ⟨v, hv⟩).trans (e.notes u))

/-- Settles O58: the register's own commands by their definitions, every command by its effect. -/
theorem noticeRegisterReadsMarksAndClears : Obligations.NoticeRegisterReadsMarksAndClears := by
  unfold Obligations.NoticeRegisterReadsMarksAndClears
  refine ⟨fun c s t => noticeStep_of_exec, fun s => ⟨rfl, fun v => ⟨_, rfl, fun k hk => ?_, line_iff _, rfl⟩,
    fun v => ⟨_, rfl, line_iff _, rfl⟩⟩⟩
  show (s.port.notices &&& (v.setWidth 11 ||| ~~~s.port.marks)).getLsbD k = _
  simp [hk]

end Sys2Proof.Machine
end



section
/-! The accepted edges that create no record of a board (1.5, 1.7): the sticky flags and the intruder: O22, O24. -/

namespace Sys2Proof.Machine

open Sys2Proof.Config

/-! ## The acceptance of an eye's change (R4) -/

theorem eyeDue_of_ready {s : State} {e : Eye} {p : Pos} (h : EyeReady s e p) : eyeDue s e = some p := by
  obtain ⟨hp, due⟩ := h
  unfold eyeDue
  rw [hp]
  exact if_pos due

theorem exec_eyeChangeAccepted {s : State} {e : Eye} {p : Pos} (h : EyeReady s e p) :
    exec (.eyeChangeAccepted e) s = .next (s.acceptEye e p) := by
  change Host.Outcome.next (match eyeDue s e with | some p => s.acceptEye e p | none => s) = _
  rw [eyeDue_of_ready h]

/-- The state in which an edge of eye `e` is delivered. -/
def State.accepted (s : State) (e : Eye) : State :=
  { s with track := s.track.setEye e (s.track.eye e).accept }

theorem acceptEye_entryLeading {s : State} (h : s.track.entryEye.accepted = false) (p : Pos) :
    s.acceptEye .entry p = (s.accepted .entry).entryLeading p := by
  have e : (s.track.eye .entry).accepted = false := h
  unfold State.acceptEye
  rw [e]
  rfl

theorem accepted_leading {q : Qualifier} (h : q.accepted = false) :
    q.accept = { accepted := true, pendingAt := none, count := q.count + 1 } := by
  simp [Qualifier.accept, h]

theorem accepted_trailing {q : Qualifier} (h : q.accepted = true) :
    q.accept = { accepted := false, pendingAt := none, count := q.count + 1 } := by
  simp [Qualifier.accept, h]

/-- The edge is out of order exactly where it does not lie strictly after the newest lead (R12). -/
theorem outOfOrder_iff (t : Track) (p : Pos) :
    outOfOrder t p = true ↔ ∃ r, t.records.getLast? = some r ∧ strictlyAfter p r.lead = false := by
  unfold outOfOrder Track.newest
  cases t.records.getLast? <;> simp

/-! ## Sticky flags (R18) -/

/-- What the setting of a sticky flag and the re-forming rules leave. -/
structure FlagSettles (s t : State) : Prop where
  halts : s.ws.stopOnFault = true → Halts s t .trackFault
  causes : s.ws.stopOnFault = false → t.modes.causes = s.modes.causes
  notice : Pending t .trackFault
  kept : Kept (s.causesOf t) t

theorem halts_ext {s s' t : State} {c : HaltCause} (h : Halts s' t c) (e : s'.modes = s.modes) : Halts s t c :=
  ⟨by rw [h.causes, e], fun x y => h.mode (by rw [e]; exact x) (by rw [e]; exact y), fun x => h.notice (by rw [e]; exact x)⟩

theorem kept_trackFault (s : State) : Kept (s.causesOf s.trackFault) s.trackFault :=
  Kept.trans (t := (s.notify .trackFault).causesOf s.trackFault) (Kept.of_core rfl rfl)
    (kept_raiseIf (s.notify .trackFault) s.ws.stopOnFault .trackFault)

/-- The consequences of a step leave what a raise has brought. -/
theorem Halts.settle {s u : State} {c : HaltCause} (h : Halts s u c) : Halts s u.settle c := by
  refine ⟨?_, fun x y => ?_, fun x => (follows_settle u).notices _ (h.notice x)⟩
  · rw [(kept_settle u).keeps.modesCauses]; exact h.causes
  · have e := h.mode x y
    rw [(settle_mode_stays (by simp [e]) (by simp [e])).1, e]

/-- The flag, what else the command does outside the modes and the port, and the consequences of the step. -/
theorem flagSettles_settle {s u : State} (hm : u.modes = s.trackFault.modes) (hp : u.port = s.trackFault.port)
    (k : Kept s.trackFault u) : FlagSettles s u.settle := by
  have raised : s.trackFault = (s.notify .trackFault).raiseIf s.ws.stopOnFault .trackFault := rfl
  have causes : u.settle.modes.causes = s.trackFault.modes.causes := (kept_settle u).keeps.modesCauses.trans (by rw [hm])
  refine ⟨fun h => ?_, fun h => ?_, ?_, ?_⟩
  · have e : s.trackFault = (s.notify .trackFault).raiseCause .trackFault := by rw [raised]; exact if_pos h
    have r := halts_raiseCause (s.notify .trackFault) .trackFault
    rw [e] at hm hp
    refine Halts.settle ⟨by rw [hm]; exact r.causes, fun x y => by rw [hm]; exact r.mode x y, fun x => ?_⟩
    unfold Pending
    rw [hp]
    exact r.notice x
  · have e : s.trackFault = s.notify .trackFault := by rw [raised]; exact if_neg (by simp [h])
    rw [causes, e]
    rfl
  · refine (follows_settle u).notices _ ?_
    rw [hp, raised]
    exact (raises_raiseIf (s.notify .trackFault) s.ws.stopOnFault .trackFault).notices _
      (notify_pending s.port .trackFault)
  · have e : s.causesOf u.settle = s.causesOf s.trackFault := by unfold State.causesOf; rw [causes]
    rw [e]
    exact ((kept_trackFault s).trans k).trans (kept_settle u)

theorem trackFault_settles (s : State) : FlagSettles s s.trackFault.settle := flagSettles_settle rfl rfl (.refl _)

/-- A flag that is set on the state `b` leaves what it names, of a state `s` with the same modes and setup. -/
theorem FlagSettles.of_same {s b t : State} (h : FlagSettles b t) (hm : b.modes = s.modes) (hs : b.ws = s.ws) :
    (s.ws.stopOnFault = true → Halts s t .trackFault) ∧ (s.ws.stopOnFault = false → t.modes.causes = s.modes.causes) ∧
      Pending t .trackFault ∧ Keeps (b.causesOf t) t :=
  ⟨fun x => halts_ext (h.halts (hs ▸ x)) hm, fun x => (h.causes (hs ▸ x)).trans (by rw [hm]), h.notice, h.kept.keeps⟩

/-- The track that owns no record of the edge and has its flag: LIST_OVERFLOW with a full list, else PHANTOM. -/
def State.untracked (s : State) : State :=
  { s with
    track :=
      { s.track with
        owner := false
        overflow := s.track.overflow || decide (16 ≤ s.track.records.length)
        phantom := s.track.phantom || decide (s.track.records.length < 16) } }

/-- The edge finds no room, or is out of order: the flag, on the track that has accepted the change and owns no record. -/
theorem entryLeading_untracked (s : State) (p : Pos)
    (h : 16 ≤ s.track.records.length ∨ outOfOrder s.track p = true) :
    s.entryLeading p = s.untracked.trackFault.settle := by
  unfold State.untracked
  unfold State.entryLeading
  by_cases full : listMax ≤ s.track.records.length
  · rw [if_pos full, decide_eq_true (p := 16 ≤ _) full, decide_eq_false (p := _ < 16) (Nat.not_lt.mpr full),
      Bool.or_true, Bool.or_false]
    rfl
  · rw [if_neg full, if_pos (h.resolve_left full), decide_eq_false (p := 16 ≤ _) full,
      decide_eq_true (p := _ < 16) (Nat.lt_of_not_le full), Bool.or_true, Bool.or_false]
    rfl

/-- Settles O24: each of the two edges that R12 discards sets its flag, on the state that has accepted the change. -/
theorem untrackedLeadingEdgeSetsAStickyFlag : Obligations.UntrackedLeadingEdgeSetsAStickyFlag := by
  intro s p ha ready hc
  obtain ⟨a, hac⟩ : ∃ a : State, a = { s with
    track := { s.track with
      entryEye := { accepted := true, pendingAt := none, count := s.track.entryEye.count + 1 } } } := ⟨_, rfl⟩
  have eye : s.accepted .entry = a :=
    hac ▸ congrArg (fun q => { s with track := { s.track with entryEye := q } }) (accepted_leading ha)
  have run : exec (.eyeChangeAccepted .entry) s = .next (a.entryLeading p) := by
    rw [exec_eyeChangeAccepted ready, acceptEye_entryLeading ha, eye]
  have untracked : 16 ≤ a.track.records.length ∨ outOfOrder a.track p = true := by
    rw [hac]; exact hc.imp id (outOfOrder_iff s.track p).mpr
  rw [entryLeading_untracked a p untracked] at run
  have st := trackFault_settles a.untracked
  obtain ⟨t, ht⟩ : ∃ t, a.untracked.trackFault.settle = t := ⟨_, rfl⟩
  rw [ht] at run st
  subst hac
  exact ⟨t, run, st.of_same rfl rfl⟩

/-! ## A record that joins the list (R12, R48) -/

/-- A frame may name any records of the same cores. -/
theorem Kept.withCores {b t : State} (h : Kept b t) {rs : List Record}
    (e : rs.map Record.core = b.track.records.map Record.core) :
    Kept { b with track := { b.track with records := rs } } t := by
  refine ⟨?_, h.mem⟩
  rw [h.core]
  have c : State.core { b with track := { b.track with records := rs } } =
      { b.core with track := { b.core.track with records := rs.map Record.core } } := rfl
  rw [c, e]
  rfl

theorem kept_appendAtBar (s : State) : Kept s s.appendAtBar := by
  unfold State.appendAtBar
  split
  · exact (kept_endPurge s).ite (.refl s)
  · exact .refl s

theorem follows_appendAtBar (s : State) : Follows s s.appendAtBar := by
  unfold State.appendAtBar
  split
  · exact (follows_endPurge s).ite (.refl s)
  · exact .refl s

/-- The last of the records that a step leaves, where the state before ended with `r`. -/
theorem Kept.tail {b t : State} (h : Kept b t) {rs : List Record} {r : Record} (e : b.track.records = rs ++ [r]) :
    ∃ qs q, t.track.records = qs ++ [q] ∧ qs.map Record.core = rs.map Record.core ∧ q.core = r.core := by
  have c : t.track.records.map Record.core = rs.map Record.core ++ [r.core] := by
    refine (show t.track.records.map Record.core = b.track.records.map Record.core from h.keeps.trackRecords).trans ?_
    rw [e, List.map_append, List.map_singleton]
  obtain ⟨qs, ys, ht, hq, hy⟩ := List.map_eq_append_iff.mp c
  obtain ⟨q, rfl, hr⟩ := List.map_eq_singleton_iff.mp hy
  exact ⟨qs, q, ht, hq, hr⟩

theorem Record.place_of_core {q r : Record} (h : q.core = r.core) : q.place = r.place :=
  show q.core.place = r.core.place from congrArg Record.place h

/-- With room and in order, the edge goes to the gate (R12). -/
theorem entryLeading_handed {s : State} {p : Pos} (room : s.track.records.length < 16)
    (order : ∀ r, s.track.records.getLast? = some r → strictlyAfter p r.lead = true) :
    s.entryLeading p = (s.handLeading p).appendAtBar.settleEval := by
  have inOrder : outOfOrder s.track p ≠ true := fun h => by
    obtain ⟨r, hr, hs⟩ := (outOfOrder_iff s.track p).mp h
    rw [order r hr] at hs
    cases hs
  unfold State.entryLeading
  rw [if_neg (Nat.not_le.mpr room : ¬ listMax ≤ _), if_neg inOrder]

theorem handLeading_closed {s : State} (h : s.gate.state = .closed) (p : Pos) : s.handLeading p = s.intrude p := by
  unfold State.handLeading
  rw [h]

/-- Settles O22: the intruder is appended on the state that has accepted the edge; what follows keeps the record, and a CLOSED
gate with a blocked eye. -/
theorem leadingEdgeInClosedMakesAnIntruder : Obligations.LeadingEdgeInClosedMakesAnIntruder := by
  intro s p ha ready room order closed
  have run : exec (.eyeChangeAccepted .entry) s =
      .next (((s.accepted .entry).intrude p).appendAtBar.settleEval) := by
    have handed := handLeading_closed (s := s.accepted .entry) closed p
    have led := entryLeading_handed (s := s.accepted .entry) room order
    rw [exec_eyeChangeAccepted ready, acceptEye_entryLeading ha, led, handed]
  obtain ⟨a, hb⟩ : ∃ b, (s.accepted .entry).intrude p = b := ⟨_, rfl⟩
  rw [hb] at run
  have kept : Kept a a.appendAtBar.settleEval := (kept_appendAtBar a).trans (kept_settleEval _)
  have follows : Follows a a.appendAtBar.settleEval := (follows_appendAtBar a).trans (follows_settleEval _)
  obtain ⟨t, ht⟩ : ∃ t, a.appendAtBar.settleEval = t := ⟨_, rfl⟩
  rw [ht] at run kept follows
  have eye : a.track.entryEye = { accepted := true, pendingAt := none, count := s.track.entryEye.count + 1 } := by
    rw [← hb]; exact accepted_leading ha
  have records : a.track.records = s.track.records ++ [newRecord s p .intruder none false] := by rw [← hb]; rfl
  obtain ⟨qs, q, hq, cores, core⟩ := kept.tail records
  have k := kept.keeps
  have pend : Pending a .intruder := by rw [← hb]; exact notify_pending _ .intruder
  have last : t.track.records.getLast? = some q := by rw [hq]; simp
  have ordinal : a.track.ordinal = s.track.ordinal + 1 := by rw [← hb]; rfl
  refine ⟨t, run, ?_, ?_, k.trackOrdinal.trans ordinal, k.trackOwner.trans (by rw [← hb]; rfl),
    k.trackEntryEye.trans eye, k.trackExitEye.trans (by rw [← hb]; rfl), k.trackPos.trans (by rw [← hb]; rfl),
    k.trackOverflow.trans (by rw [← hb]; rfl), k.trackPhantom.trans (by rw [← hb]; rfl),
    follows.closed (by rw [← hb]; exact closed) (by rw [eye]), follows.notices _ pend, ?_⟩
  · rw [hq, List.map_append, places_of_core cores, List.map_singleton, Record.place_of_core core]
    rfl
  · rw [last]
    exact congrArg (fun r : Record => some (r.entryTime, r.length, r.topside)) core
  · have cs : (s.track.records ++ [q]).map Record.core = a.track.records.map Record.core := by
      rw [records, List.map_append, List.map_append, List.map_singleton, List.map_singleton, core]
    have accepted : a.track.entryEye = s.track.entryEye.accept := by rw [← hb]; rfl
    rw [last, k.trackEntryEye, k.trackOrdinal, ordinal, accepted]
    have w := kept.withCores cs
    subst hb
    refine Kept.keeps (Kept.trans (Kept.of_core ?_ ?_) w) <;> rfl

end Sys2Proof.Machine
end



section
/-! The exit leading edge (1.6, 9.1): O26. -/

namespace Sys2Proof.Machine

open Sys2Proof.Config

theorem acceptEye_exitLeading {s : State} (h : s.track.exitEye.accepted = false) (p : Pos) :
    s.acceptEye .exit p = (s.accepted .exit).exitLeading p := by
  have e : (s.track.eye .exit).accepted = false := h
  unfold State.acceptEye
  rw [e]
  rfl

theorem acceptEye_exitTrailing {s : State} (h : s.track.exitEye.accepted = true) (p : Pos) :
    s.acceptEye .exit p = (s.accepted .exit).exitTrailing p := by
  have e : (s.track.eye .exit).accepted = true := h
  unfold State.acceptEye
  rw [e]
  rfl

theorem inExitWindow_iff (s : State) (r : Record) (p : Pos) : inExitWindow s r p = true ↔ InExitWindow s r p := by
  simp [inExitWindow, InExitWindow, expectedExit]

/-- The outfeed's part in an exit leading edge (R154, R158). -/
def State.exitEdge (s : State) : State :=
  s.outfeedEdge.testStop

theorem kept_exitEdge (s : State) : Kept s s.exitEdge := Kept.of_core rfl rfl

/-- R154: an EMPTY outfeed is LOADING after the edge. -/
theorem exitEdge_loading {s : State} (h : s.outfeed.state = .empty) : s.exitEdge.settle.outfeed.state = .loading := by
  have loading : s.exitEdge.outfeed.state = .loading := if_pos h
  rcases (follows_settle s.exitEdge).outfeed with e | ⟨e, -⟩ | ⟨e, -⟩
  · rw [e, loading]
  · rw [loading] at e; cases e
  · rw [loading] at e; cases e

/-- The candidate is matched (R15). -/
theorem exitLeading_matched {s : State} {p : Pos} {r : Record} (hr : exitCandidate s.track.records = some r)
    (h : InExitWindow s r p) : s.exitLeading p = (s.matchExit r p).exitEdge.settle := by
  unfold State.exitLeading
  rw [hr]
  exact congrArg (fun u : State => u.exitEdge.settle) (if_pos ((inExitWindow_iff s r p).mpr h))

/-- Nothing is matched (R15). -/
theorem exitLeading_phantom {s : State} {p : Pos}
    (h : ∀ r, exitCandidate s.track.records = some r → ¬ InExitWindow s r p) :
    s.exitLeading p = s.setPhantom.exitEdge.settle := by
  unfold State.exitLeading
  cases hr : exitCandidate s.track.records with
  | none => rfl
  | some r =>
    exact congrArg (fun u : State => u.exitEdge.settle)
      (if_neg fun w => h r hr ((inExitWindow_iff s r p).mp w))

theorem causesOf_same {s t : State} (h : t.modes.causes = s.modes.causes) : s.causesOf t = s := by
  unfold State.causesOf; rw [h]

/-- A frame may name the exit eye, PHANTOM and the records that the step leaves. -/
theorem Kept.withExit {b t : State} (h : Kept b t) :
    Kept { b with track := { b.track with
      exitEye := t.track.exitEye, phantom := t.track.phantom, records := t.track.records } } t := by
  rw [h.keeps.trackExitEye, h.keeps.trackPhantom]
  exact h.withRecords

/-- What of a record no consequence changes is the same in lists of the same cores. -/
theorem map_of_core {α : Type} {rs qs : List Record} (h : qs.map Record.core = rs.map Record.core) (f : Record → α)
    (hf : ∀ r, f r.core = f r := by exact fun _ => rfl) : qs.map f = rs.map f := by
  have e : ∀ l : List Record, l.map f = (l.map Record.core).map f := fun l => by
    rw [List.map_map]; exact List.map_congr_left fun r _ => (hf r).symm
  rw [e, h, ← e]

/-- What an exit leading edge leaves where it matches no record. -/
structure PhantomSettles (s t : State) : Prop where
  places : t.track.records.map Record.place = s.track.records.map Record.place
  phantom : t.track.phantom = true
  flag : FlagSettles { s with track := { s.track with phantom := true } } t

theorem phantom_settles (s : State) : PhantomSettles s s.setPhantom.exitEdge.settle := by
  obtain ⟨b, hb⟩ : ∃ b : State, b = { s with track := { s.track with phantom := true } } := ⟨_, rfl⟩
  have flag : FlagSettles b b.trackFault.exitEdge.settle := flagSettles_settle rfl rfl (kept_exitEdge _)
  have e : s.setPhantom = b.trackFault := by rw [hb]; rfl
  rw [e]
  have k := flag.kept
  obtain ⟨t, ht⟩ : ∃ t, b.trackFault.exitEdge.settle = t := ⟨_, rfl⟩
  rw [ht] at flag k ⊢
  subst hb
  exact ⟨k.places, k.keeps.trackPhantom, flag⟩

/-- Settles O26: the candidate's window decides between the match and PHANTOM, on the state that has accepted the edge. -/
theorem exitLeadingEdgeMatchesTheCandidate : Obligations.ExitLeadingEdgeMatchesTheCandidate := by
  intro s p ha ready
  obtain ⟨a, hac⟩ : ∃ a : State, a = { s with
    track := { s.track with
      exitEye := { accepted := true, pendingAt := none, count := s.track.exitEye.count + 1 } } } := ⟨_, rfl⟩
  have eye : s.accepted .exit = a :=
    hac ▸ congrArg (fun q => { s with track := { s.track with exitEye := q } }) (accepted_leading ha)
  have run : exec (.eyeChangeAccepted .exit) s = .next (a.exitLeading p) := by
    rw [exec_eyeChangeAccepted ready, acceptEye_exitLeading ha, eye]
  have window : ∀ r, InExitWindow a r p ↔ InExitWindow s r p := fun r => by rw [hac]; rfl
  have candidate : exitCandidate a.track.records = s.track.records.find? fun q => q.stage != .exiting := by rw [hac]; rfl
  have lines : a.outfeed = s.outfeed := by rw [hac]
  by_cases matched : ∃ r, exitCandidate a.track.records = some r ∧ InExitWindow a r p
  · obtain ⟨r, hr, hw⟩ := matched
    rw [exitLeading_matched hr hw] at run
    obtain ⟨b, hb⟩ : ∃ b, a.matchExit r p = b := ⟨_, rfl⟩
    rw [hb] at run
    have kept : Kept b b.exitEdge.settle := (kept_exitEdge b).trans (kept_settle _)
    have loading : b.outfeed.state = .empty → b.exitEdge.settle.outfeed.state = .loading := exitEdge_loading
    obtain ⟨t, ht⟩ : ∃ t, b.exitEdge.settle = t := ⟨_, rfl⟩
    rw [ht] at run kept loading
    have k := kept.keeps
    have places := map_of_core k.trackRecords fun q => (q.ordinal, q.stage, q.exitLead)
    have causes : t.modes.causes = s.modes.causes := k.modesCauses.trans (by rw [← hb, hac]; rfl)
    have candidate' : ∀ q, (s.track.records.find? fun q => q.stage != .exiting) = some q → q = r := fun q hq => by
      rw [← candidate, hr] at hq; exact (Option.some.inj hq).symm
    subst hb
    subst hac
    refine ⟨t, run, k.trackExitEye, k.trackPos, k.trackEntryEye, k.trackOrdinal, loading, ?_, fun q hq => ?_, fun none => ?_⟩
    · rw [causesOf_same causes]
      exact kept.withExit.keeps
    · obtain rfl := candidate' q hq
      refine ⟨fun _ => ⟨places.trans ?_, k.trackPhantom, causes⟩, fun out => absurd hw out⟩
      simp only [State.matchExit, mapRecords, List.map_map]
      refine List.map_congr_left fun x _ => ?_
      by_cases hx : x.ordinal = q.ordinal <;> simp [hx]
    · rw [candidate, none] at hr
      cases hr
  · have phantom := phantom_settles a
    have loading : a.setPhantom.outfeed.state = .empty → a.setPhantom.exitEdge.settle.outfeed.state = .loading :=
      exitEdge_loading
    have outfeed : a.setPhantom.outfeed = s.outfeed := by
      rw [← lines]; exact (State.blocks_trackFault _).2.2.2.2.2.2.2.2.1
    rw [exitLeading_phantom fun r hr hw => matched ⟨r, hr, hw⟩] at run
    obtain ⟨t, ht⟩ : ∃ t, a.setPhantom.exitEdge.settle = t := ⟨_, rfl⟩
    rw [ht] at run phantom loading
    obtain ⟨places, flagged, flag⟩ := phantom
    have k := flag.kept.keeps
    subst hac
    obtain ⟨halts, causes, notice, -⟩ := flag.of_same (s := s) rfl rfl
    refine ⟨t, run, k.trackExitEye, k.trackPos, k.trackEntryEye, k.trackOrdinal, fun e => loading ((congrArg Outfeed.state outfeed).trans e),
      flag.kept.withExit.keeps, fun q hq => ⟨fun w => ?_, fun _ => ⟨places, flagged, notice, halts, causes⟩⟩,
      fun _ => ⟨places, flagged, notice, halts, causes⟩⟩
    exact absurd ⟨q, candidate.trans hq, (window q).mpr w⟩ matched

end Sys2Proof.Machine
end



section
/-! The close of a record (1.6, R17): what it leaves of the list, the held slots, the spray list and the slot's words. -/

namespace Sys2Proof.Machine

open Sys2Proof.Config

/-- The state `s` with the records `rs`, and the owner of the next trailing edge and the held slots of `t`: the frame of a close. -/
def State.leftBy (s t : State) (rs : List Record) : State :=
  { s with
    track := { s.track with owner := t.track.owner, records := rs }
    docket := { s.docket with held := t.docket.held } }

/-- What the close of record `r` leaves, `p` the records of which it is the oldest and `words` its traveller. -/
structure Closes (s t : State) (p : Record → Bool) (r : Record) (words : List Word) : Prop where
  kept : Kept (s.leftBy t (s.track.records.eraseP p)) t
  records : t.track.records = s.track.records.eraseP p
  owner : t.track.owner = (s.track.owner && (s.track.records.eraseP p).getLast? == s.track.records.getLast?)
  held : t.docket.held = r.slot?.toList.foldl List.erase s.docket.held
  edges : t.flux.edges = s.flux.edges.filter fun e => e.ordinal != r.ordinal
  active : t.flux.active = s.flux.active.filter fun w => w.ordinal != r.ordinal
  words : ∀ n, r.slot? = some n → ∀ k, k < 64 → t.mem.read (slotAt n + k) =
    if k = 0 then 3 else if 16 ≤ k ∧ k < 35 then words.getD (k - 16) 0 else s.mem.read (slotAt n + k)
  others : ∀ n, r.slot? ≠ some n → ∀ k, k < 64 → t.mem.read (slotAt n + k) = s.mem.read (slotAt n + k)
  count : t.mem.read 6 = s.mem.read 6 + BitVec.ofNat 16 r.slot?.toList.length
  notices : ∀ k, s.port.notices.getLsbD k = true → t.port.notices.getLsbD k = true
  intruder : r.slot? = none → Pending t .intruder
  closed : ∀ n, r.slot? = some n → Pending t .slotClosed

/-! ## The traveller -/

theorem read_count_writeResult (m : Memory) (n : SlotIx) (ws : List Word) (w : Word) :
    (countClosed (writeResult m n ws w)).read 6 = m.read 6 + 1 := by
  have b := slotAt_bounds n
  unfold countClosed writeResult
  have skip : ((m.writeBlock (slotAt n + 16) ws).write (slotAt n) w).read 6 = m.read 6 := by
    rw [Memory.read_write, if_neg (by omega), Memory.read_writeBlock, if_neg (by omega)]
  rw [Memory.read_write, show closedCountAt = 6 from rfl, if_pos rfl, skip]

/-- What steps 2 to 4 of a close leave (R17). -/
theorem reportClose_closes (s : State) (r : Record) (o : CloseOutcome) (l : Nat) :
    ∃ ws, ws = travellerWords (closing s r) o s.clock l (contactTime s.ws.contactWidth r.minSpeed) ∧
      ∀ t, t = s.reportClose r o l →
        Kept { s with docket := { s.docket with held := t.docket.held } } t ∧
        t.docket.held = r.slot?.toList.foldl List.erase s.docket.held ∧
        (∀ n, r.slot? = some n → ∀ k, k < 64 → t.mem.read (slotAt n + k) =
          if k = 0 then 3 else if 16 ≤ k ∧ k < 35 then ws.getD (k - 16) 0 else s.mem.read (slotAt n + k)) ∧
        (∀ n, r.slot? ≠ some n → ∀ k, k < 64 → t.mem.read (slotAt n + k) = s.mem.read (slotAt n + k)) ∧
        t.mem.read 6 = s.mem.read 6 + BitVec.ofNat 16 r.slot?.toList.length ∧
        (r.slot? = none → Pending t .intruder) ∧ (∀ n, r.slot? = some n → Pending t .slotClosed) := by
  refine ⟨_, rfl, fun t ht => ?_⟩
  cases hs : r.slot? with
  | none =>
    have e : t = s.notify .intruder := by rw [ht]; unfold State.reportClose; rw [hs]
    subst e
    refine ⟨Kept.of_core rfl rfl, rfl, (fun n h => by cases h), fun _ _ _ _ => rfl, (BitVec.add_zero _).symm,
      fun _ => notify_pending s.port .intruder, (fun n h => by cases h)⟩
  | some n =>
    obtain ⟨ws, hw⟩ : ∃ ws, travellerWords (closing s r) o s.clock l (contactTime s.ws.contactWidth r.minSpeed) = ws := ⟨_, rfl⟩
    have e : t = s.writeTraveller n ws := by rw [ht, ← hw]; unfold State.reportClose; rw [hs]
    have len : ws.length = 19 := hw ▸ travellerWords_length _ _ _ _ _
    rw [hw]
    subst e
    have mem : MemKept s.mem (s.writeTraveller n ws).mem :=
      (memKept_writeResult s.mem n ws 3 len).trans (memKept_countClosed _)
    refine ⟨⟨rfl, mem⟩, rfl, fun m h k hk => ?_, fun m h k hk => ?_, read_count_writeResult _ _ _ _,
      (fun h => by cases h), fun _ _ => notify_pending s.port .slotClosed⟩
    · obtain rfl := Option.some.inj h
      exact read_countClosed_writeResult s.mem n 3 len hk
    · exact read_other_slot (fun x => h (by rw [x])) ws 3 len hk

/-! ## The close -/

/-- The pulses of the record end (R17, R62). -/
theorem dropFlux_drops (s : State) (n : BitVec 16) :
    Kept s (s.dropFlux n) ∧ (s.dropFlux n).track = s.track ∧
      (s.dropFlux n).flux.edges = s.flux.edges.filter (fun e => e.ordinal != n) ∧
      (s.dropFlux n).flux.active = s.flux.active.filter (fun w => w.ordinal != n) ∧
      MirrorOnly s.mem (s.dropFlux n).mem := by
  have ends := cutPulses_ends s (fun u => u.ordinal == n) false
  have frame := uncredited_frame ends.rest
  unfold State.dropFlux
  dsimp only
  refine ⟨(kept_cutPulses s _ false).trans (Kept.of_core rfl rfl), ?_, ?_, ?_, ends.mirror⟩
  · rw [frame, ends.unread rfl]
  · rw [frame]
  · rw [frame]

/-- What one state keeps of another it keeps with other records. -/
theorem Kept.leave {u v : State} (h : Kept u v) (o : Bool) (rs : List Record) :
    Kept { u with track := { u.track with owner := o, records := rs } }
      { v with track := { v.track with owner := o, records := rs } } := by
  refine ⟨?_, h.mem⟩
  have c : ∀ w : State, State.core { w with track := { w.track with owner := o, records := rs } } =
      { w.core with track := { w.core.track with owner := o, records := rs.map Record.core } } := fun _ => rfl
  rw [c, c, h.core]

theorem closeRecord_closes (s : State) (p : Record → Bool) (r : Record) (o : CloseOutcome) (l : Nat) :
    Closes s (s.closeRecord p r o l) p r
      (travellerWords (closing s r) o s.clock l (contactTime s.ws.contactWidth r.minSpeed)) := by
  obtain ⟨ws, hw, report⟩ := reportClose_closes s r o l
  rw [← hw]
  obtain ⟨u, hu⟩ : ∃ u, s.reportClose r o l = u := ⟨_, rfl⟩
  obtain ⟨kept, held, words, others, count, intruder, closed⟩ := report u hu.symm
  have track : u.track = s.track := by rw [← hu]; simp
  have flux : u.flux = s.flux := by rw [← hu]; simp
  obtain ⟨keptDrop, trackDrop, edges, active, mirror⟩ := dropFlux_drops u r.ordinal
  obtain ⟨v, hv⟩ : ∃ v, u.dropFlux r.ordinal = v := ⟨_, rfl⟩
  have docket : v.docket = u.docket := by rw [← hv]; simp
  rw [hv] at keptDrop trackDrop edges active mirror
  have notes := notes_closeRecord s p r o l
  have drops : Notes u v := by rw [← hv]; exact notes_cutPulses u (fun w => w.ordinal == r.ordinal) false
  have e : s.closeRecord p r o l = v.removeRecord p := by rw [← hv, ← hu]; rfl
  obtain ⟨t, ht⟩ : ∃ t, s.closeRecord p r o l = t := ⟨_, rfl⟩
  rw [ht] at e notes ⊢
  have blocks : t.docket = v.docket ∧ t.flux = v.flux ∧ t.mem = v.mem ∧ t.port = v.port := by rw [e]; simp
  obtain ⟨tDocket, tFlux, tMem, tPort⟩ := blocks
  have read : ∀ a, a ≠ 4 → a ≠ 5 → t.mem.read a = u.mem.read a := by rw [tMem]; exact mirror
  have slot : ∀ n k, t.mem.read (slotAt n + k) = u.mem.read (slotAt n + k) := fun n k => by
    have b := slotAt_bounds n
    exact read _ (by omega) (by omega)
  have sameTrack : v.track = s.track := trackDrop.trans track
  have records : t.track.records = s.track.records.eraseP p := by rw [e, ← sameTrack]; rfl
  have owner : t.track.owner = (s.track.owner && (s.track.records.eraseP p).getLast? == s.track.records.getLast?) := by
    rw [e, ← sameTrack]; rfl
  have pend : ∀ n, Pending u n → Pending t n := fun n h => by unfold Pending; rw [tPort]; exact drops.kept _ h
  refine ⟨?_, records, owner, by rw [tDocket, docket, held], by rw [tFlux, edges, flux], by rw [tFlux, active, flux],
    fun n h k hk => (slot n k).trans (words n h k hk), fun n h k hk => (slot n k).trans (others n h k hk),
    (read 6 (by decide) (by decide)).trans count, fun k => notes.kept k, fun h => pend _ (intruder h),
    fun n h => pend _ (closed n h)⟩
  have left := keptDrop.leave t.track.owner t.track.records
  have shape : t = { v with track := { v.track with owner := t.track.owner, records := t.track.records } } := by rw [e]; rfl
  rw [← shape, records] at left
  refine Kept.trans ?_ left
  have keptHeld := kept.leave t.track.owner (s.track.records.eraseP p)
  have sameHeld : t.docket.held = u.docket.held := by rw [tDocket, docket]
  unfold State.leftBy
  rw [sameHeld]
  exact keptHeld

end Sys2Proof.Machine
end



section
/-! Lost boards (R16): the closes one after the other, and the halt cause. -/

namespace Sys2Proof.Machine

open Sys2Proof.Config

/-! ## The boards that are lost -/

/-- The words of a slot whose board was lost (R16, R35). -/
def LostSlot (m : Memory) (n : SlotIx) : Prop :=
  m.read (slotAt n) = 3 ∧ m.read (slotAt n + 17) = 2 ∧ m.read (slotAt n + 18) = 0 ∧ m.read (slotAt n + 25) = 0

/-- The list without its oldest records that are not EXITING, one for each of `lost`. -/
def withoutLost (lost rs : List Record) : List Record :=
  lost.foldl (fun l _ => l.eraseP notExiting) rs

/-- What the closes of the records `lost` leave, the halt cause apart. -/
structure Lost (s t : State) (lost : List Record) : Prop where
  kept : Kept (s.leftBy t (withoutLost lost s.track.records)) t
  records : t.track.records = withoutLost lost s.track.records
  held : t.docket.held = (lost.filterMap Record.slot?).foldl List.erase s.docket.held
  edges : ∀ e ∈ t.flux.edges, e ∈ s.flux.edges ∧ ∀ q ∈ lost, e.ordinal ≠ q.ordinal
  active : ∀ w ∈ t.flux.active, w ∈ s.flux.active ∧ ∀ q ∈ lost, w.ordinal ≠ q.ordinal
  slots : ∀ q ∈ lost, ∀ n, q.slot? = some n → LostSlot t.mem n ∧ Pending t .slotClosed
  stay : ∀ n, LostSlot s.mem n → LostSlot t.mem n
  intruder : ∀ q ∈ lost, q.slot? = none → Pending t .intruder
  others : ∀ n, (∀ q ∈ lost, q.slot? ≠ some n) → slotState t.mem n = slotState s.mem n
  count : t.mem.read 6 = s.mem.read 6 + BitVec.ofNat 16 (lost.filterMap Record.slot?).length
  notices : ∀ k, s.port.notices.getLsbD k = true → t.port.notices.getLsbD k = true
  modes : t.modes = s.modes
  outfeed : t.outfeed = s.outfeed

theorem Lost.nil (s : State) : Lost s s [] :=
  have none : ∀ {P : Record → Prop}, ∀ q ∈ ([] : List Record), P q := fun _ h => absurd h List.not_mem_nil
  ⟨.refl s, rfl, rfl, fun _ h => ⟨h, none⟩, fun _ h => ⟨h, none⟩, none, fun _ => id, none, fun _ _ => rfl,
    (BitVec.add_zero _).symm, fun _ => id, rfl, rfl⟩

theorem Kept.leftBy {a u : State} (h : Kept a u) (t : State) (rs : List Record) :
    Kept (a.leftBy t rs) (u.leftBy t rs) := by
  refine ⟨?_, h.mem⟩
  have c : ∀ w : State, (w.leftBy t rs).core = { w.core with
      track := { w.core.track with owner := t.track.owner, records := rs.map Record.core }
      docket := { w.core.docket with held := t.docket.held } } := fun _ => rfl
  rw [c, c, h.core]

theorem Lost.trans {s t u : State} {l m : List Record} (h : Lost s t l) (g : Lost t u m) : Lost s u (l ++ m) where
  kept := by
    have k := (h.kept.leftBy u (withoutLost m t.track.records)).trans g.kept
    rw [h.records] at k
    have e : withoutLost (l ++ m) s.track.records = withoutLost m (withoutLost l s.track.records) := List.foldl_append ..
    rw [e]
    exact k
  records := by
    rw [g.records, h.records]
    exact (List.foldl_append ..).symm
  held := by rw [g.held, h.held, List.filterMap_append, List.foldl_append]
  edges e he :=
    have ⟨he', gs⟩ := g.edges e he
    have ⟨he'', hs⟩ := h.edges e he'
    ⟨he'', fun q hq => (List.mem_append.mp hq).elim (hs q) (gs q)⟩
  active w hw :=
    have ⟨hw', gs⟩ := g.active w hw
    have ⟨hw'', hs⟩ := h.active w hw'
    ⟨hw'', fun q hq => (List.mem_append.mp hq).elim (hs q) (gs q)⟩
  slots q hq n hn := (List.mem_append.mp hq).elim
    (fun x => ⟨g.stay n (h.slots q x n hn).1, g.notices _ (h.slots q x n hn).2⟩) fun x => g.slots q x n hn
  stay n x := g.stay n (h.stay n x)
  intruder q hq hn := (List.mem_append.mp hq).elim (fun x => g.notices _ (h.intruder q x hn)) fun x => g.intruder q x hn
  others n hn := (g.others n fun q hq => hn q (List.mem_append_right _ hq)).trans
    (h.others n fun q hq => hn q (List.mem_append_left _ hq))
  count := by
    rw [g.count, h.count, List.filterMap_append, List.length_append, BitVec.ofNat_add, BitVec.add_assoc]
  notices k x := g.notices k (h.notices k x)
  modes := g.modes.trans h.modes
  outfeed := g.outfeed.trans h.outfeed

theorem travellerWords_lost (r : Record) (c : Clock) (ct : Nat) :
    (travellerWords r .lost c 0 ct).getD 1 0 = 2 ∧ (travellerWords r .lost c 0 ct).getD 2 0 = 0 ∧
      (travellerWords r .lost c 0 ct).getD 9 0 = 0 := ⟨rfl, rfl, rfl⟩

/-- One board is lost (R16). -/
theorem closeRecord_lost (s : State) (r : Record) : Lost s (s.closeRecord notExiting r .lost 0) [r] := by
  have c := closeRecord_closes s notExiting r .lost 0
  obtain ⟨w17, w18, w25⟩ := travellerWords_lost (closing s r) s.clock (contactTime s.ws.contactWidth r.minSpeed)
  obtain ⟨ws, hw⟩ : ∃ ws, travellerWords (closing s r) .lost s.clock 0 (contactTime s.ws.contactWidth r.minSpeed) = ws := ⟨_, rfl⟩
  rw [hw] at c w17 w18 w25
  have same : (s.closeRecord notExiting r .lost 0).modes = s.modes ∧ (s.closeRecord notExiting r .lost 0).outfeed = s.outfeed := by simp
  obtain ⟨t, ht⟩ : ∃ t, s.closeRecord notExiting r .lost 0 = t := ⟨_, rfl⟩
  rw [ht] at c same ⊢
  have written : ∀ n, r.slot? = some n → LostSlot t.mem n := fun n hn =>
    ⟨(c.words n hn 0 (by decide)).trans rfl, (c.words n hn 17 (by decide)).trans w17,
      (c.words n hn 18 (by decide)).trans w18, (c.words n hn 25 (by decide)).trans w25⟩
  have only : ∀ {P : Record → Prop}, P r → ∀ q ∈ [r], P q := fun h q hq => by rw [List.mem_singleton.mp hq]; exact h
  have slots : [r].filterMap Record.slot? = r.slot?.toList := by cases h : r.slot? <;> simp [h]
  refine ⟨c.kept, c.records, by rw [slots]; exact c.held, fun e he => ?_, fun w hw => ?_,
    only fun n hn => ⟨written n hn, c.closed n hn⟩, fun n hn => ?_, only c.intruder, fun n hn => ?_,
    by rw [slots]; exact c.count, c.notices, same.1, same.2⟩
  · rw [c.edges, List.mem_filter, bne_iff_ne] at he
    exact ⟨he.1, only he.2⟩
  · rw [c.active, List.mem_filter, bne_iff_ne] at hw
    exact ⟨hw.1, only hw.2⟩
  · by_cases h : r.slot? = some n
    · exact written n h
    · unfold LostSlot
      rw [show t.mem.read (slotAt n) = s.mem.read (slotAt n) from c.others n h 0 (by decide), c.others n h 17 (by decide),
        c.others n h 18 (by decide), c.others n h 25 (by decide)]
      exact hn
  · exact slotState_congr (c.others n (hn r (List.mem_singleton.mpr rfl)) 0 (by decide))

/-! ## Which records are lost -/

theorem lostDue_iff (s : State) (r : Record) : lostDue s r = true ↔ PastExit s r ∧
    ∀ p, s.track.exitEye.pendingAt = some p → s.track.exitEye.accepted = true ∨ ¬ InExitWindow s r p := by
  have past : pastExit s r = true ↔ PastExit s r := Iff.rfl
  have defers : exitDefers s r = true ↔
      s.track.exitEye.accepted = false ∧ ∃ p, s.track.exitEye.pendingAt = some p ∧ InExitWindow s r p := by
    unfold exitDefers Qualifier.toBlocked
    cases s.track.exitEye.accepted <;> cases s.track.exitEye.pendingAt <;> simp [inExitWindow_iff]
  unfold lostDue
  rw [Bool.and_eq_true, past, Bool.not_eq_true', ← Bool.not_eq_true, defers]
  refine and_congr_right fun _ => ?_
  cases s.track.exitEye.accepted <;> simp

theorem filter_eraseP {α : Type} (p : α → Bool) (l : List α) : (l.eraseP p).filter p = (l.filter p).tail := by
  induction l with
  | nil => rfl
  | cons x l ih => cases h : p x <;> simp [h, ih]

theorem exitCandidate_eq (rs : List Record) : exitCandidate rs = (rs.filter notExiting).head? :=
  (List.head?_filter ..).symm

/-- Whether a board is lost does not depend on the closes before it. -/
theorem lostDue_congr {s t : State} (hp : t.track.pos = s.track.pos) (he : t.track.exitEye = s.track.exitEye)
    (hs : t.port.setup = s.port.setup) : lostDue t = lostDue s := by
  funext r
  unfold lostDue pastExit exitDefers inExitWindow expectedExit State.ws
  rw [hp, he, hs]

theorem closeLost_lost (fuel : Nat) (s : State) :
    Lost s (s.closeLost fuel) (((s.track.records.filter notExiting).takeWhile (lostDue s)).take fuel) := by
  induction fuel generalizing s with
  | zero => exact .nil s
  | succ k ih =>
    cases hc : s.track.records.filter notExiting with
    | nil =>
      have none : lostCandidate s = none := by
        unfold lostCandidate; rw [exitCandidate_eq, hc]; rfl
      unfold State.closeLost
      rw [none]
      exact .nil s
    | cons r rest =>
      have candidate : lostCandidate s = if lostDue s r then some r else none := by
        unfold lostCandidate; rw [exitCandidate_eq, hc]; rfl
      unfold State.closeLost
      by_cases hd : lostDue s r = true
      · rw [candidate, if_pos hd, List.takeWhile_cons_of_pos hd, List.take_succ_cons]
        have one := closeRecord_lost s r
        have same : (s.closeRecord notExiting r .lost 0).track.pos = s.track.pos ∧
            (s.closeRecord notExiting r .lost 0).port.setup = s.port.setup := by simp
        dsimp only
        obtain ⟨t, ht⟩ : ∃ t, s.closeRecord notExiting r .lost 0 = t := ⟨_, rfl⟩
        rw [ht] at one same ⊢
        have left : t.track.records.filter notExiting = rest := by
          rw [one.records]
          exact (filter_eraseP _ _).trans (by rw [hc]; rfl)
        have due := lostDue_congr same.1 one.kept.keeps.trackExitEye same.2
        have more := ih t
        rw [left, due] at more
        exact one.trans more
      · rw [candidate, if_neg hd, List.takeWhile_cons_of_neg hd]
        exact .nil s

/-- With at most 16 records the closes come to an end. -/
theorem closeLost_all (s : State) (h : s.track.records.length ≤ 16) :
    Lost s (s.closeLost listMax) ((s.track.records.filter notExiting).takeWhile (lostDue s)) := by
  have short : ((s.track.records.filter notExiting).takeWhile (lostDue s)).length ≤ listMax :=
    (List.takeWhile_prefix _).length_le.trans ((List.length_filter_le ..).trans h)
  have all := closeLost_lost listMax s
  rw [List.take_of_length_le short] at all
  exact all

end Sys2Proof.Machine
end



section
/-! ENTRY_JAM, BOARD_LOST and EYE_RAW_CHANGE (1.2, 1.5, 1.6): O21, O28. -/

namespace Sys2Proof.Machine

open Sys2Proof.Config

/-- The consequences of a step make no window active. -/
theorem settle_active (s : State) : ∀ w ∈ s.settle.flux.active, w ∈ s.flux.active := by
  obtain ⟨still, begins⟩ := fluxSettles_settle s
  by_cases h : InhibitBegins s s.settle
  · rw [(begins h).1]; exact fun _ hw => absurd hw List.not_mem_nil
  · rw [(still h).2.1]; exact fun _ => id

/-! ## The halt cause after the closes (R16, R169, R170) -/

/-- The causes of a third state may be put in both. -/
theorem Kept.causes {a b : State} (h : Kept a b) (t : State) : Kept (a.causesOf t) (b.causesOf t) := by
  refine ⟨?_, h.mem⟩
  have c : ∀ w : State, (w.causesOf t).core =
      { w.core with modes := { w.core.modes with causes := t.modes.causes } } := fun _ => rfl
  rw [c, c, h.core]

/-- What BOARD_LOST leaves of the modes: the raise comes after the mode changes that the shorter list brings. -/
theorem raiseLost_modes (u : State) :
    u.raiseLost.settle.modes.causes =
        (if .boardLost ∈ u.modes.causes then u.modes.causes else u.modes.causes ++ [.boardLost]) ∧
      (.boardLost ∉ u.modes.causes → Pending u.raiseLost.settle .halted ∧
        (cooldownDone u = true → u.raiseLost.settle.modes.mode = .off) ∧
        (u.modes.mode.runs = true → cooldownDone u = false → u.raiseLost.settle.modes.mode = .halted)) := by
  have halts := (halts_raiseCause u.modeStage .boardLost).settle
  have same : u.modeStage.modes.causes = u.modes.causes := (kept_modeStage u).keeps.modesCauses
  have e : u.raiseLost = u.modeStage.raiseCause .boardLost := rfl
  rw [← e] at halts
  obtain ⟨causes, mode, notice⟩ := halts
  rw [same] at causes mode notice
  refine ⟨causes, fun hc => ⟨notice hc, fun done => ?_, fun runs still => mode ?_ hc⟩⟩
  · have off : u.modeStage.modes.mode = .off := by
      unfold State.modeStage; rw [if_pos done]; exact enterMode_mode _ _
    have stops := raiseCause_stopped (s := u.modeStage) (by rw [off]; rfl) .boardLost
    have raised : u.raiseLost.modes.mode = .off := by
      rw [e, stops]; split
      · exact off
      · exact off
    rw [(settle_mode_stays (by rw [raised]; decide) (by rw [raised]; decide)).1, raised]
  · unfold State.modeStage
    rw [if_neg (by simp [still])]
    split
    · rw [enterMode_mode]; rfl
    · exact runs

theorem lost_state {m : Memory} {n : SlotIx} (h : LostSlot m n) : slotState m n = .done := by
  have e : m.read (slotAt n) = 3 := h.1
  unfold slotState
  rw [e]
  rfl

/-- What the closes leave, the halt cause raised and the consequences of the step taken (R16). -/
theorem Lost.closed {s u : State} {lost : List Record} (h : Lost s u lost) : LostClosed s u.raiseLost.settle lost := by
  obtain ⟨causes, mode⟩ := raiseLost_modes u
  have e : u.raiseLost = u.modeStage.raiseCause .boardLost := rfl
  have blocks : u.raiseLost.mem = u.mem ∧ u.raiseLost.flux = u.flux := by simp
  have notes : Notes u u.raiseLost := notes_raiseLost u
  have keptRaise : Kept (u.causesOf u.raiseLost) u.raiseLost :=
    ((kept_modeStage u).causes u.raiseLost).trans (kept_raiseCause u.modeStage .boardLost)
  obtain ⟨v, hv⟩ : ∃ v, u.raiseLost = v := ⟨_, rfl⟩
  rw [hv] at causes mode blocks notes keptRaise ⊢
  have follows := follows_settle v
  have active := settle_active v
  have rejects := rejects_settle v
  have keptSettle := kept_settle v
  obtain ⟨t, ht⟩ : ∃ t, v.settle = t := ⟨_, rfl⟩
  rw [ht] at causes mode follows active rejects keptSettle ⊢
  have kept : Kept (u.causesOf t) t := by
    have c : u.causesOf v = u.causesOf t := by unfold State.causesOf; rw [keptSettle.keeps.modesCauses]
    exact (c ▸ keptRaise).trans keptSettle
  have keeps := kept.keeps
  have pend : ∀ n, Pending u n → Pending t n := fun n x => follows.notices _ (notes.kept _ x)
  have slotStays : ∀ n, LostSlot u.mem n → LostSlot t.mem n := fun n x => by
    have read : ∀ k, k < 64 → t.mem.read (slotAt n + k) = u.mem.read (slotAt n + k) := fun k hk => by
      rw [← blocks.1]
      exact follows.slots n (.inr (by rw [blocks.1, lost_state x]; decide)) k hk
    unfold LostSlot
    rw [show t.mem.read (slotAt n) = _ from read 0 (by decide), read 17 (by decide), read 18 (by decide),
      read 25 (by decide)]
    exact x
  have empty : t.track.records = [] ↔ u.track.records = [] := by
    have len := congrArg List.length kept.places
    simp only [List.length_map] at len
    rw [← List.length_eq_zero_iff, ← List.length_eq_zero_iff, len]
    rfl
  have done : cooldownDone u = true ↔
      s.modes.mode = .cooldown ∧ t.track.records = [] ∧ s.outfeed.state = .empty := by
    unfold cooldownDone drained
    rw [h.modes, h.outfeed, empty]
    simp
  refine ⟨by rw [causes, h.modes], fun hc => ?_, fun q hq => ?_, ?_, ?_⟩
  · obtain ⟨pending, off, halted⟩ := mode (by rw [h.modes]; exact hc)
    refine ⟨pending, fun a b c => off (done.mpr ⟨a, b, c⟩), fun runs other => halted (by rw [h.modes]; exact runs) ?_⟩
    rw [← Bool.not_eq_true, done]
    exact fun ⟨a, b, c⟩ => other.elim (· a) fun o => o.elim (· b) (· c)
  · refine ⟨fun d hd => (h.edges d ?_).2 q hq, fun w hw => ?_, fun hn => pend _ (h.intruder q hq hn), fun n hn => ?_⟩
    · rw [← blocks.2]; exact follows.edges d hd
    · exact (h.active w (by rw [← blocks.2]; exact active w hw)).2 q hq
    · obtain ⟨words, notice⟩ := h.slots q hq n hn
      obtain ⟨w, w17, w18, w25⟩ := slotStays n words
      exact ⟨w, w17, w18, w25, pend _ notice⟩
  · have same : rejectedSlots s.mem t.mem = rejectedSlots u.mem t.mem := by
      refine List.filter_congr fun k _ => ?_
      by_cases hk : ∃ q ∈ lost, q.slot? = some k
      · obtain ⟨q, hq, hs⟩ := hk
        rw [lost_state (slotStays k (h.slots q hq k hs).1)]
        cases slotState s.mem k <;> cases slotState u.mem k <;> rfl
      · rw [h.others k fun q hq hs => hk ⟨q, hq, hs⟩]
    have count := rejects.count
    unfold CountsCloses at count ⊢
    rw [blocks.1, Nat.zero_add] at count
    rw [count, h.count, same, BitVec.ofNat_add, BitVec.add_assoc]
  · have frame := (h.kept.causes t).trans kept
    have owner : t.track.owner = u.track.owner := keeps.trackOwner
    have held : (lost.filterMap Record.slot?).foldl List.erase s.docket.held = u.docket.held := h.held.symm
    rw [owner, held]
    exact frame.keeps

/-! ## The commands -/

theorem jamDue_iff (s : State) (r : Record) : jamDue s r = true ↔ (r.stage = .entering ∧ r.jam = false) ∧
    atOrAfter s.track.pos (r.lead + tenths (3 * s.ws.maxLength)) = true := by
  simp [jamDue]

/-- The mark that ENTRY_JAM sets, as a field (R14). -/
theorem jamMarked_eq (s : State) (q : Record) : (if jamDue s q = true then { q with jam := true } else q) =
    { q with jam := q.jam ||
      (q.stage == .entering && atOrAfter s.track.pos (q.lead + tenths (3 * s.ws.maxLength))) } := by
  have due : jamDue s q = (q.stage == .entering && !q.jam &&
    atOrAfter s.track.pos (q.lead + tenths (3 * s.ws.maxLength))) := rfl
  rw [due]
  generalize atOrAfter s.track.pos (q.lead + tenths (3 * s.ws.maxLength)) = far
  obtain ⟨ordinal, origin, binding, lead, trail, length, stage, jam⟩ := q
  cases far <;> cases stage <;> cases jam <;> rfl

/-- No edge of an eye is due exactly where none is ready (R4). -/
theorem eyeDue_none {s : State} {e : Eye} (h : ∀ p, ¬ EyeReady s e p) : eyeDue s e = none := by
  unfold eyeDue
  cases hp : (s.track.eye e).pendingAt with
  | none => rfl
  | some p => exact if_neg fun due => h p ⟨hp, due⟩

/-- Settles O28: the jam marks with their raise, and the closes of the lost boards with theirs. -/
theorem entryJamAndBoardLostHaltTheLine : Obligations.EntryJamAndBoardLostHaltTheLine := by
  intro s r
  refine ⟨fun quiet mem stage jam far => ?_, fun candidate past lost hp hr len hl => ?_⟩
  · have due : jamNow s = true := by
      unfold jamNow
      rw [eyeDue_none quiet]
      exact List.any_eq_true.mpr ⟨r, mem, (jamDue_iff s r).mpr ⟨⟨stage, jam⟩, far⟩⟩
    have run : exec .entryJam s = .next (s.markJam.raiseCause .entryJam).settle := congrArg Host.Outcome.next (if_pos due)
    refine ⟨_, run, halts_ext (halts_settle s.markJam .entryJam) rfl, ?_⟩
    have marks : s.markJam = { s with track := { s.track with records := s.track.records.map fun q =>
        { q with jam := q.jam ||
          (q.stage == .entering && atOrAfter s.track.pos (q.lead + tenths (3 * s.ws.maxLength))) } } } := by
      unfold State.markJam mapRecords
      rw [List.map_congr_left fun q _ => jamMarked_eq s q]
    have kept := (kept_raise_settle s.markJam .entryJam).keeps
    obtain ⟨t, ht⟩ : ∃ t, (s.markJam.raiseCause .entryJam).settle = t := ⟨_, rfl⟩
    rw [ht] at kept ⊢
    rw [marks] at kept
    exact kept
  · have same : past = lostDue s := funext fun q => Bool.eq_iff_iff.mpr ((hp q).trans (lostDue_iff s q).symm)
    have head : (s.track.records.filter notExiting).head? = some r := (List.head?_filter ..).trans candidate
    have lostNow : lostCandidate s = some r := by
      unfold lostCandidate
      rw [exitCandidate_eq, head]
      exact if_pos (same ▸ hr)
    have run : exec .boardLost s = .next (s.closeLost listMax).raiseLost.settle := by
      have some : (lostCandidate s).isSome = true := by rw [lostNow]; rfl
      have lose : s.loseBoards = (s.closeLost listMax).raiseLost := if_pos some
      rw [← lose]
      exact congrArg Host.Outcome.next (if_pos some)
    have closes := closeLost_all s len
    have list : (s.track.records.filter notExiting).takeWhile (lostDue s) = lost := by rw [hl, same]; rfl
    rw [list] at closes
    refine ⟨_, run, ?_, closes.closed⟩
    obtain ⟨rest, hrest⟩ := List.head?_eq_some_iff.mp head
    rw [← list, hrest, List.takeWhile_cons_of_pos (same ▸ hr)]
    exact List.mem_cons_self

end Sys2Proof.Machine
end



section
/-! EYE_RAW_CHANGE (1.2): the one pending change of an eye, and the deferred close that a dropped change brings: O21. -/

namespace Sys2Proof.Machine

open Sys2Proof.Config

theorem raw_eq (q : Qualifier) (b : Bool) (now : Pos) : q.raw b now =
    { q with pendingAt := if b = q.accepted then none else some (q.pendingAt.getD now) } := by
  unfold Qualifier.raw
  by_cases h : b = q.accepted <;> simp [h]

theorem dropsPending_iff (s : State) (e : Eye) (b : Bool) : dropsPending s e b = true ↔
    (s.track.eye e).pendingAt ≠ none ∧ b = (s.track.eye e).accepted := by
  simp [dropsPending, Option.isSome_iff_ne_none]

/-- The candidate and each next record past its window close (R16). -/
theorem loseWaiting_closed {s : State} {r : Record} {rest : List Record} (h : s.track.records.filter notExiting = r :: rest) :
    ∃ lost, LostClosed s s.loseWaiting.settle lost ∧
      (s.track.records.length ≤ 16 → lost = r :: rest.takeWhile (lostDue s)) := by
  have candidate : exitCandidate s.track.records = some r := by rw [exitCandidate_eq, h]; rfl
  have one := closeRecord_lost s r
  have same : (s.closeRecord notExiting r .lost 0).track.pos = s.track.pos ∧
      (s.closeRecord notExiting r .lost 0).port.setup = s.port.setup := by simp
  have e : s.loseWaiting = ((s.closeRecord notExiting r .lost 0).closeLost listMax).raiseLost := by
    unfold State.loseWaiting; rw [candidate]
  rw [e]
  obtain ⟨t, ht⟩ : ∃ t, s.closeRecord notExiting r .lost 0 = t := ⟨_, rfl⟩
  rw [ht] at one same ⊢
  have left : t.track.records.filter notExiting = rest := by
    rw [one.records]
    exact (filter_eraseP _ _).trans (by rw [h]; rfl)
  have due := lostDue_congr same.1 one.kept.keeps.trackExitEye same.2
  refine ⟨_, (one.trans (closeLost_lost listMax t)).closed, fun len => ?_⟩
  have short : (rest.takeWhile (lostDue s)).length ≤ listMax := by
    have := (List.takeWhile_prefix (lostDue s) (l := rest)).length_le
    have := congrArg List.length h
    have := List.length_filter_le notExiting s.track.records
    simp only [List.length_cons, listMax] at *
    omega
  rw [left, due, List.take_of_length_le short]
  rfl

/-- The candidate is past its window: it and each next record past its own close (R16). -/
theorem loseBoards_closed {s : State} (h : (lostCandidate s).isSome = true) :
    ∃ lost, LostClosed s s.loseBoards.settle lost ∧
      (s.track.records.length ≤ 16 → lost = (s.track.records.filter notExiting).takeWhile (lostDue s)) := by
  have e : s.loseBoards = (s.closeLost listMax).raiseLost := if_pos h
  rw [e]
  refine ⟨_, (closeLost_lost listMax s).closed, fun len => List.take_of_length_le ?_⟩
  exact (List.takeWhile_prefix _).length_le.trans ((List.length_filter_le ..).trans len)

/-- Where no exit change is pending, a candidate is lost exactly past its window. -/
theorem lostDue_quiet {s : State} (h : s.track.exitEye.pendingAt = none) (r : Record) :
    lostDue s r = true ↔ PastExit s r := by
  rw [lostDue_iff]
  exact and_iff_left fun p hp => by rw [h] at hp; cases hp

/-- What a dropped exit change brings (R16): nothing, or the closes with their halt cause. -/
theorem afterDrop_exit (a : State) (quiet : a.track.exitEye.pendingAt = none) :
    (a.afterDrop .exit = a ∧ ∀ r rest, a.track.records.filter notExiting = r :: rest →
        a.track.lostWaits = false ∧ ¬ PastExit a r) ∨
      ∃ r rest lost, a.track.records.filter notExiting = r :: rest ∧ (a.track.lostWaits = true ∨ PastExit a r) ∧
        LostClosed a (a.afterDrop .exit) lost ∧
        (a.track.records.length ≤ 16 → lost = r :: rest.takeWhile (lostDue a)) := by
  unfold State.afterDrop
  dsimp only
  cases hl : a.track.records.filter notExiting with
  | nil =>
    have alone : exitCandidate a.track.records = none := by rw [exitCandidate_eq, hl]; rfl
    have keep : lostCandidate a = none := by unfold lostCandidate; rw [alone]
    rw [alone, keep]
    exact .inl ⟨by simp, fun _ _ h => by cases h⟩
  | cons r rest =>
    have some : exitCandidate a.track.records = some r := by rw [exitCandidate_eq, hl]; rfl
    have candidate : (lostCandidate a).isSome = lostDue a r := by
      unfold lostCandidate
      rw [some]
      cases h : lostDue a r <;> simp [h]
    by_cases waits : a.track.lostWaits = true
    · rw [if_pos (by rw [waits, some]; rfl)]
      obtain ⟨lost, closed, list⟩ := loseWaiting_closed hl
      exact .inr ⟨r, rest, lost, rfl, .inl waits, closed, list⟩
    · rw [if_neg (by simp [waits])]
      by_cases due : lostDue a r = true
      · rw [if_pos (candidate.trans due)]
        obtain ⟨lost, closed, list⟩ := loseBoards_closed (candidate.trans due)
        refine .inr ⟨r, rest, lost, rfl, .inr ((lostDue_quiet quiet r).mp due), closed, fun len => ?_⟩
        rw [list len, hl, List.takeWhile_cons_of_pos due]
      · rw [if_neg (by rw [candidate]; exact due)]
        refine .inl ⟨rfl, fun q qs h => ?_⟩
        obtain ⟨rfl, -⟩ := List.cons_eq_cons.mp h
        exact ⟨by simpa using waits, fun p => due ((lostDue_quiet quiet r).mpr p)⟩

/-- What a dropped entry change brings (R47): nothing, or the close of the LATE gate with an evaluation. -/
theorem afterDrop_entry (a : State) (quiet : a.track.entryEye.pendingAt = none) :
    (a.afterDrop .entry = a ∧ ¬ (a.gate.state = .late ∧
        (a.gate.lateWaits = true ∨ ∃ l, a.gate.lateLimit = some l ∧ atOrAfter a.track.pos l = true))) ∨
      (a.afterDrop .entry = a.closeGate.settleEval ∧ a.gate.state = .late ∧
        (a.gate.lateWaits = true ∨ ∃ l, a.gate.lateLimit = some l ∧ atOrAfter a.track.pos l = true)) := by
  have due : ((a.gate.state == .late && a.gate.lateWaits) || lateDue a) = true ↔ a.gate.state = .late ∧
      (a.gate.lateWaits = true ∨ ∃ l, a.gate.lateLimit = some l ∧ atOrAfter a.track.pos l = true) := by
    rw [Bool.or_eq_true, lateDue_iff, quiet, Bool.and_eq_true, beq_iff_eq, ← and_or_left]
    simp
  unfold State.afterDrop
  dsimp only
  by_cases h : ((a.gate.state == .late && a.gate.lateWaits) || lateDue a) = true
  · exact .inr ⟨if_pos h, due.mp h⟩
  · exact .inl ⟨if_neg h, fun x => h (due.mpr x)⟩

/-- The readings, the position and the eyes are as a state has them. -/
def SameEyes (a t : State) : Prop :=
  t.pins = a.pins ∧ t.track.pos = a.track.pos ∧ t.track.entryEye = a.track.entryEye ∧ t.track.exitEye = a.track.exitEye

theorem SameEyes.eye {a t : State} (h : SameEyes a t) (e : Eye) : t.track.eye e = a.track.eye e := by
  obtain ⟨-, -, entry, exit⟩ := h
  cases e
  · exact entry
  · exact exit

theorem Keeps.sameEyes {a t : State} (h : Keeps a t) : SameEyes a t :=
  ⟨h.pins, h.trackPos, h.trackEntryEye, h.trackExitEye⟩

theorem afterDrop_sameEyes (a : State) (e : Eye) (quiet : (a.track.eye e).pendingAt = none) :
    SameEyes a (a.afterDrop e) := by
  have same : SameEyes a a := ⟨rfl, rfl, rfl, rfl⟩
  cases e with
  | entry =>
    rcases afterDrop_entry a quiet with ⟨h, -⟩ | ⟨h, -⟩
    · rw [h]; exact same
    · rw [h]
      exact ((kept_closeGate a).trans (kept_settleEval _)).keeps.sameEyes
  | exit =>
    rcases afterDrop_exit a quiet with ⟨h, -⟩ | ⟨r, rest, lost, -, -, closed, -⟩
    · rw [h]; exact same
    · obtain ⟨pins, pos, entry, exit⟩ := closed.kept.sameEyes
      exact ⟨pins, pos, entry, exit⟩

/-- Settles O21: the raw reading, and what a dropped change had deferred. -/
theorem eyeRawChangeKeepsOnePendingChange : Obligations.EyeRawChangeKeepsOnePendingChange := by
  intro s a e b drops ha hd
  have raw : s.rawEye e b = a := by rw [ha]; unfold State.rawEye; rw [raw_eq]
  have pending : drops = true ↔ dropsPending s e b = true := hd.trans (dropsPending_iff s e b).symm
  have eye : a.track.eye e = { s.track.eye e with
      pendingAt := if b = (s.track.eye e).accepted then none else some ((s.track.eye e).pendingAt.getD s.track.pos) } := by
    rw [ha]; cases e <;> rfl
  have pins : a.pins = s.pins.setEye e b := by rw [ha]
  have pos : a.track.pos = s.track.pos := by rw [ha]; cases e <;> rfl
  have gate : a.gate = s.gate := by rw [ha]
  have docket : a.docket = s.docket := by rw [ha]
  have lists : a.track.records = s.track.records ∧ a.track.lostWaits = s.track.lostWaits ∧ a.port.setup = s.port.setup := by
    rw [ha]; cases e <;> exact ⟨rfl, rfl, rfl⟩
  obtain ⟨records, waits, setup⟩ := lists
  have past : ∀ r, PastExit a r ↔ PastExit s r := fun r => by unfold PastExit State.ws; rw [pos, setup]
  obtain ⟨t, ht⟩ : ∃ t, t = if drops = true then a.afterDrop e else a := ⟨_, rfl⟩
  have run : exec (.eyeRawChange e b) s = .next t := by
    have e' : exec (.eyeRawChange e b) s =
        .next (if dropsPending s e b then (s.rawEye e b).afterDrop e else s.rawEye e b) := rfl
    rw [e', ht, raw]
    cases drops
    · rw [if_neg (fun h => absurd (pending.mpr h) (by decide)), if_neg (by decide)]
    · rw [if_pos (pending.mp rfl), if_pos rfl]
  have quiet : drops = true → (a.track.eye e).pendingAt = none := fun h => by rw [eye]; exact if_pos (hd.mp h).2
  have same : SameEyes a t := by
    rw [ht]
    split
    · next h => exact afterDrop_sameEyes a e (quiet h)
    · exact ⟨rfl, rfl, rfl, rfl⟩
  have sameEye := same.eye e
  rw [eye] at sameEye
  obtain ⟨tPins, tPos, -, -⟩ := same
  refine ⟨t, run, by rw [sameEye], by rw [sameEye], by rw [sameEye], tPins.trans pins, tPos.trans pos,
    fun h => by rw [ht, h]; rfl, fun late hlate he h => ?_, fun he h => ?_⟩
  · subst he
    rw [h, if_pos rfl] at ht
    rw [← gate, ← pos] at hlate
    rw [← gate, ← docket, ← closeGate_eq a]
    rcases afterDrop_entry a (quiet h) with ⟨stays, on⟩ | ⟨closes, on⟩
    · exact ⟨fun _ => ht.trans stays, fun h => absurd (hlate.mp h) on⟩
    · refine ⟨fun h => absurd (hlate.mpr on) (by rw [h]; decide), fun _ => ⟨a.closeGate, rfl, ht.trans closes, ?_⟩⟩
      rw [ht, closes]
      exact (kept_settleEval _).keeps
  · subst he
    rw [h, if_pos rfl] at ht
    rw [← records, ← waits]
    refine ⟨fun hn => ?_, fun r rest hr => ⟨fun hw hp => ?_, fun p hp len hw => ?_⟩⟩
    · rcases afterDrop_exit a (quiet h) with ⟨stays, -⟩ | ⟨r, rest, lost, hl, -⟩
      · exact ht.trans stays
      · have some : a.track.records.find? notExiting = some r := (List.head?_filter ..).symm.trans (by rw [hl]; rfl)
        exact absurd (some.symm.trans hn) (by simp)
    · rcases afterDrop_exit a (quiet h) with ⟨stays, -⟩ | ⟨q, qs, lost, hl, on, -⟩
      · exact ht.trans stays
      · obtain ⟨rfl, -⟩ := List.cons_eq_cons.mp (hl.symm.trans hr)
        rw [hw, past] at on
        exact absurd (on.resolve_left (by decide)) hp
    · rcases afterDrop_exit a (quiet h) with ⟨-, off⟩ | ⟨q, qs, lost, hl, -, closed, list⟩
      · obtain ⟨w, x⟩ := off r rest hr
        rw [w, ← past] at hw
        exact absurd (hw.resolve_left (by decide)) x
      · obtain ⟨rfl, rfl⟩ := List.cons_eq_cons.mp (hl.symm.trans hr)
        have same : p = lostDue a := funext fun q => Bool.eq_iff_iff.mpr
          ((hp q).trans ((past q).symm.trans (lostDue_quiet (quiet h) q).symm))
        rw [same, ← list len, ht]
        exact closed

end Sys2Proof.Machine
end



section
/-! The exit trailing edge (1.6, 2.8): the traveller of a completed board: O27. -/

namespace Sys2Proof.Machine

open Sys2Proof.Config

/-! ## The flags of a close -/

theorem Flag.bit_lt (f : Flag) : f.bit < 16 := by cases f <;> decide

theorem Flag.bit_inj (f g : Flag) : f.bit = g.bit ↔ f = g := by cases f <;> cases g <;> decide

theorem Record.has_markIf (r : Record) (b : Bool) (f g : Flag) : (r.markIf b f).has g = (r.has g || (b && f == g)) := by
  cases b
  · simp [Record.markIf]
  · have e : (bitMask f.bit).getLsbD g.bit = decide (f = g) := by
      rw [getLsbD_bitMask' f.bit g.bit g.bit_lt]
      exact decide_eq_decide.mpr (eq_comm.trans (Flag.bit_inj f g))
    simp only [Record.markIf, Record.mark, Record.has, if_true, BitVec.getLsbD_or, e, Bool.true_and]
    cases f <;> cases g <;> rfl

theorem Record.markIf_rest (r : Record) (b : Bool) (f : Flag) :
    r.markIf b f = { r with flags := (r.markIf b f).flags } := by
  cases b <;> rfl

/-- The LENGTH_CHANGE test sets its flag alone (R17). -/
theorem exitTest_has (r : Record) (l tol : Nat) (g : Flag) : (r.exitTest l tol).has g = true ↔ r.has g = true ∨
    (g = .lengthChange ∧ ∃ k, r.length = some k ∧ tol < ((l : Int) - k).natAbs) := by
  unfold Record.exitTest
  cases h : r.length with
  | none => simp
  | some k =>
    simp only [Record.has_markIf, Bool.or_eq_true, Bool.and_eq_true, decide_eq_true_eq, beq_iff_eq, Option.some.injEq,
      exists_eq_left']
    rw [eq_comm (a := Flag.lengthChange), and_comm]

theorem exitTest_rest (r : Record) (l tol : Nat) :
    (r.exitTest l tol) = { r with flags := (r.exitTest l tol).flags } := by
  unfold Record.exitTest
  split
  · exact r.markIf_rest _ _
  · rfl

/-- The contact tests set their two flags alone (R134). -/
theorem contactTest_has (r : Record) (t : Nat) (g : Flag) : (r.contactTest t).has g = true ↔ r.has g = true ∨
    (g = .contactLow ∧ ∃ rc, r.recipe? = some rc ∧ t ≠ 0 ∧ rc.contactMin ≠ 0 ∧ t < rc.contactMin) ∨
    (g = .contactHigh ∧ ∃ rc, r.recipe? = some rc ∧ t ≠ 0 ∧ rc.contactMax ≠ 0 ∧ rc.contactMax < t) := by
  unfold Record.contactTest
  cases h : r.recipe? with
  | none => simp
  | some rc =>
    dsimp only
    rw [Record.has_markIf, Record.has_markIf]
    simp only [Bool.or_eq_true, Bool.and_eq_true, bne_iff_ne, beq_iff_eq, decide_eq_true_eq, Option.some.injEq,
      exists_eq_left']
    grind

theorem contactTest_rest (r : Record) (t : Nat) :
    (r.contactTest t) = { r with flags := (r.contactTest t).flags } := by
  unfold Record.contactTest
  split
  · rfl
  · rw [Record.markIf_rest, Record.markIf_rest]

/-- The record as the traveller of a completed board takes it. -/
def completing (s : State) (r : Record) (l : Nat) : Record :=
  closing s (r.exitTest l s.ws.exitTol)

/-- The flags that the close adds: LENGTH_CHANGE and the two contact flags (R17, R134). -/
theorem completing_has (s : State) (r : Record) (l : Nat) (g : Flag) : (completing s r l).has g = true ↔ r.has g = true ∨
    (g = .lengthChange ∧ ∃ k, r.length = some k ∧ s.ws.exitTol < ((l : Int) - k).natAbs) ∨
    (g = .contactLow ∧ ∃ rc, r.recipe? = some rc ∧ contactTime s.ws.contactWidth r.minSpeed ≠ 0 ∧ rc.contactMin ≠ 0 ∧
      contactTime s.ws.contactWidth r.minSpeed < rc.contactMin) ∨
    (g = .contactHigh ∧ ∃ rc, r.recipe? = some rc ∧ contactTime s.ws.contactWidth r.minSpeed ≠ 0 ∧ rc.contactMax ≠ 0 ∧
      rc.contactMax < contactTime s.ws.contactWidth r.minSpeed) := by
  have rest := exitTest_rest r l s.ws.exitTol
  have recipe : (r.exitTest l s.ws.exitTol).recipe? = r.recipe? := by rw [rest]; rfl
  have speed : (r.exitTest l s.ws.exitTol).minSpeed = r.minSpeed := by rw [rest]
  unfold completing closing
  rw [contactTest_has, exitTest_has, recipe, speed, or_assoc]

theorem completing_rest (s : State) (r : Record) (l : Nat) :
    completing s r l = { r with flags := (completing s r l).flags } := by
  obtain ⟨fs, h⟩ : ∃ fs, r.exitTest l s.ws.exitTol = { r with flags := fs } := ⟨_, exitTest_rest r l s.ws.exitTol⟩
  unfold completing closing
  rw [h, contactTest_rest]

/-! ## What the consequences of a step leave of a close -/

theorem read32_twoWords {m : Memory} {a n : Nat} (h0 : m.read a = BitVec.ofNat 16 n)
    (h1 : m.read (a + 1) = BitVec.ofNat 16 (n / 65536)) (h : n < 2 ^ 32) : m.read32 a = n := by
  unfold Memory.read32
  rw [h0, h1, BitVec.toNat_ofNat, BitVec.toNat_ofNat]
  omega

/-- A slot that comes to read DONE is rejected neither before nor after. -/
theorem rejectedSlots_of_done {m n o : Memory} (h : ∀ k, slotState n k = slotState m k ∨ slotState o k = .done) :
    rejectedSlots m o = rejectedSlots n o := by
  refine List.filter_congr fun k _ => ?_
  rcases h k with e | e
  · rw [e]
  · rw [e]
    cases slotState m k <;> cases slotState n k <;> rfl

/-- The close of one record and the consequences of the step. -/
theorem Closes.settled {s u : State} {p : Record → Bool} {r : Record} {ws : List Word} (h : Closes s u p r ws) :
    CountsCloses s.mem u.settle.mem r.slot?.toList.length ∧
      (∀ n, r.slot? = some n → ∀ k, k < 64 → u.settle.mem.read (slotAt n + k) =
        if k = 0 then 3 else if 16 ≤ k ∧ k < 35 then ws.getD (k - 16) 0 else s.mem.read (slotAt n + k)) ∧
      (∀ e ∈ u.settle.flux.edges, e.ordinal ≠ r.ordinal) ∧ (∀ w ∈ u.settle.flux.active, w.ordinal ≠ r.ordinal) := by
  have follows := follows_settle u
  have active := settle_active u
  have rejects := rejects_settle u
  obtain ⟨t, ht⟩ : ∃ t, u.settle = t := ⟨_, rfl⟩
  rw [ht] at follows active rejects ⊢
  have done : ∀ n, r.slot? = some n → slotState u.mem n = .done := fun n hn => by
    have e : u.mem.read (slotAt n) = 3 := h.words n hn 0 (by decide)
    unfold slotState
    rw [e]
    rfl
  have words : ∀ n, r.slot? = some n → ∀ k, k < 64 → t.mem.read (slotAt n + k) = u.mem.read (slotAt n + k) := fun n hn =>
    follows.slots n (.inr (by rw [done n hn]; decide))
  refine ⟨?_, fun n hn k hk => (words n hn k hk).trans (h.words n hn k hk), fun e he => ?_, fun w hw => ?_⟩
  · have same : rejectedSlots s.mem t.mem = rejectedSlots u.mem t.mem := rejectedSlots_of_done fun k => by
      by_cases hk : r.slot? = some k
      · exact .inr ((slotState_congr (words k hk 0 (by decide))).trans (done k hk))
      · exact .inl (slotState_congr (h.others k hk 0 (by decide)))
    have count := rejects.count
    unfold CountsCloses at count ⊢
    rw [count, h.count, same, Nat.zero_add, BitVec.ofNat_add, BitVec.add_assoc]
  · have := follows.edges e he
    rw [h.edges, List.mem_filter, bne_iff_ne] at this
    exact this.2
  · have := active w hw
    rw [h.active, List.mem_filter, bne_iff_ne] at this
    exact this.2

/-- The owner of the next trailing edge stays where the newest record does (R13). -/
theorem getLast_eraseP {α : Type} {p : α → Bool} {l : List α} {x : α} (hf : l.find? p = some x) (hl : l.getLast? ≠ some x) :
    (l.eraseP p).getLast? = l.getLast? := by
  obtain ⟨hp, as, bs, rfl, none⟩ := List.find?_eq_some_iff_append.mp hf
  have e : (as ++ x :: bs).eraseP p = as ++ bs := by
    rw [List.eraseP_append_right _ (fun a ha => by simpa using none a ha), List.eraseP_cons_of_pos hp]
  rw [e]
  cases bs with
  | nil => simp at hl
  | cons b bs => simp [List.getLast?_append]

/-! ## The command -/

theorem contactTime_eq {width c : Nat} {v : Option Nat} (h0 : v = none → c = 0) (h1 : v = some 0 → c = 65535)
    (h2 : ∀ x, v = some x → x ≠ 0 → c = min (width * 6000 / x) 65535) : contactTime width v = c := by
  unfold contactTime
  split
  · exact (h0 rfl).symm
  · exact (h1 rfl).symm
  · next x hx => exact (h2 x rfl fun e => hx (by rw [e])).symm

/-- The traveller's words of a completed board, as the slot of `m` holds them (Table 2-4). -/
structure TravellerHeld (s : State) (r : Record) (l c : Nat) (m : Memory) (n : SlotIx) : Prop where
  origin : m.read (slotAt n + 16) = if r.origin = .docket then 1 else 2
  outcome : m.read (slotAt n + 17) = 1
  reason : m.read (slotAt n + 18) = 0
  revision : m.read (slotAt n + 19) = (r.recipe?.map (·.revision)).getD 0
  entry : m.read32 (slotAt n + 20) = r.entryTime.toNat
  exit : m.read32 (slotAt n + 22) = s.clock.toNat
  length : m.read (slotAt n + 24) = BitVec.ofNat 16 (r.length.getD 0)
  exitLength : m.read (slotAt n + 25) = BitVec.ofNat 16 l
  flags : m.read (slotAt n + 26) = (completing s r l).flags
  zones : m.read (slotAt n + 27) = r.zoneMask
  flux : r.flux < 2 ^ 32 → m.read32 (slotAt n + 28) = r.flux / 1000
  skipped : m.read (slotAt n + 30) = r.skipped
  incomplete : m.read (slotAt n + 31) = r.incomplete
  topside : m.read (slotAt n + 32) = wordOfTemp r.topside
  contact : m.read (slotAt n + 33) = BitVec.ofNat 16 c
  rpm : m.read (slotAt n + 34) = BitVec.ofNat 16 (r.minRpm.getD 0)

theorem travellerHeld (s : State) {r : Record} {l c : Nat} {m : Memory} {n : SlotIx} (hn : r.slot? = some n)
    (h : ∀ k, k < 19 → m.read (slotAt n + (k + 16)) =
      (travellerWords { r with flags := (completing s r l).flags } .completed s.clock l c).getD k 0) :
    TravellerHeld s r l c m n where
  origin := by
    refine (h 0 (by decide)).trans ?_
    have guest : r.origin ≠ .intruder := fun e => by
      unfold Record.slot? at hn
      rw [if_pos ((r.isIntruder_iff).mpr e)] at hn
      cases hn
    cases ho : r.origin
    · simp [travellerWords]
    · simp [travellerWords]
    · exact absurd ho guest
  outcome := h 1 (by decide)
  reason := h 2 (by decide)
  revision := h 3 (by decide)
  entry := read32_twoWords (h 4 (by decide)) (h 5 (by decide)) r.entryTime.isLt
  exit := read32_twoWords (h 6 (by decide)) (h 7 (by decide)) s.clock.isLt
  length := h 8 (by decide)
  exitLength := h 9 (by decide)
  flags := h 10 (by decide)
  zones := h 11 (by decide)
  flux hf := read32_twoWords (h 12 (by decide)) (h 13 (by decide)) (by omega)
  skipped := h 14 (by decide)
  incomplete := h 15 (by decide)
  topside := h 16 (by decide)
  contact := h 17 (by decide)
  rpm := h 18 (by decide)

/-- Settles O27: the close of the oldest EXITING record, on the state that has accepted the edge. -/
theorem exitTrailingEdgeClosesTheRecord : Obligations.ExitTrailingEdgeClosesTheRecord := by
  intro s p r l c ha ready find hl h0 h1 h2
  obtain ⟨a, hac⟩ : ∃ a : State, a = { s with
    track := { s.track with
      exitEye := { accepted := false, pendingAt := none, count := s.track.exitEye.count + 1 } } } := ⟨_, rfl⟩
  have eye : s.accepted .exit = a :=
    hac ▸ congrArg (fun q => { s with track := { s.track with exitEye := q } }) (accepted_trailing ha)
  have found : a.track.records.find? exiting = some r := by rw [hac]; exact find
  have same : a.clock = s.clock ∧ a.ws = s.ws := by rw [hac]; exact ⟨rfl, rfl⟩
  have time : contactTime a.ws.contactWidth r.minSpeed = c := by rw [same.2]; exact contactTime_eq h0 h1 h2
  have length : exitLength r p = l := hl.symm
  have run : exec (.eyeChangeAccepted .exit) s =
      .next (a.closeRecord exiting (r.exitTest l a.ws.exitTol) .completed l).settle := by
    rw [exec_eyeChangeAccepted ready, acceptEye_exitTrailing ha, eye]
    unfold State.exitTrailing
    rw [found]
    dsimp only
    rw [length]
  have closes := closeRecord_closes a exiting (r.exitTest l a.ws.exitTol) .completed l
  have rest := exitTest_rest r l a.ws.exitTol
  have slot : (r.exitTest l a.ws.exitTol).slot? = r.slot? := by rw [rest]; rfl
  have ordinal : (r.exitTest l a.ws.exitTol).ordinal = r.ordinal := by rw [rest]
  have speed : (r.exitTest l a.ws.exitTol).minSpeed = r.minSpeed := by rw [rest]
  have written : closing a (r.exitTest l a.ws.exitTol) = { r with flags := (completing a r l).flags } := completing_rest a r l
  rw [speed, written, time] at closes
  obtain ⟨count, words, edges, active⟩ := closes.settled
  obtain ⟨u, hu⟩ : ∃ u, a.closeRecord exiting (r.exitTest l a.ws.exitTol) .completed l = u := ⟨_, rfl⟩
  rw [hu] at run closes count words edges active
  rw [slot] at count words
  rw [ordinal] at edges active
  have heldNow := closes.held
  rw [slot] at heldNow
  have settled := kept_settle u
  have follows := follows_settle u
  have keeps := settled.keeps
  have frame := (closes.kept.trans settled).keeps
  obtain ⟨t, ht⟩ : ∃ t, u.settle = t := ⟨_, rfl⟩
  rw [ht] at run count words edges active settled follows keeps frame
  have places : t.track.records.map Record.place = (s.track.records.eraseP fun q => q.stage == .exiting).map Record.place := by
    rw [settled.places, closes.records, hac]
    rfl
  have owner : t.track.owner = u.track.owner := keeps.trackOwner
  have held : t.docket.held = u.docket.held := keeps.docketHeld
  refine ⟨t, run, places, frame.trackExitEye.trans (by rw [hac]; rfl), frame.trackPos.trans (by rw [hac]; rfl),
    frame.trackEntryEye.trans (by rw [hac]; rfl), frame.trackOrdinal.trans (by rw [hac]; rfl), fun hlast => ?_, edges, active,
    fun n hn => ?_, fun hn => ?_, ?_, ?_⟩
  · have stays := getLast_eraseP find hlast
    have records : a.track.records = s.track.records ∧ a.track.owner = s.track.owner := by rw [hac]; exact ⟨rfl, rfl⟩
    rw [owner, closes.owner, records.1, records.2]
    refine (congrArg (fun x => s.track.owner && x) (beq_iff_eq.mpr stays)).trans ?_
    rw [Bool.and_true]
  · have traveller : TravellerHeld a r l c t.mem n := travellerHeld a hn fun k hk =>
      (words n hn (k + 16) (by omega)).trans (by
        rw [if_neg (by omega), if_pos (by omega), Nat.add_sub_cancel])
    have state : t.mem.read (slotAt n) = 3 := words n hn 0 (by decide)
    have bit : ∀ f : Flag, (t.mem.read (slotAt n + 26)).getLsbD f.bit = (completing a r l).has f := fun f => by
      rw [traveller.flags]; rfl
    refine ⟨?_, state, traveller.origin, traveller.outcome, traveller.reason, traveller.revision, traveller.entry,
      traveller.exit.trans (by rw [same.1]), traveller.length, traveller.exitLength, fun f v hv => ?_, traveller.zones,
      traveller.flux, traveller.skipped, traveller.incomplete, fun h => ?_, fun v h => ?_, traveller.contact, traveller.rpm,
      follows.notices _ (closes.closed n (slot.trans hn))⟩
    · rw [held, heldNow, hn, hac]; rfl
    · rw [hv, bit]
      have has := completing_has a r l f
      rw [time, same.2] at has
      refine ⟨fun h => ?_, fun h => ?_, fun h => ?_, fun h h' h'' => ?_⟩
      · rw [has, h]; simp
      · rw [has, h]; simp
      · rw [has, h]; simp
      · exact Bool.eq_iff_iff.mpr (has.trans (by simp [h, h', h'']))
    · rw [traveller.topside, h]; rfl
    · rw [traveller.topside, h]; rfl
  · refine ⟨?_, follows.notices _ (closes.intruder (slot.trans hn))⟩
    rw [held, heldNow, hn, hac]; rfl
  · have len : (if r.slot? = none then 0 else 1) = r.slot?.toList.length := by cases r.slot? <;> rfl
    have mem : a.mem = s.mem := by rw [hac]
    rw [len, ← mem]
    exact count
  · have accepted : t.track.exitEye = a.track.exitEye := frame.trackExitEye
    rw [owner, held, accepted]
    subst hac
    exact frame

end Sys2Proof.Machine
end



section
/-! The docket unit inside the consequences of a step: every stage but the slot scan leaves the docket unit's findings, E and the
slots alone. -/

namespace Sys2Proof.Machine

open Sys2Proof.Config

/-- What every stage but the slot scan leaves: the docket unit but for the offer, memory but for the tank mirror, the setup. -/
structure Aside (s t : State) : Prop where
  docket : t.docket = { s.docket with offer := t.docket.offer }
  mem : MirrorOnly s.mem t.mem
  setup : t.port.setup = s.port.setup

theorem Aside.of_same {s t : State} (hd : t.docket = s.docket) (hm : t.mem = s.mem) (hp : t.port.setup = s.port.setup) :
    Aside s t :=
  ⟨by rw [hd], .refl' hm, hp⟩

theorem Aside.trans {s t u : State} (h : Aside s t) (g : Aside t u) : Aside s u := by
  refine ⟨?_, h.mem.trans g.mem, g.setup.trans h.setup⟩
  rw [g.docket, h.docket]

theorem aside_reform (s : State) : Aside s s.reform := by
  have before : Aside s s.beforeInhibit := .of_same (by simp [State.beforeInhibit])
    (blocks_beforeInhibit s).2.2.1 (blocks_beforeInhibit s).2.2.2.2
  have inhibit : Aside s.beforeInhibit s.beforeInhibit.reformInhibit :=
    ⟨by simp, mirrorOnly_reformInhibit _, (kept_reformInhibit _).keeps.portSetup⟩
  have e : s.reform = s.beforeInhibit.reformInhibit.cutGrants.reformTargets.reformMotion.reformWaits.reformIdle.reformLine := rfl
  rw [e]
  exact (before.trans inhibit).trans (.of_same (by simp) (by simp) (by simp))

theorem aside_changeover (fuel : Nat) (s : State) : Aside s (s.changeover fuel) :=
  .of_same (by simp) (by simp) (by simp)

theorem aside_gateTransition (s : State) : Aside s s.gateTransition := by
  refine ⟨?_, .refl' (by simp), by simp⟩
  unfold State.gateTransition
  split
  · split
    · unfold State.openGate; split <;> rfl
    · rfl
  · split
    · rfl
    · split <;> rfl
  · split <;> rfl
  · rfl

/-- What a gate evaluation does after the slot scan. -/
theorem aside_afterScan (s : State) : Aside s ((s.takeClass.changeover 8).takeHolds).gateTransition := by
  have cls : Aside s s.takeClass := .of_same (by simp) (by simp) (by simp)
  have holds : Aside (s.takeClass.changeover 8) (s.takeClass.changeover 8).takeHolds := .of_same (by simp) (by simp) (by simp [State.takeHolds])
  exact ((cls.trans (aside_changeover 8 _)).trans holds).trans (aside_gateTransition _)

/-- A relation that slot scans and the other stages keep holds over the consequences of a step. -/
theorem lift_docket {R : State → State → Prop} (trans : ∀ {s t u}, R s t → R t u → R s u)
    (aside : ∀ {s t}, Aside s t → R s t) (scan : ∀ s, R s s.reformDocket) (s : State) :
    R s s.settle ∧ R s s.gateEval ∧ R s s.settleEval := by
  have eval : ∀ u : State, R u u.gateEval := fun u => trans (scan u) (aside (aside_afterScan _))
  have stage : ∀ u : State, R u u.gateStage := fun u => by
    rcases State.gateStage_cases u with h | h | h | h <;> rw [h]
    · exact aside (.of_same rfl rfl rfl)
    · exact eval u
    · exact aside (aside_changeover 8 u)
    · exact trans (aside (aside_changeover 8 u)) (eval _)
  have pass : ∀ u : State, R u u.pass := fun u => trans (aside (aside_reform u)) (stage _)
  have settle : ∀ u : State, R u u.settle := fun u => trans (trans (pass u) (pass _)) (aside (aside_reform _))
  exact ⟨settle s, eval s, trans (trans (aside (aside_reform s)) (eval _)) (settle _)⟩

/-! ## What the scan works on -/

theorem Aside.read {s t : State} (h : Aside s t) (n : SlotIx) (k : Nat) : t.mem.read (slotAt n + k) = s.mem.read (slotAt n + k) := by
  have b := slotAt_bounds n
  exact h.mem _ (by omega) (by omega)

theorem Aside.postedSlots {s t : State} (h : Aside s t) : postedSlots t = postedSlots s := by
  unfold Machine.postedSlots
  rw [h.docket]
  refine List.filter_congr fun n _ => ?_
  rw [slotState_congr (h.read n 0)]

/-- A slot waits: it reads POSTED and is not held (R22). -/
theorem mem_postedSlots (s : State) (n : SlotIx) :
    n ∈ postedSlots s ↔ slotState s.mem n = .posted ∧ n ∉ s.docket.held := by
  have every : n ∈ allSlots := by revert n; decide
  simp [postedSlots, every, and_comm]

/-- The posted slots at E (R24). -/
def slotsAtE (s : State) : List SlotIx :=
  (postedSlots s).filter fun n => slotSequence s.mem n == s.docket.expected

theorem mem_slotsAtE (s : State) (n : SlotIx) : n ∈ slotsAtE s ↔
    (slotState s.mem n = .posted ∧ n ∉ s.docket.held) ∧ s.mem.read (slotAt n + 1) = s.docket.expected := by
  rw [slotsAtE, List.mem_filter, mem_postedSlots, beq_iff_eq]
  rfl

theorem Aside.slotsAtE {s t : State} (h : Aside s t) : slotsAtE t = slotsAtE s := by
  unfold Machine.slotsAtE
  rw [h.postedSlots, h.docket]
  refine List.filter_congr fun n _ => ?_
  unfold slotSequence
  rw [h.read n 1]

/-- The posted slots behind E (R23). -/
def slotsBehind (s : State) : List SlotIx :=
  (postedSlots s).filter fun n => isStale s.docket.expected (slotSequence s.mem n)

theorem slotScan_none {s : State} (h : slotsAtE s = []) (k : Nat) :
    s.slotScan (k + 1) = (s.rejectSlots (slotsBehind s) .stale).findings none none true false false := by
  rw [State.slotScan]
  dsimp only
  rw [show (postedSlots s).filter (fun n => slotSequence s.mem n == s.docket.expected) = [] from h]
  rfl

/-! ## Rejected slots (R36) -/

theorem rejectSlot_words (s : State) {n x : SlotIx} (h : x ≠ n) (r : RejectReason) {k : Nat} (hk : k < 64) :
    (s.rejectSlot n r).mem.read (slotAt x + k) = s.mem.read (slotAt x + k) :=
  read_other_slot h _ _ (emptyResult_length 0 r.code) hk

theorem rejectSlots_words (s : State) {ns : List SlotIx} {x : SlotIx} (h : x ∉ ns) (r : RejectReason) {k : Nat} (hk : k < 64) :
    (s.rejectSlots ns r).mem.read (slotAt x + k) = s.mem.read (slotAt x + k) := by
  unfold State.rejectSlots
  induction ns generalizing s with
  | nil => rfl
  | cons n ns ih =>
    obtain ⟨ne, rest⟩ := not_or.mp (List.mem_cons.not.mp h)
    exact (ih _ rest).trans (rejectSlot_words s ne r hk)

/-- The docket words of a slot stay when slots are rejected. -/
theorem Kept.docketWord {s t : State} (h : Kept s t) (n : SlotIx) {k : Nat} (h1 : 1 ≤ k) (h2 : k < 16) :
    t.mem.read (slotAt n + k) = s.mem.read (slotAt n + k) := by
  have b := slotAt_bounds n
  have e : slotAt n = 0x1000 + 64 * n.val := rfl
  exact h.mem.quiet _ ⟨by omega, by omega⟩

theorem rejectSlots_state {ns : List SlotIx} {x : SlotIx} (s : State) (h : x ∈ ns) (r : RejectReason) :
    slotState (s.rejectSlots ns r).mem x = .rejected := by
  unfold State.rejectSlots
  induction ns generalizing s with
  | nil => cases h
  | cons n ns ih =>
    by_cases hx : x ∈ ns
    · exact ih _ hx
    · obtain rfl := (List.mem_cons.mp h).resolve_right hx
      exact (rejectSlots_slotState (s := s.rejectSlot x r) hx).trans (rejectSlot_rejected s x r)

theorem mem_postedSlots_rejectSlots (s : State) (ns : List SlotIx) (r : RejectReason) (x : SlotIx) :
    x ∈ postedSlots (s.rejectSlots ns r) ↔ x ∈ postedSlots s ∧ x ∉ ns := by
  rw [mem_postedSlots, mem_postedSlots, rejectSlots_held]
  by_cases h : x ∈ ns
  · rw [rejectSlots_state s h r]
    exact ⟨fun c => absurd c.1 (by decide), fun c => absurd h c.2⟩
  · rw [rejectSlots_slotState h]
    exact ⟨fun c => ⟨c, h⟩, fun c => c.1⟩

theorem mem_slotsAtE_rejectSlots (s : State) (ns : List SlotIx) (r : RejectReason) (x : SlotIx) :
    x ∈ slotsAtE (s.rejectSlots ns r) ↔ x ∈ slotsAtE s ∧ x ∉ ns := by
  have word : (s.rejectSlots ns r).mem.read (slotAt x + 1) = s.mem.read (slotAt x + 1) :=
    (kept_rejectSlots s ns r).docketWord x (by decide) (by decide)
  rw [mem_slotsAtE, mem_slotsAtE, ← mem_postedSlots, ← mem_postedSlots, mem_postedSlots_rejectSlots, rejectSlots_docket, word]
  exact and_right_comm

theorem word3_rejectSlots (s : State) (ns : List SlotIx) (r : RejectReason) :
    (s.rejectSlots ns r).mem.read 3 = s.mem.read 3 := by
  unfold State.rejectSlots
  induction ns generalizing s with
  | nil => rfl
  | cons n ns ih => exact (ih _).trans (tankWords_rejectSlot s n r (by decide))

/-! ## E stays -/

/-- A relation between states that a re-forming of the docket unit's findings has where each of its branches has it. -/
theorem reformDocket_cases {R : State → Prop} {s : State} (same : R s)
    (scan : s.docket.source = .docket → R (s.slotScan 65)) (found : ∀ c n a b d, R (s.findings c n a b d)) :
    R s.reformDocket := by
  unfold State.reformDocket
  split
  · exact same
  · exact same
  · split
    · next hs =>
      split
      · exact scan hs
      · exact found _ _ _ _ _
    · split <;> exact found _ _ _ _ _

/-- E and its mirror stay where no posted slot stands at E, and then none does after. -/
def UnmatchedStays (s t : State) : Prop :=
  slotsAtE s = [] →
    t.docket.expected = s.docket.expected ∧ t.mem.read 3 = s.mem.read 3 ∧ slotsAtE t = []

theorem unmatchedStays_findings (s : State) (c : Option SlotIx) (n : Option NextBoard) (a b d : Bool) :
    UnmatchedStays s (s.findings c n a b d) := fun h => ⟨rfl, rfl, h⟩

theorem Aside.word3 {s t : State} (h : Aside s t) : t.mem.read 3 = s.mem.read 3 :=
  h.mem 3 (by decide) (by decide)

/-- With no posted slot at E, E and its mirror stay (R25). -/
theorem unmatchedStays_lift (s : State) :
    UnmatchedStays s s.settle ∧ UnmatchedStays s s.gateEval ∧ UnmatchedStays s s.settleEval := by
  have trans : ∀ {s t u}, UnmatchedStays s t → UnmatchedStays t u → UnmatchedStays s u := fun f g x => by
    obtain ⟨e, m, l⟩ := f x
    obtain ⟨e', m', l'⟩ := g l
    exact ⟨e'.trans e, m'.trans m, l'⟩
  have aside : ∀ {s t}, Aside s t → UnmatchedStays s t := fun a h =>
    ⟨by rw [a.docket], a.word3, a.slotsAtE.trans h⟩
  refine lift_docket (R := UnmatchedStays) trans aside (fun u => ?_) s
  refine reformDocket_cases (R := UnmatchedStays u) (fun h => ⟨rfl, rfl, h⟩) (fun _ h => ?_) (unmatchedStays_findings u)
  rw [slotScan_none h]
  have left : slotsAtE (u.rejectSlots (slotsBehind u) .stale) = [] := by
    refine List.eq_nil_iff_forall_not_mem.mpr fun n hn => ?_
    rw [mem_slotsAtE_rejectSlots, h] at hn
    exact absurd hn.1 List.not_mem_nil
  obtain ⟨e, m, l⟩ := unmatchedStays_findings (u.rejectSlots (slotsBehind u) .stale) none none true false false left
  rw [rejectSlots_docket] at e
  exact ⟨e, m.trans (word3_rejectSlots ..), l⟩

theorem unmatchedStays_settleEval (s : State) : UnmatchedStays s s.settleEval := (unmatchedStays_lift s).2.2

/-- E and its mirror stay in the STANDING source, which stays. -/
def StandingStays (s t : State) : Prop :=
  s.docket.source ≠ .docket →
    t.docket.expected = s.docket.expected ∧ t.mem.read 3 = s.mem.read 3 ∧ t.docket.source ≠ .docket

/-- In the STANDING source there is no scan, and E and its mirror stay (R26). -/
theorem standingStays_settleEval (s : State) : StandingStays s s.settleEval := by
  have trans : ∀ {s t u}, StandingStays s t → StandingStays t u → StandingStays s u := fun f g x => by
    obtain ⟨e, m, l⟩ := f x
    obtain ⟨e', m', l'⟩ := g l
    exact ⟨e'.trans e, m'.trans m, l'⟩
  have aside : ∀ {s t}, Aside s t → StandingStays s t := fun a h =>
    ⟨by rw [a.docket], a.word3, by rw [a.docket]; exact h⟩
  refine (lift_docket (R := StandingStays) trans aside (fun u => ?_) s).2.2
  exact reformDocket_cases (R := StandingStays u) (fun h => ⟨rfl, rfl, h⟩) (fun hs h => absurd hs h) (fun _ _ _ _ _ h => ⟨rfl, rfl, h⟩)

end Sys2Proof.Machine
end



section
/-! The admission of a board (1.5, 2.8, 3.3, 4.2): O23. -/

namespace Sys2Proof.Machine

open Sys2Proof.Config

/-! ## The spray edges of a board (R62, R63) -/

theorem mem_insertEdge (e x : Edge) (l : List Edge) : x ∈ insertEdge e l ↔ x = e ∨ x ∈ l := by
  induction l with
  | nil => simp [insertEdge]
  | cons y l ih =>
    unfold insertEdge
    split
    · rw [List.mem_cons, ih, List.mem_cons]; exact or_left_comm
    · simp

theorem mem_insertWindows (lead : Pos) (f : Nat) (o : BitVec 16) (ws : List Window) (k : Nat) (l : List Edge) (x : Edge) :
    x ∈ insertWindows lead f o k ws l ↔ x ∈ l ∨ ∃ i w, ws[i]? = some w ∧ x ∈ windowEdges lead f o (k + i) w := by
  induction ws generalizing k l with
  | nil => simp [insertWindows]
  | cons v ws ih =>
    unfold insertWindows
    rw [ih]
    have two : x ∈ (windowEdges lead f o k v).foldl (fun l e => insertEdge e l) l ↔
        x ∈ l ∨ x ∈ windowEdges lead f o k v := by
      simp only [windowEdges, List.foldl_cons, List.foldl_nil, mem_insertEdge, List.mem_cons, List.not_mem_nil, or_false]
      rw [← or_assoc, or_comm, or_comm (a := x = _)]
    rw [two, or_assoc]
    refine or_congr_right ⟨fun h => ?_, fun ⟨i, w, hi, hx⟩ => ?_⟩
    · rcases h with h | ⟨i, w, hi, hx⟩
      · exact ⟨0, v, rfl, h⟩
      · exact ⟨i + 1, w, hi, by rw [show k + (i + 1) = k + 1 + i by omega]; exact hx⟩
    · cases i with
      | zero =>
        obtain rfl := Option.some.inj hi
        exact .inl hx
      | succ i => exact .inr ⟨i, w, hi, by rw [show k + 1 + i = k + (i + 1) by omega]; exact hx⟩

theorem mem_windowEdges (lead : Pos) (f : Nat) (o : BitVec 16) (k : Nat) (w : Window) (x : Edge) :
    x ∈ windowEdges lead f o k w ↔
      x = ⟨lead + BitVec.ofNat 32 (f + 10 * w.start), o, k, true, w.lanes, w.duty⟩ ∨
        x = ⟨lead + BitVec.ofNat 32 (f + 10 * w.stop), o, k, false, w.lanes, w.duty⟩ := by
  simp [windowEdges, tenths]

/-- The edges that an admission leaves (R63). -/
theorem scheduleEdges_edges (s : State) (o : BitVec 16) (p : Pos) (f : Offer) (x : Edge) :
    x ∈ (s.scheduleEdges o p f).flux.edges ↔ x ∈ s.flux.edges ∨ (f.skipFlux = false ∧ ∃ k w, f.recipe.windows[k]? = some w ∧
      (x = ⟨p + BitVec.ofNat 32 (s.ws.barF + 10 * w.start), o, k, true, w.lanes, w.duty⟩ ∨
        x = ⟨p + BitVec.ofNat 32 (s.ws.barF + 10 * w.stop), o, k, false, w.lanes, w.duty⟩)) := by
  unfold State.scheduleEdges
  cases f.skipFlux
  · rw [if_neg (by decide)]
    simp only [mem_insertWindows, mem_windowEdges, Nat.zero_add, true_and]
  · simp

/-! ## The lists of the flux unit in the consequences of a step -/

theorem settleEval_flux (s : State) : s.settleEval.flux = s.settle.flux :=
  (settleEval_calm s).flux.trans (settle_flux s).symm

theorem fluxSettles_settleEval (s : State) : FluxSettles s s.settleEval := by
  obtain ⟨still, begins⟩ := fluxSettles_settle s
  constructor <;> unfold InhibitBegins <;> rw [settleEval_flux]
  · exact still
  · exact begins

theorem endPurge_lists (s : State) : s.endPurge.flux.edges = s.flux.edges ∧ s.endPurge.flux.active = s.flux.active ∧
    s.endPurge.flux.pulses = s.flux.pulses ∧ s.endPurge.flux.inhibit = s.flux.inhibit := by
  unfold State.endPurge
  cases hg : s.flux.purge with
  | none => exact ⟨rfl, rfl, rfl, rfl⟩
  | some g => rw [creditPurge_some hg]; exact ⟨rfl, rfl, rfl, rfl⟩

theorem appendAtBar_lists (s : State) : s.appendAtBar.flux.edges = s.flux.edges ∧ s.appendAtBar.flux.active = s.flux.active := by
  obtain ⟨edges, active, -, -⟩ := endPurge_lists s
  unfold State.appendAtBar
  split
  · split
    · exact ⟨edges, active⟩
    · exact ⟨rfl, rfl⟩
  · exact ⟨rfl, rfl⟩

/-- A CLOSE edge of a window that is not active stays, and so does every OPEN edge. -/
theorem FluxSettles.stays {a t : State} (h : FluxSettles a t) {e : Edge} (he : e ∈ a.flux.edges)
    (ho : e.opens = true ∨ ∀ w ∈ a.flux.active, w.ordinal ≠ e.ordinal) : e ∈ t.flux.edges := by
  by_cases b : InhibitBegins a t
  · obtain ⟨-, -, -, edges⟩ := h.begins b
    rw [edges, List.mem_filter]
    refine ⟨he, ?_⟩
    rcases ho with ho | ho
    · rw [ho]; rfl
    · have none : (a.flux.active.any fun w => w.ordinal == e.ordinal && w.window == e.window) = false := by
        refine List.any_eq_false.mpr fun w hw c => ho w hw ?_
        exact eq_of_beq (Bool.and_eq_true_iff.mp c).1
      rw [none]
      simp
  · rw [(h.still b).1]; exact he

/-! ## The flags that no consequence of a step sets -/

/-- The flags of a record but for DWELL, WAVE_INTERRUPTED and FLUX_INCOMPLETE, which consequences of a step set (R9, R73, R130). -/
def SameFlags (r q : Record) : Prop :=
  ∀ f, f ≠ .dwell → f ≠ .waveInterrupted → f ≠ .fluxIncomplete → q.has f = r.has f

theorem SameFlags.refl (r : Record) : SameFlags r r := fun _ _ _ _ => rfl

theorem SameFlags.trans {r q x : Record} (h : SameFlags r q) (g : SameFlags q x) : SameFlags r x :=
  fun f a b c => (g f a b c).trans (h f a b c)

theorem sameFlags_refl (rs : List Record) : List.Forall₂ SameFlags rs rs := List.forall₂_same.mpr fun r _ => .refl r

theorem sameFlags_trans {rs qs xs : List Record} (h : List.Forall₂ SameFlags rs qs) (g : List.Forall₂ SameFlags qs xs) :
    List.Forall₂ SameFlags rs xs :=
  (forall₂_comp h g).imp fun _ _ ⟨_, a, b⟩ => a.trans b

theorem sameFlags_map {f : Record → Record} (h : ∀ r, SameFlags r (f r)) (rs : List Record) :
    List.Forall₂ SameFlags rs (rs.map f) := by
  rw [List.forall₂_map_right_iff]
  exact List.forall₂_same.mpr fun r _ => h r

theorem Record.has_flags {r q : Record} (h : q.flags = r.flags) (f : Flag) : q.has f = r.has f := by
  unfold Record.has; rw [h]

theorem sameFlags_stopMarks (s : State) (r : Record) : SameFlags r (stopMarks s r) := fun f h h' _ => by
  unfold stopMarks
  rw [Record.has_markIf, Record.has_markIf, beq_eq_false_iff_ne.mpr (Ne.symm h), beq_eq_false_iff_ne.mpr (Ne.symm h')]
  simp

theorem sameFlags_markIncomplete (ws : List ActiveWindow) (rs : List Record) :
    List.Forall₂ SameFlags rs (markIncomplete ws rs) := by
  unfold markIncomplete
  induction ws generalizing rs with
  | nil => exact sameFlags_refl rs
  | cons w ws ih =>
    refine sameFlags_trans (sameFlags_map (fun r f _ _ h => ?_) rs) (ih _)
    split
    · have e : (({ r with incomplete := r.incomplete ||| bitMask w.window } : Record).mark .fluxIncomplete).has f =
          (r.markIf true .fluxIncomplete).has f := Record.has_flags rfl f
      rw [e, Record.has_markIf, beq_eq_false_iff_ne.mpr (Ne.symm h)]
      simp
    · rfl

theorem RecordsTake.sameFlags {c : BitVec 16 → Nat} {rs qs : List Record} (h : RecordsTake c rs qs) :
    List.Forall₂ SameFlags rs qs :=
  List.Forall₂.imp (fun r q (x : FluxTakes _ r q) => fun f _ _ _ => Record.has_flags (by rw [x.1]) f) h

theorem sameFlags_reformInhibit (s : State) : List.Forall₂ SameFlags s.track.records s.reformInhibit.track.records := by
  have cut : List.Forall₂ SameFlags s.track.records s.beginInhibit.track.records := by
    have pulses := (cutPulses_ends s (fun _ => true) true).records.sameFlags
    have purge : (s.cutPulses (fun _ => true) true).endPurge.track.records = (s.cutPulses (fun _ => true) true).track.records := by
      rw [endPurge_frame]
    exact sameFlags_trans (purge ▸ pulses) (sameFlags_markIncomplete _ _)
  unfold State.reformInhibit
  dsimp only
  split
  · exact cut
  · exact sameFlags_refl _

theorem Move.sameFlags {s t : State} (m : Move s t) : List.Forall₂ SameFlags s.track.records t.track.records := by
  cases m with
  | inhibit => exact sameFlags_reformInhibit s
  | ref =>
    have records : s.reformRef.track.records = s.track.records.map (stopMarks s) := by
      unfold State.reformRef Track.refer; dsimp only; split <;> rfl
    rw [records]
    exact sameFlags_map (sameFlags_stopMarks s) _
  | mode => simpa using sameFlags_refl _
  | fans => simpa using sameFlags_refl _
  | transition => simpa using sameFlags_refl _
  | _ => exact sameFlags_refl _

theorem Moves.sameFlags {s t : State} (m : Moves s t) : List.Forall₂ SameFlags s.track.records t.track.records :=
  m.lift (R := fun s t => List.Forall₂ SameFlags s.track.records t.track.records) (fun _ => sameFlags_refl _)
    (fun h g => sameFlags_trans h g) fun m => m.sameFlags

/-! ## The slot of an admitted board (R34) -/

theorem standingWords_length (o : Offer) : (standingWords o).length = 16 := rfl

theorem word3_setExpected (s : State) (e : Word) : (s.setExpected e).mem.read 3 = e := by
  unfold State.setExpected
  rw [Memory.read_write]
  exact if_pos rfl

/-- What a binding writes (R34): ADMITTED, with E and its mirror for a DOCKET board, with the docket words for a STANDING one. -/
theorem bindSlot_words (s : State) (o : Offer) (ho : o.origin ≠ .intruder) :
    (s.bindSlot o).mem.read (slotAt o.slot) = 2 ∧
      (o.origin = .docket → MemKept s.mem (s.bindSlot o).mem ∧ (s.bindSlot o).docket.expected = s.docket.expected + 1 ∧
        (s.bindSlot o).mem.read 3 = s.docket.expected + 1 ∧
        ∀ n : SlotIx, n ≠ o.slot → ∀ k, k < 64 → (s.bindSlot o).mem.read (slotAt n + k) = s.mem.read (slotAt n + k)) ∧
      (o.origin = .standing → (s.bindSlot o).docket.expected = s.docket.expected ∧
        (∀ k, 1 ≤ k → k < 17 → (s.bindSlot o).mem.read (slotAt o.slot + k) = (standingWords o).getD (k - 1) 0) ∧
        ∀ a, a < slotAt o.slot ∨ slotAt o.slot + 64 ≤ a → (s.bindSlot o).mem.read a = s.mem.read a) := by
  have b := slotAt_bounds o.slot
  have len := standingWords_length o
  unfold State.bindSlot
  cases h : o.origin with
  | intruder => exact absurd h ho
  | docket =>
    dsimp only
    refine ⟨?_, fun _ => ⟨?_, rfl, ?_, fun n hn k hk => ?_⟩, (fun c => by cases c)⟩
    · rw [State.setExpected, Memory.read_write, if_neg (by simp [mirrorEAt]; omega), Memory.read_write, if_pos rfl]
    · have admitted : MemKept s.mem (s.mem.write (slotAt o.slot) 2) :=
        MemKept.writeBlock s.mem (slotAt o.slot) [2] (by simp; omega) fun a q => by
          have e : slotAt o.slot = 0x1000 + 64 * o.slot.val := rfl
          unfold quietWord at q
          simp
          omega
      exact admitted.trans (kept_setExpected ({ s with
        docket := { s.docket with held := s.docket.held ++ [o.slot], offer := none }
        mem := s.mem.write (slotAt o.slot) 2 }) (s.docket.expected + 1)).mem
    · exact word3_setExpected _ _
    · have apart : slotAt n + k ≠ slotAt o.slot := fun e => hn (Fin.ext (by
        have e1 : slotAt o.slot = 0x1000 + 64 * o.slot.val := rfl
        have e2 : slotAt n = 0x1000 + 64 * n.val := rfl
        omega))
      have bn := slotAt_bounds n
      rw [State.setExpected, Memory.read_write, if_neg (by simp [mirrorEAt]; omega), Memory.read_write, if_neg apart]
  | standing =>
    dsimp only
    refine ⟨?_, (fun c => by cases c), fun _ => ⟨rfl, fun k h1 h2 => ?_, fun a ha => ?_⟩⟩
    · rw [Memory.read_write, if_pos rfl]
    · rw [Memory.read_write, if_neg (by omega), Memory.read_writeBlock, if_pos (by omega),
        show slotAt o.slot + k - (slotAt o.slot + 1) = k - 1 by omega]
    · rw [Memory.read_write, if_neg (by omega), Memory.read_writeBlock, if_neg (by omega)]

theorem bindSlot_docket (s : State) (o : Offer) : (s.bindSlot o).docket.held = s.docket.held ++ [o.slot] ∧
    (s.bindSlot o).docket.offer = none ∧ (s.bindSlot o).docket.source = s.docket.source := by
  unfold State.bindSlot State.setExpected
  dsimp only
  split <;> exact ⟨rfl, rfl, rfl⟩

/-- What an admission leaves (R46). -/
structure Admits (s b : State) (p : Pos) (o : Offer) (late : Bool) : Prop where
  core : b.core = { s.core with
    track := { s.core.track with
      ordinal := s.track.ordinal + 1, owner := true
      records := (s.track.records ++ [newRecord s p o.origin (some o.binding) late]).map Record.core }
    docket := { s.core.docket with held := s.docket.held ++ [o.slot] } }
  records : b.track.records = s.track.records ++ [newRecord s p o.origin (some o.binding) late]
  mem : b.mem = (s.bindSlot o).mem
  docket : b.docket = (s.bindSlot o).docket
  gate : b.gate = s.gate.enter .receiving
  active : b.flux.active = s.flux.active
  edges : ∀ x, x ∈ b.flux.edges ↔
    x ∈ s.flux.edges ∨ (o.skipFlux = false ∧ ∃ k w, o.recipe.windows[k]? = some w ∧
      (x = ⟨p + BitVec.ofNat 32 (s.ws.barF + 10 * w.start), s.track.ordinal + 1, k, true, w.lanes, w.duty⟩ ∨
        x = ⟨p + BitVec.ofNat 32 (s.ws.barF + 10 * w.stop), s.track.ordinal + 1, k, false, w.lanes, w.duty⟩))

theorem newRecord_ordinal (s : State) (p : Pos) (g : Origin) (b : Option Binding) (late : Bool) :
    (newRecord s p g b late).ordinal = s.track.ordinal + 1 := by
  unfold newRecord Record.markIf; split <;> rfl

theorem bindSlot_frame (s : State) (o : Offer) :
    s.bindSlot o = { s with mem := (s.bindSlot o).mem, docket := (s.bindSlot o).docket } := by
  unfold State.bindSlot
  dsimp only
  split <;> rfl

theorem bindSlot_append (s : State) (r : Record) (o : Offer) :
    ((s.append r).bindSlot o).mem = (s.bindSlot o).mem ∧ ((s.append r).bindSlot o).docket = (s.bindSlot o).docket := by
  unfold State.bindSlot
  dsimp only
  split <;> exact ⟨rfl, rfl⟩

theorem scheduleEdges_frame (s : State) (n : BitVec 16) (p : Pos) (o : Offer) :
    s.scheduleEdges n p o = { s with flux := { s.flux with edges := (s.scheduleEdges n p o).flux.edges } } := by
  unfold State.scheduleEdges
  split <;> rfl

theorem admitBoard_admits (s : State) (p : Pos) (o : Offer) (late : Bool) : Admits s (s.admitBoard p o late) p o late := by
  have number := newRecord_ordinal s p o.origin (some o.binding) late
  obtain ⟨r, hr⟩ : ∃ r, newRecord s p o.origin (some o.binding) late = r := ⟨_, rfl⟩
  obtain ⟨v, hv⟩ : ∃ v, (s.append r).bindSlot o = v := ⟨_, rfl⟩
  obtain ⟨w, hw⟩ : ∃ w, v.scheduleEdges r.ordinal p o = w := ⟨_, rfl⟩
  have e : s.admitBoard p o late = { w with gate := w.gate.enter .receiving } := by rw [← hw, ← hv, ← hr]; rfl
  obtain ⟨mem, docket⟩ := bindSlot_append s r o
  have frameV := bindSlot_frame (s.append r) o
  rw [mem, docket, hv] at frameV
  have frameW := scheduleEdges_frame v r.ordinal p o
  have edges := scheduleEdges_edges v r.ordinal p o
  rw [hw] at frameW edges
  obtain ⟨held, offer, source⟩ := bindSlot_docket s o
  rw [e]
  rw [hr] at number
  have same : v.flux = s.flux ∧ v.ws = s.ws := by rw [frameV]; exact ⟨rfl, rfl⟩
  rw [number, same.1, same.2] at edges
  obtain ⟨es, hes⟩ : ∃ es, w.flux.edges = es := ⟨_, rfl⟩
  rw [hes] at frameW edges
  subst frameV
  subst frameW
  refine ⟨?_, hr ▸ rfl, rfl, rfl, rfl, rfl, edges⟩
  unfold State.core
  dsimp only [State.append]
  rw [held, source, number, hr]
  rfl

/-! ## The command -/

theorem handLeading_offer {s : State} {o : Offer} (h : s.gate.state = .opened ∨ s.gate.state = .late)
    (ho : s.docket.offer = some o) (p : Pos) : s.handLeading p = s.admitBoard p o (s.gate.state == .late) := by
  unfold State.handLeading
  rcases h with h | h <;> rw [h, ho] <;> rfl

/-- What a record is at its admission (Table 1-2). -/
theorem newRecord_fields (s : State) (p : Pos) (g : Origin) (b : Option Binding) (late : Bool) :
    (newRecord s p g b late).place = (s.track.ordinal + 1, g, b, p, none, .entering) ∧
      (fun r : Record => (r.entryTime, r.length, r.topside, r.exitLead, r.jam)) (newRecord s p g b late) =
        (s.clock, none, none, none, false) ∧
      (newRecord s p g b late).has .lateAdmit = late := by
  cases late
  · exact ⟨rfl, rfl, by simp [newRecord, Record.markIf, Record.has]⟩
  · exact ⟨rfl, rfl, Record.mark_has _ .lateAdmit⟩

/-- No posted slot stands at the next number after an admission, where none but the admitted one did before. -/
theorem slotsAtE_admitted {s b : State} {o : Offer} (held : b.docket.held = s.docket.held ++ [o.slot])
    (expected : b.docket.expected = s.docket.expected + 1)
    (words : ∀ n : SlotIx, n ≠ o.slot → ∀ k, k < 64 → b.mem.read (slotAt n + k) = s.mem.read (slotAt n + k))
    (next : ∀ n : SlotIx, slotState s.mem n = .posted → n ∉ s.docket.held → n ≠ o.slot →
      s.mem.read (slotAt n + 1) ≠ s.docket.expected + 1) : slotsAtE b = [] := by
  refine List.eq_nil_iff_forall_not_mem.mpr fun n hn => ?_
  obtain ⟨⟨posted, free⟩, number⟩ := (mem_slotsAtE b n).mp hn
  rw [held, List.mem_append, List.mem_singleton, not_or] at free
  rw [slotState_congr (words n free.2 0 (by decide))] at posted
  rw [words n free.2 1 (by decide), expected] at number
  exact next n posted free.1 free.2 number

theorem mirrorOnly_appendAtBar (s : State) : MirrorOnly s.mem s.appendAtBar.mem := by
  unfold State.appendAtBar
  split
  · split
    · exact mirrorOnly_endPurge s
    · exact .refl _
  · exact .refl _

theorem records_appendAtBar (s : State) : s.appendAtBar.track.records = s.track.records := by
  unfold State.appendAtBar
  split
  · split
    · rw [endPurge_frame]
    · rfl
  · rfl

/-- Settles O23: the admission on the state that has accepted the edge; what follows keeps the record, its slot and its edges. -/
theorem leadingEdgeOnAnOfferAdmitsTheBoard : Obligations.LeadingEdgeOnAnOfferAdmitsTheBoard := by
  intro s p o ha ready room order gate offer origin
  have run : exec (.eyeChangeAccepted .entry) s =
      .next (((s.accepted .entry).admitBoard p o (s.gate.state == .late)).appendAtBar.settleEval) := by
    have handed := handLeading_offer (s := s.accepted .entry) gate offer p
    have led := entryLeading_handed (s := s.accepted .entry) room order
    rw [exec_eyeChangeAccepted ready, acceptEye_entryLeading ha, led, handed]
    rfl
  obtain ⟨a, hac⟩ : ∃ a, s.accepted .entry = a := ⟨_, rfl⟩
  obtain ⟨late, hlate⟩ : ∃ late, (s.gate.state == .late) = late := ⟨_, rfl⟩
  rw [hac, hlate] at run
  have admits := admitBoard_admits a p o late
  obtain ⟨b, hb⟩ : ∃ b, a.admitBoard p o late = b := ⟨_, rfl⟩
  rw [hb] at run admits
  obtain ⟨core, records, mem, docket, receives, active, edges⟩ := admits
  obtain ⟨slotWord, docketBoard, standingBoard⟩ := bindSlot_words a o origin
  obtain ⟨held, noOffer, source⟩ := bindSlot_docket a o
  obtain ⟨place, fields, lateFlag⟩ := newRecord_fields a p o.origin (some o.binding) late
  obtain ⟨r, hr⟩ : ∃ r, newRecord a p o.origin (some o.binding) late = r := ⟨_, rfl⟩
  rw [hr] at records core place fields lateFlag
  rw [← mem] at slotWord docketBoard standingBoard
  rw [← docket] at held noOffer source docketBoard standingBoard
  obtain ⟨d, hd⟩ : ∃ d, b.appendAtBar = d := ⟨_, rfl⟩
  have keptBar : Kept b d := hd ▸ kept_appendAtBar b
  have followsBar : Follows b d := hd ▸ follows_appendAtBar b
  obtain ⟨edgesBar, activeBar⟩ : d.flux.edges = b.flux.edges ∧ d.flux.active = b.flux.active := hd ▸ appendAtBar_lists b
  have docketBar : d.docket = b.docket := by rw [← hd]; simp
  have memBar : MirrorOnly b.mem d.mem := hd ▸ mirrorOnly_appendAtBar b
  have recordsBar : d.track.records = b.track.records := by rw [← hd]; exact records_appendAtBar b
  rw [hd] at run
  have kept : Kept b d.settleEval := keptBar.trans (kept_settleEval d)
  have follows : Follows b d.settleEval := followsBar.trans (follows_settleEval d)
  have lists := fluxSettles_settleEval d
  have flags := (moves_settleEval d).sameFlags
  have unmatched := unmatchedStays_settleEval d
  have standing := standingStays_settleEval d
  obtain ⟨t, ht⟩ : ∃ t, d.settleEval = t := ⟨_, rfl⟩
  rw [ht] at run kept follows lists flags unmatched standing
  have keeps := kept.keeps
  obtain ⟨qs, q, hq, cores, coreq⟩ := kept.tail records
  have last : t.track.records.getLast? = some q := by rw [hq]; simp
  have same : a.track.records = s.track.records ∧ a.track.ordinal = s.track.ordinal ∧ a.track.pos = s.track.pos ∧
      a.docket = s.docket ∧ a.mem = s.mem ∧ a.ws = s.ws ∧ a.flux = s.flux ∧ a.clock = s.clock := by
    rw [← hac]; exact ⟨rfl, rfl, rfl, rfl, rfl, rfl, rfl, rfl⟩
  obtain ⟨aRecords, aOrdinal, aPos, aDocket, aMem, aSetup, aFlux, aClock⟩ := same
  have eye : a.track.entryEye = { accepted := true, pendingAt := none, count := s.track.entryEye.count + 1 } := by
    rw [← hac]; exact accepted_leading ha
  rw [aRecords] at records cores
  rw [aDocket] at held docketBoard standingBoard source
  rw [aMem] at docketBoard standingBoard
  rw [aOrdinal] at place
  rw [aClock] at fields
  have qFlag : q.has .lateAdmit = late := by
    rw [recordsBar, records, hq] at flags
    have len : qs.length = s.track.records.length := by simpa using congrArg List.length cores
    have := forall₂_getElem? (a := r) (b := q) flags (j := s.track.records.length) (by simp) (by rw [← len]; simp)
    rw [this .lateAdmit (by decide) (by decide) (by decide), lateFlag]
  have slotStays : ∀ k, k < 64 → t.mem.read (slotAt o.slot + k) = b.mem.read (slotAt o.slot + k) :=
    follows.slots o.slot (.inl (by rw [held]; simp))
  obtain ⟨state, entryReady, limit, offerStays⟩ := follows.receiving (by rw [receives]; rfl)
  refine ⟨t, run, ?_, ?_, keeps.trackOrdinal.trans ?_, keeps.trackOwner.trans ?_, keeps.trackPos.trans ?_,
    keeps.trackEntryEye.trans ?_, keeps.docketHeld.trans held, offerStays.trans noOffer,
    (slotStays 0 (by decide)).trans slotWord, state, entryReady.trans (by rw [receives]; rfl),
    limit.trans (by rw [receives]; rfl), fun e he => ?_, fun hs k w hw => ⟨?_, fun none => ?_⟩, fun hd next => ?_,
    fun hs => ?_, fun x quiet where_ => ?_, ?_⟩
  · rw [hq, List.map_append, places_of_core cores, List.map_singleton, Record.place_of_core coreq, place]
  · rw [last]
    have rest := congrArg (fun r : Record => (r.entryTime, r.length, r.topside, r.exitLead, r.jam)) coreq
    have admitted : (q.entryTime, q.length, q.topside, q.exitLead, q.jam) = _ := rest.trans fields
    simp only [Prod.mk.injEq] at admitted
    obtain ⟨time, length, topside, exitLead, jam⟩ := admitted
    rw [Option.map_some, qFlag, time, length, topside, exitLead, jam, hlate]
  · exact (congrArg (fun u => u.track.ordinal) core).trans (by rw [aOrdinal])
  · exact congrArg (fun u => u.track.owner) core
  · exact (congrArg (fun u => u.track.pos) core).trans aPos
  · exact (congrArg (fun u => u.track.entryEye) core).trans eye
  · have he := (edges e).mp (edgesBar ▸ follows.edges e he)
    rw [aFlux, aSetup, aOrdinal] at he
    exact he
  · refine lists.stays ?_ (.inl rfl)
    rw [edgesBar, edges, aSetup, aOrdinal]
    exact .inr ⟨hs, k, w, hw, .inl rfl⟩
  · refine lists.stays ?_ (.inr ?_)
    · rw [edgesBar, edges, aSetup, aOrdinal]
      exact .inr ⟨hs, k, w, hw, .inr rfl⟩
    · rw [activeBar, active, aFlux]
      exact none
  · obtain ⟨-, number, mirror, words⟩ := docketBoard hd
    have aside : Aside b d := ⟨by rw [docketBar], memBar, keptBar.keeps.portSetup⟩
    have left : slotsAtE d = [] := aside.slotsAtE.trans (slotsAtE_admitted held number words next)
    obtain ⟨e, m, -⟩ := unmatched left
    exact ⟨e.trans (by rw [docketBar, number]), m.trans (aside.word3.trans mirror)⟩
  · obtain ⟨number, words, outside⟩ := standingBoard hs
    refine ⟨(slotStays 1 (by decide)).trans (words 1 (by decide) (by decide)),
      (slotStays 2 (by decide)).trans (words 2 (by decide) (by decide)), fun k h3 h16 => ?_,
      (slotStays 16 (by decide)).trans (words 16 (by decide) (by decide)), fun src => ?_⟩
    · rw [slotStays k (by omega), words k (by omega) (by omega)]
      interval_cases k <;> rfl
    · obtain ⟨e, m, -⟩ := standing (by rw [docketBar, source]; exact src)
      have bounds := slotAt_bounds o.slot
      exact ⟨e.trans (by rw [docketBar, number]), m.trans ((memBar 3 (by decide) (by decide)).trans (outside 3 (by omega)))⟩
  · have same := kept.mem.quiet x quiet
    cases ho : o.origin with
    | intruder => exact absurd ho origin
    | docket => exact same.trans ((docketBoard ho).1.quiet x quiet)
    | standing =>
      rw [ho] at where_
      obtain ⟨-, -, outside⟩ := standingBoard ho
      exact same.trans (outside x (where_.elim .inl fun h => .inr (h.resolve_right (by decide))))
  · have cs : (s.track.records ++ [q]).map Record.core = (s.track.records ++ [r]).map Record.core := by
      rw [List.map_append, List.map_append, List.map_singleton, List.map_singleton, coreq]
    have tCore := kept.core.trans core
    rw [aRecords, aOrdinal, aDocket, ← cs] at tCore
    refine Kept.keeps ⟨tCore.trans ?_, .refl _⟩
    rw [last, keeps.trackEntryEye, keeps.trackOrdinal,
      show b.track.entryEye = s.track.entryEye.accept from
        (congrArg (fun u => u.track.entryEye) core).trans (by rw [← hac]; rfl),
      show b.track.ordinal = s.track.ordinal + 1 from
        (congrArg (fun u => u.track.ordinal) core).trans (by rw [aOrdinal]), ← hac]
    rfl

end Sys2Proof.Machine
end



section
/-! The gate inside the consequences of a step: every stage but the hold set and its transition leaves the gate's state, its lines
and the offer alone. -/

namespace Sys2Proof.Machine

open Sys2Proof.Config

/-! ## The changeover and the gate -/

/-- The gate but for the line class, the changeover, the width drive and the wait of R47. -/
def GateStands (s t : State) : Prop :=
  t.gate = { s.gate with
    lineClass := t.gate.lineClass, phase := t.gate.phase, target := t.gate.target, width := t.gate.width
    lateWaits := t.gate.lateWaits }

theorem GateStands.of_same {s t : State} (h : t.gate = s.gate) : GateStands s t := by
  unfold GateStands; rw [h]

theorem GateStands.trans {s t u : State} (h : GateStands s t) (g : GateStands t u) : GateStands s u := by
  unfold GateStands at *
  rw [g, h]

theorem gateStands_nameClass (s : State) : GateStands s s.nameClass := by
  unfold GateStands
  simp [State.nameClass, State.reformWidth]

theorem GateStands.named {s t : State} (h : GateStands s t) : GateStands s t.nameClass := h.trans (gateStands_nameClass t)

theorem gateStands_phaseNone (s : State) : GateStands s s.phaseNone := by
  unfold State.phaseNone
  split
  · split <;> rfl
  · rfl

theorem gateStands_phaseDraining (s : State) : GateStands s s.phaseDraining := by
  unfold State.phaseDraining
  split
  · rfl
  · split
    · rfl
    · split
      · exact GateStands.named rfl
      · rfl

theorem gateStands_retargetClass (s : State) : GateStands s s.retargetClass := by
  unfold State.retargetClass
  split
  · rfl
  · split
    · rfl
    · exact GateStands.named rfl

theorem gateStands_phaseMoving (s : State) : GateStands s s.phaseMoving := by
  unfold State.phaseMoving
  dsimp only
  split
  · split
    · exact (gateStands_retargetClass s).trans rfl
    · exact gateStands_retargetClass s
  · exact gateStands_retargetClass s

theorem gateStands_phaseSettling (s : State) : GateStands s s.phaseSettling := by
  unfold State.phaseSettling
  dsimp only
  split
  · split
    · exact (gateStands_retargetClass s).trans rfl
    · split
      · exact (gateStands_retargetClass s).trans rfl
      · exact gateStands_retargetClass s
  · exact gateStands_retargetClass s

theorem gateStands_phaseStep (s : State) : GateStands s s.phaseStep := by
  unfold State.phaseStep
  split
  · split
    · exact gateStands_phaseNone s
    · exact gateStands_phaseDraining s
    · exact gateStands_phaseMoving s
    · exact gateStands_phaseSettling s
  · rfl

theorem gateStands_changeover (fuel : Nat) (s : State) : GateStands s (s.changeover fuel) := by
  induction fuel generalizing s with
  | zero => rfl
  | succ k ih =>
    unfold State.changeover
    dsimp only
    split
    · exact gateStands_phaseStep s
    · exact (gateStands_phaseStep s).trans (ih _)

theorem gateStands_enterMode (s : State) (m : Mode) : GateStands s (s.enterMode m) := by
  unfold State.enterMode
  split
  · rfl
  · unfold GateStands Gate.atMode
    split <;> rfl

theorem gateStands_modeStage (s : State) : GateStands s s.modeStage := by
  unfold State.modeStage
  split
  · exact gateStands_enterMode s _
  · split
    · exact gateStands_enterMode s _
    · rfl

theorem gateStands_reform (s : State) : GateStands s s.reform := by
  refine (gateStands_modeStage s).trans ?_
  unfold GateStands
  simp [State.reform, State.reformMotion, State.reformWaits, State.reformWidth]

/-! ## The offer -/

theorem offer_slotScan (fuel : Nat) (s : State) : (s.slotScan fuel).docket.offer = s.docket.offer := by
  induction fuel generalizing s with
  | zero => rfl
  | succ k ih =>
    unfold State.slotScan
    dsimp only
    split
    · exact (congrArg Docket.offer (rejectSlots_docket s _ _) :)
    · next n others he =>
      have e : ((s.rejectSlots ((postedSlots s).filter fun n => isStale s.docket.expected (slotSequence s.mem n)) .stale).rejectSlots
          others .duplicate).docket = s.docket := (rejectSlots_docket _ _ _).trans (rejectSlots_docket _ _ _)
      split
      · exact (ih _).trans (congrArg Docket.offer e :)
      · exact (congrArg Docket.offer e :)
      · exact (congrArg Docket.offer e :)

theorem offer_reformDocket (s : State) : s.reformDocket.docket.offer = s.docket.offer :=
  reformDocket_cases (R := fun t => t.docket.offer = s.docket.offer) rfl (fun _ => offer_slotScan 65 s)
    fun _ _ _ _ _ => rfl

/-! ## Lifting -/

/-- What every stage but the hold set and the gate's transition leaves. -/
structure GateAside (s t : State) : Prop where
  gate : GateStands s t
  offer : t.docket.offer = s.docket.offer
  kept : Kept s t

theorem GateAside.trans {s t u : State} (h : GateAside s t) (g : GateAside t u) : GateAside s u :=
  ⟨h.gate.trans g.gate, g.offer.trans h.offer, h.kept.trans g.kept⟩

theorem gateAside_reform (s : State) : GateAside s s.reform :=
  ⟨gateStands_reform s, by simp [State.reform], kept_reform s⟩

theorem gateAside_changeover (fuel : Nat) (s : State) : GateAside s (s.changeover fuel) :=
  ⟨gateStands_changeover fuel s, by simp, kept_changeover fuel s⟩

/-- What a gate evaluation does before the hold set is formed. -/
theorem gateAside_scan (s : State) : GateAside s (s.reformDocket.takeClass.changeover 8) := by
  have scan : GateAside s s.reformDocket := ⟨.of_same (by simp), offer_reformDocket s, kept_reformDocket s⟩
  have cls : GateAside s.reformDocket s.reformDocket.takeClass := ⟨rfl, by simp, kept_takeClass _⟩
  exact (scan.trans cls).trans (gateAside_changeover 8 _)

/-- A relation that the hold set with its transition and the other stages keep holds over the consequences of a step. -/
theorem lift_gate {R : State → State → Prop} (trans : ∀ {s t u}, R s t → R t u → R s u)
    (aside : ∀ {s t}, GateAside s t → R s t) (turn : ∀ s, R s s.takeHolds.gateTransition) (s : State) :
    R s s.settle ∧ R s s.gateEval ∧ R s s.settleEval := by
  have eval : ∀ u : State, R u u.gateEval := fun u => trans (aside (gateAside_scan u)) (turn _)
  have stage : ∀ u : State, R u u.gateStage := fun u => by
    rcases State.gateStage_cases u with h | h | h | h <;> rw [h]
    · exact aside ⟨rfl, rfl, .refl u⟩
    · exact eval u
    · exact aside (gateAside_changeover 8 u)
    · exact trans (aside (gateAside_changeover 8 u)) (eval _)
  have pass : ∀ u : State, R u u.pass := fun u => trans (aside (gateAside_reform u)) (stage _)
  have settle : ∀ u : State, R u u.settle := fun u => trans (trans (pass u) (pass _)) (aside (gateAside_reform _))
  exact ⟨settle s, eval s, trans (trans (aside (gateAside_reform s)) (eval _)) (settle _)⟩

/-! ## What the gate does not do -/

theorem GateStands.state {s t : State} (h : GateStands s t) : t.gate.state = s.gate.state := by rw [h]

/-- No gate evaluation enters RECEIVING (R46). -/
theorem receiving_not_entered {s : State} (h : s.gate.state ≠ .receiving) : s.settleEval.gate.state ≠ .receiving := by
  refine (lift_gate (R := fun s t => s.gate.state ≠ .receiving → t.gate.state ≠ .receiving) (fun f g x => g (f x))
    (fun a x => by rw [a.gate.state]; exact x) (fun u x => ?_) s).2.2 h
  unfold State.gateTransition State.openGate State.closeGate State.lateGate
  split
  · split
    · split
      · simp [Gate.enter]
      · exact x
    · exact x
  · split
    · exact x
    · split <;> simp [Gate.enter]
  · split
    · simp [Gate.enter]
    · exact x
  · exact x

/-- A CLOSED gate stays CLOSED while the gap behind the last board has not passed (R42, R45). -/
theorem closed_in_gap {s : State} {q : Pos} (h : s.gate.state = .closed) (hq : s.track.lastTrail = some q)
    (gap : atOrAfter s.track.pos (q + tenths s.ws.minGap) = false) : s.settleEval.gate.state = .closed := by
  refine ((lift_gate (R := fun s t => s.gate.state = .closed ∧ s.track.lastTrail = some q ∧
      atOrAfter s.track.pos (q + tenths s.ws.minGap) = false →
    t.gate.state = .closed ∧ t.track.lastTrail = some q ∧ atOrAfter t.track.pos (q + tenths t.ws.minGap) = false)
    (fun f g x => g (f x)) (fun a ⟨x, y, z⟩ => ?_) (fun u ⟨x, y, z⟩ => ?_) s).2.2 ⟨h, hq, gap⟩).1
  · refine ⟨a.gate.state.trans x, a.kept.keeps.trackLastTrail.trans y, ?_⟩
    unfold State.ws
    rw [a.kept.keeps.trackPos, a.kept.keeps.portSetup]
    exact z
  · have held : HoldReason.spacing ∈ formHolds u := (mem_formHolds u .spacing).mpr
      ((spacingHold_iff u).mpr (.inr (.inr ⟨q, y, z⟩)))
    have full : u.takeHolds.gate.holds.isEmpty = false := List.isEmpty_eq_false_iff.mpr (List.ne_nil_of_mem held)
    have stays : u.takeHolds.gateTransition = u.takeHolds := by
      have closed : u.takeHolds.gate.state = .closed := x
      unfold State.gateTransition
      rw [closed, full]
      rfl
    rw [stays]
    refine ⟨x, y, ?_⟩
    unfold State.ws
    rw [(kept_takeHolds u).keeps.portSetup]
    exact z

end Sys2Proof.Machine
end



section
/-! The top-side capture of one record (6.6): what it stores, and what it does not depend on. -/

namespace Sys2Proof.Machine

open Sys2Proof.Config

/-! ## The capture (R113 to R115) -/

theorem topsideTest_rest (r : Record) (v : Int) : r.topsideTest v = { r with flags := (r.topsideTest v).flags } := by
  unfold Record.topsideTest
  split
  · rfl
  · rw [Record.markIf_rest, Record.markIf_rest]

/-- The topside window test sets its two flags alone (R114). -/
theorem topsideTest_has (r : Record) (v : Int) (g : Flag) : (r.topsideTest v).has g = true ↔ r.has g = true ∨
    (g = .topsideLow ∧ ∃ c, r.recipe? = some c ∧ c.topMin ≠ 0 ∧ v < c.topMin) ∨
    (g = .topsideHigh ∧ ∃ c, r.recipe? = some c ∧ c.topMax ≠ 0 ∧ c.topMax < v) := by
  unfold Record.topsideTest
  cases h : r.recipe? with
  | none => simp
  | some c =>
    dsimp only
    rw [Record.has_markIf, Record.has_markIf]
    simp only [Bool.or_eq_true, Bool.and_eq_true, bne_iff_ne, beq_iff_eq, decide_eq_true_eq, Option.some.injEq,
      exists_eq_left']
    grind

theorem Record.has_mark (r : Record) (f g : Flag) : (r.mark f).has g = (r.has g || f == g) :=
  (r.has_markIf true f g).trans (by rw [Bool.true_and])

theorem capture_some (r : Record) (v : Int) : r.capture (some v) = ({ r with topside := some v } : Record).topsideTest v := rfl

theorem capture_captured (r : Record) (pv : Option Int) : (r.capture pv).captured = true := by
  cases pv with
  | none =>
    have has : (r.capture none).has .topsideUnmeasured = true := Record.mark_has r _
    unfold Record.captured
    rw [has, Bool.or_true]
  | some v =>
    have top : (r.capture (some v)).topside = some v := by rw [capture_some, topsideTest_rest]
    unfold Record.captured
    rw [top]
    rfl

/-- The top-side step in one formula. -/
theorem topsideStep_eq (s : State) (r : Record) : topsideStep s r =
    if r.isIntruder = true ∨ r.captured = true then r
    else if captureDue s r = true then r.capture (s.thermal.inputs.get 7).pv
    else if s.ws.exitX ≤ relLead s r then r.mark .topsideUnmeasured
    else r := by
  have input : pyroInput = 7 := rfl
  unfold topsideStep
  rw [input]
  dsimp only
  by_cases out : r.isIntruder = true ∨ r.captured = true
  · have still : captureDue s r = false := by
      unfold captureDue
      rcases out with h | h <;> simp [h]
    rw [if_pos out, still]
    rcases out with h | h <;> simp [h]
  · obtain ⟨board, free⟩ := not_or.mp out
    rw [if_neg out]
    by_cases due : captureDue s r = true
    · rw [if_pos due, if_pos due, if_neg]
      rw [capture_captured]
      simp
    · rw [if_neg due, if_neg due]
      refine if_congr ?_ rfl rfl
      simp [board, free]

/-- What one record takes at one place of P (R113 to R115). -/
theorem topsideStep_captures {s t : State} (r : Record) (hp : t.track.pos = s.track.pos) :
    CaptureStep s t r (topsideStep s r) := by
  have place : relativeFrom t.track.pos r.lead = relLead s r := by rw [hp]; rfl
  have due : r.captured = false → r.origin ≠ .intruder → (captureDue s r = true ↔
      ∃ l, r.length = some l ∧ s.ws.pyroY + l / 2 ≤ relLead s r) := fun h g => by
    have board : r.isIntruder = false := by rw [← Bool.not_eq_true, Record.isIntruder_iff]; exact g
    unfold captureDue
    rw [h, board]
    cases r.length <;> simp
  have open_ : r.captured = false → r.origin ≠ .intruder → ¬ (r.isIntruder = true ∨ r.captured = true) := fun h g => by
    rw [Record.isIntruder_iff, h]; simp [g]
  rw [topsideStep_eq]
  refine ⟨fun h => ?_, fun h g l hl near => ?_, fun h g before past => ?_, fun h before past => ?_⟩
  · rw [if_pos (by rw [Record.isIntruder_iff]; exact h.symm)]
    exact ⟨rfl, fun _ _ => rfl⟩
  · rw [place] at near
    rw [if_neg (open_ h g), if_pos ((due h g).mpr ⟨l, hl, near⟩)]
    have clear : r.has .topsideUnmeasured = false := by
      unfold Record.captured at h; exact (Bool.or_eq_false_iff.mp h).2
    cases (s.thermal.inputs.get 7).pv with
    | none =>
      have top : r.topside = none := by
        unfold Record.captured at h; simpa using (Bool.or_eq_false_iff.mp h).1
      refine ⟨top, by simp [Record.capture, Record.mark_has], fun c hc => ?_⟩
      have none : (r.capture none).topside = none := top
      rw [none]
      simp [Record.capture, Record.has_mark]
    | some v =>
      have top : (r.capture (some v)).topside = some v := by rw [capture_some, topsideTest_rest]
      have flags : ∀ f, (r.capture (some v)).has f = true ↔ _ := topsideTest_has { r with topside := some v } v
      refine ⟨top, ?_, fun c hc => ?_⟩
      · rw [flags]
        have clear' : Record.has { r with topside := some v } .topsideUnmeasured = false := clear
        rw [clear']
        simp
      · have recipe : Record.recipe? { r with topside := some v } = some c := hc
        have same : ∀ f, Record.has { r with topside := some v } f = r.has f := fun _ => rfl
        rw [flags, flags, top, recipe, same, same]
        simp
  · rw [place] at past
    have not_due : ¬ captureDue s r = true := by
      rw [due h g]
      rintro ⟨l, hl, near⟩
      have := before l hl
      rw [place] at this
      omega
    rw [if_neg (open_ h g), if_neg not_due, if_pos past]
    have top : r.topside = none := by unfold Record.captured at h; simpa using (Bool.or_eq_false_iff.mp h).1
    exact ⟨top, Record.mark_has _ _⟩
  · rw [place] at past
    by_cases g : r.origin = .intruder
    · rw [if_pos (.inl ((r.isIntruder_iff).mpr g))]; exact h
    · have not_due : ¬ captureDue s r = true := by
        rw [due h g]
        rintro ⟨l, hl, near⟩
        have := before l hl
        rw [place] at this
        omega
      rw [if_neg (open_ h g), if_neg not_due, if_neg (by omega)]
      exact h

/-! ## What the capture depends on -/

/-- The same record but for flux, incomplete mask and the flags that are not the capture's. -/
structure Aligned (r q : Record) : Prop where
  core : q.core = r.core
  flags : ∀ f, f = .topsideLow ∨ f = .topsideHigh ∨ f = .topsideUnmeasured → q.has f = r.has f

theorem Aligned.fields {r q : Record} (h : Aligned r q) : q.topside = r.topside ∧ q.origin = r.origin ∧ q.length = r.length ∧
    q.lead = r.lead ∧ q.recipe? = r.recipe? ∧ q.captured = r.captured := by
  have same : ∀ {α : Type} (f : Record → α), (∀ x : Record, f x.core = f x) → f q = f r := fun f hf => by
    rw [← hf q, h.core, hf]
  have top : q.topside = r.topside := same (·.topside) fun _ => rfl
  refine ⟨top, same (·.origin) fun _ => rfl, same (·.length) fun _ => rfl, same (·.lead) fun _ => rfl,
    same Record.recipe? fun _ => rfl, ?_⟩
  unfold Record.captured
  rw [top, h.flags _ (.inr (.inr rfl))]

theorem CaptureStep.aligned {s t : State} {r r' q q' : Record} (h : CaptureStep s t r q) (hr : Aligned r r')
    (hq : Aligned q q') : CaptureStep s t r' q' := by
  obtain ⟨done, measured, unmeasured, waiting⟩ := h
  obtain ⟨rTop, rOrigin, rLength, rLead, rRecipe, rCaptured⟩ := hr.fields
  obtain ⟨qTop, -, -, -, -, qCaptured⟩ := hq.fields
  have low := hq.flags .topsideLow (.inl rfl)
  have high := hq.flags .topsideHigh (.inr (.inl rfl))
  have un := hq.flags .topsideUnmeasured (.inr (.inr rfl))
  constructor <;> rw [rCaptured]
  · rw [rOrigin, qTop, rTop]
    refine fun h => ⟨(done h).1, fun f hf => ?_⟩
    rw [hq.flags f hf, hr.flags f hf, (done h).2 f hf]
  · rw [rOrigin, rLength, rLead, rRecipe, qTop, low, high, un, hr.flags .topsideLow (.inl rfl),
      hr.flags .topsideHigh (.inr (.inl rfl))]
    exact measured
  · rw [rOrigin, rLength, rLead, qTop, un]
    exact unmeasured
  · rw [rLength, rLead, qCaptured]
    exact waiting

/-- A step is one over another place and other inputs too, where they are the same. -/
theorem CaptureStep.states {s t s' t' : State} {r q : Record} (h : CaptureStep s t r q) (hs : s'.ws = s.ws)
    (hi : s'.thermal.inputs = s.thermal.inputs) (ht : t'.track.pos = t.track.pos) : CaptureStep s' t' r q := by
  obtain ⟨done, measured, unmeasured, waiting⟩ := h
  refine ⟨done, ?_, ?_, ?_⟩
  · rw [hs, hi, ht]; exact measured
  · rw [hs, ht]; exact unmeasured
  · rw [hs, ht]; exact waiting

end Sys2Proof.Machine
end



section
/-! The trailing-edge clamp (4.3, R65): which edges, windows and pulses of the board it leaves. -/

namespace Sys2Proof.Machine

open Sys2Proof.Config

/-- Window `k` starts at or beyond the length of the board (R65). -/
def StartsBeyond (ws : List Window) (l k : Nat) : Prop :=
  l ≤ 10 * ((ws[k]?).map (·.start)).getD 0

/-- The edge is a CLOSE edge of the board beyond the clamp position (R65). -/
def LateClose (r : Record) (p : Pos) (e : Edge) : Prop :=
  e.ordinal = r.ordinal ∧ e.opens = false ∧ strictlyAfter e.pos p = true

/-- The active window of the edge's window has ended at the clamp position, which P has reached (R65). -/
def EndedAt (s : State) (p : Pos) (e : Edge) : Prop :=
  atOrAfter s.track.pos p = true ∧ ∃ w ∈ s.flux.active, w.ordinal = e.ordinal ∧ w.window = e.window

/-- The clamp ends the active window (R65). -/
def ClampEnds (s : State) (r : Record) (ws : List Window) (l : Nat) (p : Pos) (a : ActiveWindow) : Prop :=
  a.ordinal = r.ordinal ∧ (StartsBeyond ws l a.window ∨ atOrAfter s.track.pos p = true)

theorem mem_clampEnds (s : State) (r : Record) (ws : List Window) (l : Nat) (p : Pos) (a : ActiveWindow) :
    a ∈ clampEnds s r ws l p ↔ a ∈ s.flux.active ∧ ClampEnds s r ws l p a := by
  simp [clampEnds, ClampEnds, StartsBeyond]

theorem mem_foldl_insertEdge (xs l : List Edge) (x : Edge) :
    x ∈ xs.foldl (fun l e => insertEdge e l) l ↔ x ∈ l ∨ x ∈ xs := by
  induction xs generalizing l with
  | nil => simp
  | cons y xs ih =>
    rw [List.foldl_cons, ih, mem_insertEdge, List.mem_cons, or_comm (a := x = y), or_assoc]

/-- The edges that the clamp leaves (R65). -/
theorem mem_clampEdges (s : State) (r : Record) (ws : List Window) (l : Nat) (p : Pos) (x : Edge) :
    x ∈ clampEdges s r ws l p ↔
      (x ∈ s.flux.edges ∧ ¬ (x.ordinal = r.ordinal ∧ StartsBeyond ws l x.window) ∧ ¬ LateClose r p x) ∨
      ∃ d ∈ s.flux.edges, ¬ (d.ordinal = r.ordinal ∧ StartsBeyond ws l d.window) ∧ LateClose r p d ∧ ¬ EndedAt s p d ∧
        x = { d with pos := p } := by
  unfold clampEdges
  dsimp only
  rw [mem_foldl_insertEdge, List.mem_map]
  have kept : ∀ e : Edge, (!(e.ordinal == r.ordinal && decide (l ≤ 10 * ((ws[e.window]?).map (·.start)).getD 0))) = true ↔
      ¬ (e.ordinal = r.ordinal ∧ StartsBeyond ws l e.window) := fun e => by
    simp [StartsBeyond, imp_iff_not_or]
  have late : ∀ e : Edge, (e.ordinal == r.ordinal && !e.opens && strictlyAfter e.pos p) = true ↔ LateClose r p e := fun e => by
    simp [LateClose, and_assoc]
  have ended : ∀ e : Edge, (atOrAfter s.track.pos p && s.flux.active.any fun w => w.ordinal == e.ordinal && w.window == e.window) = true ↔
      EndedAt s p e := fun e => by
    simp [EndedAt]
  refine or_congr ?_ ⟨?_, ?_⟩
  · rw [List.mem_filter, List.mem_filter, kept, Bool.not_eq_true', ← Bool.not_eq_true, late, and_assoc]
  · rintro ⟨d, hd, rfl⟩
    rw [List.mem_filter, List.mem_filter, kept, Bool.and_eq_true, Bool.not_eq_true', ← Bool.not_eq_true, late, ended] at hd
    obtain ⟨⟨mem, inside⟩, isLate, runs⟩ := hd
    exact ⟨d, mem, inside, isLate, runs, rfl⟩
  · rintro ⟨d, mem, inside, isLate, runs, rfl⟩
    refine ⟨d, ?_, rfl⟩
    rw [List.mem_filter, List.mem_filter, kept, Bool.and_eq_true, Bool.not_eq_true', ← Bool.not_eq_true, late, ended]
    exact ⟨⟨mem, inside⟩, isLate, runs⟩

/-- What the clamp leaves in `u`. -/
structure Clamped (s u : State) (r : Record) (ws : List Window) (l : Nat) (p : Pos) : Prop where
  edges : u.flux.edges = clampEdges s r ws l p
  active : ∀ a, a ∈ u.flux.active ↔ a ∈ s.flux.active ∧ ¬ ClampEnds s r ws l p a
  inhibit : u.flux.inhibit = s.flux.inhibit
  pulses : ∀ ended : Pulse → Bool,
    (∀ x, ended x = true ↔ ∃ a ∈ s.flux.active, a.ordinal = x.ordinal ∧ a.window = x.window ∧ a ∉ u.flux.active) →
    (∀ k, u.flux.pulses.get k = (s.flux.pulses.get k).filter fun x => !ended x) ∧
    TankFalls s u (pulseCredits s ended) ∧
    RecordsTake (fun o => pulseCredits s fun x => ended x && x.ordinal == o) s.track.records u.track.records
  kept : Kept s u
  records : ∃ c, RecordsTake c s.track.records u.track.records

theorem inhibit_cutPulses (s : State) (p : Pulse → Bool) (b : Bool) : (s.cutPulses p b).flux.inhibit = s.flux.inhibit := by
  rw [uncredited_frame (cutPulses_ends s p b).rest]

theorem clamp_clamped (s : State) {r : Record} {rc : Recipe} (h : r.recipe? = some rc) (l : Nat) :
    Clamped s (s.clamp r l) r rc.windows l (r.lead + tenths (s.ws.barF + l)) := by
  obtain ⟨p, hp⟩ : ∃ p, r.lead + tenths (s.ws.barF + l) = p := ⟨_, rfl⟩
  obtain ⟨ends, hends⟩ : ∃ ends, clampEnds s r rc.windows l p = ends := ⟨_, rfl⟩
  have e : s.clamp r l = { s.cutPulses (ownedBy ends) true with
      flux := { (s.cutPulses (ownedBy ends) true).flux with
        edges := clampEdges s r rc.windows l p
        active := (s.cutPulses (ownedBy ends) true).flux.active.filter fun w => !ends.contains w } } := by
    unfold State.clamp
    rw [h]
    dsimp only
    rw [hp, hends]
  have cut := cutPulses_ends s (ownedBy ends) true
  have keptCut := kept_cutPulses s (ownedBy ends) true
  have frame := uncredited_frame cut.rest
  obtain ⟨v, hv⟩ : ∃ v, s.cutPulses (ownedBy ends) true = v := ⟨_, rfl⟩
  have inhibit : v.flux.inhibit = s.flux.inhibit := hv ▸ inhibit_cutPulses s _ _
  rw [hv] at e cut keptCut frame
  have activeV : v.flux.active = s.flux.active := by rw [frame]
  rw [e, hp]
  have active : ∀ a, a ∈ v.flux.active.filter (fun w => !ends.contains w) ↔ a ∈ s.flux.active ∧ ¬ ClampEnds s r rc.windows l p a := fun a => by
    rw [List.mem_filter, activeV, Bool.not_eq_true', ← Bool.not_eq_true, List.contains_iff_mem, ← hends, mem_clampEnds]
    exact and_congr_right fun ha => not_congr (and_iff_right ha)
  refine ⟨rfl, active, inhibit, fun ended hended => ?_, keptCut.trans (.of_core rfl rfl), _, cut.records⟩
  have same : ended = ownedBy ends := by
    funext x
    refine Bool.eq_iff_iff.mpr ((hended x).trans ?_)
    have owned : ownedBy ends x = true ↔ ∃ a ∈ ends, a.ordinal = x.ordinal ∧ a.window = x.window := by simp [ownedBy]
    rw [owned]
    refine ⟨fun ⟨a, ha, ho, hw, out⟩ => ⟨a, ?_, ho, hw⟩, fun ⟨a, ha, ho, hw⟩ => ⟨a, ?_, ho, hw, fun c => ?_⟩⟩
    · rw [← hends, mem_clampEnds]
      exact ⟨ha, by_contra fun c => out ((active a).mpr ⟨ha, c⟩)⟩
    · rw [← hends, mem_clampEnds] at ha
      exact ha.1
    · rw [← hends, mem_clampEnds] at ha
      exact ((active a).mp c).2 ha.2
  obtain ⟨-, pulses, tank, records, -, -, -⟩ := cut
  rw [same]
  have all : ∀ k : Idx8, k ∈ allIdx8 := by decide
  refine ⟨fun k => (pulses k).trans (if_pos (all k)), ⟨?_, ?_⟩, ?_⟩
  · exact tank.takes.congr rfl rfl rfl rfl rfl rfl
  · exact tank.le
  · exact records

end Sys2Proof.Machine
end



section
/-! The entry trailing edge (1.5, 3.3, 4.3, 6.6): O25. -/

namespace Sys2Proof.Machine

open Sys2Proof.Config

/-! ## The windows after the consequences of the step -/

/-- Where the inhibit does not begin, the flux unit stands but for the inhibit set. -/
theorem settleEval_stands {s : State} (h : ¬ InhibitBegins s s.settleEval) :
    s.settleEval.flux = { s.flux with inhibit := s.settleEval.flux.inhibit } ∧
      List.Forall₂ Flagged s.track.records s.settleEval.track.records ∧ s.settleEval.mem.read32 4 = s.mem.read32 4 := by
  have still : ¬ InhibitBegins s s.settle := by
    unfold InhibitBegins at *
    rw [settleEval_flux] at h
    exact h
  rw [inhibitBegins_settle] at still
  have stands : s.flux.inhibit ≠ [] ∨ inhibitReasons s.beforeInhibit = [] := by
    by_contra c; push Not at c; exact still c
  obtain ⟨flux, track, mem, -, -⟩ := blocks_beforeInhibit s
  have calm := settleEval_calm s
  have kept := reformInhibit_still (s := s.beforeInhibit) (flux.symm ▸ stands)
  generalize inhibitReasons s.beforeInhibit = rs at kept
  have memory := calm.read32
  obtain ⟨calmFlux, records, -, -, -, -⟩ := calm
  rw [kept] at calmFlux records memory
  rw [← flux, ← track, ← mem]
  refine ⟨?_, records, memory⟩
  rw [calmFlux]

/-- The flux and the ordinal of a record are as before. -/
def FluxSame (r q : Record) : Prop :=
  q.flux = r.flux ∧ q.ordinal = r.ordinal

theorem fluxSame_refl (rs : List Record) : List.Forall₂ FluxSame rs rs := List.forall₂_same.mpr fun _ _ => ⟨rfl, rfl⟩

theorem Flagged.fluxSame {r q : Record} (h : Flagged r q) : FluxSame r q :=
  ⟨(congrArg Record.flux h.1 :), (congrArg Record.ordinal h.1 :)⟩

theorem strictlyAfter_self (p : Pos) : strictlyAfter p p = false := by simp [strictlyAfter]

/-- The windows of the board in the state that the step leaves: `a` before the clamp, `u` after it, `c` before the consequences. -/
theorem Clamped.windows {s a u c : State} {r : Record} {ws : List Window} {l : Nat} {p : Pos} (h : Clamped a u r ws l p)
    (flux : a.flux = s.flux) (pos : a.track.pos = s.track.pos) (setup : a.port.setup = s.port.setup)
    (clock : a.clock = s.clock) (mem : a.mem = s.mem) (before : List.Forall₂ FluxSame s.track.records a.track.records)
    (cFlux : c.flux = u.flux) (cMem : c.mem = u.mem) (after : List.Forall₂ FluxSame u.track.records c.track.records) :
    WindowsClamped s c.settleEval r l ws p := by
  obtain ⟨edges, active, inhibit, pulses, -, -⟩ := h
  have lists := fluxSettles_settleEval c
  have follows := follows_settleEval c
  have stands := settleEval_stands (s := c)
  have begins : InhibitBegins c c.settleEval ↔ InhibitBegins s c.settleEval := by
    unfold InhibitBegins; rw [cFlux, inhibit, flux]
  obtain ⟨t, ht⟩ : ∃ t, c.settleEval = t := ⟨_, rfl⟩
  rw [ht] at lists follows stands begins ⊢
  rw [begins] at stands
  have endedAt : ∀ e : Edge, ¬ EndedAt a p e ↔ (atOrAfter s.track.pos p = false ∨
      ∀ x ∈ s.flux.active, x.ordinal = e.ordinal → x.window ≠ e.window) := fun e => by
    unfold EndedAt
    rw [flux, pos]
    simp [imp_iff_not_or]
  have edgesIff : ∀ x, x ∈ c.flux.edges ↔
      (x ∈ s.flux.edges ∧ ¬ (x.ordinal = r.ordinal ∧ StartsBeyond ws l x.window) ∧ ¬ LateClose r p x) ∨
      ∃ d ∈ s.flux.edges, ¬ (d.ordinal = r.ordinal ∧ StartsBeyond ws l d.window) ∧ LateClose r p d ∧
        (atOrAfter s.track.pos p = false ∨ ∀ x ∈ s.flux.active, x.ordinal = d.ordinal → x.window ≠ d.window) ∧
        x = { d with pos := p } := fun x => by
    rw [cFlux, edges, mem_clampEdges, flux]
    simp only [endedAt]
  have activeIff : ∀ x, x ∈ c.flux.active ↔
      x ∈ s.flux.active ∧ ¬ (x.ordinal = r.ordinal ∧ (StartsBeyond ws l x.window ∨ atOrAfter s.track.pos p = true)) := fun x => by
    rw [cFlux, active, flux, ClampEnds, pos]
  have edgesC : ∀ x ∈ t.flux.edges, x ∈ c.flux.edges := follows.edges
  have activeC : ∀ x ∈ t.flux.active, x ∈ c.flux.active := fun x hx => by
    by_cases b : InhibitBegins c t
    · rw [(lists.begins b).1] at hx; cases hx
    · rw [← (lists.still b).2.1]; exact hx
  have edgesT : ¬ InhibitBegins s t → t.flux.edges = c.flux.edges := fun b => (lists.still fun x => b (begins.mp x)).1
  have activeT : ¬ InhibitBegins s t → t.flux.active = c.flux.active := fun b => (lists.still fun x => b (begins.mp x)).2.1
  have inside : ∀ {k : Nat} {w : Window}, ws[k]? = some w → 10 * w.start < l → ¬ StartsBeyond ws l k := fun hk hw => by
    unfold StartsBeyond; rw [hk]; exact Nat.not_le.mpr hw
  have beyond : ∀ {k : Nat} {w : Window}, ws[k]? = some w → l ≤ 10 * w.start → StartsBeyond ws l k := fun hk hw => by
    unfold StartsBeyond; rw [hk]; exact hw
  refine ⟨fun k w hk hw => ⟨fun e he ho hn => ?_, fun x hx ho hn => ?_⟩, fun nb e he w hk hw ho hc late runs => ?_,
    fun e he ho hc => ?_, fun e he => ?_, fun past x hx ho => ?_, fun nb e he which => ?_, fun nb x hx which => ?_,
    fun ended hended nb => ?_⟩
  · rcases (edgesIff e).mp (edgesC e he) with ⟨-, out, -⟩ | ⟨d, -, out, -, -, rfl⟩
    · exact out ⟨ho, hn ▸ beyond hk hw⟩
    · exact out ⟨ho, (hn : d.window = k) ▸ beyond hk hw⟩
  · exact ((activeIff x).mp (activeC x hx)).2 ⟨ho, .inl (hn ▸ beyond hk hw)⟩
  · rw [edgesT nb, edgesIff]
    exact .inr ⟨e, he, fun x => inside hk hw x.2, ⟨ho, hc, late⟩,
      runs.imp_right fun f x hx hxo => f x hx (hxo.trans ho), rfl⟩
  · rcases (edgesIff e).mp (edgesC e he) with ⟨-, -, early⟩ | ⟨d, -, -, -, -, rfl⟩
    · rw [← Bool.not_eq_true]
      exact fun x => early ⟨ho, hc, x⟩
    · exact strictlyAfter_self p
  · rcases (edgesIff e).mp (edgesC e he) with ⟨mem, -, -⟩ | ⟨d, mem, -, ⟨ho, hc, late⟩, runs, rfl⟩
    · exact .inl mem
    · exact .inr ⟨d, mem, rfl, ho, hc, late, runs.imp_right fun f x hx hxo => f x hx (hxo.trans ho.symm)⟩
  · exact ((activeIff x).mp (activeC x hx)).2 ⟨ho, .inr past⟩
  · rw [edgesT nb, edgesIff]
    refine .inl ⟨he, fun x => ?_, fun x => ?_⟩
    · rcases which with ho | ⟨w, hk, hw, -⟩
      · exact ho x.1
      · exact inside hk hw x.2
    · rcases which with ho | ⟨w, hk, hw, opens | early⟩
      · exact ho x.1
      · exact absurd (opens.symm.trans x.2.1) (by decide)
      · exact absurd (early.symm.trans x.2.2) (by decide)
  · rw [activeT nb, activeIff]
    refine ⟨hx, fun ⟨ho, out⟩ => ?_⟩
    rcases which with h | ⟨before, w, hk, hw⟩
    · exact h ho
    · rcases out with out | out
      · exact inside hk hw out
      · rw [before] at out; cases out
  · have credited := pulseCredits_congr (s := s) (t := a) (by rw [flux]) setup clock
    have ends : ∀ x, ended x = true ↔
        ∃ y ∈ a.flux.active, y.ordinal = x.ordinal ∧ y.window = x.window ∧ y ∉ u.flux.active := fun x => by
      rw [hended, activeT nb, cFlux, flux]
    obtain ⟨cut, tank, records⟩ := pulses ended ends
    obtain ⟨tFlux, flagged, mirror⟩ := stands nb
    rw [credited] at tank
    refine ⟨fun k => ?_, ?_, fun j x q hx hq lt => ?_⟩
    · rw [tFlux]
      exact (congrArg (fun f : Flux => f.pulses.get k) cFlux).trans ((cut k).trans (by rw [flux]))
    · refine tank.takes.congr (by rw [flux]) (by rw [flux]) (by rw [mem]) ?_ ?_ (by rw [mirror, cMem])
      · rw [tFlux]; exact (congrArg (fun f : Flux => f.counter) cFlux :)
      · rw [tFlux]; exact (congrArg (fun f : Flux => f.remainder) cFlux :)
    · obtain ⟨y, hy, z, hz, v, hv, hqv⟩ := forall₂_getElem?
        (forall₂_comp before (forall₂_comp records (forall₂_comp after flagged))) hx hq
      have last : q.flux = v.flux := hqv.fluxSame.1
      have taken := hz.2 (by rw [hy.1]; exact lt)
      rw [last, hv.1, taken, hy.1, hy.2]
      dsimp only
      rw [credited]

end Sys2Proof.Machine
end



section
/-! The entry trailing edge (1.5, 3.3, 4.3, 6.6): the record's length, its tests and its capture: O25. -/

namespace Sys2Proof.Machine

open Sys2Proof.Config

theorem acceptEye_entryTrailing {s : State} (h : s.track.entryEye.accepted = true) (p : Pos) :
    s.acceptEye .entry p = (s.accepted .entry).entryTrailing p := by
  have e : (s.track.eye .entry).accepted = true := h
  unfold State.acceptEye
  rw [e]
  rfl

/-! ## The newest record -/

theorem mapNewest_append (f : Record → Record) (rs : List Record) (r : Record) :
    mapNewest f (rs ++ [r]) = rs ++ [f r] := by
  induction rs with
  | nil => rfl
  | cons x rs ih =>
    cases rs with
    | nil => rfl
    | cons y rs => exact congrArg (x :: ·) ih

theorem mapNewest_forall {R : Record → Record → Prop} (refl : ∀ r, R r r) {f : Record → Record} (hf : ∀ r, R r (f r))
    (rs : List Record) : List.Forall₂ R rs (mapNewest f rs) := by
  rcases List.eq_nil_or_concat' rs with rfl | ⟨qs, q, rfl⟩
  · exact .nil
  · rw [mapNewest_append]
    exact List.rel_append (List.forall₂_same.mpr fun r _ => refl r) (.cons (hf q) .nil)

theorem lengthTest_rest (r : Record) : r.lengthTest = { r with flags := r.lengthTest.flags } := by
  unfold Record.lengthTest
  split
  · exact r.markIf_rest _ _
  · rfl

/-- The LENGTH_MISMATCH test sets its flag alone (R49). -/
theorem lengthTest_has (r : Record) (g : Flag) : r.lengthTest.has g = true ↔ r.has g = true ∨
    (g = .lengthMismatch ∧ r.origin = .docket ∧ ∃ b l, r.binding = some b ∧ r.length = some l ∧ b.expectedLength ≠ 0 ∧
      b.lengthTol < ((l : Int) - b.expectedLength).natAbs) := by
  unfold Record.lengthTest
  cases hb : r.binding with
  | none => simp
  | some b =>
    cases hl : r.length with
    | none => simp
    | some l =>
      dsimp only
      rw [Record.has_markIf]
      simp only [Bool.or_eq_true, Bool.and_eq_true, bne_iff_ne, beq_iff_eq, decide_eq_true_eq, Option.some.injEq,
        exists_eq_left', exists_and_left]
      grind

theorem withTrail_rest (r : Record) (t : Pos) (m : Nat) : r.withTrail t m =
    { r with
      trail := some t, length := some (saturate16 (t - r.lead).toNat)
      stage := if r.stage = .entering then .tracked else r.stage
      flags := (r.withTrail t m).flags } := by
  unfold Record.withTrail
  exact Record.markIf_rest _ _ _

theorem withTrail_has (r : Record) (t : Pos) (m : Nat) (g : Flag) : (r.withTrail t m).has g = true ↔
    r.has g = true ∨ (g = .overlength ∧ m < saturate16 (t - r.lead).toNat) := by
  unfold Record.withTrail
  dsimp only
  rw [Record.has_markIf]
  simp only [Bool.or_eq_true, Bool.and_eq_true, decide_eq_true_eq, beq_iff_eq]
  rw [eq_comm (a := Flag.overlength), and_comm (a := g = _)]
  exact Iff.rfl

/-! ## What a trailing edge leaves of one record -/

theorem topsideStep_rest (s : State) (r : Record) : topsideStep s r =
    { r with topside := (topsideStep s r).topside, flags := (topsideStep s r).flags } := by
  rw [topsideStep_eq]
  split
  · rfl
  · split
    · cases (s.thermal.inputs.get 7).pv with
      | none => rfl
      | some v => rw [capture_some, topsideTest_rest]
    · split <;> rfl

/-- The top-side step sets no flag but its own three. -/
theorem topsideStep_has (s : State) (r : Record) {f : Flag} (h1 : f ≠ .topsideLow) (h2 : f ≠ .topsideHigh)
    (h3 : f ≠ .topsideUnmeasured) : (topsideStep s r).has f = r.has f := by
  rw [topsideStep_eq]
  split
  · rfl
  · split
    · cases (s.thermal.inputs.get 7).pv with
      | none => exact (Record.has_mark r _ f).trans (by rw [beq_eq_false_iff_ne.mpr (Ne.symm h3), Bool.or_false])
      | some v =>
        rw [capture_some]
        exact Bool.eq_iff_iff.mpr ((topsideTest_has { r with topside := some v } v f).trans
          (by simp only [h1, h2, false_and, or_false]; exact Iff.rfl))
    · split
      · rw [Record.has_mark, beq_eq_false_iff_ne.mpr (Ne.symm h3), Bool.or_false]
      · rfl

theorem Aligned.refl (r : Record) : Aligned r r := ⟨rfl, fun _ _ => rfl⟩

theorem Aligned.trans {r q x : Record} (h : Aligned r q) (g : Aligned q x) : Aligned r x :=
  ⟨g.core.trans h.core, fun f hf => (g.flags f hf).trans (h.flags f hf)⟩

theorem lengthTest_aligned (r : Record) : Aligned r r.lengthTest := by
  refine ⟨by rw [lengthTest_rest]; rfl, fun f hf => Bool.eq_iff_iff.mpr ((lengthTest_has r f).trans ?_)⟩
  refine or_iff_left fun h => ?_
  rw [h.1] at hf
  revert hf
  decide

theorem FluxTakes.aligned {n : Nat} {r q : Record} (h : FluxTakes n r q) : Aligned r q :=
  ⟨by rw [h.1]; rfl, fun f _ => Record.has_flags (by rw [h.1]) f⟩

theorem forall₂_and {α β : Type} {R S : α → β → Prop} {l : List α} {m : List β} (h : List.Forall₂ R l m)
    (g : List.Forall₂ S l m) : List.Forall₂ (fun a b => R a b ∧ S a b) l m := by
  induction h with
  | nil => exact .nil
  | cons a _ ih => cases g with | cons b g => exact .cons ⟨a, b⟩ (ih g)

/-- What the consequences of a step leave of each record. -/
theorem settleEval_records (s : State) :
    List.Forall₂ (fun r q => q.core = r.core ∧ SameFlags r q) s.track.records s.settleEval.track.records := by
  have cores : List.Forall₂ (fun r q : Record => q.core = r.core) s.track.records s.settleEval.track.records := by
    have e : s.settleEval.track.records.map Record.core = s.track.records.map Record.core :=
      (kept_settleEval s).keeps.trackRecords
    have := List.forall₂_eq_eq_eq.symm ▸ e.symm
    rw [List.forall₂_map_left_iff, List.forall₂_map_right_iff] at this
    exact this.imp fun _ _ h => h.symm
  exact forall₂_and cores (moves_settleEval s).sameFlags

theorem SameFlags.aligned {r q : Record} (hc : q.core = r.core) (h : SameFlags r q) : Aligned r q :=
  ⟨hc, fun f hf => h f (by rintro rfl; revert hf; decide) (by rintro rfl; revert hf; decide)
    (by rintro rfl; revert hf; decide)⟩

/-! ## The stages of a trailing edge -/

theorem clamp_track (s : State) (r : Record) (l : Nat) :
    (s.clamp r l).track = { s.track with records := (s.clamp r l).track.records } := by
  unfold State.clamp
  split
  · rfl
  · dsimp only
    rw [uncredited_frame (cutPulses_ends s _ true).rest]

theorem handTrailing_cases (s : State) :
    (s.gate.state = .receiving ∧ s.handTrailing = { s with
      track := { s.track with records := mapNewest Record.lengthTest s.track.records }
      gate := s.gate.enter .closed }) ∨ (s.gate.state ≠ .receiving ∧ s.handTrailing = s) := by
  unfold State.handTrailing
  cases h : s.gate.state
  · exact .inr ⟨by decide, rfl⟩
  · exact .inr ⟨by decide, rfl⟩
  · exact .inr ⟨by decide, rfl⟩
  · exact .inl ⟨rfl, rfl⟩

theorem core_mapNewest {f : Record → Record} (hf : ∀ r, (f r).core = r.core) (rs : List Record) :
    (mapNewest f rs).map Record.core = rs.map Record.core := by
  rcases List.eq_nil_or_concat' rs with rfl | ⟨qs, q, rfl⟩
  · rfl
  · rw [mapNewest_append, List.map_append, List.map_append, List.map_singleton, List.map_singleton, hf]

theorem kept_handTrailing (s : State) : Kept s s.handTrailing := by
  rcases handTrailing_cases s with ⟨-, e⟩ | ⟨-, e⟩ <;> rw [e]
  · have cores := core_mapNewest (fun r => (lengthTest_aligned r).core) s.track.records
    refine Kept.of_core ?_ rfl
    have c : State.core { s with
        track := { s.track with records := mapNewest Record.lengthTest s.track.records }, gate := s.gate.enter .closed } =
      { s.core with
        track := { s.core.track with records := (mapNewest Record.lengthTest s.track.records).map Record.core } } := rfl
    rw [c, cores]
    rfl
  · exact .refl s

/-- What a trailing edge leaves of a record but for its capture. -/
structure Trails (s t : State) (x u : Record) : Prop where
  core : u.core = ({ x with topside := u.topside } : Record).core
  capture : CaptureStep s t x u

/-- A record `x`, what the capture finds of it, and what the consequences of the step leave. -/
theorem trails_of {s b t : State} {x y z u : Record} (xy : Aligned x y) (yz : z = topsideStep b y) (zu : Aligned z u)
    (hs : b.ws = s.ws) (hi : b.thermal.inputs = s.thermal.inputs) (ht : t.track.pos = b.track.pos) : Trails s t x u := by
  subst yz
  have step : CaptureStep b t y (topsideStep b y) := topsideStep_captures y ht
  refine ⟨?_, (step.aligned (r' := x) ⟨xy.core.symm, fun f hf => (xy.flags f hf).symm⟩ zu).states hs.symm hi.symm rfl⟩
  obtain ⟨top, -⟩ := zu.fields
  rw [zu.core, topsideStep_rest, top]
  have c : ∀ (r : Record) (v : Option Int) (fs : BitVec 16), ({ r with topside := v, flags := fs } : Record).core =
      { r.core with topside := v } := fun _ _ _ => rfl
  rw [c, xy.core]
  rfl

/-- The records in the frame of a trailing edge: those of `t`, told by `base` and the top-side values. -/
theorem zipWith_cores {s t : State} {base qs : List Record} (h : List.Forall₂ (Trails s t) base qs) :
    (List.zipWith (fun q u : Record => { q with topside := u.topside }) base qs).map Record.core = qs.map Record.core := by
  induction h with
  | nil => rfl
  | cons a _ ih =>
    rw [List.zipWith_cons_cons, List.map_cons, List.map_cons, ih, a.core]

/-- The flags that a trailing edge tests, and what it tests them by. -/
structure TestSame (r q : Record) : Prop where
  over_ : q.has .overlength = r.has .overlength
  mismatch : q.has .lengthMismatch = r.has .lengthMismatch
  origin : q.origin = r.origin
  binding : q.binding = r.binding
  length : q.length = r.length

theorem TestSame.trans {r q x : Record} (h : TestSame r q) (g : TestSame q x) : TestSame r x :=
  ⟨g.over_.trans h.over_, g.mismatch.trans h.mismatch, g.origin.trans h.origin, g.binding.trans h.binding,
    g.length.trans h.length⟩

theorem FluxTakes.testSame {n : Nat} {r q : Record} (h : FluxTakes n r q) : TestSame r q := by
  rw [h.1]
  exact ⟨rfl, rfl, rfl, rfl, rfl⟩

theorem topsideStep_testSame (s : State) (r : Record) : TestSame r (topsideStep s r) := by
  have rest := topsideStep_rest s r
  refine ⟨topsideStep_has s r (by decide) (by decide) (by decide), topsideStep_has s r (by decide) (by decide) (by decide),
    ?_, ?_, ?_⟩ <;> rw [rest]

/-- The clamp where the board has a recipe, and nothing where it has none (R65). -/
theorem clamp_records (s : State) (r : Record) (l : Nat) : ∃ c, RecordsTake c s.track.records (s.clamp r l).track.records := by
  cases h : r.recipe? with
  | none =>
    have e : s.clamp r l = s := by unfold State.clamp; rw [h]
    rw [e]
    exact ⟨_, .refl _⟩
  | some rc => exact (clamp_clamped s h l).records

/-- The state that a trailing edge leaves before the consequences of the step, where it belongs to the newest record. -/
theorem takeTrail_owned {s : State} {rs : List Record} {r : Record} (ho : s.track.owner = true)
    (hr : s.track.records = rs ++ [r]) (ht : r.trail = none) (p : Pos) : s.takeTrail p =
      ((({ s with track := { s.track with records := rs ++ [r.withTrail p s.ws.maxLength] } }).clamp
        (r.withTrail p s.ws.maxLength) (saturate16 (p - r.lead).toNat)).topside) := by
  have newest : s.track.newest = some r := by unfold Track.newest; rw [hr]; simp
  have owner : trailOwner s.track = some r := by
    unfold trailOwner
    rw [if_pos ho, newest]
    dsimp only
    rw [ht]
    rfl
  have length : (r.withTrail p s.ws.maxLength).length.getD 0 = saturate16 (p - r.lead).toNat := by rw [withTrail_rest]; rfl
  unfold State.takeTrail
  rw [owner]
  dsimp only
  rw [length, hr, mapNewest_append]

theorem takeTrail_unowned {s : State} (h : s.track.owner = false ∨ ∀ r, s.track.records.getLast? = some r → r.trail ≠ none)
    (p : Pos) : s.takeTrail p = s := by
  have owner : trailOwner s.track = none := by
    unfold trailOwner
    rcases h with h | h
    · rw [h]; rfl
    · split
      · unfold Track.newest
        split
        · next r hr => exact if_neg fun c => h r hr (Option.isNone_iff_eq_none.mp c)
        · rfl
      · rfl
  unfold State.takeTrail
  rw [owner]

theorem forall₂_concat {α β : Type} {R : α → β → Prop} {l : List α} {a : α} {m : List β} (h : List.Forall₂ R (l ++ [a]) m) :
    ∃ ms b, m = ms ++ [b] ∧ R a b := by
  induction l generalizing m with
  | nil =>
    cases h with
    | cons ab rest => cases rest with | nil => exact ⟨[], _, rfl, ab⟩
  | cons x l ih =>
    cases h with
    | cons _ rest =>
      obtain ⟨ms, b, rfl, ab⟩ := ih rest
      exact ⟨_ :: ms, b, rfl, ab⟩

/-- The state in which an entry trailing edge is delivered. -/
def State.trailed (s : State) (p : Pos) : State :=
  { s with
    track :=
      { s.track with
        entryEye := { accepted := false, pendingAt := none, count := s.track.entryEye.count + 1 }
        lastTrail := some p } }

theorem exec_entryTrailing {s : State} {p : Pos} (ha : s.track.entryEye.accepted = true) (ready : EyeReady s .entry p) :
    exec (.eyeChangeAccepted .entry) s = .next ((s.trailed p).takeTrail p).handTrailing.settleEval := by
  have accepted : s.accepted .entry = { s with track := { s.track with
      entryEye := { accepted := false, pendingAt := none, count := s.track.entryEye.count + 1 } } } :=
    congrArg (fun q => { s with track := { s.track with entryEye := q } }) (accepted_trailing ha)
  rw [exec_eyeChangeAccepted ready, acceptEye_entryTrailing ha, accepted]
  rfl

/-- What a trailing edge leaves of the board that it belongs to. -/
theorem owned_trails {s a c : State} {rs : List Record} {r : Record} {p : Pos} {l : Nat} (hac : a = s.trailed p)
    (hc : c = (a.takeTrail p).handTrailing) (ho : s.track.owner = true) (hr : s.track.records = rs ++ [r])
    (ht : r.trail = none) (hl : l = min (p - r.lead).toNat 65535) :
    List.Forall₂ (Trails s c.settleEval)
        (rs ++ [{ r with trail := some p, length := some l, stage := if r.stage = .entering then .tracked else r.stage }])
        c.settleEval.track.records ∧
      (∀ q, c.settleEval.track.records.getLast? = some q →
        (q.has .overlength = true ↔ r.has .overlength = true ∨ s.ws.maxLength < l) ∧
        (q.has .lengthMismatch = true ↔ r.has .lengthMismatch = true ∨
          (s.gate.state = .receiving ∧ r.origin = .docket ∧ ∃ b, r.binding = some b ∧ b.expectedLength ≠ 0 ∧
            b.lengthTol < ((l : Int) - b.expectedLength).natAbs))) := by
  have saturated : saturate16 (p - r.lead).toNat = l := hl.symm
  have setupA : a.ws = s.ws := by rw [hac]; rfl
  have taken := takeTrail_owned (s := a) (by rw [hac]; exact ho) (by rw [hac]; exact hr) ht p
  rw [saturated, setupA] at taken
  obtain ⟨r1, hr1⟩ : ∃ r1, r.withTrail p s.ws.maxLength = r1 := ⟨_, rfl⟩
  have rest := withTrail_rest r p s.ws.maxLength
  have has := withTrail_has r p s.ws.maxLength
  rw [hr1, saturated] at rest
  rw [hr1, saturated] at has
  rw [hr1] at taken
  obtain ⟨b0, hb0⟩ : ∃ b0 : State, { a with track := { a.track with records := rs ++ [r1] } } = b0 := ⟨_, rfl⟩
  rw [hb0] at taken
  obtain ⟨credit, credits⟩ := clamp_records b0 r1 l
  have same : (b0.clamp r1 l).ws = s.ws ∧ (b0.clamp r1 l).thermal.inputs = s.thermal.inputs ∧
      (b0.clamp r1 l).track.pos = s.track.pos ∧ (b0.clamp r1 l).gate = s.gate := by
    have e : b0.port.setup = s.port.setup ∧ b0.thermal = s.thermal ∧ b0.track.pos = s.track.pos ∧ b0.gate = s.gate := by
      rw [← hb0, hac]; exact ⟨rfl, rfl, rfl, rfl⟩
    unfold State.ws
    simp [e]
  obtain ⟨b, hb⟩ : ∃ b, b0.clamp r1 l = b := ⟨_, rfl⟩
  rw [hb] at taken credits same
  obtain ⟨setup, inputs, pos, gate⟩ := same
  have start : b0.track.records = rs ++ [r1] := by rw [← hb0]
  rw [start] at credits
  have settled := settleEval_records c
  have keptC := kept_settleEval c
  obtain ⟨t, htc⟩ : ∃ t, c.settleEval = t := ⟨_, rfl⟩
  rw [htc] at settled keptC ⊢
  have cases := handTrailing_cases (a.takeTrail p)
  rw [← hc] at cases
  have gateTaken : (a.takeTrail p).gate = s.gate := by rw [taken]; exact gate
  have topsides : (a.takeTrail p).track.records = b.track.records.map (topsideStep b) := by rw [taken]; rfl
  have posC : c.track.pos = s.track.pos := by
    have e : (a.takeTrail p).track.pos = s.track.pos := by rw [taken]; exact pos
    rcases cases with ⟨-, e'⟩ | ⟨-, e'⟩ <;> rw [e'] <;> exact e
  have aligned : List.Forall₂ Aligned (rs ++
      [{ r with trail := some p, length := some l, stage := if r.stage = .entering then .tracked else r.stage }])
      (rs ++ [r1]) := by
    refine List.rel_append (List.forall₂_same.mpr fun x _ => .refl x) (.cons ⟨by rw [rest]; rfl, fun f hf => ?_⟩ .nil)
    refine Bool.eq_iff_iff.mpr ((has f).trans (or_iff_left fun x => ?_))
    rw [x.1] at hf
    revert hf
    decide
  have tested : List.Forall₂ Aligned (a.takeTrail p).track.records c.track.records := by
    rcases cases with ⟨-, e⟩ | ⟨-, e⟩ <;> rw [e]
    · exact mapNewest_forall (fun x => Aligned.refl x) lengthTest_aligned _
    · exact List.forall₂_same.mpr fun x _ => .refl x
  have captured : List.Forall₂ (fun y z => z = topsideStep b y) b.track.records (a.takeTrail p).track.records := by
    rw [topsides, List.forall₂_map_right_iff]
    exact List.forall₂_same.mpr fun _ _ => rfl
  refine ⟨?_, fun q hq => ?_⟩
  · refine (forall₂_comp (forall₂_comp aligned credits) (forall₂_comp captured (forall₂_comp tested settled))).imp ?_
    rintro x u ⟨y, ⟨y0, xy0, y0y⟩, z, yz, v, zv, vu⟩
    exact trails_of (xy0.trans y0y.aligned) yz (zv.trans (vu.2.aligned vu.1)) setup inputs
      (keptC.keeps.trackPos.trans (posC.trans pos.symm))
  · have toCapture : List.Forall₂ TestSame (rs ++ [r1]) (a.takeTrail p).track.records :=
      (forall₂_comp credits captured).imp fun _ _ ⟨_, x, y⟩ => x.testSame.trans (y ▸ topsideStep_testSame b _)
    obtain ⟨ms, m, hm, rm⟩ := forall₂_concat toCapture
    have fields : m.origin = r.origin ∧ m.binding = r.binding ∧ m.length = some l := by
      rw [rm.origin, rm.binding, rm.length, rest]; exact ⟨rfl, rfl, rfl⟩
    obtain ⟨origin, binding, length⟩ := fields
    have overlong : m.has .overlength = true ↔ r.has .overlength = true ∨ s.ws.maxLength < l := by
      rw [rm.over_, has]; simp
    have mismatch : m.has .lengthMismatch = r.has .lengthMismatch := by
      rw [rm.mismatch]
      exact Bool.eq_iff_iff.mpr ((has _).trans (or_iff_left fun x => absurd x.1 (by decide)))
    have last : ∃ cs m', c.track.records = cs ++ [m'] ∧ m'.has .overlength = m.has .overlength ∧
        (m'.has .lengthMismatch = true ↔ m.has .lengthMismatch = true ∨ (s.gate.state = .receiving ∧ r.origin = .docket ∧
          ∃ b, r.binding = some b ∧ b.expectedLength ≠ 0 ∧ b.lengthTol < ((l : Int) - b.expectedLength).natAbs)) := by
      rcases cases with ⟨g, e⟩ | ⟨g, e⟩
      · refine ⟨ms, m.lengthTest, by rw [e, hm]; exact mapNewest_append _ _ _,
          Bool.eq_iff_iff.mpr ((lengthTest_has m _).trans (or_iff_left fun x => absurd x.1 (by decide))), ?_⟩
        rw [gateTaken] at g
        rw [lengthTest_has, origin, binding, length, g]
        simp
      · rw [gateTaken] at g
        exact ⟨ms, m, by rw [e, hm], rfl, by simp [g]⟩
    obtain ⟨cs, m', hcs, same1, same2⟩ := last
    rw [hcs] at settled
    obtain ⟨qs, q', hqs, -, flags⟩ := forall₂_concat settled
    rw [hqs, List.getLast?_append_cons, List.getLast?_singleton] at hq
    obtain rfl := Option.some.inj hq
    rw [flags _ (by decide) (by decide) (by decide), flags _ (by decide) (by decide) (by decide), same1, overlong, same2, mismatch]
    exact ⟨Iff.rfl, Iff.rfl⟩

/-! ## The frame of a trailing edge -/

theorem Kept.both {u v : State} (h : Kept u v) (rs : List Record) :
    Kept { u with track := { u.track with records := rs } } { v with track := { v.track with records := rs } } := by
  refine ⟨?_, h.mem⟩
  have c : ∀ w : State, State.core { w with track := { w.track with records := rs } } =
      { w.core with track := { w.core.track with records := rs.map Record.core } } := fun _ => rfl
  rw [c, c, h.core]

theorem kept_clamp (s : State) (r : Record) (l : Nat) : Kept s (s.clamp r l) := by
  cases h : r.recipe? with
  | none =>
    have e : s.clamp r l = s := by unfold State.clamp; rw [h]
    rw [e]
    exact .refl s
  | some rc => exact (clamp_clamped s h l).kept

theorem kept_takeTrail (s : State) (p : Pos) :
    Kept { s with track := { s.track with records := (s.takeTrail p).track.records } } (s.takeTrail p) := by
  cases h : trailOwner s.track with
  | none =>
    have e : s.takeTrail p = s := by unfold State.takeTrail; rw [h]
    rw [e]
    exact .refl s
  | some r =>
    obtain ⟨R, hR⟩ : ∃ R, mapNewest (fun q => q.withTrail p s.ws.maxLength) s.track.records = R := ⟨_, rfl⟩
    obtain ⟨b, hb⟩ : ∃ b : State, { s with track := { s.track with records := R } } = b := ⟨_, rfl⟩
    obtain ⟨q, hq⟩ : ∃ q, r.withTrail p s.ws.maxLength = q := ⟨_, rfl⟩
    have e : s.takeTrail p = (b.clamp q (q.length.getD 0)).topside := by
      unfold State.takeTrail; rw [h, ← hb, ← hR, ← hq]
    obtain ⟨u, hu⟩ : ∃ u, b.clamp q (q.length.getD 0) = u := ⟨_, rfl⟩
    have k := kept_clamp b q (q.length.getD 0)
    rw [hu] at k
    have both := k.both u.topside.track.records
    rw [← hb] at both
    rw [e, hu]
    exact both

/-- The frame of a trailing edge, the records of which stand before the consequences of the step. -/
theorem kept_trailing (a : State) (p : Pos) : Kept { a with track := { a.track with records := (a.takeTrail p).track.records } }
    (a.takeTrail p).handTrailing.settleEval :=
  ((kept_takeTrail a p).trans (kept_handTrailing _)).trans (kept_settleEval _)

theorem WindowsClamped.of_ordinal {s t : State} {r q : Record} {l : Nat} {ws : List Window} {p : Pos}
    (w : WindowsClamped s t r l ws p) (h : r.ordinal = q.ordinal) : WindowsClamped s t q l ws p := by
  obtain ⟨beyond, moved, short, joins, passed, edges, active, pulses⟩ := w
  rw [h] at beyond moved short joins passed edges active
  exact ⟨beyond, moved, short, joins, passed, edges, active, pulses⟩

/-- The flux unit of a trailing edge that belongs to a board. -/
theorem owned_windows {s a c : State} {rs : List Record} {r : Record} {p : Pos} {l : Nat} (hac : a = s.trailed p)
    (hc : c = (a.takeTrail p).handTrailing) (ho : s.track.owner = true) (hr : s.track.records = rs ++ [r])
    (ht : r.trail = none) (hl : l = min (p - r.lead).toNat 65535) :
    (∀ rc, r.recipe? = some rc →
      WindowsClamped s c.settleEval r l rc.windows (r.lead + BitVec.ofNat 32 (s.ws.barF + l))) ∧
    (r.recipe? = none → c.flux = s.flux) := by
  have saturated : saturate16 (p - r.lead).toNat = l := hl.symm
  have setupA : a.ws = s.ws := by rw [hac]; rfl
  have taken := takeTrail_owned (s := a) (by rw [hac]; exact ho) (by rw [hac]; exact hr) ht p
  rw [saturated, setupA] at taken
  have rest := withTrail_rest r p s.ws.maxLength
  obtain ⟨r1, hr1⟩ : ∃ r1, r.withTrail p s.ws.maxLength = r1 := ⟨_, rfl⟩
  rw [hr1] at rest taken
  have fields : r1.ordinal = r.ordinal ∧ r1.recipe? = r.recipe? ∧ r1.lead = r.lead ∧ r1.flux = r.flux := by
    rw [rest]; exact ⟨rfl, rfl, rfl, rfl⟩
  obtain ⟨ordinal, recipe, lead, flux⟩ := fields
  obtain ⟨b0, hb0⟩ : ∃ b0 : State, { a with track := { a.track with records := rs ++ [r1] } } = b0 := ⟨_, rfl⟩
  rw [hb0] at taken
  have same : b0.flux = s.flux ∧ b0.track.pos = s.track.pos ∧ b0.port.setup = s.port.setup ∧ b0.clock = s.clock ∧
      b0.mem = s.mem ∧ b0.ws = s.ws := by rw [← hb0, hac]; exact ⟨rfl, rfl, rfl, rfl, rfl, rfl⟩
  obtain ⟨sFlux, sPos, sSetup, sClock, sMem, sWs⟩ := same
  have cases := handTrailing_cases (a.takeTrail p)
  rw [← hc] at cases
  have cBlocks : c.flux = (b0.clamp r1 l).flux ∧ c.mem = (b0.clamp r1 l).mem := by
    rcases cases with ⟨-, e⟩ | ⟨-, e⟩ <;> rw [e, taken] <;> exact ⟨rfl, rfl⟩
  refine ⟨fun rc hrc => ?_, fun none => ?_⟩
  · have clamped := clamp_clamped b0 (recipe.trans hrc) l
    rw [lead, sWs] at clamped
    have before : List.Forall₂ FluxSame s.track.records b0.track.records := by
      rw [hr, ← hb0]
      exact List.rel_append (fluxSame_refl rs) (.cons ⟨flux, ordinal⟩ .nil)
    have after : List.Forall₂ FluxSame (b0.clamp r1 l).track.records c.track.records := by
      have top : List.Forall₂ FluxSame (b0.clamp r1 l).track.records (a.takeTrail p).track.records := by
        have e : (a.takeTrail p).track.records =
            (b0.clamp r1 l).track.records.map (topsideStep (b0.clamp r1 l)) := by rw [taken]; rfl
        rw [e, List.forall₂_map_right_iff]
        refine List.forall₂_same.mpr fun x _ => ?_
        rw [topsideStep_rest]
        exact ⟨rfl, rfl⟩
      rcases cases with ⟨-, e⟩ | ⟨-, e⟩ <;> rw [e]
      · refine (forall₂_comp top (mapNewest_forall (R := FluxSame) (fun _ => ⟨rfl, rfl⟩) (fun x => ?_) _)).imp
          fun _ _ ⟨_, x, y⟩ => ⟨y.1.trans x.1, y.2.trans x.2⟩
        rw [lengthTest_rest]
        exact ⟨rfl, rfl⟩
      · exact top
    exact (clamped.windows sFlux sPos sSetup sClock sMem before cBlocks.1 cBlocks.2 after).of_ordinal ordinal
  · have e : b0.clamp r1 l = b0 := by
      unfold State.clamp
      rw [recipe.trans none]
    rw [cBlocks.1, e, sFlux]

theorem trails_places {s t : State} {base qs : List Record} (h : List.Forall₂ (Trails s t) base qs) :
    qs.map Record.place = base.map Record.place ∧ qs.map (·.length) = base.map (·.length) := by
  induction h with
  | nil => exact ⟨rfl, rfl⟩
  | @cons x u _ _ a _ ih =>
    have place : u.place = x.place :=
      (Record.place_of_core a.core).trans rfl
    have length : u.length = x.length :=
      (congrArg (fun r : Record => r.length) a.core : u.core.length = _)
    exact ⟨by rw [List.map_cons, List.map_cons, ih.1, place], by rw [List.map_cons, List.map_cons, ih.2, length]⟩

/-- Settles O25: the trail, the clamp, the capture and the gate's part, on the state that has accepted the edge. -/
theorem trailingEdgeGivesTheNewestRecordItsLength : Obligations.TrailingEdgeGivesTheNewestRecordItsLength := by
  intro s p ha ready
  have run := exec_entryTrailing ha ready
  obtain ⟨a, hac⟩ : ∃ a, a = s.trailed p := ⟨_, rfl⟩
  rw [← hac] at run
  have kept := kept_trailing a p
  have unowned := takeTrail_unowned (s := a) (p := p)
  have gate : (a.takeTrail p).gate = s.gate := by rw [State.blocks_takeTrail a p |>.2.2.2.2.2.2.1, hac]; rfl
  have cases := handTrailing_cases (a.takeTrail p)
  have keptTaken := ((kept_takeTrail a p).trans (kept_handTrailing _)).keeps
  obtain ⟨c, hc⟩ : ∃ c, c = (a.takeTrail p).handTrailing := ⟨_, rfl⟩
  rw [← hc] at run kept cases keptTaken
  rw [gate] at cases
  have leaves := receiving_not_entered (s := c)
  have stays := fun h => closed_in_gap (s := c) (q := p) h
  have lists := fluxSettles_settleEval c
  have owned := @owned_trails s a c
  have windows := @owned_windows s a c
  obtain ⟨t, ht⟩ : ∃ t, c.settleEval = t := ⟨_, rfl⟩
  rw [ht] at run kept leaves stays lists owned windows
  have keeps := kept.keeps
  have closed : s.gate.state = .receiving → c.gate.state = .closed := fun h => by
    rcases cases with ⟨-, e⟩ | ⟨g, -⟩
    · rw [e]; rfl
    · exact absurd h g
  have trail : c.track.lastTrail = some p ∧ c.track.pos = s.track.pos ∧ c.ws = s.ws := by
    unfold State.ws
    rw [keptTaken.trackLastTrail, keptTaken.trackPos, keptTaken.portSetup, hac]
    exact ⟨rfl, rfl, rfl⟩
  refine ⟨t, run, keeps.trackLastTrail.trans (by rw [hac]; rfl), keeps.trackPos.trans (by rw [hac]; rfl),
    keeps.trackEntryEye.trans (by rw [hac]; rfl), fun h => leaves (by rw [closed h]; decide),
    fun h g => stays (closed h) trail.1 (by rw [trail.2.1, trail.2.2]; exact g), fun rs r l ho hr hn hl => ?_, fun h => ?_⟩
  · obtain ⟨trails, flags⟩ := owned (rs := rs) (r := r) (p := p) (l := l) hac hc ho hr hn hl
    obtain ⟨clamped, plain⟩ := windows (rs := rs) (r := r) (p := p) (l := l) hac hc ho hr hn hl
    obtain ⟨places, lengths⟩ := trails_places trails
    refine ⟨places.trans (by rw [List.map_append]; rfl), lengths.trans (by rw [List.map_append]; rfl), flags, clamped,
      fun none nb => ?_, fun base hb => ⟨fun j x u hx hu => ?_, ?_⟩⟩
    · have still := lists.still (by unfold InhibitBegins at *; rw [plain none]; exact nb)
      rw [plain none] at still
      exact ⟨still.1, still.2.1, still.2.2.1⟩
    · rw [hb] at hx
      exact (forall₂_getElem? trails hx hu).capture
    · have accepted : t.track.entryEye = a.track.entryEye := keeps.trackEntryEye
      rw [hb, accepted]
      have cores := (zipWith_cores trails).trans (show t.track.records.map Record.core = _ from keeps.trackRecords)
      have frame := kept.withCores cores
      subst hac
      exact frame.keeps
  · have same := unowned (by rw [hac]; exact h)
    have accepted : t.track.entryEye = a.track.entryEye := keeps.trackEntryEye
    rw [same] at keeps
    rw [accepted]
    subst hac
    exact keeps

end Sys2Proof.Machine
end



section
/-! The gate and the docket unit's findings over the consequences of a step: the gate's form stays, and findings that no slot
contradicts stay. -/

namespace Sys2Proof.Machine

open Sys2Proof.Config

/-- A relation that the four kinds of stages keep holds over the consequences of a step. -/
theorem lift_stages {R : State → State → Prop} (trans : ∀ {s t u}, R s t → R t u → R s u)
    (aside : ∀ {s t}, Aside s t → GateAside s t → R s t) (scan : ∀ s, R s s.reformDocket)
    (turn : ∀ s, Aside s s.takeHolds.gateTransition → R s s.takeHolds.gateTransition) (s : State) :
    R s s.settle ∧ R s s.gateEval ∧ R s s.settleEval := by
  have change : ∀ u : State, R u (u.changeover 8) := fun u => aside (aside_changeover 8 u) (gateAside_changeover 8 u)
  have cls : ∀ u : State, R u u.takeClass := fun u =>
    aside (.of_same (by simp) (by simp) (by simp)) ⟨rfl, by simp, kept_takeClass _⟩
  have turned : ∀ u : State, R u u.takeHolds.gateTransition := fun u => by
    have holds : Aside u u.takeHolds := .of_same (by simp) (by simp) (by simp [State.takeHolds])
    exact turn u (holds.trans (aside_gateTransition _))
  have eval : ∀ u : State, R u u.gateEval := fun u =>
    trans (trans (trans (scan u) (cls _)) (change _)) (turned _)
  have stage : ∀ u : State, R u u.gateStage := fun u => by
    rcases State.gateStage_cases u with h | h | h | h <;> rw [h]
    · exact aside (.of_same rfl rfl rfl) ⟨rfl, rfl, .refl u⟩
    · exact eval u
    · exact change u
    · exact trans (change u) (eval _)
  have reform : ∀ u : State, R u u.reform := fun u => aside (aside_reform u) (gateAside_reform u)
  have pass : ∀ u : State, R u u.pass := fun u => trans (reform u) (stage _)
  have settle : ∀ u : State, R u u.settle := fun u => trans (trans (pass u) (pass _)) (reform _)
  exact ⟨settle s, eval s, trans (trans (reform s) (eval _)) (settle _)⟩

/-! ## The gate's form (R33, R44, R45, R47) -/

theorem GateFormed.of_gateAside {s t : State} (h : GateFormed s) (a : GateAside s t) : GateFormed t := by
  obtain ⟨gate, offer, -⟩ := a
  obtain ⟨ready, holds, late, offered⟩ := h
  refine ⟨?_, ?_, ?_, ?_⟩ <;> rw [gate] <;> [exact ready; exact holds; exact late; (rw [offer]; exact offered)]

theorem closeGate_formed (s : State) : GateFormed s.closeGate := by
  refine ⟨?_, ?_, ?_, ?_⟩ <;> simp [State.closeGate, Gate.enter]

theorem takeHolds_transition_formed {s : State} (h : GateFormed s) : GateFormed s.takeHolds.gateTransition := by
  obtain ⟨ready, holds, late, offered⟩ := h
  have still : s.gate.state ≠ .opened → GateFormed s.takeHolds := fun g =>
    ⟨ready, fun x => absurd x g, late, offered⟩
  have state : s.takeHolds.gate.state = s.gate.state := rfl
  unfold State.gateTransition
  split
  · next g =>
    have stands := still (by rw [← state, g]; decide)
    split
    · next empty =>
      have none : s.takeHolds.gate.holds = [] := List.isEmpty_iff.mp empty
      unfold State.openGate
      split
      · refine ⟨?_, fun _ => none, ?_, ?_⟩ <;> simp [Gate.enter]
      · exact stands
    · exact stands
  · next g =>
    have opened : s.gate.state = .opened := state.symm.trans g
    split
    · next empty => exact ⟨ready, fun _ => List.isEmpty_iff.mp empty, late, offered⟩
    · split
      · exact closeGate_formed _
      · refine ⟨?_, ?_, ?_, ?_⟩
        · simp [State.lateGate, Gate.enter]
        · simp [State.lateGate, Gate.enter]
        · simp [State.lateGate, Gate.enter]
        · have offer : s.docket.offer ≠ none := offered.mpr (.inl opened)
          exact ⟨fun _ => .inr rfl, fun _ => offer⟩
  · next g =>
    split
    · exact closeGate_formed _
    · exact still (by rw [← state, g]; decide)
  · next g => exact still (by rw [← state, g]; decide)

theorem gateFormed_lift (s : State) : (GateFormed s → GateFormed s.settle) ∧ (GateFormed s → GateFormed s.gateEval) ∧
    (GateFormed s → GateFormed s.settleEval) :=
  lift_gate (R := fun s t => GateFormed s → GateFormed t) (fun f g h => g (f h)) (fun a h => h.of_gateAside a)
    (fun _ h => takeHolds_transition_formed h) s

/-! ## Recipes (R25, R31) -/

/-- A recipe is judged by the recipe table and the working set alone. -/
theorem judgeRecipe_congr {m n : Memory} (h : ∀ a, 0x0360 ≤ a → a < 0x0960 → n.read a = m.read a) (st : Option Setup) (i : Nat) :
    judgeRecipe n st i = judgeRecipe m st i := by
  unfold judgeRecipe
  split
  · rfl
  · next hi =>
    have word : ∀ k, k < 0x60 → n.read (recipeAt i + k) = m.read (recipeAt i + k) := fun k hk =>
      h _ (by unfold recipeAt; omega) (by unfold recipeAt; omega)
    have state : recipeState n i = recipeState m i := by unfold recipeState; rw [show recipeAt i = recipeAt i + 0 from rfl, word 0 (by decide)]
    have zones : ∀ z : Fin 6, n.read (recipeAt i + 13 + z.val) = m.read (recipeAt i + 13 + z.val) := fun z => by
      rw [Nat.add_assoc]; exact word _ (by have := z.isLt; omega)
    have windows : ∀ k < 6, readWindow n (recipeAt i) k = readWindow m (recipeAt i) k := fun k hk => by
      unfold readWindow
      rw [Nat.add_assoc, Nat.add_assoc, Nat.add_assoc, Nat.add_assoc, word (23 + 4 * k) (by omega), word (24 + 4 * k) (by omega),
        word (25 + 4 * k) (by omega), word (26 + 4 * k) (by omega)]
    have recipe : readRecipe n i = readRecipe m i := by
      unfold readRecipe
      dsimp only
      rw [word 1 (by decide), word 10 (by decide), word 11 (by decide), word 12 (by decide), word 19 (by decide),
        word 20 (by decide), word 21 (by decide), word 22 (by decide), word 47 (by decide), word 48 (by decide),
        word 49 (by decide), word 50 (by decide), List.map_congr_left (fun k hk => windows k (by have := List.mem_range.mp hk; omega))]
      simp only [zones]
    rw [state, recipe]

theorem Aside.judge {s t : State} (h : Aside s t) (i : Nat) :
    judgeRecipe t.mem t.port.setup i = judgeRecipe s.mem s.port.setup i := by
  rw [h.setup]
  exact judgeRecipe_congr (fun a ha _ => h.mem a (by omega) (by omega)) _ i

end Sys2Proof.Machine
end



section
/-! The slot scan (R23 to R25), round by round, and the findings that stand after it. -/

namespace Sys2Proof.Machine

open Sys2Proof.Config

/-! ## Slots rejected for good (R36) -/

/-- A slot stands rejected with a reason, and its close has been told. -/
structure RejectHeld (n : SlotIx) (c : Word) (s : State) : Prop where
  words : RejectedWith s.mem n c
  told : Pending s .slotClosed

theorem RejectHeld.follows {s t : State} {n : SlotIx} {c : Word} (h : RejectHeld n c s) (f : Follows s t) : RejectHeld n c t := by
  obtain ⟨⟨state, reason, zero⟩, told⟩ := h
  have rejected : slotState s.mem n = .rejected := by unfold slotState; rw [state]; rfl
  have words := f.slots n (.inr (by rw [rejected]; decide))
  refine ⟨⟨(words 0 (by decide)).trans state, (words 18 (by decide)).trans reason, fun k h16 h35 h18 => ?_⟩, f.notices _ told⟩
  exact (words k (by omega)).trans (zero k h16 h35 h18)

theorem rejectSlot_holds (s : State) (n : SlotIx) (r : RejectReason) : RejectHeld n r.code (s.rejectSlot n r) := by
  have write : ∀ k, k < 64 → (s.rejectSlot n r).mem.read (slotAt n + k) = _ := fun k hk =>
    read_countClosed_writeResult s.mem n 4 (emptyResult_length 0 r.code) hk
  refine ⟨⟨write 0 (by decide), write 18 (by decide), fun k h16 h35 h18 => ?_⟩, ?_⟩
  · rw [write k (by omega), if_neg (by omega), if_pos ⟨h16, h35⟩]
    exact emptyResult_zero _ (by omega) (by omega)
  · simp [Pending, State.rejectSlot, Port.notify, Notice.mask, Notice.bit]

/-- Slots that wait, each once. -/
structure Waiting (s : State) (ns : List SlotIx) : Prop where
  nodup : ns.Nodup
  waits : ∀ n ∈ ns, n ∉ s.docket.held ∧ slotState s.mem n = .posted

theorem Waiting.tail {s : State} {n : SlotIx} {ns : List SlotIx} (h : Waiting s (n :: ns)) (r : RejectReason) :
    Waiting (s.rejectSlot n r) ns := by
  obtain ⟨fresh, nodup⟩ := List.nodup_cons.mp h.nodup
  refine ⟨nodup, fun x hx => ?_⟩
  obtain ⟨held, posted⟩ := h.waits x (List.mem_cons_of_mem n hx)
  exact ⟨held, (rejectSlot_slotState (x := x) (n := n) fun e => fresh (e ▸ hx)).trans posted⟩

theorem Waiting.follows {s : State} {ns : List SlotIx} (h : Waiting s ns) (r : RejectReason) :
    Follows s (s.rejectSlots ns r) := follows_rejectSlots s ns r h.nodup h.waits

theorem Waiting.rejected {s : State} {ns : List SlotIx} (h : Waiting s ns) (r : RejectReason) {n : SlotIx} (hn : n ∈ ns) :
    RejectHeld n r.code (s.rejectSlots ns r) := by
  induction ns generalizing s with
  | nil => cases hn
  | cons x ns ih =>
    rcases List.mem_cons.mp hn with rfl | hn
    · exact (rejectSlot_holds s n r).follows ((h.tail r).follows r)
    · exact ih (h.tail r) hn

/-! ## One round -/

theorem mem_slotsBehind (s : State) (n : SlotIx) : n ∈ slotsBehind s ↔
    (slotState s.mem n = .posted ∧ n ∉ s.docket.held) ∧ 1 ≤ (s.docket.expected - s.mem.read (slotAt n + 1)).toNat ∧
      (s.docket.expected - s.mem.read (slotAt n + 1)).toNat ≤ 32767 := by
  rw [slotsBehind, List.mem_filter, mem_postedSlots, isStale, decide_eq_true_iff]
  rfl

theorem slotsAtE_not_behind {s : State} {n : SlotIx} (h : n ∈ slotsAtE s) : n ∉ slotsBehind s := fun g => by
  obtain ⟨-, at'⟩ := (mem_slotsAtE s n).mp h
  obtain ⟨-, behind, -⟩ := (mem_slotsBehind s n).mp g
  rw [at', BitVec.sub_self] at behind
  exact absurd behind (by decide)

theorem Aside.slotsBehind {s t : State} (h : Aside s t) : slotsBehind t = slotsBehind s := by
  unfold Machine.slotsBehind
  rw [h.postedSlots, h.docket]
  refine List.filter_congr fun n _ => ?_
  unfold slotSequence
  rw [h.read n 1]

theorem mem_slotsBehind_rejectSlots (s : State) (ns : List SlotIx) (r : RejectReason) (x : SlotIx) :
    x ∈ slotsBehind (s.rejectSlots ns r) ↔ x ∈ slotsBehind s ∧ x ∉ ns := by
  have word : (s.rejectSlots ns r).mem.read (slotAt x + 1) = s.mem.read (slotAt x + 1) :=
    (kept_rejectSlots s ns r).docketWord x (by decide) (by decide)
  rw [mem_slotsBehind, mem_slotsBehind, ← mem_postedSlots, ← mem_postedSlots, mem_postedSlots_rejectSlots, rejectSlots_docket, word]
  exact and_right_comm

/-- The scan with the slots behind E rejected (R23). -/
def State.staleRejected (s : State) : State := s.rejectSlots (slotsBehind s) .stale

/-- The scan with the later slots at E rejected too (R24). -/
def State.roundRejected (s : State) (others : List SlotIx) : State := s.staleRejected.rejectSlots others .duplicate

/-- What the third step finds of the slot's recipe (R25). -/
def verdictAt (s : State) (n : SlotIx) : Verdict :=
  judgeRecipe s.mem s.port.setup (s.mem.read (slotAt n + 2)).toNat

/-- The next board that a verdict gives (R25). -/
def Verdict.board (v : Verdict) (skipFlux : Bool) : Option NextBoard :=
  match v with
  | .ready r => some { recipe := r, skipFlux := skipFlux }
  | _ => none

/-- The findings with the candidate `n` (R25, R26). -/
def State.foundAt (s : State) (n : SlotIx) : State :=
  s.findings (some n) ((verdictAt s n).board (slotSkipFlux s.mem n)) false (decide (verdictAt s n = .editing)) false

/-- The state of the next round after a bad recipe (R25). -/
def State.badRejected (s : State) (n : SlotIx) (others : List SlotIx) : State :=
  ((s.roundRejected others).rejectSlot n .badRecipe).setExpected (s.docket.expected + 1)

theorem kept_roundRejected (s : State) (others : List SlotIx) : Kept s (s.roundRejected others) :=
  (kept_rejectSlots s _ _).trans (kept_rejectSlots _ _ _)

theorem Kept.verdictAt {s t : State} (h : Kept s t) (n : SlotIx) : verdictAt t n = verdictAt s n := by
  unfold Machine.verdictAt
  rw [h.keeps.portSetup, h.docketWord n (k := 2) (by decide) (by decide)]
  exact judgeRecipe_congr (fun a ha hb => h.mem.quiet a ⟨.inr (by omega), .inl (by omega)⟩) _ _

theorem docket_roundRejected (s : State) (others : List SlotIx) : (s.roundRejected others).docket = s.docket :=
  (rejectSlots_docket _ _ _).trans (rejectSlots_docket _ _ _)

theorem slotScan_found {s : State} {n : SlotIx} {others : List SlotIx} (h : slotsAtE s = n :: others) (k : Nat) :
    (verdictAt s n ≠ .bad → s.slotScan (k + 1) = (s.roundRejected others).foundAt n) ∧
      (verdictAt s n = .bad → s.slotScan (k + 1) = State.slotScan k (s.badRejected n others)) := by
  have same := (kept_roundRejected s others).verdictAt n
  rw [State.slotScan]
  dsimp only
  rw [show (postedSlots s).filter (fun n => slotSequence s.mem n == s.docket.expected) = n :: others from h]
  dsimp only
  unfold State.foundAt
  rw [same]
  split
  · next hv =>
    have bad : verdictAt s n = .bad := same.symm.trans hv
    exact ⟨fun good => absurd bad good, fun _ => rfl⟩
  · next hv =>
    have editing : verdictAt s n = .editing := same.symm.trans hv
    rw [editing]
    exact ⟨fun _ => rfl, fun bad => by cases bad⟩
  · next r hv =>
    have ready : verdictAt s n = .ready r := same.symm.trans hv
    rw [ready]
    exact ⟨fun _ => rfl, fun bad => by cases bad⟩

end Sys2Proof.Machine
end



section
/-! SET_SOURCE and SET_SEQUENCE: the findings that follow (R26 to R29). -/

namespace Sys2Proof.Machine

open Sys2Proof.Config

/-! ## Rounds of the scan -/

theorem waiting_behind (s : State) : Waiting s (slotsBehind s) :=
  ⟨(allSlots_nodup.filter _).filter _, fun n h => by
    obtain ⟨⟨posted, held⟩, -⟩ := (mem_slotsBehind s n).mp h
    exact ⟨held, posted⟩⟩

theorem nodup_slotsAtE (s : State) : (slotsAtE s).Nodup := (allSlots_nodup.filter _).filter _

/-- The slots at E still wait after those behind it are rejected. -/
theorem waiting_staleRejected (s : State) : Waiting s.staleRejected (slotsAtE s) :=
  ⟨nodup_slotsAtE s, fun n h => by
    obtain ⟨⟨posted, held⟩, -⟩ := (mem_slotsAtE s n).mp h
    refine ⟨?_, (rejectSlots_slotState (slotsAtE_not_behind h)).trans posted⟩
    rw [State.staleRejected, rejectSlots_held]
    exact held⟩

theorem waiting_others {s : State} {n : SlotIx} {others : List SlotIx} (h : slotsAtE s = n :: others) :
    Waiting s.staleRejected others := by
  have all := waiting_staleRejected s
  rw [h] at all
  exact ⟨(List.nodup_cons.mp all.nodup).2, fun x hx => all.waits x (List.mem_cons_of_mem n hx)⟩

theorem follows_badRejected {s : State} {n : SlotIx} {others : List SlotIx} (h : slotsAtE s = n :: others) :
    Follows ((s.roundRejected others).rejectSlot n .badRecipe) (s.badRejected n others) ∧
      Follows (s.roundRejected others) ((s.roundRejected others).rejectSlot n .badRecipe) := by
  have all := waiting_staleRejected s
  rw [h] at all
  obtain ⟨fresh, -⟩ := List.nodup_cons.mp all.nodup
  obtain ⟨held, posted⟩ := all.waits n List.mem_cons_self
  refine ⟨follows_setExpected _ _, follows_rejectSlot _ n _ ?_ ?_⟩
  · rw [State.roundRejected, rejectSlots_held]; exact held
  · rw [State.roundRejected, rejectSlots_slotState fresh]; exact posted

/-- What follows the round's rejections, in each of its cases. -/
theorem slotScan_follows (s : State) (k : Nat) :
    Follows s.staleRejected (s.slotScan (k + 1)) ∧
      ∀ n others, slotsAtE s = n :: others →
        Follows (s.roundRejected others) (s.slotScan (k + 1)) ∧
        (verdictAt s n = .bad → Follows ((s.roundRejected others).rejectSlot n .badRecipe) (s.slotScan (k + 1))) := by
  have found : ∀ n others, slotsAtE s = n :: others →
      Follows (s.roundRejected others) (s.slotScan (k + 1)) ∧
        (verdictAt s n = .bad → Follows ((s.roundRejected others).rejectSlot n .badRecipe) (s.slotScan (k + 1))) := by
    intro n others h
    obtain ⟨good, bad⟩ := slotScan_found h k
    obtain ⟨moved, rejected⟩ := follows_badRejected h
    have last : verdictAt s n = .bad → Follows ((s.roundRejected others).rejectSlot n .badRecipe) (s.slotScan (k + 1)) := fun v => by
      rw [bad v]
      exact moved.trans (follows_slotScan k _)
    refine ⟨?_, last⟩
    by_cases v : verdictAt s n = .bad
    · exact rejected.trans (last v)
    · rw [good v]
      exact follows_findings _ _ _ _ _ _
  refine ⟨?_, found⟩
  cases h : slotsAtE s with
  | nil =>
    rw [slotScan_none h]
    exact follows_findings _ _ _ _ _ _
  | cons n others => exact ((waiting_others h).follows .duplicate).trans (found n others h).1

/-! ## Findings that stand -/

/-- The scan has nothing more to reject, and the findings are its own. -/
structure ScanDone (s : State) : Prop where
  source : s.docket.source = .docket
  loaded : s.loaded = true
  behind : slotsBehind s = []
  found : (slotsAtE s = [] ∧ s.docket = (s.findings none none true false false).docket) ∨
    ∃ n, slotsAtE s = [n] ∧ verdictAt s n ≠ .bad ∧ s.docket = (s.foundAt n).docket

theorem State.findings_self {s : State} {c : Option SlotIx} {b : Option NextBoard} {x y z : Bool}
    (h : s.docket = (s.findings c b x y z).docket) : s.findings c b x y z = s := by
  have e : s.findings c b x y z = { s with docket := (s.findings c b x y z).docket } := rfl
  rw [e, ← h]

theorem ScanDone.fixed {s : State} (h : ScanDone s) : s.reformDocket = s := by
  obtain ⟨source, loaded, behind, found⟩ := h
  have stale : s.staleRejected = s := by unfold State.staleRejected; rw [behind]; rfl
  unfold State.reformDocket
  split
  · rfl
  · rfl
  · rw [source, loaded]
    show s.slotScan 65 = s
    rcases found with ⟨none', docket⟩ | ⟨n, one, good, docket⟩
    · rw [slotScan_none none', behind]
      exact State.findings_self docket
    · rw [(slotScan_found one 64).1 good]
      have round : s.roundRejected [] = s := stale
      rw [round]
      exact State.findings_self docket

theorem Aside.verdictAt {s t : State} (h : Aside s t) (n : SlotIx) : verdictAt t n = verdictAt s n := by
  unfold Machine.verdictAt
  rw [h.judge, h.read n 2]

theorem ScanDone.of_aside {s t : State} (h : ScanDone s) (a : Aside s t) : ScanDone t := by
  obtain ⟨source, loaded, behind, found⟩ := h
  have offer : ∀ (c : Option SlotIx) (b : Option NextBoard) (x y z : Bool),
      s.docket = (s.findings c b x y z).docket → t.docket = (t.findings c b x y z).docket := fun c b x y z e => by
    have docket := a.docket
    rw [e] at docket
    have e' : (t.findings c b x y z).docket =
        { t.docket with candidate := c, next := b, noDocket := x, recipeHold := y, noSlot := z } := rfl
    rw [e', docket]
    rfl
  refine ⟨by rw [a.docket]; exact source, ?_, a.slotsBehind.trans behind, ?_⟩
  · unfold State.loaded
    rw [a.setup]
    exact loaded
  · rw [a.slotsAtE]
    refine found.imp (fun ⟨l, e⟩ => ⟨l, offer _ _ _ _ _ e⟩) fun ⟨n, l, v, e⟩ => ⟨n, l, by rw [a.verdictAt]; exact v, ?_⟩
    have skip : slotSkipFlux t.mem n = slotSkipFlux s.mem n := by unfold slotSkipFlux; rw [a.read n 3]
    unfold State.foundAt at *
    rw [a.verdictAt, skip]
    exact offer _ _ _ _ _ e

/-- After a scan that is done, the rest of a gate evaluation and its consequences leave the findings, E and the slots alone. -/
theorem ScanDone.stays {s : State} (h : ScanDone s.reform.reformDocket) : Aside s.reform.reformDocket s.settleEval := by
  have trans : ∀ {s t u : State}, (ScanDone s → Aside s t ∧ ScanDone t) → (ScanDone t → Aside t u ∧ ScanDone u) →
      (ScanDone s → Aside s u ∧ ScanDone u) := fun f g x => by
    obtain ⟨a, d⟩ := f x
    obtain ⟨b, e⟩ := g d
    exact ⟨a.trans b, e⟩
  have aside : ∀ {s t : State}, Aside s t → ScanDone s → Aside s t ∧ ScanDone t := fun a d => ⟨a, d.of_aside a⟩
  have scan : ∀ s : State, ScanDone s → Aside s s.reformDocket ∧ ScanDone s.reformDocket := fun s d => by
    rw [d.fixed]
    exact ⟨.of_same rfl rfl rfl, d⟩
  obtain ⟨u, hu⟩ : ∃ u, s.reform.reformDocket = u := ⟨_, rfl⟩
  have e : s.settleEval = ((u.takeClass.changeover 8).takeHolds).gateTransition.settle := by rw [← hu]; rfl
  rw [hu] at h
  rw [hu, e]
  have after := aside_afterScan u
  exact after.trans ((lift_docket (R := fun s t => ScanDone s → Aside s t ∧ ScanDone t) trans aside scan _).1 (h.of_aside after)).1

end Sys2Proof.Machine
end



section
/-! SET_SEQUENCE: the scan that follows it, to its end (R27). -/

namespace Sys2Proof.Machine

open Sys2Proof.Config

theorem slotsBehind_staleRejected (s : State) : slotsBehind s.staleRejected = [] :=
  List.eq_nil_iff_forall_not_mem.mpr fun x hx => by
    obtain ⟨behind, rest⟩ := (mem_slotsBehind_rejectSlots s _ _ x).mp hx
    exact rest behind

theorem slotsAtE_staleRejected (s : State) (x : SlotIx) : x ∈ slotsAtE s.staleRejected ↔ x ∈ slotsAtE s := by
  rw [State.staleRejected, mem_slotsAtE_rejectSlots]
  exact ⟨fun h => h.1, fun h => ⟨h, slotsAtE_not_behind h⟩⟩

theorem docket_staleRejected (s : State) : s.staleRejected.docket = s.docket := rejectSlots_docket _ _ _

/-- What findings leave: all but the docket unit's five. -/
theorem loaded_of_kept {s t : State} (h : Kept s t) : t.loaded = s.loaded := by
  unfold State.loaded
  rw [h.keeps.portSetup]

theorem scanDone_none {s : State} (hs : s.docket.source = .docket) (hl : s.loaded = true) (h : slotsAtE s = []) (k : Nat) :
    ScanDone (s.slotScan (k + 1)) := by
  have kept : Kept s s.staleRejected := kept_rejectSlots s _ _
  have none' : slotsAtE s.staleRejected = [] := List.eq_nil_iff_forall_not_mem.mpr fun x hx => by
    rw [slotsAtE_staleRejected, h] at hx
    exact List.not_mem_nil hx
  have behind := slotsBehind_staleRejected s
  have loaded := (loaded_of_kept kept).trans hl
  have source : s.staleRejected.docket.source = .docket := by rw [docket_staleRejected]; exact hs
  rw [slotScan_none h]
  exact ⟨source, loaded, behind, .inl ⟨none', rfl⟩⟩

theorem scanDone_found {s : State} (hs : s.docket.source = .docket) (hl : s.loaded = true) {n : SlotIx} {others : List SlotIx}
    (h : slotsAtE s = n :: others) (hv : verdictAt s n ≠ .bad) (k : Nat) : ScanDone (s.slotScan (k + 1)) := by
  have kept := kept_roundRejected s others
  have nodup := nodup_slotsAtE s
  rw [h] at nodup
  obtain ⟨fresh, -⟩ := List.nodup_cons.mp nodup
  have one : slotsAtE (s.roundRejected others) = [n] := by
    refine List.perm_singleton.mp ((List.perm_ext_iff_of_nodup (nodup_slotsAtE _) (List.nodup_singleton n)).mpr fun x => ?_)
    rw [State.roundRejected, mem_slotsAtE_rejectSlots, slotsAtE_staleRejected, h, List.mem_cons, List.mem_singleton]
    refine ⟨fun ⟨a, b⟩ => a.resolve_right b, fun e => ⟨.inl e, ?_⟩⟩
    rw [e]
    exact fresh
  have behind : slotsBehind (s.roundRejected others) = [] := List.eq_nil_iff_forall_not_mem.mpr fun x hx => by
    rw [State.roundRejected, mem_slotsBehind_rejectSlots, slotsBehind_staleRejected] at hx
    exact List.not_mem_nil hx.1
  have docket := docket_roundRejected s others
  have loaded := (loaded_of_kept kept).trans hl
  have verdict : verdictAt (s.roundRejected others) n ≠ .bad := by rw [kept.verdictAt]; exact hv
  rw [(slotScan_found h k).1 hv]
  obtain ⟨u, hu⟩ : ∃ u, s.roundRejected others = u := ⟨_, rfl⟩
  rw [hu] at one behind docket loaded verdict ⊢
  exact ⟨(congrArg Docket.source docket : u.docket.source = _).trans hs, loaded, behind, .inr ⟨n, one, verdict, rfl⟩⟩

/-- With a bad recipe and no waiting slot at the next number, the next round finds none. -/
theorem slotsAtE_badRejected {s : State} {n : SlotIx} {others : List SlotIx}
    (h : ∀ m, m ∈ postedSlots s → s.mem.read (slotAt m + 1) ≠ s.docket.expected + 1) : slotsAtE (s.badRejected n others) = [] := by
  refine List.eq_nil_iff_forall_not_mem.mpr fun x hx => ?_
  obtain ⟨u, hu⟩ : ∃ u, (s.roundRejected others).rejectSlots [n] .badRecipe = u := ⟨_, rfl⟩
  have kept : Kept s u := by rw [← hu]; exact (kept_roundRejected s others).trans (kept_rejectSlots _ _ _)
  have posted : x ∈ postedSlots u → x ∈ postedSlots s := fun hp => by
    rw [← hu, mem_postedSlots_rejectSlots, State.roundRejected, mem_postedSlots_rejectSlots, State.staleRejected,
      mem_postedSlots_rejectSlots] at hp
    exact hp.1.1.1
  have e : s.badRejected n others = u.setExpected (s.docket.expected + 1) := by rw [← hu]; rfl
  have words : ∀ k, (u.setExpected (s.docket.expected + 1)).mem.read (slotAt x + k) = u.mem.read (slotAt x + k) := fun k => by
    have b := slotAt_bounds x
    unfold State.setExpected
    rw [Memory.read_write, if_neg (by unfold mirrorEAt; omega)]
  rw [e] at hx
  obtain ⟨⟨wait, held⟩, at'⟩ := (mem_slotsAtE _ x).mp hx
  have posted' := posted ((mem_postedSlots u x).mpr ⟨(slotState_congr (words 0)).symm.trans wait, held⟩)
  rw [words 1, kept.docketWord x (by decide) (by decide)] at at'
  exact h x posted' at'

theorem follows_afterScan (s : State) : Follows s (s.takeClass.changeover 8).takeHolds.gateTransition := by
  have held : ∀ u : State, u.takeHolds.track.entryEye.accepted = true → u.takeHolds.gate.holds.isEmpty = false := fun u h =>
    List.isEmpty_eq_false_iff.mpr (List.ne_nil_of_mem (spacing_mem (s := u) h))
  exact (((follows_takeClass _).trans (follows_changeover 8 _)).trans (follows_takeHolds _)).trans
    (follows_gateTransition _ fun _ h => held _ h)

/-- The rest of a gate evaluation in the DOCKET source, with a setup, where no offer stands: first the scan. -/
theorem settleEval_scan {s : State} (hs : s.docket.source = .docket) (hl : s.loaded = true) (ho : s.gate.state ≠ .opened)
    (hn : s.gate.state ≠ .late) :
    ∃ u : State, Aside s u ∧ u.docket.source = .docket ∧ u.loaded = true ∧ Follows (u.slotScan 65) s.settleEval ∧
      (ScanDone (u.slotScan 65) → Aside (u.slotScan 65) s.settleEval) := by
  have aside := aside_reform s
  have gate := (gateAside_reform s).gate.state
  have stays := @ScanDone.stays s
  obtain ⟨u, hu⟩ : ∃ u, s.reform = u := ⟨_, rfl⟩
  have source : u.docket.source = .docket := by rw [← hu, aside.docket]; exact hs
  have loaded : u.loaded = true := by unfold State.loaded at *; rw [← hu, aside.setup]; exact hl
  rw [hu] at aside gate stays
  have scan : u.reformDocket = u.slotScan 65 := by
    unfold State.reformDocket
    split
    · next h => exact absurd (gate.symm.trans h) ho
    · next h => exact absurd (gate.symm.trans h) hn
    · rw [source, loaded]; rfl
  refine ⟨u, aside, source, loaded, ?_, fun d => by rw [← scan]; exact stays (by rw [scan]; exact d)⟩
  have e : s.settleEval = ((u.reformDocket.takeClass.changeover 8).takeHolds).gateTransition.settle := by rw [← hu]; rfl
  rw [e, scan]
  exact (follows_afterScan _).trans (follows_settle _)

end Sys2Proof.Machine
end



section
/-! SET_SEQUENCE: what its scan leaves of each slot and of the findings (R27). -/

namespace Sys2Proof.Machine

open Sys2Proof.Config

theorem allSlots_sorted : allSlots.Pairwise (· < ·) := by decide

theorem slotsAtE_sorted (s : State) : (slotsAtE s).Pairwise (· < ·) := (allSlots_sorted.filter _).filter _

/-- The slot of the third step is the lowest at E (R24). -/
theorem slotsAtE_lowest {s : State} {n : SlotIx} (hn : n ∈ slotsAtE s) (low : ∀ m ∈ slotsAtE s, n ≤ m) :
    ∃ others, slotsAtE s = n :: others := by
  have sorted := slotsAtE_sorted s
  cases h : slotsAtE s with
  | nil => rw [h] at hn; cases hn
  | cons x others =>
    rw [h] at hn low sorted
    rcases List.mem_cons.mp hn with rfl | later
    · exact ⟨others, rfl⟩
    · exact absurd ((List.pairwise_cons.mp sorted).1 n later) (not_lt.mpr (low x List.mem_cons_self))

theorem setExpected_words (s : State) (e : Word) (n : SlotIx) (k : Nat) :
    (s.setExpected e).mem.read (slotAt n + k) = s.mem.read (slotAt n + k) := by
  have b := slotAt_bounds n
  unfold State.setExpected
  rw [Memory.read_write, if_neg (by unfold mirrorEAt; omega)]

theorem setExpected_verdictAt (s : State) (e : Word) (n : SlotIx) : verdictAt (s.setExpected e) n = verdictAt s n := by
  unfold verdictAt
  rw [setExpected_words]
  refine judgeRecipe_congr (fun a ha _ => ?_) _ _
  unfold State.setExpected
  rw [Memory.read_write, if_neg (by unfold mirrorEAt; omega)]

theorem Verdict.board_iff (v : Verdict) (skip : Bool) (b : NextBoard) :
    v.board skip = some b ↔ v = .ready b.recipe ∧ b.skipFlux = skip := by
  cases v with
  | bad => exact ⟨(fun h => by cases h), (fun h => by cases h.1)⟩
  | editing => exact ⟨(fun h => by cases h), (fun h => by cases h.1)⟩
  | ready r =>
    refine ⟨fun h => ?_, fun ⟨h, e⟩ => ?_⟩
    · obtain rfl := Option.some.inj h
      exact ⟨rfl, rfl⟩
    · obtain rfl := Verdict.ready.inj h
      subst e
      rfl

/-- What the scan works on, E given (R22 to R24). -/
structure ScanSlots (w : State) (e : Word) (waits stale same : SlotIx → Prop) : Prop where
  waiting : ∀ n, waits n ↔ slotState w.mem n = .posted ∧ n ∉ w.docket.held
  behind : ∀ n, stale n ↔ waits n ∧ 1 ≤ (e - w.mem.read (slotAt n + 1)).toNat ∧ (e - w.mem.read (slotAt n + 1)).toNat ≤ 32767
  atE : ∀ n, same n ↔ waits n ∧ w.mem.read (slotAt n + 1) = e

/-- The state in which the scan of a changed E begins. -/
structure ScanBegins (w : State) (e : Word) (u : State) : Prop where
  words : ∀ n k, u.mem.read (slotAt n + k) = w.mem.read (slotAt n + k)
  held : u.docket.held = w.docket.held
  expected : u.docket.expected = e
  mirror : u.mem.read 3 = e
  verdict : ∀ n, verdictAt u n = verdictAt w n

theorem scanBegins_of {w u : State} {e : Word} (a : Aside (w.setExpected e) u) : ScanBegins w e u := by
  refine ⟨fun n k => (a.read n k).trans (setExpected_words w e n k), by rw [a.docket]; rfl, by rw [a.docket]; rfl,
    a.word3.trans (word3_setExpected w e), fun n => ?_⟩
  rw [a.verdictAt, setExpected_verdictAt]

theorem ScanBegins.posted {w u : State} {e : Word} (h : ScanBegins w e u) {waits stale same : SlotIx → Prop}
    (q : ScanSlots w e waits stale same) (n : SlotIx) : n ∈ postedSlots u ↔ waits n := by
  rw [mem_postedSlots, q.waiting, slotState_congr (h.words n 0), h.held]

theorem ScanBegins.behind {w u : State} {e : Word} (h : ScanBegins w e u) {waits stale same : SlotIx → Prop}
    (q : ScanSlots w e waits stale same) (n : SlotIx) : n ∈ slotsBehind u ↔ stale n := by
  rw [mem_slotsBehind, ← mem_postedSlots, h.posted q, q.behind, h.expected, h.words n 1]

theorem ScanBegins.atE {w u : State} {e : Word} (h : ScanBegins w e u) {waits stale same : SlotIx → Prop}
    (q : ScanSlots w e waits stale same) (n : SlotIx) : n ∈ slotsAtE u ↔ same n := by
  rw [mem_slotsAtE, ← mem_postedSlots, h.posted q, q.atE, h.expected, h.words n 1]

/-- No slot at E (R25): no candidate. -/
theorem scan_unmatched {w u t : State} {e : Word} (h : ScanBegins w e u) (none' : slotsAtE u = [])
    (a : Aside (u.slotScan 65) t) :
    t.docket.candidate = none ∧ t.docket.noDocket = true ∧ t.docket.recipeHold = false ∧ t.docket.next = none ∧
      t.docket.expected = e ∧ t.mem.read 3 = e ∧
      ∀ n, n ∉ slotsBehind u → ∀ k, k < 64 → t.mem.read (slotAt n + k) = w.mem.read (slotAt n + k) := by
  have docket := docket_staleRejected u
  have mirror : u.staleRejected.mem.read 3 = u.mem.read 3 := word3_rejectSlots _ _ _
  have words : ∀ n, n ∉ slotsBehind u → ∀ k, k < 64 → u.staleRejected.mem.read (slotAt n + k) = u.mem.read (slotAt n + k) :=
    fun n hn k hk => rejectSlots_words u hn .stale hk
  rw [slotScan_none none' 64] at a
  obtain ⟨v, hv⟩ : ∃ v, u.rejectSlots (slotsBehind u) .stale = v := ⟨_, rfl⟩
  rw [State.staleRejected, hv] at docket mirror words
  rw [hv] at a
  have out := a.docket
  refine ⟨by rw [out]; rfl, by rw [out]; rfl, by rw [out]; rfl, by rw [out]; rfl, ?_, ?_, fun n hn k hk => ?_⟩
  · rw [out]
    exact (congrArg Docket.expected docket : v.docket.expected = _).trans h.expected
  · exact (a.word3.trans mirror).trans h.mirror
  · exact ((a.read n k).trans (words n hn k hk)).trans (h.words n k)

/-- A recipe that is not bad (R25): the lowest slot is the candidate. -/
theorem scan_matched {w u t : State} {e : Word} (h : ScanBegins w e u) {n : SlotIx} {others : List SlotIx}
    (hn : slotsAtE u = n :: others) (good : verdictAt w n ≠ .bad) (a : Aside (u.slotScan 65) t) :
    t.docket.candidate = some n ∧ t.docket.noDocket = false ∧ t.docket.expected = e ∧ t.mem.read 3 = e ∧
      (t.docket.recipeHold = true ↔ verdictAt w n = .editing) ∧
      (∀ b, t.docket.next = some b ↔ verdictAt w n = .ready b.recipe ∧
        b.skipFlux = (w.mem.read (slotAt n + 3)).getLsbD 0) ∧
      ∀ m, (m = n ∨ m ∉ slotsBehind u ∧ m ∉ slotsAtE u) →
        ∀ k, k < 64 → t.mem.read (slotAt m + k) = w.mem.read (slotAt m + k) := by
  have docket := docket_roundRejected u others
  have mirror : (u.roundRejected others).mem.read 3 = u.mem.read 3 :=
    (word3_rejectSlots _ _ _).trans (word3_rejectSlots _ _ _)
  have verdict : verdictAt (u.roundRejected others) n = verdictAt w n :=
    ((kept_roundRejected u others).verdictAt n).trans (h.verdict n)
  have skip : slotSkipFlux (u.roundRejected others).mem n = (w.mem.read (slotAt n + 3)).getLsbD 0 := by
    unfold slotSkipFlux
    rw [(kept_roundRejected u others).docketWord n (by decide) (by decide), h.words]
  have nodup := nodup_slotsAtE u
  have first : n ∈ slotsAtE u := by rw [hn]; exact List.mem_cons_self
  rw [hn] at nodup
  have words : ∀ m, (m = n ∨ m ∉ slotsBehind u ∧ m ∉ slotsAtE u) →
      ∀ k, k < 64 → (u.roundRejected others).mem.read (slotAt m + k) = u.mem.read (slotAt m + k) := fun m hm k hk => by
    have apart : m ∉ slotsBehind u ∧ m ∉ others := by
      rcases hm with rfl | ⟨b, l⟩
      · exact ⟨slotsAtE_not_behind first, (List.nodup_cons.mp nodup).1⟩
      · rw [hn] at l
        exact ⟨b, fun x => l (List.mem_cons_of_mem n x)⟩
    exact (rejectSlots_words _ apart.2 _ hk).trans (rejectSlots_words _ apart.1 _ hk)
  rw [(slotScan_found hn 64).1 (by rw [h.verdict]; exact good)] at a
  obtain ⟨v, hv⟩ : ∃ v, u.roundRejected others = v := ⟨_, rfl⟩
  rw [hv] at docket mirror verdict skip words a
  have out := a.docket
  have found : (v.foundAt n).docket = { v.docket with
      candidate := some n, next := (verdictAt w n).board ((w.mem.read (slotAt n + 3)).getLsbD 0), noDocket := false
      recipeHold := decide (verdictAt w n = .editing), noSlot := false } := by rw [← verdict, ← skip]; rfl
  rw [found] at out
  refine ⟨by rw [out], by rw [out], ?_, ?_, by rw [out]; exact decide_eq_true_iff, fun b => ?_, fun m hm k hk => ?_⟩
  · rw [out]
    exact (congrArg Docket.expected docket : v.docket.expected = _).trans h.expected
  · exact (a.word3.trans mirror).trans h.mirror
  · rw [out]
    exact Verdict.board_iff _ _ _
  · exact ((a.read m k).trans (words m hm k hk)).trans (h.words m k)

/-- What the scan of a changed E leaves (R27). -/
theorem sequence_scan {w t : State} {e : Word} {waits stale same : SlotIx → Prop} (q : ScanSlots w e waits stale same)
    (hs : w.docket.source = .docket) (hl : w.loaded = true) (ho : w.gate.state ≠ .opened) (hn : w.gate.state ≠ .late)
    (ht : t = (w.setExpected e).settleEval) :
    (∀ n, stale n → RejectedWith t.mem n 1 ∧ Pending t .slotClosed) ∧
      ((∀ n, ¬ same n) → t.docket.candidate = none ∧ t.docket.noDocket = true ∧ t.docket.recipeHold = false ∧
        t.docket.next = none ∧ t.docket.expected = e ∧ t.mem.read 3 = e ∧
        ∀ n, ¬ stale n → ∀ k, k < 64 → t.mem.read (slotAt n + k) = w.mem.read (slotAt n + k)) ∧
      (∀ n v, same n → (∀ m, same m → n ≤ m) → v = verdictAt w n →
        (∀ m, same m → m ≠ n → RejectedWith t.mem m 2) ∧
        (v = .bad → RejectedWith t.mem n 3 ∧
          ((∀ m, waits m → w.mem.read (slotAt m + 1) ≠ e + 1) →
            t.docket.expected = e + 1 ∧ t.mem.read 3 = e + 1 ∧ t.docket.noDocket = true)) ∧
        (v ≠ .bad → t.docket.candidate = some n ∧ t.docket.noDocket = false ∧ t.docket.expected = e ∧
          t.mem.read 3 = e ∧ (t.docket.recipeHold = true ↔ v = .editing) ∧
          (∀ b, t.docket.next = some b ↔ v = .ready b.recipe ∧
            b.skipFlux = (w.mem.read (slotAt n + 3)).getLsbD 0) ∧
          ∀ m, m = n ∨ (¬ stale m ∧ ¬ same m) →
            ∀ k, k < 64 → t.mem.read (slotAt m + k) = w.mem.read (slotAt m + k))) := by
  obtain ⟨u, aside, source, loaded, follows, stays⟩ := settleEval_scan (s := w.setExpected e) hs hl ho hn
  rw [← ht] at follows stays
  have begins := scanBegins_of aside
  have behind := begins.behind q
  have atE := begins.atE q
  obtain ⟨afterStale, afterRound⟩ := slotScan_follows u 64
  refine ⟨fun n hn => ?_, fun none' => ?_, fun n v hn low hv => ?_⟩
  · have held := ((waiting_behind u).rejected .stale ((behind n).mpr hn)).follows (afterStale.trans follows)
    exact ⟨held.words, held.told⟩
  · have empty : slotsAtE u = [] := List.eq_nil_iff_forall_not_mem.mpr fun x hx => none' x ((atE x).mp hx)
    obtain ⟨candidate, noDocket, hold, next, expected, mirror, words⟩ :=
      scan_unmatched begins empty (stays (scanDone_none source loaded empty 64))
    exact ⟨candidate, noDocket, hold, next, expected, mirror, fun n hn => words n fun x => hn ((behind n).mp x)⟩
  · obtain ⟨others, list⟩ := slotsAtE_lowest ((atE n).mpr hn) fun m hm => low m ((atE m).mp hm)
    obtain ⟨round, badRound⟩ := afterRound n others list
    have verdict : verdictAt u n = v := (begins.verdict n).trans hv.symm
    refine ⟨fun m hm ne => ?_, fun bad => ⟨?_, fun free => ?_⟩, fun good => ?_⟩
    · have other : m ∈ others := by
        have mem := (atE m).mpr hm
        rw [list] at mem
        exact (List.mem_cons.mp mem).resolve_left ne
      exact (((waiting_others list).rejected .duplicate other).follows (round.trans follows)).words
    · exact ((rejectSlot_holds _ n .badRecipe).follows ((badRound (verdict.trans bad)).trans follows)).words
    · have empty : slotsAtE (u.badRejected n others) = [] := slotsAtE_badRejected fun m hm => by
        rw [begins.words, begins.expected]
        exact free m ((begins.posted q m).mp hm)
      have kept : Kept u ((u.roundRejected others).rejectSlot n .badRecipe) :=
        (kept_roundRejected u others).trans (kept_rejectSlot _ _ _)
      have expected : (u.badRejected n others).docket.expected = e + 1 := by rw [← begins.expected]; rfl
      have mirror : (u.badRejected n others).mem.read 3 = e + 1 := by
        rw [State.badRejected, word3_setExpected, begins.expected]
      have source' : (u.badRejected n others).docket.source = .docket := by
        have docket : ((u.roundRejected others).rejectSlot n .badRecipe).docket = u.docket := docket_roundRejected u others
        exact (congrArg Docket.source docket : _ = u.docket.source).trans source
      have loaded' : (u.badRejected n others).loaded = true := (loaded_of_kept kept).trans loaded
      have scan := (slotScan_found list 64).2 (verdict.trans bad)
      rw [scan] at stays
      obtain ⟨b, hb⟩ : ∃ b, u.badRejected n others = b := ⟨_, rfl⟩
      rw [hb] at empty expected mirror source' loaded' stays
      have a := stays (scanDone_none source' loaded' empty 63)
      have docket := docket_staleRejected b
      have word3 : b.staleRejected.mem.read 3 = b.mem.read 3 := word3_rejectSlots _ _ _
      rw [slotScan_none empty 63] at a
      obtain ⟨x, hx⟩ : ∃ x, b.rejectSlots (slotsBehind b) .stale = x := ⟨_, rfl⟩
      rw [State.staleRejected, hx] at docket word3
      rw [hx] at a
      have out := a.docket
      refine ⟨?_, (a.word3.trans word3).trans mirror, by rw [out]; rfl⟩
      rw [out]
      exact (congrArg Docket.expected docket : x.docket.expected = _).trans expected
    · have done := scanDone_found source loaded list (by rw [verdict]; exact good) 64
      obtain ⟨candidate, noDocket, expected, mirror, hold, next, words⟩ :=
        scan_matched begins list (by rw [← hv]; exact good) (stays done)
      rw [← hv] at hold next
      refine ⟨candidate, noDocket, expected, mirror, hold, next, fun m hm => words m (hm.imp_right fun ⟨x, y⟩ => ?_)⟩
      exact ⟨fun h => x ((behind m).mp h), fun h => y ((atE m).mp h)⟩

end Sys2Proof.Machine
end



section
/-! SET_SOURCE: the findings of the STANDING source (R26, R28, R29), and the two requests' refusals. -/

namespace Sys2Proof.Machine

open Sys2Proof.Config

/-- The findings in the STANDING source, no offer being made (R26). -/
def State.standing (s : State) (n : Fin 16) : State :=
  s.findings none (if s.loaded then (judgeRecipe s.mem s.port.setup n.val).board false else none) (!s.loaded)
    ((judgeRecipe s.mem s.port.setup n.val).board false).isNone
    (decide (¬ ∃ k, slotState s.mem k = .free ∧ k ∉ s.docket.held))

/-- A slot is there to take exactly where one reads FREE and is not held, no offer being made (R29). -/
theorem standingSlot_none_iff {s : State} (h : s.docket.offer = none) :
    (standingSlot s).isNone = decide (¬ ∃ k, slotState s.mem k = .free ∧ k ∉ s.docket.held) := by
  have every : ∀ k : SlotIx, k ∈ allSlots := by decide
  refine Bool.eq_iff_iff.mpr ?_
  unfold standingSlot
  rw [Option.isNone_iff_eq_none, List.find?_eq_none, decide_eq_true_iff, h]
  refine ⟨fun f ⟨k, free, held⟩ => f k (every k) (by simp [free, held]), fun f k _ x => f ⟨k, ?_⟩⟩
  simpa using x

theorem reformDocket_standing {s : State} {n : Fin 16} (hs : s.docket.source = .standing n) (h : s.docket.offer = none)
    (ho : s.gate.state ≠ .opened) (hn : s.gate.state ≠ .late) : s.reformDocket = s.standing n := by
  unfold State.reformDocket State.standing
  rw [← standingSlot_none_iff h]
  split
  · next g => exact absurd g ho
  · next g => exact absurd g hn
  · rw [hs]
    dsimp only
    cases judgeRecipe s.mem s.port.setup n.val with
    | bad => simp [Verdict.board]
    | editing => simp [Verdict.board]
    | ready r => simp [Verdict.board]

/-- The findings are those of the standing recipe. -/
structure StandDone (n : Fin 16) (s : State) : Prop where
  source : s.docket.source = .standing n
  formed : GateFormed s
  found : s.docket = (s.standing n).docket

theorem GateFormed.noOffer {s : State} (h : GateFormed s) (ho : s.gate.state ≠ .opened) (hn : s.gate.state ≠ .late) :
    s.docket.offer = none := by
  by_contra c
  exact (h.offer.mp c).elim ho hn

theorem StandDone.fixed {s : State} {n : Fin 16} (h : StandDone n s) : s.reformDocket = s := by
  by_cases ho : s.gate.state = .opened
  · unfold State.reformDocket; rw [ho]
  · by_cases hn : s.gate.state = .late
    · unfold State.reformDocket; rw [hn]
    · rw [reformDocket_standing h.source (h.formed.noOffer ho hn) ho hn]
      exact State.findings_self h.found

theorem StandDone.of_aside {s t : State} {n : Fin 16} (h : StandDone n s) (a : Aside s t) (g : GateFormed t) : StandDone n t := by
  have free : (∃ k, slotState t.mem k = .free ∧ k ∉ t.docket.held) ↔ ∃ k, slotState s.mem k = .free ∧ k ∉ s.docket.held := by
    have held : t.docket.held = s.docket.held := by rw [a.docket]
    exact exists_congr fun k => by rw [slotState_congr (a.read k 0), held]
  have loaded : t.loaded = s.loaded := by unfold State.loaded; rw [a.setup]
  have docket := a.docket
  rw [h.found] at docket
  have board : (judgeRecipe t.mem t.port.setup n.val).board false = (judgeRecipe s.mem s.port.setup n.val).board false := by
    rw [a.judge]
  have slot : decide (¬ ∃ k, slotState t.mem k = .free ∧ k ∉ t.docket.held) =
      decide (¬ ∃ k, slotState s.mem k = .free ∧ k ∉ s.docket.held) := decide_eq_decide.mpr (not_congr free)
  refine ⟨by rw [a.docket]; exact h.source, g, ?_⟩
  unfold State.standing at *
  rw [board, slot, loaded]
  obtain ⟨x, hx⟩ : ∃ x, (judgeRecipe s.mem s.port.setup n.val).board false = x := ⟨_, rfl⟩
  obtain ⟨y, hy⟩ : ∃ y, decide (¬ ∃ k, slotState s.mem k = .free ∧ k ∉ s.docket.held) = y := ⟨_, rfl⟩
  obtain ⟨o, offered⟩ : ∃ o, t.docket.offer = o := ⟨_, rfl⟩
  obtain ⟨d, hd⟩ : ∃ d, t.docket = d := ⟨_, rfl⟩
  rw [hx, hy, offered] at docket
  rw [hx, hy]
  unfold State.findings
  rw [docket]
  rfl

/-- The rest of a gate evaluation in the STANDING source, where no offer stands. -/
theorem settleEval_standing {s : State} {n : Fin 16} (hs : s.docket.source = .standing n) (hf : GateFormed s)
    (ho : s.gate.state ≠ .opened) (hn : s.gate.state ≠ .late) :
    ∃ u : State, Aside s u ∧ Aside (u.standing n) s.settleEval := by
  have trans : ∀ {s t u : State}, (StandDone n s → Aside s t ∧ StandDone n t) → (StandDone n t → Aside t u ∧ StandDone n u) →
      (StandDone n s → Aside s u ∧ StandDone n u) := fun f g x => by
    obtain ⟨a, d⟩ := f x
    obtain ⟨b, e⟩ := g d
    exact ⟨a.trans b, e⟩
  have aside : ∀ {s t : State}, Aside s t → GateAside s t → StandDone n s → Aside s t ∧ StandDone n t :=
    fun a g d => ⟨a, d.of_aside a (d.formed.of_gateAside g)⟩
  have scan : ∀ s : State, StandDone n s → Aside s s.reformDocket ∧ StandDone n s.reformDocket := fun s d => by
    rw [d.fixed]
    exact ⟨.of_same rfl rfl rfl, d⟩
  have turn : ∀ s : State, Aside s s.takeHolds.gateTransition →
      StandDone n s → Aside s s.takeHolds.gateTransition ∧ StandDone n s.takeHolds.gateTransition :=
    fun s a d => ⟨a, d.of_aside a (takeHolds_transition_formed d.formed)⟩
  have first := aside_reform s
  have gate := gateAside_reform s
  obtain ⟨u, hu⟩ : ∃ u, s.reform = u := ⟨_, rfl⟩
  rw [hu] at first gate
  have source : u.docket.source = .standing n := by rw [first.docket]; exact hs
  have formed := hf.of_gateAside gate
  have closedO : u.gate.state ≠ .opened := by rw [gate.gate.state]; exact ho
  have closedL : u.gate.state ≠ .late := by rw [gate.gate.state]; exact hn
  have found := reformDocket_standing source (formed.noOffer closedO closedL) closedO closedL
  have done : StandDone n (u.standing n) := ⟨source, ⟨formed.ready, formed.holds, formed.late, formed.offer⟩, rfl⟩
  obtain ⟨v, hv⟩ : ∃ v, u.standing n = v := ⟨_, rfl⟩
  have e : s.settleEval = ((v.takeClass.changeover 8).takeHolds).gateTransition.settle := by
    rw [← hv, ← found, ← hu]; rfl
  refine ⟨u, first, ?_⟩
  rw [hv] at done ⊢
  rw [e]
  have cls : GateAside v (v.takeClass.changeover 8) :=
    GateAside.trans (t := v.takeClass) ⟨rfl, by simp, kept_takeClass v⟩ (gateAside_changeover 8 v.takeClass)
  have formed' := takeHolds_transition_formed (done.formed.of_gateAside cls)
  have after := aside_afterScan v
  exact after.trans ((lift_stages (R := fun s t => StandDone n s → Aside s t ∧ StandDone n t) trans aside scan turn _).1
    (done.of_aside after formed')).1

theorem standing_found {s w a : State} {n : Fin 16} (hm : a.mem = w.mem) (hp : a.port.setup = s.port.setup)
    (hd : a.docket = { s.docket with source := .standing n }) (hf : GateFormed a) (ho : a.gate.state ≠ .opened)
    (hn : a.gate.state ≠ .late) {d : Docket} (h : d = a.settleEval.docket) :
    d.expected = s.docket.expected ∧ d.candidate = none ∧ d.noDocket = !s.loaded ∧
      (d.recipeHold = false ↔ ∃ r, judgeRecipe w.mem s.port.setup n.val = .ready r) ∧
      (d.noSlot = false ↔ ∃ k, slotState w.mem k = .free ∧ k ∉ s.docket.held) ∧
      (∀ b, d.next = some b ↔ s.loaded = true ∧ b.skipFlux = false ∧ judgeRecipe w.mem s.port.setup n.val = .ready b.recipe) := by
  obtain ⟨u, before, after⟩ := settleEval_standing (s := a) (by rw [hd]) hf ho hn
  have out := after.docket
  rw [← h] at out
  have docket := before.docket
  have judge : judgeRecipe u.mem u.port.setup n.val = judgeRecipe w.mem s.port.setup n.val := by rw [before.judge, hm, hp]
  have loaded : u.loaded = s.loaded := by unfold State.loaded; rw [before.setup, hp]
  have free : (∃ k, slotState u.mem k = .free ∧ k ∉ u.docket.held) ↔ ∃ k, slotState w.mem k = .free ∧ k ∉ s.docket.held := by
    have held : u.docket.held = s.docket.held := by rw [docket, hd]
    exact exists_congr fun k => by rw [slotState_congr (before.read k 0), hm, held]
  obtain ⟨o, offered⟩ : ∃ o, d.offer = o := ⟨_, rfl⟩
  rw [offered] at out
  refine ⟨?_, by rw [out]; rfl, by rw [out, ← loaded]; rfl, ?_, ?_, fun b => ?_⟩ <;> rw [out]
  · show u.docket.expected = _
    rw [docket, hd]
  · show ((judgeRecipe u.mem u.port.setup n.val).board false).isNone = false ↔ _
    rw [judge]
    cases judgeRecipe w.mem s.port.setup n.val with
    | bad => exact ⟨(fun h => by cases h), (fun ⟨_, h⟩ => by cases h)⟩
    | editing => exact ⟨(fun h => by cases h), (fun ⟨_, h⟩ => by cases h)⟩
    | ready r => exact ⟨fun _ => ⟨r, rfl⟩, fun _ => rfl⟩
  · unfold State.standing State.findings
    dsimp only
    exact (decide_eq_false_iff_not.trans not_not).trans free
  · show (if u.loaded then (judgeRecipe u.mem u.port.setup n.val).board false else none) = some b ↔ _
    rw [judge, loaded]
    split
    · next hl => rw [Verdict.board_iff, hl]; tauto
    · next hl => exact ⟨(fun h => by cases h), fun h => absurd h.1 hl⟩

/-- Settles O54: SET_SOURCE by the findings of its source, SET_SEQUENCE by its scan. -/
theorem sourceAndSequenceFollowTheHost : Obligations.SourceAndSequenceFollowTheHost := by
  intro s w ws
  refine ⟨fun hp hw => ?_, fun hp hw => ?_⟩
  · have run : exec (.setSource ws) s = .next ((decideSetSource w).2.answer (decideSetSource w).1) := by
      rw [hw]; exact congrArg Host.Outcome.next (request_of_posts hp decideSetSource)
    have gate : w.gate = s.gate := by rw [hw]; rfl
    have docket : w.docket = s.docket := by rw [hw]; rfl
    have setup : w.port.setup = s.port.setup := by rw [hw]; rfl
    have arg1 : argument1 w = w.mem.read 0x0041 := rfl
    have arg2 : argument2 w = w.mem.read 0x0042 := rfl
    rw [run]
    unfold decideSetSource
    rw [arg1, arg2, setup, docket]
    refine ⟨fun h => ?_, fun ho hn => ⟨fun src hsrc => ?_, fun bad => ?_⟩⟩
    · rw [if_pos ((offering_iff w).mpr (by rw [gate]; exact h))]; rfl
    · rw [if_neg fun h => ((offering_iff w).mp h).elim (by rw [gate]; exact ho) (by rw [gate]; exact hn)]
      have changed : ∀ a : State, a = { w with docket := { s.docket with source := src } } →
          Keeps a a.settleEval ∧ CountsCloses w.mem a.settleEval.mem 0 ∧
            ∀ (n : Fin 16) (d : Docket), src = .standing n → GateFormed s → d = a.settleEval.docket →
              d.expected = s.docket.expected ∧ d.candidate = none ∧ d.noDocket = !s.loaded ∧
              (d.recipeHold = false ↔ ∃ r, judgeRecipe w.mem s.port.setup n.val = .ready r) ∧
              (d.noSlot = false ↔ ∃ k, slotState w.mem k = .free ∧ k ∉ s.docket.held) ∧
              (∀ b, d.next = some b ↔ s.loaded = true ∧ b.skipFlux = false ∧
                judgeRecipe w.mem s.port.setup n.val = .ready b.recipe) := fun a ha => by
        have count := (rejects_settleEval a).count
        have mem : a.mem = w.mem := by rw [ha]
        rw [mem] at count
        have gate' : a.gate = s.gate := by rw [ha]; exact gate
        refine ⟨(kept_settleEval a).keeps, count, fun n d hn' hf hd => ?_⟩
        have docket' : a.docket = { s.docket with source := .standing n } := by rw [ha, hn']
        refine standing_found mem (by rw [ha]; exact setup) docket' ⟨?_, ?_, ?_, ?_⟩ (by rw [gate']; exact ho)
          (by rw [gate']; exact hn) hd <;> rw [gate']
        · exact hf.ready
        · exact hf.holds
        · exact hf.late
        · rw [docket']; exact hf.offer
      rcases hsrc with ⟨rfl, zero⟩ | ⟨n, rfl, one, index, good⟩
      · rw [if_pos zero]
        refine ⟨fun h => by rw [if_pos h]; rfl, fun h => ?_⟩
        rw [if_neg h]
        exact ⟨_, rfl, rfl, changed _ rfl⟩
      · have named : Fin.ofNat 16 (w.mem.read 0x0042).toNat = n := by
          rw [index]; exact Fin.ext (Nat.mod_eq_of_lt n.isLt)
        rw [if_neg (by rw [one]; decide), if_pos one, index]
        rw [index] at named
        rw [named]
        split
        · next b => exact absurd b good
        · refine ⟨fun h => by rw [if_pos h]; rfl, fun h => ?_⟩
          rw [if_neg h]
          exact ⟨_, rfl, rfl, changed _ rfl⟩
    · rw [if_neg fun h => ((offering_iff w).mp h).elim (by rw [gate]; exact ho) (by rw [gate]; exact hn)]
      have nonzero : w.mem.read 0x0041 ≠ 0 := fun z => by
        rw [z] at bad
        rcases bad with h | ⟨h, -⟩
        · exact absurd h (by decide)
        · exact absurd h (by decide)
      rw [if_neg nonzero]
      rcases bad with h | ⟨h, out⟩
      · rw [if_neg fun one => by rw [one] at h; exact absurd h (by decide)]
        rfl
      · have judged : judgeRecipe w.mem s.port.setup (w.mem.read 0x0042).toNat = .bad := by
          rcases out with high | b
          · unfold judgeRecipe; rw [if_pos high]
          · exact b
        rw [if_pos h, judged]
        rfl
  · have run : exec (.setSequence ws) s = .next ((decideSetSequence w).2.answer (decideSetSequence w).1) := by
      rw [hw]; exact congrArg Host.Outcome.next (request_of_posts hp decideSetSequence)
    have gate : w.gate = s.gate := by rw [hw]; rfl
    have docket : w.docket = s.docket := by rw [hw]; rfl
    have setup : w.port.setup = s.port.setup := by rw [hw]; rfl
    have arg1 : argument1 w = w.mem.read 0x0041 := rfl
    rw [run]
    unfold decideSetSequence
    rw [arg1]
    refine ⟨fun h => ?_, fun ho hn e he => ?_⟩
    · rw [if_pos ((offering_iff w).mpr (by rw [gate]; exact h))]; rfl
    · rw [if_neg fun h => ((offering_iff w).mp h).elim (by rw [gate]; exact ho) (by rw [gate]; exact hn), ← he]
      have same : { w with docket := { s.docket with expected := e }, mem := w.mem.write 3 e } = w.setExpected e := by
        rw [← docket]; rfl
      refine ⟨w.setExpected e, same.symm, rfl, (kept_settleEval _).keeps,
        ((rejects_setExpected w e).trans (rejects_settleEval _)).count, fun t waits stale atE ht hl hs hW hS hE => ?_⟩
      have verdict : ∀ n, judgeRecipe w.mem s.port.setup (w.mem.read (slotAt n + 2)).toNat = verdictAt w n := fun n => by
        rw [← setup]; rfl
      have slots : ScanSlots w e waits stale atE := ⟨by rw [docket]; exact hW, hS, hE⟩
      have scan := sequence_scan slots (by rw [docket]; exact hs) (by unfold State.loaded at *; rw [setup]; exact hl)
        (by rw [gate]; exact ho) (by rw [gate]; exact hn) ht
      obtain ⟨rejected, unmatched, found⟩ := scan
      exact ⟨rejected, unmatched, fun n v hn low hv => found n v hn low (hv.trans (verdict n))⟩

end Sys2Proof.Machine
end



section
/-! The heater period boundary and the settle test (R90, R96): a changeover that walks on in the same step names one class and then
another of the same pot temperature, and the loop's settle count is lost on the way. -/

namespace Sys2Proof.Machine

open Sys2Proof.Config

/-- Recipe 0 READY: boards 100.0 mm wide, 1200 mm/min, pot at 250.0 °C (Table 12-8). -/
def readyRecipe : Memory :=
  ((Memory.write [] (recipeAt 0) 2).writeBlock (recipeAt 0 + 10) [1000, 1200, 2500]).write (recipeAt 0 + 19) 1

/-- A PRODUCTION line about to leave DRAINING. The line class has the pot temperature of the STANDING recipe and another width;
the next board is still that of an earlier scan, with another pot temperature. The pot stands at its target. -/
def twoClasses : State :=
  { State.reset with
    mem := readyRecipe
    docket :=
      { State.reset.docket with
        source := .standing 0, noDocket := false
        next := some
          { recipe := { readRecipe readyRecipe 0 with cls := { width := 1000, speed := 1200, pot := 2400 } }, skipFlux := false } }
    gate := { State.reset.gate with holds := [], lineClass := some { width := 1100, speed := 1200, pot := 2500 }, phase := .draining }
    modes := { State.reset.modes with mode := .production }
    thermal :=
      { State.reset.thermal with
        auth := true
        inputs := State.reset.thermal.inputs.set 6
          { State.reset.thermal.inputs.get 6 with state := .good, ring := [2500, 2500, 2500, 2500] }
        pot := { State.reset.thermal.pot with target := 2500, sp := 2500 } }
    port := { State.reset.port with setup := some { words := List.replicate 72 0 ++ [3000] } } }

theorem twoClasses_targetsFormed : TargetsFormed twoClasses := by
  have zones : ∀ z, (twoClasses.thermal.zones.get z).governing = none ∧
      (twoClasses.thermal.zones.get z).sp = (twoClasses.thermal.zones.get z).target := by decide
  exact ⟨fun z => ⟨fun _ h => (nomatch h), fun _ => (zones z).1, nofun, nofun, nofun, (zones z).2⟩,
    fun w => ⟨fun _ h => (nomatch h), fun _ => by cases w <;> rfl, nofun, nofun, nofun⟩, by decide⟩

/-- The boundary ends with the target it began with, and the settle count is 0. -/
theorem twoClasses_boundary : (twoClasses.boundary.settle.modes.mode = twoClasses.modes.mode ∧
    twoClasses.boundary.settle.thermal.pot.target = twoClasses.thermal.pot.target) ∧
    twoClasses.boundary.settle.thermal.pot.sp = twoClasses.thermal.pot.target ∧
    twoClasses.boundary.settle.thermal.pot.count = 0 := by
  decide +kernel

/-- Refutes O33: in `twoClasses` the changeover names 240.0 °C by the next board of the earlier scan and, after the scan of the same
step, 250.0 °C again. The pot's target is as before and its PV at it, but the settle count is 0 and not one more than it was. -/
theorem not_heaterBoundaryComputesAndAllocates : ¬ Obligations.HeaterBoundaryComputesAndAllocates := by
  intro h
  obtain ⟨t, run, -, -, -, -, -, -, -, -, -, tested, -⟩ := h twoClasses
  obtain rfl := Host.Outcome.next.inj ((exec_boundary twoClasses).symm.trans run)
  obtain ⟨⟨mode, target⟩, sp, count⟩ := twoClasses_boundary
  obtain ⟨pot, -⟩ := tested twoClasses_targetsFormed rfl mode
  obtain ⟨-, measured⟩ := pot (by decide) target
  obtain ⟨counted, -⟩ := measured 2500 (by decide)
  rw [count, sp, if_pos (by decide)] at counted
  exact absurd counted (by decide)

end Sys2Proof.Machine
end



section
/-! LOAD_SETUP (R180 to R182). -/

namespace Sys2Proof.Machine

open Sys2Proof.Config

/-- The state that takes a setup, less E and its mirror. -/
def State.withSetup (s : State) (c : Setup) : State :=
  { s with
    track := { s.track with frac := 0 }
    pot := { s.pot with high := ⟨false, 0⟩, low := ⟨false, 0⟩, lowlow := ⟨false, 0⟩ }
    extr := { s.extr with sampled := false }
    port :=
      { s.port with setup := some c, hostLost := false, supElapsed := 0, supRunning := c.supervision != 0 } }

theorem kept_takeSetup (s : State) (c : Setup) : Kept (s.withSetup c) (s.takeSetup c) := by
  unfold State.takeSetup
  dsimp only
  split
  · exact .of_core rfl rfl
  · refine Kept.trans ?_ (kept_setExpected _ _)
    exact .of_core rfl rfl

/-- What a taken setup leaves (R118, R141, R182). -/
theorem takeSetup_blocks (s : State) (c : Setup) :
    (s.takeSetup c).modes = { s.modes with runOn := s.modes.runOn.map fun r => min r (1000 * c.fanRunOn) } ∧
      (s.takeSetup c).flux = { s.flux with low := decide (s.flux.counter < c.tankLowMark) } ∧
      (s.takeSetup c).extr = { s.extr with points := s.extr.points.mapIdx fun _ p => p.atSetup, sampled := false } := by
  unfold State.takeSetup
  dsimp only
  split <;> exact ⟨rfl, rfl, rfl⟩

/-- E and its mirror at a taken setup (R21). -/
theorem takeSetup_expected (s : State) (c : Setup) :
    (∀ n k, (s.takeSetup c).mem.read (slotAt n + k) = s.mem.read (slotAt n + k)) ∧
      (c.firstSequence = 0 → (s.takeSetup c).docket.expected = s.docket.expected ∧ (s.takeSetup c).mem.read 3 = s.mem.read 3) ∧
      (c.firstSequence ≠ 0 → (s.takeSetup c).docket.expected = c.firstSequence ∧
        (s.takeSetup c).mem.read 3 = c.firstSequence) := by
  unfold State.takeSetup
  dsimp only
  split
  · next h => exact ⟨fun _ _ => rfl, fun _ => ⟨rfl, rfl⟩, fun g => absurd h g⟩
  · next h => exact ⟨fun n k => setExpected_words _ _ n k, fun g => absurd g h, fun _ => ⟨rfl, word3_setExpected _ _⟩⟩

theorem firstSequence_readSetup (m : Memory) : (readSetup m).firstSequence = m.read (0x0060 + 116) := by
  simp [Setup.firstSequence, readSetup, setupWords, setupAt]

/-- Settles O50, by the order of the request's tests. -/
theorem loadSetupIsDecidedByItsFirstCase : Obligations.LoadSetupIsDecidedByItsFirstCase := by
  intro s w ws hp hw
  have run : exec (.loadSetup ws) s = .next ((decideLoadSetup w).2.answer (decideLoadSetup w).1) := by
    rw [hw]; exact congrArg Host.Outcome.next (request_of_posts hp decideLoadSetup)
  have modes : w.modes = s.modes := by rw [hw]; rfl
  have track : w.track = s.track := by rw [hw]; rfl
  have pot : w.pot = s.pot := by rw [hw]; rfl
  have extr : w.extr = s.extr := by rw [hw]; rfl
  have flux : w.flux = s.flux := by rw [hw]; rfl
  have docket : w.docket = s.docket := by rw [hw]; rfl
  have setup : w.port.setup = s.port.setup := by rw [hw]; rfl
  rw [run]
  unfold decideLoadSetup
  rw [modes, track]
  refine ⟨fun h => by rw [if_pos h]; rfl, fun h g => ?_, fun h g k hk => ?_, setup, fun h g hk => ?_⟩
  · rw [if_neg (not_not.mpr h), if_pos (by rw [List.isEmpty_eq_false_iff.mpr g]; rfl)]
    rfl
  · rw [if_neg (not_not.mpr h), if_neg (by rw [g]; decide), hk]
  · rw [if_neg (not_not.mpr h), if_neg (by rw [g]; decide), hk]
    obtain ⟨c, hc⟩ : ∃ c, readSetup w.mem = c := ⟨_, rfl⟩
    have first : c.firstSequence = w.mem.read (0x0060 + 116) := by rw [← hc, firstSequence_readSetup]
    rw [hc]
    have frame : w.withSetup c =
        { w with
          modes := s.modes
          track := { s.track with frac := 0 }
          pot := { s.pot with high := ⟨false, 0⟩, low := ⟨false, 0⟩, lowlow := ⟨false, 0⟩ }
          extr := { s.extr with sampled := false }
          port := { w.port with setup := some c, hostLost := false, supElapsed := 0, supRunning := c.supervision != 0 } } := by
      unfold State.withSetup
      rw [track, pot, extr, ← modes]
    have kept := kept_takeSetup w c
    obtain ⟨aModes, aFlux, aExtr⟩ := takeSetup_blocks w c
    obtain ⟨words, zero, given⟩ := takeSetup_expected w c
    obtain ⟨a, ha⟩ : ∃ a, w.takeSetup c = a := ⟨_, rfl⟩
    rw [ha] at kept aModes aFlux aExtr words zero given
    rw [ha]
    rw [modes] at aModes
    rw [flux] at aFlux
    rw [extr] at aExtr
    rw [docket] at zero
    have off : a.modes.mode = .off := by rw [aModes]; exact h
    obtain ⟨mode, -, runOn⟩ := settle_mode_stays (s := a) (by rw [off]; decide) (by rw [off]; decide)
    have stands := @settle_stands a
    have follows := follows_settle a
    have expected := (unmatchedStays_lift a).1
    have keeps := (kept.trans (kept_settle a)).keeps
    rw [frame] at keeps
    obtain ⟨t, ht⟩ : ∃ t, a.settle = t := ⟨_, rfl⟩
    rw [ht] at mode runOn stands follows expected keeps
    refine ⟨t, by rw [← ht]; rfl, keeps, mode.trans off, runOn.trans (by rw [aModes]), fun inhibited => ?_, fun formed k => ?_,
      fun e he free => ?_⟩
    · obtain ⟨still, -⟩ := stands (.inl (by rw [aFlux]; exact inhibited))
      rw [still, aFlux]
    · have formedA : FansFormed a := by
        refine ⟨?_, fun x => off⟩
        rw [aExtr, aModes]
        have on : (s.modes.runOn.map fun r => min r (1000 * c.fanRunOn)) ≠ none ↔ s.modes.runOn ≠ none := by
          rw [ne_eq, Option.map_eq_none_iff]
        rw [on]
        exact formed.fan
      obtain ⟨-, -, points⟩ := follows.fans formedA
      rw [points, aExtr]
      exact Tab8.get_mapIdx _ _ _
    · have none' : slotsAtE a = [] := List.eq_nil_iff_forall_not_mem.mpr fun x hx => by
        obtain ⟨⟨posted, -⟩, -⟩ := (mem_slotsAtE a x).mp hx
        exact free x ((slotState_congr (words x 0)).symm.trans posted)
      obtain ⟨e', m', -⟩ := expected none'
      rw [e', m', he, ← first]
      exact ⟨given, zero⟩

end Sys2Proof.Machine
end



section
/-! The granted power (R95): the allocation stays within the budget, and between allocations the grants only fall. -/

namespace Sys2Proof.Machine

open Sys2Proof.Config

/-- A command is the step of a queue that begins with it. -/
theorem step_front (c : Instr) (s : State) : step { s with pending := c :: s.pending } = exec c s := rfl

theorem grantedPower_le {s t : State} (hw : t.ws = s.ws) (h : ∀ k, t.thermal.outputGrant k ≤ s.thermal.outputGrant k) :
    grantedPower t ≤ grantedPower s := by
  unfold grantedPower
  rw [hw]
  exact List.sum_le_sum fun k _ => Nat.mul_le_mul_right _ (h k)

theorem WithinBudget.of_zero {s : State} (h : ∀ k, s.thermal.outputGrant k = 0) : WithinBudget s := by
  have zero : grantedPower s = 0 := by
    unfold grantedPower
    simp only [h, Nat.zero_mul]
    decide
  unfold WithinBudget
  omega

theorem WithinBudget.of_le {s t : State} (hs : WithinBudget s) (hp : t.port.setup = s.port.setup)
    (h : ∀ k, t.thermal.outputGrant k ≤ s.thermal.outputGrant k) : WithinBudget t := by
  have ws : t.ws = s.ws := by unfold State.ws; rw [hp]
  unfold WithinBudget at *
  rw [ws]
  exact (grantedPower_le ws h).trans hs

/-- The granted power, the pot's two outputs and the zones' (R95). -/
theorem grantedPower_eq (s : State) : grantedPower s = s.thermal.pot.grant * potRating s.ws +
    ∑ z, (s.thermal.zones.get z).grant * (zoneRatings s.ws).get z := by
  rw [Fin.sum_univ_six]
  simp only [grantedPower, allIdx8, List.map_cons, List.map_nil, List.sum_cons, List.sum_nil, Thermal.outputGrant, potRating,
    zoneRatings, Tab6.get_ofFn, Nat.mul_add]
  show _ = _ + ((s.thermal.zones.get 0).grant * s.ws.rating 2 + (s.thermal.zones.get 1).grant * s.ws.rating 3 +
    (s.thermal.zones.get 2).grant * s.ws.rating 4 + (s.thermal.zones.get 3).grant * s.ws.rating 5 +
    (s.thermal.zones.get 4).grant * s.ws.rating 6 + (s.thermal.zones.get 5).grant * s.ws.rating 7)
  omega

theorem potGrant_power_le (budget d rating : Nat) : potGrant budget d rating * rating ≤ 1000 * budget := by
  unfold potGrant
  split
  · assumption
  · next h =>
    have pos : 0 < d * rating := by omega
    have d0 : 0 < d := Nat.pos_of_ne_zero fun e => by rw [e, Nat.zero_mul] at pos; exact absurd pos (by decide)
    refine le_of_mul_le_mul_left ?_ d0
    calc d * (d * (1000 * budget) / (d * rating) * rating)
        = d * (1000 * budget) / (d * rating) * (d * rating) := by ring
      _ ≤ d * (1000 * budget) := Nat.div_mul_le_self _ _

/-- A boundary allocates within the budget (R94). -/
theorem boundary_withinBudget (s : State) : WithinBudget s.boundary := by
  obtain ⟨pot, -⟩ := boundary_pot (s := s) rfl
  have zones := fun z => (boundary_zone (s := s) rfl z).1
  have ws : s.boundary.ws = s.ws := rfl
  unfold WithinBudget
  rw [grantedPower_eq, ws]
  have potPower := potGrant_power_le s.ws.budget (potEligible s s.boundary.thermal.pot.request) (potRating s.ws)
  rw [← pot] at potPower
  have zonePower := zoneGrants_power_le (zonesLeft s.ws.budget s.boundary.thermal.pot.grant (potRating s.ws))
    (zoneRequests s s.boundary.thermal.zones) (zoneRatings s.ws)
  rw [← Finset.sum_congr rfl fun z _ => congrArg (· * (zoneRatings s.ws).get z) (zones z)] at zonePower
  unfold zonesLeft at zonePower
  omega

/-- The consequences of a step give no grant. -/
theorem settle_grant_le (s : State) (k : Idx8) : s.settle.thermal.outputGrant k ≤ s.thermal.outputGrant k := by
  have f := follows_settle s
  rcases output_cases k with rfl | rfl | ⟨z, rfl⟩
  · exact f.potGrant
  · exact f.potGrant
  · rw [Thermal.outputGrant_zone, Thermal.outputGrant_zone]
    exact f.zoneGrant z

theorem HeatersFollow.grant_le {s t : State} (h : HeatersFollow s t) (k : Idx8) :
    t.thermal.outputGrant k ≤ s.thermal.outputGrant k := by
  rcases h k with e | ⟨-, e⟩
  · exact (congrArg Prod.fst e).le
  · exact (congrArg Prod.fst e).le.trans (Nat.zero_le _)

theorem HeatersCut.grants_zero {s : State} (h : HeatersCut s) (hp : NotPermitted s) (k : Idx8) : s.thermal.outputGrant k = 0 := by
  obtain ⟨pot, zones, -⟩ := h.permit hp
  rcases output_cases k with rfl | rfl | ⟨z, rfl⟩
  · exact pot
  · exact pot
  · rw [Thermal.outputGrant_zone]
    exact zones z

/-- LOAD_SETUP leaves the working set in every mode but OFF (R180). -/
theorem setup_of_loadSetup {s t : State} {ws : List HostWrite} (h : exec (.loadSetup ws) s = .next t) (hm : s.modes.mode ≠ .off) :
    t.port.setup = s.port.setup := by
  obtain ⟨e, u, effect, rfl⟩ := effect_of_exec h nofun nofun
  have owned : (e.of u).port.setup = u.port.setup := congrArg (fun x => x.2.1) (Ending.owned e u)
  rw [owned]
  cases effect with
  | nothing => rfl
  | overrun => rfl
  | refused c code q rc f hp hq => exact hq.blocks.2.1
  | accepted c code q e u hp hq hr ha =>
    cases ha with
    | loadSetup _ off =>
      have mode : q.modes.mode = s.modes.mode := by rcases hq with ⟨-, -, rfl⟩ | ⟨-, rfl⟩ <;> rfl
      exact absurd (mode.symm.trans off) hm

theorem atReset_grant : ∀ k, Thermal.atReset.outputGrant k = 0 := by decide

theorem exec_withinBudget {c : Instr} {s t : State} (h : exec c s = .next t) (hs : HeatersCut s ∧ WithinBudget s) :
    WithinBudget t := by
  obtain ⟨cut, within⟩ := hs
  by_cases hb : c = .heaterPeriodBoundary
  · subst hb
    obtain rfl := Host.Outcome.next.inj ((exec_boundary s).symm.trans h)
    exact (boundary_withinBudget s).of_le (kept_settle _).keeps.portSetup (settle_grant_le _)
  · have grants : ∀ k, t.thermal.outputGrant k ≤ s.thermal.outputGrant k := by
      by_cases hk : ∃ j, c = .heaterOutputSwitch j
      · obtain ⟨j, rfl⟩ := hk
        exact fun k => (outputSwitch_heaters h k).1.le
      · exact (exec_heatersFollow c s t h hb fun k e => hk ⟨k, e⟩).grant_le
    have setupStays : t.port.setup = s.port.setup → WithinBudget t := fun e => within.of_le e grants
    rcases exec_cases h with ⟨ws, rfl, ht⟩ | ⟨rfl, ht⟩ | ⟨e, u, effect, rfl⟩
    · refine .of_zero fun k => ?_
      rw [ht, thermal_resetExit]
      exact atReset_grant k
    · refine .of_zero fun k => ?_
      rw [ht, thermal_portReset]
      exact atReset_grant k
    · by_cases hl : ∃ ws, c = .loadSetup ws
      · obtain ⟨ws, rfl⟩ := hl
        by_cases hm : s.modes.mode = .off
        · refine .of_zero fun k => Nat.le_zero.mp ((grants k).trans ?_)
          exact (cut.grants_zero (.inr (.inl hm)) k).le
        · exact setupStays (setup_of_loadSetup h hm)
      · have owned : (e.of u).port.setup = u.port.setup := congrArg (fun x => x.2.1) (Ending.owned e u)
        exact setupStays (owned.trans (effect.setup fun ws x => hl ⟨ws, x⟩))

/-- Settles O6, with the cut rule of R92: a new working set is taken only while nothing is granted. -/
theorem powerBudgetIsKept : Obligations.PowerBudgetIsKept := by
  intro s t h hs
  refine ⟨step_keeps_heatersCut s t h hs.1, ?_⟩
  refine (step_of_exec (P := fun s => HeatersCut s ∧ WithinBudget s) (fun s l ⟨cut, within⟩ => ⟨?_, within⟩)
    (fun s ⟨cut, within⟩ => ⟨?_, within⟩) (fun c s t h hs => ⟨?_, exec_withinBudget h hs⟩) s t h hs).2
  · exact ⟨cut.permit, cut.pot, cut.zone⟩
  · exact ⟨cut.permit, cut.pot, cut.zone⟩
  · exact step_keeps_heatersCut _ t ((step_front c s).trans h) ⟨hs.1.permit, hs.1.pot, hs.1.zone⟩

end Sys2Proof.Machine
end



section
/-! The loops over a step (R87 to R91): what the consequences do to one loop, and what each command does before them. -/

namespace Sys2Proof.Machine

open Sys2Proof.Config

/-- What the consequences of a step do to a loop: its target may change, which clears SETTLED and its count; SETTLED comes up with a
target of 0 alone; its grant may fall. -/
structure Loop.Moved (auth : Bool) (l m : Loop) : Prop where
  target : m.target ≠ l.target → m.count = 0 ∧ (m.settled = false ∨ (auth = true ∧ m.target = 0))
  set : l.settled = false → m.settled = true → auth = true ∧ m.target = 0
  count : m.count = l.count ∨ m.count = 0
  grant : m.grant ≤ l.grant
  request : m.request = l.request
  integral : m.integral = l.integral

theorem Loop.Moved.refl (auth : Bool) (l : Loop) : l.Moved auth l :=
  ⟨fun h => absurd rfl h, fun off on => absurd (off.symm.trans on) (by decide), .inl rfl, le_rfl, rfl, rfl⟩

theorem Loop.Moved.trans {auth : Bool} {l m n : Loop} (h : l.Moved auth m) (g : m.Moved auth n) : l.Moved auth n := by
  have settled : m.settled = false ∨ (auth = true ∧ m.target = 0) →
      n.settled = false ∨ (auth = true ∧ n.target = 0) := fun hm => by
    by_cases same : n.target = m.target
    · rcases hm with off | ⟨a, zero⟩
      · by_cases on : n.settled = true
        · exact .inr (g.set off on)
        · exact .inl (Bool.eq_false_iff.mpr on)
      · exact .inr ⟨a, same.trans zero⟩
    · exact (g.target same).2
  refine ⟨fun ne => ?_, fun off on => ?_, ?_, g.grant.trans h.grant, g.request.trans h.request, g.integral.trans h.integral⟩
  · by_cases same : n.target = m.target
    · obtain ⟨count, up⟩ := h.target (same ▸ ne)
      exact ⟨g.count.elim (·.trans count) id, settled up⟩
    · exact g.target same
  · by_cases up : m.settled = true
    · exact (settled (.inr (h.set off up))).resolve_left (by rw [on]; decide)
    · exact g.set (Bool.eq_false_iff.mpr up) on
  · rcases g.count with e | e
    · rw [e]; exact h.count
    · exact .inr e

theorem Loop.moved_retarget (auth : Bool) (l : Loop) (x : Int) : l.Moved auth (l.retarget x) := by
  unfold Loop.retarget
  split
  · exact .refl auth l
  · exact ⟨fun _ => ⟨rfl, .inl rfl⟩, (fun _ h => by cases h), .inr rfl, le_rfl, rfl, rfl⟩

theorem Loop.moved_formSettled (auth : Bool) (l : Loop) : l.Moved auth (l.formSettled auth) := by
  unfold Loop.formSettled
  split
  · exact ⟨fun h => absurd rfl h, (fun _ h => by cases h), .inr rfl, le_rfl, rfl, rfl⟩
  · next on =>
    have auth' : auth = true := by simpa using on
    split
    · next zero => exact ⟨fun h => absurd rfl h, fun _ _ => ⟨auth', zero⟩, .inr rfl, le_rfl, rfl, rfl⟩
    · exact .refl auth l

theorem Loop.moved_reform (auth : Bool) (l : Loop) (x : Int) (g : Option (BitVec 16)) : l.Moved auth (l.reform x auth g) := by
  have follow : (l.retarget x).Moved auth (l.retarget x).follow :=
    ⟨fun h => absurd rfl h, fun off on => absurd (off.symm.trans on) (by decide), .inl rfl, le_rfl, rfl, rfl⟩
  have formed := ((l.moved_retarget auth x).trans follow).trans (Loop.moved_formSettled auth _)
  exact ⟨formed.target, formed.set, formed.count, formed.grant, formed.request, formed.integral⟩

theorem Loop.moved_cutIf (auth : Bool) (l : Loop) (c : Bool) : l.Moved auth (l.cutIf c) := by
  unfold Loop.cutIf
  split
  · exact ⟨fun h => absurd rfl h, fun off on => absurd (off.symm.trans on) (by decide), .inl rfl, Nat.zero_le _, rfl, rfl⟩
  · exact .refl auth l

/-- Every loop moves so. -/
structure LoopsMoved (s t : State) : Prop where
  auth : t.thermal.auth = s.thermal.auth
  loop : ∀ l, (s.thermal.loop l).Moved s.thermal.auth (t.thermal.loop l)

theorem LoopsMoved.of_thermal {s t : State} (h : t.thermal = s.thermal) : LoopsMoved s t :=
  ⟨by rw [h], fun l => by rw [h]; exact .refl _ _⟩

theorem LoopsMoved.refl (s : State) : LoopsMoved s s := .of_thermal rfl

theorem LoopsMoved.trans {s t u : State} (h : LoopsMoved s t) (g : LoopsMoved t u) : LoopsMoved s u :=
  ⟨g.auth.trans h.auth, fun l => by
    have second := g.loop l
    rw [h.auth] at second
    exact (h.loop l).trans second⟩

theorem loopsMoved_cutGrants (s : State) : LoopsMoved s s.cutGrants :=
  ⟨rfl, fun l => by
    cases l with
    | pot => exact Loop.moved_cutIf _ _ _
    | zone z =>
      show (s.thermal.zones.get z).Moved _ (s.cutGrants.thermal.zones.get z)
      rw [State.cutGrants, Tab6.get_mapIdx]
      exact Loop.moved_cutIf _ _ _⟩

theorem loopsMoved_reformZones (s : State) : LoopsMoved s s.reformZones :=
  ⟨rfl, fun l => by
    cases l with
    | pot => exact .refl _ _
    | zone z =>
      show (s.thermal.zones.get z).Moved _ (s.reformZones.thermal.zones.get z)
      rw [State.reformZones, Tab6.get_mapIdx]
      exact Loop.moved_reform _ _ _ _⟩

theorem loopsMoved_reformPotTarget (s : State) : LoopsMoved s s.reformPotTarget :=
  ⟨rfl, fun l => by
    cases l with
    | pot => exact (Loop.moved_retarget _ _ _).trans (Loop.moved_formSettled _ _)
    | zone z =>
      show (s.thermal.zones.get z).Moved _ (s.reformPotTarget.thermal.zones.get z)
      rw [State.reformPotTarget, Tab6.get_mapIdx]
      exact Loop.moved_formSettled _ _⟩

theorem Move.loopsMoved {s t : State} (m : Move s t) : LoopsMoved s t := by
  cases m with
  | grants => exact loopsMoved_cutGrants s
  | zones => exact loopsMoved_reformZones s
  | potTarget => exact loopsMoved_reformPotTarget s
  | _ => exact .of_thermal (by simp)

theorem Moves.loopsMoved {s t : State} (h : Moves s t) : LoopsMoved s t :=
  h.lift LoopsMoved.refl LoopsMoved.trans Move.loopsMoved

theorem Ending.loopsMoved (e : Ending) (u : State) : LoopsMoved u (e.of u) := by
  induction e with
  | still => exact .refl u
  | settled => exact (moves_settle u).loopsMoved
  | evaluated => exact (moves_settleEval u).loopsMoved
  | interval => exact (moves_settleEval u).loopsMoved.trans (.of_thermal rfl)
  | answered e a ih => exact ih.trans (.of_thermal rfl)

end Sys2Proof.Machine
end



section
/-! The loops over each command (R87 to R91). -/

namespace Sys2Proof.Machine

open Sys2Proof.Config

/-- The loops of the thermal unit. -/
def Thermal.loops (t : Thermal) : Loop × Tab6 Loop := (t.pot, t.zones)

theorem loop_of_loops {t u : Thermal} (h : u.loops = t.loops) (l : LoopId) : u.loop l = t.loop l := by
  cases l with
  | pot => exact congrArg Prod.fst h
  | zone z => exact congrArg (fun x : Loop × Tab6 Loop => x.2.get z) h

@[simp] theorem loops_setInput (t : Thermal) (k : Idx8) (i : Input) : (t.setInput k i).loops = t.loops := rfl

@[simp] theorem loops_latchInput (s : State) (k : Idx8) : (s.latchInput k).thermal.loops = s.thermal.loops := by
  unfold State.latchInput
  split <;> rfl

@[simp] theorem loops_testLimit (s : State) (k : Idx8) : (s.testLimit k).thermal.loops = s.thermal.loops := by
  simp [State.testLimit]

@[simp] theorem loops_setAuth (s : State) (on : Bool) : (s.setAuth on).thermal.loops = s.thermal.loops := rfl

@[simp] theorem loops_latchZone (s : State) (z : Zone) : (s.latchZone z).thermal.loops = s.thermal.loops := by
  unfold State.latchZone
  split <;> rfl

@[simp] theorem loops_latchZones (s : State) : s.latchZones.thermal.loops = s.thermal.loops := by
  simp [State.latchZones, allZones]

@[simp] theorem loops_sampleInputs (s : State) (temps : Tab8 (Option Int)) :
    (s.sampleInputs temps).thermal.loops = s.thermal.loops := rfl

@[simp] theorem loops_sampleAll (s : State) (i : Readings) : (s.sampleAll i).thermal.loops = s.thermal.loops := by
  simp [State.sampleAll, State.samplePressure, State.samplePumps, State.sampleExtraction, State.sampleSpeed]

@[simp] theorem loops_releaseFaults (s : State) : s.releaseFaults.thermal.loops = s.thermal.loops := by
  unfold State.releaseFaults
  dsimp only
  split
  · simp [Thermal.loops]
  · rfl

theorem Accepts.loops {q u : State} {c : Instr} {e : Ending} (h : Accepts q c e u) : u.thermal.loops = q.thermal.loops := by
  cases h with
  | clear => simp [State.removeCauses]
  | _ => simp

theorem loopsMoved_moveTenths (n : Nat) (s : State) (f : Bool) : LoopsMoved s (State.moveTenths n s f) := by
  induction n generalizing s with
  | zero => exact .refl s
  | succ k ih =>
    refine LoopsMoved.trans ?_ (ih _)
    obtain ⟨a, e, ha⟩ : ∃ a : State, s.moveTenth f = a.afterMove f ∧ a.thermal = s.thermal := ⟨_, rfl, rfl⟩
    refine ((LoopsMoved.of_thermal ha).trans (loopsMoved_reformZones a)).trans (.of_thermal ?_)
    rw [e]
    cases f <;> simp [State.afterMove]

theorem loopsMoved_countEncoder (s : State) (d : Direction) : LoopsMoved s (s.countEncoder d) := by
  obtain ⟨a, n, f, p, e, ha⟩ : ∃ (a : State) (n : Nat) (f : Bool) (p : Pos),
      s.countEncoder d = (State.moveTenths n a f).approachBar n p d ∧ a.thermal = s.thermal := ⟨_, _, _, _, rfl, rfl⟩
  rw [e]
  exact ((LoopsMoved.of_thermal ha).trans (loopsMoved_moveTenths n a f)).trans (.of_thermal (by simp))

theorem Taken.thermal {s q : State} {code : Word} {ws : List HostWrite} (h : Taken s code ws q) : q.thermal = s.thermal := by
  rw [h.blocks.1]

/-- A command leaves the loops before its consequences, but for the tenths of ENCODER_COUNT, a boundary and LOOP_SETTLED. -/
theorem Effect.loops {s u : State} {c : Instr} {e : Ending} (h : Effect s c e u) (hb : c ≠ .heaterPeriodBoundary)
    (hl : ∀ l, c ≠ .loopSettled l) : u.thermal.loops = s.thermal.loops ∨ LoopsMoved s u := by
  cases h with
  | heaterPeriodBoundary => exact absurd rfl hb
  | loopSettled l => exact absurd rfl (hl l)
  | encoderCount d => exact .inr (loopsMoved_countEncoder s d)
  | heaterOutputSwitch => exact .inl rfl
  | refused c code q rc f hp hq => exact .inl (by rw [Taken.thermal hq])
  | accepted c code q e u hp hq hr ha => exact .inl (by rw [ha.loops, Taken.thermal hq])
  | requestOverrun code => exact .inl (by split <;> rfl)
  | _ => exact .inl (by simp)

end Sys2Proof.Machine
end



section
/-! The loops at a boundary, and the rules of the loops over a step (R87 to R91). -/

namespace Sys2Proof.Machine

open Sys2Proof.Config

/-! ## A boundary on one loop -/

theorem clampInt_bounds {lo hi : Int} (h : lo ≤ hi) (x : Int) : lo ≤ clampInt lo hi x ∧ clampInt lo hi x ≤ hi := by
  unfold clampInt
  omega

/-- The control computation stays in the ranges of R87 and R88. -/
theorem controlLoop_range (kp ki : Nat) (l : Loop) (pv : Option Int) (auth : Bool) (h : 0 ≤ l.integral ∧ l.integral ≤ 100000) :
    (controlLoop kp ki l pv auth).request ≤ 1000 ∧ 0 ≤ (controlLoop kp ki l pv auth).integral ∧
      (controlLoop kp ki l pv auth).integral ≤ 100000 := by
  unfold controlLoop
  split
  · exact ⟨by decide, by decide, by decide⟩
  · split
    · exact ⟨Nat.zero_le _, h⟩
    · dsimp only
      refine ⟨?_, ?_⟩
      · have b := (clampInt_bounds (lo := 0) (hi := 1000) (by decide))
        exact Int.toNat_le.mpr (b _).2
      · split
        · exact h
        · exact clampInt_bounds (by decide) _

/-- What a boundary does to a loop: its count goes on by one or becomes 0, SETTLED comes up with a target of 0 alone. -/
structure Loop.Tested (auth : Bool) (l m : Loop) : Prop where
  target : m.target = l.target
  set : l.settled = false → m.settled = true → auth = true ∧ m.target = 0
  count : m.count = l.count ∨ m.count = 0 ∨ m.count = l.count + 1

theorem Loop.settleStep_tested (l : Loop) (pv : Option Int) (band : Nat) (auth : Bool) :
    l.Tested auth (l.settleStep pv band auth) := by
  unfold Loop.settleStep
  split
  · unfold Loop.settleTest
    split
    · exact ⟨rfl, (fun _ h => by cases h), .inr (.inl rfl)⟩
    · refine ⟨rfl, fun off on => ?_, ?_⟩
      · dsimp only at on
        rw [off] at on
        cases on
      · dsimp only
        split
        · exact .inr (.inr rfl)
        · exact .inr (.inl rfl)
  · have moved := l.moved_formSettled auth
    refine ⟨?_, moved.set, moved.count.imp_right .inl⟩
    unfold Loop.formSettled
    split
    · rfl
    · split <;> rfl

theorem Loop.settleStep_control (l : Loop) (pv : Option Int) (band : Nat) (auth : Bool) :
    (l.settleStep pv band auth).request = l.request ∧ (l.settleStep pv band auth).integral = l.integral := by
  unfold Loop.settleStep
  split
  · unfold Loop.settleTest
    split <;> exact ⟨rfl, rfl⟩
  · have moved := l.moved_formSettled auth
    exact ⟨moved.request, moved.integral⟩

/-- A loop through the boundary: a new SP, the control computation, the settle test, the grant. -/
def Loop.through (l : Loop) (sp : Int) (kp ki : Nat) (pv : Option Int) (band : Nat) (auth : Bool) (grant eligible : Nat) : Loop :=
  ((({ l with sp := sp }).computed (controlLoop kp ki { l with sp := sp } pv auth)).settleStep pv band auth).granted grant eligible

theorem Loop.through_tested (l : Loop) (sp : Int) (kp ki : Nat) (pv : Option Int) (band : Nat) (auth : Bool) (g d : Nat) :
    l.Tested auth (l.through sp kp ki pv band auth g d) := by
  obtain ⟨target, set, count⟩ :=
    Loop.settleStep_tested (({ l with sp := sp }).computed (controlLoop kp ki { l with sp := sp } pv auth)) pv band auth
  exact ⟨target, set, count⟩

theorem Loop.through_inRange {l : Loop} (h : l.InRange) (sp : Int) (kp ki : Nat) (pv : Option Int) (band : Nat) (auth : Bool)
    {g d : Nat} (hg : g ≤ (l.through sp kp ki pv band auth g d).request) : (l.through sp kp ki pv band auth g d).InRange := by
  obtain ⟨-, -, integral⟩ := h
  obtain ⟨r, i⟩ := controlLoop_range kp ki { l with sp := sp } pv auth integral
  obtain ⟨request, integral'⟩ :=
    Loop.settleStep_control (({ l with sp := sp }).computed (controlLoop kp ki { l with sp := sp } pv auth)) pv band auth
  refine ⟨hg, request.le.trans r, ?_⟩
  show 0 ≤ (Loop.settleStep _ pv band auth).integral ∧ (Loop.settleStep _ pv band auth).integral ≤ 100000
  rw [integral']
  exact i

/-! ## The boundary on every loop -/

theorem boundary_auth (s : State) : s.boundary.thermal.auth = s.thermal.auth := rfl

theorem boundary_loop (s : State) (l : LoopId) :
    ∃ sp kp ki pv band g d, s.boundary.thermal.loop l = (s.thermal.loop l).through sp kp ki pv band s.thermal.auth g d := by
  cases l with
  | pot => exact ⟨_, _, _, _, _, _, _, rfl⟩
  | zone z =>
    obtain ⟨g, d, e⟩ : ∃ g d, s.boundary.thermal.zones.get z = (s.toAllocation.thermal.zones.get z).granted g d :=
      ⟨_, _, allocateStep_zone s.toAllocation z⟩
    have before : s.toAllocation.thermal.zones.get z =
        ((s.thermal.zones.get z).computed (controlLoop (s.ws.kp (.zone z)) (s.ws.ki (.zone z)) (s.thermal.zones.get z)
          (s.thermal.zonePV z) s.thermal.auth)).settleStep (s.thermal.zonePV z) (s.ws.settleBand (.zone z)) s.thermal.auth := by
      unfold State.toAllocation State.settleStep State.controlStep
      rw [Tab6.get_mapIdx, Tab6.get_mapIdx]
      rfl
    rw [before] at e
    exact ⟨(s.thermal.zones.get z).sp, s.ws.kp (.zone z), s.ws.ki (.zone z), s.thermal.zonePV z, s.ws.settleBand (.zone z),
      g, d, e⟩

theorem potGrant_le (budget d rating : Nat) : potGrant budget d rating ≤ d := by
  unfold potGrant
  split
  · exact le_rfl
  · next h =>
    refine Nat.div_le_of_le_mul ?_
    rw [Nat.mul_comm (d * rating) d]
    exact Nat.mul_le_mul_left _ (by omega)

theorem zoneGrant_le (left total d : Nat) : zoneGrant left total d ≤ d := by
  unfold zoneGrant
  split
  · exact le_rfl
  · next h =>
    refine Nat.div_le_of_le_mul ?_
    rw [Nat.mul_comm total d]
    exact Nat.mul_le_mul_left _ (by omega)

theorem boundary_grant_le (s : State) (l : LoopId) : (s.boundary.thermal.loop l).grant ≤ (s.boundary.thermal.loop l).request := by
  cases l with
  | pot =>
    obtain ⟨grant, -⟩ := boundary_pot (s := s) rfl
    show s.boundary.thermal.pot.grant ≤ s.boundary.thermal.pot.request
    rw [grant]
    refine (potGrant_le _ _ _).trans ?_
    unfold potEligible
    split
    · exact Nat.zero_le _
    · exact le_rfl
  | zone z =>
    obtain ⟨grant, -⟩ := boundary_zone (s := s) rfl z
    show (s.boundary.thermal.zones.get z).grant ≤ (s.boundary.thermal.zones.get z).request
    rw [grant]
    refine (zoneGrant_le _ _ _).trans ?_
    rw [zoneRequests, Tab6.get_ofFn]
    unfold zoneEligible
    split
    · exact Nat.zero_le _
    · exact le_rfl

theorem boundary_tested (s : State) (l : LoopId) : (s.thermal.loop l).Tested s.thermal.auth (s.boundary.thermal.loop l) := by
  obtain ⟨sp, kp, ki, pv, band, g, d, e⟩ := boundary_loop s l
  rw [e]
  exact Loop.through_tested _ _ _ _ _ _ _ _ _

theorem boundary_inRange {s : State} {l : LoopId} (h : (s.thermal.loop l).InRange) : (s.boundary.thermal.loop l).InRange := by
  have le := boundary_grant_le s l
  obtain ⟨sp, kp, ki, pv, band, g, d, e⟩ := boundary_loop s l
  rw [e] at le ⊢
  exact Loop.through_inRange h sp kp ki pv band _ le

/-! ## The rules over a step -/

theorem Loop.Moved.inRange {auth : Bool} {l m : Loop} (h : l.Moved auth m) (g : l.InRange) : m.InRange := by
  obtain ⟨grant, request, integral⟩ := g
  refine ⟨?_, ?_, ?_⟩
  · rw [h.request]; exact h.grant.trans grant
  · rw [h.request]; exact request
  · rw [h.integral]; exact integral

theorem loopsInRange_iff (s : State) : LoopsInRange s ↔ ∀ l, (s.thermal.loop l).InRange :=
  ⟨fun ⟨pot, zones⟩ l => by
    cases l with
    | pot => exact pot
    | zone z => exact zones z,
   fun h => ⟨h .pot, fun z => h (.zone z)⟩⟩

/-- What a command does to the loops: a boundary tests, LOOP_SETTLED sets its flag, and every command's consequences move. -/
theorem effect_loop {c : Instr} {s u : State} {e : Ending} (h : Effect s c e u) (l : LoopId) :
    (c = .heaterPeriodBoundary ∧ (s.thermal.loop l).Tested u.thermal.auth (u.thermal.loop l) ∧
      ((s.thermal.loop l).InRange → (u.thermal.loop l).InRange)) ∨
    (c = .loopSettled l ∧ u.thermal.loop l = { s.thermal.loop l with settled := true }) ∨
    (s.thermal.loop l).Moved u.thermal.auth (u.thermal.loop l) := by
  by_cases hb : c = .heaterPeriodBoundary
  · subst hb
    cases h with
    | nothing => exact .inr (.inr (.refl _ _))
    | heaterPeriodBoundary => exact .inl ⟨rfl, boundary_tested s l, boundary_inRange⟩
    | overrun => exact .inr (.inr (.refl _ _))
    | refused c code q rc f hp hq => exact .inr (.inr (by rw [Taken.thermal hq]; exact .refl _ _))
    | accepted c code q e u hp hq hr ha => cases ha
  · by_cases hl : ∃ m, c = .loopSettled m
    · obtain ⟨m, rfl⟩ := hl
      cases h with
      | nothing => exact .inr (.inr (.refl _ _))
      | loopSettled =>
        by_cases hm : l = m
        · subst hm
          exact .inr (.inl ⟨rfl, by rw [Thermal.loop_markSettled, if_pos rfl]⟩)
        · exact .inr (.inr (by rw [Thermal.loop_markSettled, if_neg hm]; exact .refl _ _))
      | overrun => exact .inr (.inr (.refl _ _))
      | refused c code q rc f hp hq => exact .inr (.inr (by rw [Taken.thermal hq]; exact .refl _ _))
      | accepted c code q e u hp hq hr ha => cases ha
    · refine .inr (.inr ?_)
      rcases h.loops hb (fun m e => hl ⟨m, e⟩) with same | moved
      · rw [loop_of_loops same]; exact .refl _ _
      · rw [moved.auth]; exact moved.loop l

theorem settleStep_of_effect {c : Instr} {s u t : State} {e : Ending} (h : Effect s c e u) (ht : t = e.of u) (l : LoopId) :
    SettleStep (c = .loopSettled l) (c = .heaterPeriodBoundary) (t.thermal.auth = true) (s.thermal.loop l) (t.thermal.loop l) := by
  obtain ⟨auth, loop⟩ := e.loopsMoved u
  rw [← ht] at auth loop
  have last := loop l
  rw [← auth] at last
  rcases effect_loop h l with ⟨hc, tested, -⟩ | ⟨hc, same⟩ | first
  · rw [← auth] at tested
    refine ⟨fun ne => ?_, fun off on => .inr ?_, ?_⟩
    · exact last.target (by rw [tested.target]; exact ne)
    · by_cases up : (u.thermal.loop l).settled = true
      · obtain ⟨a, zero⟩ := tested.set off up
        by_cases target : (t.thermal.loop l).target = (u.thermal.loop l).target
        · exact ⟨a, target.trans zero⟩
        · exact (last.target target).2.resolve_left (by rw [on]; decide)
      · exact last.set (Bool.eq_false_iff.mpr up) on
    · rcases last.count with e1 | zero
      · rw [e1]
        exact tested.count.imp_right (Or.imp_right fun x => ⟨hc, x⟩)
      · exact .inr (.inl zero)
  · refine ⟨fun ne => ?_, fun _ _ => .inl hc, ?_⟩
    · exact last.target (by rw [same]; exact ne)
    · rw [same] at last
      exact last.count.imp_right .inl
  · have both := first
    rw [← auth] at both
    have all := both.trans last
    exact ⟨all.target, fun off on => .inr (all.set off on), all.count.imp_right .inl⟩

theorem inRange_of_exec {c : Instr} {s t : State} (h : exec c s = .next t) (hs : LoopsInRange s) : LoopsInRange t := by
  rw [loopsInRange_iff] at hs ⊢
  have rest : ∀ l, (Thermal.atReset.loop l).InRange := fun l => by
    cases l with
    | pot => exact ⟨by decide, by decide, by decide, by decide⟩
    | zone z => exact ⟨by revert z; decide, by revert z; decide, by revert z; decide, by revert z; decide⟩
  intro l
  rcases exec_cases h with ⟨ws, -, ht⟩ | ⟨-, ht⟩ | ⟨e, u, effect, ht⟩
  · rw [ht, thermal_resetExit]; exact rest l
  · rw [ht, thermal_portReset]; exact rest l
  · obtain ⟨auth, loop⟩ := e.loopsMoved u
    rw [← ht] at loop
    refine (loop l).inRange ?_
    rcases effect_loop effect l with ⟨-, -, range⟩ | ⟨-, same⟩ | first
    · exact range (hs l)
    · rw [same]; exact hs l
    · exact first.inRange (hs l)

theorem SettledFormed.of_quiet {s t : State} (q : Quiet s t) (h : SettledFormed s) : SettledFormed t := by
  have e := q.thermal
  have loops : t.thermal.loops = s.thermal.loops := (congrArg Thermal.loops e :)
  have auth : t.thermal.auth = s.thermal.auth := (congrArg Thermal.auth e :)
  obtain ⟨pot, zones⟩ := h
  refine ⟨?_, fun z => ?_⟩
  · rw [show t.thermal.pot = s.thermal.pot from congrArg Prod.fst loops, auth]; exact pot
  · rw [show t.thermal.zones = s.thermal.zones from congrArg Prod.snd loops, auth]; exact zones z

theorem SettledFormed.of_atReset {t : State} (h : t.thermal = Thermal.atReset) : SettledFormed t := by
  have zones : ∀ z, (Thermal.atReset.zones.get z).settled = false ∧ (Thermal.atReset.zones.get z).count = 0 := by decide
  unfold SettledFormed
  rw [h]
  exact ⟨⟨fun _ => ⟨rfl, rfl⟩, (fun h => by cases h)⟩, fun z => ⟨fun _ => zones z, (fun h => by cases h)⟩⟩

/-- Settles O7: a loop by its boundary and by the stages of every step's consequences. -/
theorem loopRangesAreKept : Obligations.LoopRangesAreKept := by
  refine ⟨fun s t h => ⟨fun hs => ?_, fun hs => ?_⟩, fun c s t h hp hr l => ?_⟩
  · exact step_of_exec (P := LoopsInRange) (fun _ _ x => x) (fun _ x => x) (fun _ _ _ => inRange_of_exec) s t h hs
  · refine step_keeps SettledFormed settle_settledFormed (fun _ _ x => x) (fun _ x => x) (fun _ _ q => .of_quiet q)
      (fun u ws => ?_) (fun u => ?_) (fun _ _ x => x) s t h hs
    · exact .of_atReset (by rw [thermal_resetExit]; rfl)
    · exact .of_atReset (thermal_portReset u)
  · obtain ⟨e, u, effect, ht⟩ := effect_of_exec h hp hr
    exact settleStep_of_effect effect ht l

end Sys2Proof.Machine
end



section
/-! What the in-flight list is known by: each record's ordinal, origin, binding and lead, the held slots and the offer. Every command
but an entry edge and a close leaves them. -/

namespace Sys2Proof.Machine

open Sys2Proof.Config

/-- What a record keeps from its admission to its close (Table 1-2). -/
def Record.tag (r : Record) : BitVec 16 × Origin × Option Binding × Pos :=
  (r.ordinal, r.origin, r.binding, r.lead)

/-! ## Records that are mapped -/

theorem tags_map {f : Record → Record} (h : ∀ r, (f r).tag = r.tag) (rs : List Record) :
    (rs.map f).map Record.tag = rs.map Record.tag := by
  rw [List.map_map]
  exact List.map_congr_left fun r _ => h r

theorem tags_mapRecords (p : Record → Bool) {f : Record → Record} (h : ∀ r, (f r).tag = r.tag) (rs : List Record) :
    (mapRecords p f rs).map Record.tag = rs.map Record.tag :=
  tags_map (fun r => by split <;> simp [h]) rs

theorem tags_of_forall₂ {R : Record → Record → Prop} (hR : ∀ r q, R r q → q.tag = r.tag) {rs qs : List Record}
    (h : List.Forall₂ R rs qs) : qs.map Record.tag = rs.map Record.tag := by
  induction h with
  | nil => rfl
  | cons a _ ih => rw [List.map_cons, List.map_cons, hR _ _ a, ih]

theorem tags_mapNewest {f : Record → Record} (h : ∀ r, (f r).tag = r.tag) (rs : List Record) :
    (mapNewest f rs).map Record.tag = rs.map Record.tag :=
  tags_of_forall₂ (R := fun r q => q.tag = r.tag) (fun _ _ e => e)
    (mapNewest_forall (R := fun r q => q.tag = r.tag) (fun _ => rfl) h rs)

theorem tags_of_places {rs qs : List Record} (h : qs.map Record.place = rs.map Record.place) :
    qs.map Record.tag = rs.map Record.tag := by
  have e : ∀ l : List Record, l.map Record.tag =
      (l.map Record.place).map fun x => (x.1, x.2.1, x.2.2.1, x.2.2.2.1) := fun l => by rw [List.map_map]; rfl
  rw [e, h, ← e]

/-! ## The operations on records -/

@[simp] theorem tags_markZoneFault (s : State) (z : Zone) :
    (s.markZoneFault z).track.records.map Record.tag = s.track.records.map Record.tag := tags_mapRecords (f := fun r => r.deviates z) _ (fun _ => rfl) _

@[simp] theorem tags_markInputFault (s : State) (k : Idx8) :
    (s.markInputFault k).track.records.map Record.tag = s.track.records.map Record.tag := by
  unfold State.markInputFault
  split
  · split <;> simp
  · rfl

@[simp] theorem tags_topside (s : State) : s.topside.track.records.map Record.tag = s.track.records.map Record.tag :=
  tags_map (fun r => by rw [topsideStep_rest]; rfl) _

theorem tag_mark (r : Record) (f : Flag) : (r.mark f).tag = r.tag := rfl

@[simp] theorem tags_waveEntries (s : State) : s.waveEntries.track.records.map Record.tag = s.track.records.map Record.tag := by
  have one : ∀ (w : Wave) (r : Record), (waveEntry s w r).tag = r.tag := fun w r => by
    unfold waveEntry; rw [Record.markIf_rest]; rfl
  exact tags_map (fun r => (one _ _).trans (one _ _)) _

@[simp] theorem tags_reformConveyor (s : State) :
    s.reformConveyor.track.records.map Record.tag = s.track.records.map Record.tag :=
  tags_of_places (kept_reformConveyor s).places

@[simp] theorem tags_reformPumpRefs (s : State) :
    s.reformPumpRefs.track.records.map Record.tag = s.track.records.map Record.tag := by simp

@[simp] theorem tags_moveTenth (s : State) (f : Bool) :
    (s.moveTenth f).track.records.map Record.tag = s.track.records.map Record.tag := by
  cases f <;> simp [State.moveTenth, State.afterMove, State.testBackPressure]

@[simp] theorem tags_moveTenths (n : Nat) (s : State) (f : Bool) :
    (State.moveTenths n s f).track.records.map Record.tag = s.track.records.map Record.tag := by
  induction n generalizing s with
  | zero => rfl
  | succ k ih => rw [State.moveTenths, ih, tags_moveTenth]

@[simp] theorem tags_countEncoder (s : State) (d : Direction) :
    (s.countEncoder d).track.records.map Record.tag = s.track.records.map Record.tag := by
  simp [State.countEncoder]

@[simp] theorem tags_cutPulses (s : State) (p : Pulse → Bool) (b : Bool) :
    (s.cutPulses p b).track.records.map Record.tag = s.track.records.map Record.tag :=
  tags_of_places (cutPulses_ends s p b).records.places

@[simp] theorem tags_finishPulses (s : State) :
    s.finishPulses.track.records.map Record.tag = s.track.records.map Record.tag := tags_cutPulses s _ _

@[simp] theorem records_setEye (t : Track) (e : Eye) (q : Qualifier) : (t.setEye e q).records = t.records := by
  cases e <;> rfl

@[simp] theorem records_rawEye (s : State) (e : Eye) (b : Bool) : (s.rawEye e b).track.records = s.track.records :=
  records_setEye _ _ _

@[simp] theorem tags_sampleContact (s : State) :
    s.sampleContact.track.records.map Record.tag = s.track.records.map Record.tag := tags_mapRecords (f := fun r => { r with minSpeed := minSample r.minSpeed s.track.measured.toNat, minRpm := minSample r.minRpm s.pot.main.measured }) _ (fun _ => rfl) _

@[simp] theorem tags_markJam (s : State) : s.markJam.track.records.map Record.tag = s.track.records.map Record.tag :=
  tags_mapRecords (f := fun r => { r with jam := true }) _ (fun _ => rfl) _

@[simp] theorem tags_matchExit (s : State) (r : Record) (p : Pos) :
    (s.matchExit r p).track.records.map Record.tag = s.track.records.map Record.tag := tags_mapRecords (f := fun q => { q with stage := .exiting, exitLead := some p }) _ (fun _ => rfl) _

@[simp] theorem tags_setTank (s : State) (c r : Nat) : (s.setTank c r).track.records.map Record.tag =
    s.track.records.map Record.tag := tags_of_places (kept_setTank s c r).places

@[simp] theorem tags_creditPurge (s : State) : s.creditPurge.track.records.map Record.tag =
    s.track.records.map Record.tag := tags_of_places (kept_creditPurge s).places

@[simp] theorem tags_endPurge (s : State) : s.endPurge.track.records.map Record.tag = s.track.records.map Record.tag :=
  tags_of_places (kept_endPurge s).places

@[simp] theorem tags_endPulse (s : State) (k : Idx8) (u : Pulse) (n : Nat) (b : Bool) :
    (s.endPulse k u n b).track.records.map Record.tag = s.track.records.map Record.tag :=
  tags_of_places (kept_endPulse s k u n b).places

@[simp] theorem tags_holdValve (s : State) (k : Idx8) (u : Pulse) :
    (s.holdValve k u).track.records.map Record.tag = s.track.records.map Record.tag := by
  unfold State.holdValve
  split <;> rfl

@[simp] theorem tags_startPurge (s : State) (n : Nat) :
    (s.startPurge n).track.records.map Record.tag = s.track.records.map Record.tag :=
  tags_cutPulses s (fun _ => true) true

theorem tags_markSkipped (es : List Edge) (rs : List Record) : (markSkipped es rs).map Record.tag = rs.map Record.tag := by
  unfold markSkipped
  induction es generalizing rs with
  | nil => rfl
  | cons e es ih =>
    exact (ih _).trans (tags_mapRecords
      (f := fun r => ({ r with skipped := r.skipped ||| bitMask e.window }).mark .fluxSkipped) _ (fun _ => rfl) _)

@[simp] theorem tags_consumeEdges (s : State) :
    s.consumeEdges.track.records.map Record.tag = s.track.records.map Record.tag := tags_markSkipped _ _

@[simp] theorem tags_markDeviations (s : State) :
    s.markDeviations.track.records.map Record.tag = s.track.records.map Record.tag := by
  refine tags_map (fun r => ?_) _
  have all : ∀ (zs : List Zone) (q : Record),
      (zs.foldl (fun q z => if deviationFails s z r then q.deviates z else q) q).tag = q.tag := fun zs => by
    induction zs with
    | nil => exact fun _ => rfl
    | cons z zs ih =>
      intro q
      refine (ih _).trans ?_
      dsimp only
      split <;> rfl
  exact all _ _

@[simp] theorem tags_boundary (s : State) : s.boundary.track.records.map Record.tag = s.track.records.map Record.tag :=
  (tags_markDeviations _).trans rfl

@[simp] theorem tags_clamp (s : State) (r : Record) (l : Nat) :
    (s.clamp r l).track.records.map Record.tag = s.track.records.map Record.tag :=
  tags_of_places (kept_clamp s r l).places

@[simp] theorem tags_takeTrail (s : State) (p : Pos) :
    (s.takeTrail p).track.records.map Record.tag = s.track.records.map Record.tag := by
  have trail : ∀ r : Record, (r.withTrail p s.ws.maxLength).tag = r.tag := fun r => by rw [withTrail_rest]; rfl
  unfold State.takeTrail
  split
  · rw [tags_topside, tags_clamp]
    exact tags_mapNewest trail _
  · rfl

@[simp] theorem tags_handTrailing (s : State) :
    s.handTrailing.track.records.map Record.tag = s.track.records.map Record.tag := by
  have test : ∀ r : Record, r.lengthTest.tag = r.tag := fun r => by rw [lengthTest_rest]; rfl
  unfold State.handTrailing
  split
  · exact tags_mapNewest test _
  · rfl
  · rfl
  · rfl

@[simp] theorem records_raise (s : State) (c : HaltCause) : (s.raiseCause c).track.records = s.track.records := by simp

@[simp] theorem records_setOverflow (s : State) : s.setOverflow.track.records = s.track.records := by
  simp [State.setOverflow, State.trackFault]

@[simp] theorem records_setPhantom (s : State) : s.setPhantom.track.records = s.track.records := by
  simp [State.setPhantom, State.trackFault]

@[simp] theorem records_disown (s : State) : s.disown.track.records = s.track.records := rfl

@[simp] theorem tags_latchZone (s : State) (z : Zone) :
    (s.latchZone z).track.records.map Record.tag = s.track.records.map Record.tag := by
  unfold State.latchZone
  split
  · exact tags_markZoneFault s z
  · rfl

@[simp] theorem tags_latchZones (s : State) :
    s.latchZones.track.records.map Record.tag = s.track.records.map Record.tag := by
  simp [State.latchZones, allZones]

@[simp] theorem tags_sampleInputs (s : State) (i : Tab8 (Option Int)) :
    (s.sampleInputs i).track.records.map Record.tag = s.track.records.map Record.tag := rfl

@[simp] theorem records_window (t : Track) (n : Nat) : (t.window n).records = t.records := by
  unfold Track.window
  split <;> rfl

@[simp] theorem tags_sampleAll (s : State) (i : Readings) :
    (s.sampleAll i).track.records.map Record.tag = s.track.records.map Record.tag := by
  simp [State.sampleAll, State.samplePressure, State.samplePumps, State.sampleExtraction, State.sampleSpeed]

/-! ## The list over a command -/

/-- The list by its tags, the held slots and the offer. -/
def State.listView (s : State) : List (BitVec 16 × Origin × Option Binding × Pos) × List SlotIx × Option Offer :=
  (s.track.records.map Record.tag, s.docket.held, s.docket.offer)

@[simp] theorem held_setExpected (s : State) (e : Word) :
    (s.setExpected e).docket.held = s.docket.held ∧ (s.setExpected e).docket.offer = s.docket.offer := ⟨rfl, rfl⟩

@[simp] theorem listView_takeSetup (s : State) (c : Setup) : (s.takeSetup c).track.records = s.track.records ∧
    (s.takeSetup c).docket.held = s.docket.held ∧ (s.takeSetup c).docket.offer = s.docket.offer := by
  unfold State.takeSetup
  dsimp only
  split <;> exact ⟨rfl, rfl, rfl⟩

theorem Accepts.listView {q u : State} {c : Instr} {e : Ending} (h : Accepts q c e u) : u.listView = q.listView := by
  cases h with
  | _ => simp [State.listView]

/-- The commands that change the list: an entry leading edge, and a close. -/
inductive ListChange (s : State) : State → Prop
  | joined (p) (h : eyeDue s .entry = some p) (ha : s.track.entryEye.accepted = false)
      (hl : s.track.records.length < listMax)
      (ho : outOfOrder (s.track.setEye .entry (s.track.eye .entry).accept) p = false) :
      ListChange s (State.appendAtBar
        (State.handLeading { s with track := s.track.setEye .entry (s.track.eye .entry).accept } p))
  | dropped (a : State) (h : a.listView = s.listView) (hl : a.gate.state = s.gate.state) : ListChange s a.closeGate
  | closed (a : State) (r x : Record) (o l) (h : a.listView = s.listView) (hr : a.track.records.find? exiting = some r) (hx : x.slot? = r.slot?) :
      ListChange s (a.closeRecord exiting x o l)
  | waited (a : State) (h : a.listView = s.listView) : ListChange s a.loseWaiting
  | lost (a : State) (h : a.listView = s.listView) : ListChange s a.loseBoards

theorem Effect.listView {s u : State} {c : Instr} {e : Ending} (h : Effect s c e u) : u.listView = s.listView ∨ ListChange s u := by
  cases h with
  | dropLate b => exact .inr (.dropped _ (by simp [State.listView]) (by simp))
  | dropLost b => exact .inr (.waited _ (by simp [State.listView]))
  | dropPast b => exact .inr (.lost _ (by simp [State.listView]))
  | entryLeading p h ha hl ho => exact .inr (.joined p h ha hl ho)
  | exitClosed p r h hr =>
    exact .inr (.closed _ r _ _ _ (by simp [State.listView]) (by simpa using hr) (by rw [exitTest_rest]; rfl))
  | boardLost => exact .inr (.lost s rfl)
  | lateLimit => exact .inr (.dropped s rfl rfl)
  | refused c code q rc f hp hq => exact .inl (by rw [hq.blocks.1]; rfl)
  | accepted c code q e u hp hq hr ha => exact .inl (ha.listView.trans (by rw [hq.blocks.1]; rfl))
  | requestOverrun code => exact .inl (by split <;> rfl)
  | _ => exact .inl (by simp [State.listView])

end Sys2Proof.Machine
end



section
/-! What an admission and a close do to the list (R12, R17, R34). -/

namespace Sys2Proof.Machine

open Sys2Proof.Config

/-- A record leaves: the first that satisfies a test, with its slot. -/
structure Leaves (s t : State) (p : Record → Bool) (r : Record) : Prop where
  found : s.track.records.find? p = some r
  records : t.track.records = s.track.records.eraseP p
  held : t.docket.held = r.slot?.toList.foldl List.erase s.docket.held
  offer : t.docket.offer = s.docket.offer

theorem offer_closeRecord (s : State) (p : Record → Bool) (r : Record) (o : CloseOutcome) (l : Nat) :
    (s.closeRecord p r o l).docket.offer = s.docket.offer := by
  have report : (s.reportClose r o l).docket.offer = s.docket.offer := by
    unfold State.reportClose
    split <;> rfl
  simpa [State.closeRecord, State.removeRecord, State.dropFlux] using report

theorem closeRecord_leaves {s : State} {p : Record → Bool} {r x : Record} (h : s.track.records.find? p = some r)
    (hx : x.slot? = r.slot?) (o : CloseOutcome) (l : Nat) : Leaves s (s.closeRecord p x o l) p r := by
  have closes := closeRecord_closes s p x o l
  exact ⟨h, closes.records, by rw [closes.held, hx], offer_closeRecord s p x o l⟩

theorem exitCandidate_find (rs : List Record) : exitCandidate rs = rs.find? notExiting := by
  rw [exitCandidate_eq, List.head?_filter]

theorem lostCandidate_find {s : State} {r : Record} (h : lostCandidate s = some r) : s.track.records.find? notExiting = some r := by
  unfold lostCandidate at h
  rw [exitCandidate_find] at h
  split at h
  · next x hx =>
    split at h
    · obtain rfl := Option.some.inj h
      exact hx
    · cases h
  · cases h

/-- What every close keeps, a sequence of closes keeps. -/
theorem closeLost_keeps {P : State → Prop} (step : ∀ {s t p r}, Leaves s t p r → P s → P t) (fuel : Nat) {s : State} (h : P s) :
    P (s.closeLost fuel) := by
  induction fuel generalizing s with
  | zero => exact h
  | succ k ih =>
    unfold State.closeLost
    split
    · next r hr => exact ih (step (closeRecord_leaves (lostCandidate_find hr) rfl _ _) h)
    · exact h

theorem listView_raiseLost (s : State) : s.raiseLost.listView = s.listView := by simp [State.raiseLost, State.listView]

/-- A record joins: on the offer, which is then gone, or as an intruder. -/
structure Joins (s t : State) (p : Pos) (x : Origin × Option Binding) : Prop where
  tags : t.track.records.map Record.tag = s.track.records.map Record.tag ++ [(s.track.ordinal + 1, x.1, x.2, p)]
  taken : (∃ o, s.docket.offer = some o ∧ x = (o.origin, some o.binding) ∧ t.docket.held = s.docket.held ++ [o.slot] ∧
      t.docket.offer = none) ∨
    (x = (.intruder, none) ∧ t.docket.held = s.docket.held ∧ t.docket.offer = s.docket.offer)

theorem newRecord_tag (s : State) (p : Pos) (g : Origin) (b : Option Binding) (late : Bool) :
    (newRecord s p g b late).tag = (s.track.ordinal + 1, g, b, p) := by
  unfold newRecord
  rw [Record.markIf_rest]
  rfl

theorem admitBoard_joins {s : State} {o : Offer} (h : s.docket.offer = some o) (p : Pos) (late : Bool) :
    Joins s (s.admitBoard p o late) p (o.origin, some o.binding) := by
  have admits := admitBoard_admits s p o late
  obtain ⟨held, offer, -⟩ := bindSlot_docket s o
  refine ⟨?_, .inl ⟨o, h, rfl, by rw [admits.docket, held], by rw [admits.docket, offer]⟩⟩
  rw [admits.records, List.map_append, List.map_singleton, newRecord_tag]

theorem intrude_joins (s : State) (p : Pos) : Joins s (s.intrude p) p (.intruder, none) :=
  ⟨by
    have e : (s.intrude p).track.records = s.track.records ++ [newRecord s p .intruder none false] := rfl
    rw [e, List.map_append, List.map_singleton, newRecord_tag], .inr ⟨rfl, rfl, rfl⟩⟩

theorem handLeading_joins (s : State) (p : Pos) : ∃ x, Joins s (s.handLeading p) p x := by
  unfold State.handLeading
  split
  · next o _ h => exact ⟨_, admitBoard_joins h p false⟩
  · next o _ h => exact ⟨_, admitBoard_joins h p true⟩
  · exact ⟨_, intrude_joins s p⟩

theorem Joins.of_listView {s a b t : State} {p : Pos} {x : Origin × Option Binding} (h : Joins a b p x)
    (ha : a.listView = s.listView) (ho : a.track.ordinal = s.track.ordinal) (hb : t.listView = b.listView) : Joins s t p x := by
  obtain ⟨tags, taken⟩ := h
  obtain ⟨aTags, aHeld, aOffer⟩ : a.track.records.map Record.tag = s.track.records.map Record.tag ∧
      a.docket.held = s.docket.held ∧ a.docket.offer = s.docket.offer := by
    unfold State.listView at ha
    exact ⟨congrArg (fun v => v.1) ha, congrArg (fun v => v.2.1) ha, congrArg (fun v => v.2.2) ha⟩
  obtain ⟨tTags, tHeld, tOffer⟩ : t.track.records.map Record.tag = b.track.records.map Record.tag ∧
      t.docket.held = b.docket.held ∧ t.docket.offer = b.docket.offer := by
    unfold State.listView at hb
    exact ⟨congrArg (fun v => v.1) hb, congrArg (fun v => v.2.1) hb, congrArg (fun v => v.2.2) hb⟩
  rw [aTags, ho] at tags
  rw [aHeld, aOffer] at taken
  exact ⟨tTags.trans tags, by rw [tHeld, tOffer]; exact taken⟩

end Sys2Proof.Machine
end



section
/-! The rules of the in-flight list and the held slots over a step (R10, R30). -/

namespace Sys2Proof.Machine

open Sys2Proof.Config

/-! ## An offer is of a slot that is not held (R29, R33) -/

theorem slotScan_candidate (k : Nat) (s : State) {n : SlotIx} (h : (s.slotScan k).docket.candidate = some n) :
    n ∉ (s.slotScan k).docket.held := by
  induction k generalizing s with
  | zero => exact absurd h (by simp [State.slotScan, State.findings])
  | succ k ih =>
    cases l : slotsAtE s with
    | nil =>
      rw [slotScan_none l] at h
      exact absurd h (by simp [State.findings])
    | cons x others =>
      obtain ⟨good, bad⟩ := slotScan_found l k
      by_cases v : verdictAt s x = .bad
      · rw [bad v] at h ⊢
        exact ih _ h
      · rw [good v] at h ⊢
        have found : some x = some n := h
        obtain rfl := Option.some.inj found
        have mem : x ∈ slotsAtE s := by rw [l]; exact List.mem_cons_self
        have held : ((s.roundRejected others).foundAt x).docket.held = s.docket.held :=
          (congrArg Docket.held (docket_roundRejected s others) :)
        rw [held]
        exact ((mem_slotsAtE s x).mp mem).1.2

theorem reformDocket_candidate {s : State} (h : s.gate.state = .closed) {n : SlotIx}
    (hn : s.reformDocket.docket.candidate = some n) : n ∉ s.reformDocket.docket.held := by
  unfold State.reformDocket at hn ⊢
  rw [h] at hn ⊢
  dsimp only at hn ⊢
  split at hn
  · split at hn
    · next hl =>
      rw [if_pos hl]
      exact slotScan_candidate 65 s hn
    · cases hn
  · split at hn <;> cases hn

theorem standingSlot_fresh {s : State} {n : SlotIx} (h : standingSlot s = some n) : n ∉ s.docket.held := by
  have found := List.find?_some h
  simp only [Bool.and_eq_true, Bool.not_eq_true', List.contains_eq_mem, decide_eq_false_iff_not] at found
  exact found.1.2

theorem makeOffer_fresh {s : State} (h : ∀ n, s.docket.candidate = some n → n ∉ s.docket.held) {o : Offer}
    (ho : s.makeOffer = some o) : o.slot ∉ s.docket.held ∧ o.origin ≠ .intruder := by
  unfold State.makeOffer at ho
  split at ho
  · obtain ⟨n, hn, rfl⟩ := Option.map_eq_some_iff.mp ho
    exact ⟨h n hn, (fun c => by cases c)⟩
  · obtain ⟨n, hn, rfl⟩ := Option.map_eq_some_iff.mp ho
    exact ⟨standingSlot_fresh hn, (fun c => by cases c)⟩
  · cases ho

/-! ## The held slots over the consequences of a step -/

/-- The slot that a tag names (R30). -/
def tagSlot (x : BitVec 16 × Origin × Option Binding × Pos) : Option SlotIx :=
  if x.2.1 == .intruder then none else x.2.2.1.map (·.slot)

theorem slot_of_tag (r : Record) : tagSlot r.tag = r.slot? := rfl

theorem slots_of_tags (rs : List Record) : rs.filterMap Record.slot? = (rs.map Record.tag).filterMap tagSlot := by
  rw [List.filterMap_map]
  rfl

theorem HeldFormed.of_listView {s t : State} (h : HeldFormed s) (hv : t.listView = s.listView) : HeldFormed t := by
  obtain ⟨slots, nodup, offered⟩ := h
  have tags : t.track.records.map Record.tag = s.track.records.map Record.tag := congrArg (fun v => v.1) hv
  have held : t.docket.held = s.docket.held := congrArg (fun v => v.2.1) hv
  have offer : t.docket.offer = s.docket.offer := congrArg (fun v => v.2.2) hv
  exact ⟨by rw [held, slots, slots_of_tags, slots_of_tags, tags], by rw [held]; exact nodup, by rw [offer, held]; exact offered⟩

theorem HeldFormed.of_kept {s t : State} (h : HeldFormed s) (k : Kept s t)
    (offered : ∀ o, t.docket.offer = some o → o.slot ∉ t.docket.held ∧ o.origin ≠ .intruder) : HeldFormed t := by
  obtain ⟨slots, nodup, -⟩ := h
  have held : t.docket.held = s.docket.held := k.keeps.docketHeld
  refine ⟨?_, by rw [held]; exact nodup, offered⟩
  rw [held, slots, slots_of_tags, slots_of_tags, tags_of_places k.places]

theorem gateEval_heldFormed {s : State} (h : HeldFormed s) : HeldFormed s.gateEval := by
  refine h.of_kept (kept_gateEval s) ?_
  have scan : GateAside s (s.reformDocket.takeClass.changeover 8) := gateAside_scan s
  have aside : Aside s.reformDocket (s.reformDocket.takeClass.changeover 8) :=
    Aside.trans (t := s.reformDocket.takeClass) (.of_same (by simp) (by simp) (by simp)) (aside_changeover 8 _)
  obtain ⟨u, hu⟩ : ∃ u, s.reformDocket.takeClass.changeover 8 = u := ⟨_, rfl⟩
  have e : s.gateEval = u.takeHolds.gateTransition := by rw [← hu]; rfl
  have held : u.docket.held = s.docket.held := by rw [← hu]; exact scan.kept.keeps.docketHeld
  have offer : u.docket.offer = s.docket.offer := by rw [← hu]; exact scan.offer
  have before : ∀ o, u.docket.offer = some o → o.slot ∉ u.docket.held ∧ o.origin ≠ .intruder := by
    rw [offer, held]; exact h.offered
  have fresh : u.gate.state = .closed → ∀ n, u.docket.candidate = some n → n ∉ u.docket.held := fun g n hn => by
    have gate : s.gate.state = .closed := by rw [← hu, scan.gate.state] at g; exact g
    rw [← hu, aside.docket] at hn ⊢
    exact reformDocket_candidate gate hn
  rw [e]
  have same : u.takeHolds.docket = u.docket := rfl
  have state : u.takeHolds.gate.state = u.gate.state := rfl
  unfold State.gateTransition
  split
  · next g =>
    split
    · unfold State.openGate
      split
      · next o ho =>
        intro x hx
        have made : some o = some x := hx
        obtain rfl := Option.some.inj made
        exact makeOffer_fresh (s := u.takeHolds) (fresh (state.symm.trans g)) ho
      · exact before
    · exact before
  · split
    · exact before
    · split
      · exact fun o ho => by cases ho
      · exact before
  · split
    · exact fun o ho => by cases ho
    · exact before
  · exact before

/-- A relation that gate evaluations and the other stages keep holds over the consequences of a step. -/
theorem lift_eval {P : State → Prop} (aside : ∀ {s t}, GateAside s t → P s → P t) (eval : ∀ {s}, P s → P s.gateEval) {s : State}
    (h : P s) : P s.settle ∧ P s.settleEval := by
  have stage : ∀ {u : State}, P u → P u.gateStage := fun {u} x => by
    rcases State.gateStage_cases u with e | e | e | e <;> rw [e]
    · exact x
    · exact eval x
    · exact aside (gateAside_changeover 8 u) x
    · exact eval (aside (gateAside_changeover 8 u) x)
  have reform : ∀ {u : State}, P u → P u.reform := fun {u} => aside (gateAside_reform u)
  have settle : ∀ {u : State}, P u → P u.settle := fun x => reform (stage (reform (stage (reform x))))
  exact ⟨settle h, settle (eval (reform h))⟩

theorem listView_refresh (s : State) : s.writeClock.refresh.listView = s.listView := rfl

theorem listView_answer (s : State) (a : Answer) : (s.answer a).listView = s.listView := rfl

theorem Ending.heldFormed (e : Ending) {u : State} (h : HeldFormed u) : HeldFormed (e.of u) := by
  have lift := lift_eval (P := HeldFormed) (fun a x => x.of_kept a.kept (by rw [a.offer, a.kept.keeps.docketHeld]; exact x.offered))
    gateEval_heldFormed h
  induction e with
  | still => exact h
  | settled => exact lift.1
  | evaluated => exact lift.2
  | interval => exact lift.2.of_listView (listView_refresh _)
  | answered e a ih => exact ih.of_listView (listView_answer _ a)

end Sys2Proof.Machine
end



section
/-! The list and the held slots over a step: the invariants of R1, R10 and R30. -/

namespace Sys2Proof.Machine

open Sys2Proof.Config

/-! ## A step -/

/-- A command is a reset, or has an effect and its consequences. -/
theorem exec_reset_or_effect {c : Instr} {s t : State} (h : exec c s = .next t) :
    (∃ port, AfterReset s t port) ∨ ∃ e u, Effect s c e u ∧ t = e.of u := by
  rcases exec_cases h with ⟨ws, rfl, rfl⟩ | ⟨rfl, -⟩ | effects
  · exact .inl ⟨false, powerOn_afterReset s ws⟩
  · obtain ⟨u, run, after⟩ := portReset_afterReset s
    obtain rfl := Host.Outcome.next.inj (run.symm.trans h)
    exact .inl ⟨true, after⟩
  · exact .inr effects

/-- A step is a command on the state with the rest of its queue, or a millisecond. -/
theorem step_cases {s t : State} (h : step s = .next t) :
    (∃ c l, exec c { s with pending := l } = .next t) ∨ t = s.advance 1 := by
  unfold step at h
  split at h
  · exact .inl ⟨_, _, h⟩
  · split at h
    · exact .inl ⟨_, s.pending, h⟩
    · exact .inr (Host.Outcome.next.inj h).symm

theorem Ending.kept (e : Ending) (u : State) : (e.of u).track.records.map Record.tag = u.track.records.map Record.tag := by
  have settle := tags_of_places (kept_settle u).places
  have settleEval := tags_of_places (kept_settleEval u).places
  induction e with
  | still => rfl
  | settled => exact settle
  | evaluated => exact settleEval
  | interval => exact settleEval
  | answered e a ih => exact ih

/-! ## The invariants over an admission and a close -/

theorem eraseP_split {α : Type} {p : α → Bool} {l : List α} {r : α} (h : l.find? p = some r) :
    ∃ a b, l = a ++ r :: b ∧ l.eraseP p = a ++ b := by
  obtain ⟨hr, a, b, e, out⟩ := List.find?_eq_some_iff_append.mp h
  refine ⟨a, b, e, ?_⟩
  rw [e, List.eraseP_append_right _ fun x hx => by simpa using out x hx, List.eraseP_cons_of_pos hr]

theorem HeldFormed.leaves {s t : State} {p : Record → Bool} {r : Record} (h : HeldFormed s) (l : Leaves s t p r) :
    HeldFormed t := by
  obtain ⟨slots, nodup, offered⟩ := h
  obtain ⟨found, records, held, offer⟩ := l
  obtain ⟨a, b, split, erased⟩ := eraseP_split found
  have before : s.docket.held = a.filterMap Record.slot? ++ (r.slot?.toList ++ b.filterMap Record.slot?) := by
    rw [slots, split, List.filterMap_append, List.filterMap_cons]
    cases r.slot? <;> rfl
  have after : t.docket.held = a.filterMap Record.slot? ++ b.filterMap Record.slot? := by
    rw [held, before]
    rw [before] at nodup
    cases hn : r.slot? with
    | none => rfl
    | some n =>
      rw [hn] at nodup
      have fresh : n ∉ a.filterMap Record.slot? := fun m =>
        (List.disjoint_of_nodup_append nodup) m (by simp)
      simp only [Option.toList, List.foldl_cons, List.foldl_nil, List.singleton_append]
      rw [List.erase_append_right _ fresh, List.erase_cons_head]
  have sub : List.Sublist t.docket.held s.docket.held := by
    rw [after, before]
    exact List.Sublist.append_left (List.sublist_append_right _ _) _
  refine ⟨?_, nodup.sublist sub, fun o ho => ?_⟩
  · rw [after, records, erased, List.filterMap_append]
  · rw [offer] at ho
    obtain ⟨fresh, origin⟩ := offered o ho
    exact ⟨fun m => fresh (sub.subset m), origin⟩

theorem HeldFormed.joins {s t : State} {p : Pos} {x : Origin × Option Binding} (h : HeldFormed s) (j : Joins s t p x) :
    HeldFormed t := by
  obtain ⟨slots, nodup, offered⟩ := h
  obtain ⟨tags, taken⟩ := j
  have list : t.track.records.filterMap Record.slot? =
      s.docket.held ++ (tagSlot (s.track.ordinal + 1, x.1, x.2, p)).toList := by
    rw [slots_of_tags, tags, List.filterMap_append, ← slots_of_tags, slots, List.filterMap_cons, List.filterMap_nil]
    cases tagSlot (s.track.ordinal + 1, x.1, x.2, p) <;> rfl
  rcases taken with ⟨o, ho, rfl, held, offer⟩ | ⟨rfl, held, offer⟩
  · obtain ⟨fresh, origin⟩ := offered o ho
    have slot : tagSlot (s.track.ordinal + 1, o.origin, some o.binding, p) = some o.slot := by
      unfold tagSlot
      rw [if_neg (by simpa using origin)]
      rfl
    rw [slot] at list
    refine ⟨by rw [list, held]; rfl, ?_, fun q hq => ?_⟩
    · rw [held, List.nodup_append_comm]
      exact List.nodup_cons.mpr ⟨fresh, nodup⟩
    · rw [offer] at hq; cases hq
  · exact ⟨by rw [held, list]; exact (List.append_nil _).symm, by rw [held]; exact nodup, by rw [held, offer]; exact offered⟩

/-- A change of the list, as what it is made of. -/
theorem ListChange.cases {P : State → Prop} {s u : State} (h : ListChange s u) (same : ∀ {a b : State}, b.listView = a.listView → P a → P b)
    (drop : ∀ {a : State}, P a → P a.closeGate) (leave : ∀ {a b p r}, Leaves a b p r → P a → P b)
    (join : ∀ {p x}, eyeDue s .entry = some p → s.track.entryEye.accepted = false → s.track.records.length < listMax →
      outOfOrder (s.track.setEye .entry (s.track.eye .entry).accept) p = false → Joins s u p x → P u) (hs : P s) : P u := by
  cases h with
  | joined p due accepted room order =>
    obtain ⟨x, joins⟩ := handLeading_joins { s with track := s.track.setEye .entry (s.track.eye .entry).accept } p
    refine join due accepted room order (x := x) (joins.of_listView ?_ rfl ?_)
    · simp [State.listView]
    · simp [State.listView]
  | dropped a view => exact drop (same view hs)
  | closed a r x o l view found slot => exact leave (closeRecord_leaves found slot o l) (same view hs)
  | waited a view =>
    unfold State.loseWaiting
    split
    · next r hr =>
      rw [exitCandidate_find] at hr
      exact same (listView_raiseLost _) (closeLost_keeps leave _ (leave (closeRecord_leaves hr rfl _ _) (same view hs)))
    · exact same view hs
  | lost a view =>
    unfold State.loseBoards
    split
    · exact same (listView_raiseLost _) (closeLost_keeps leave _ (same view hs))
    · exact same view hs

theorem ListBounded.of_listView {s t : State} (h : ListBounded s) (hv : t.listView = s.listView) : ListBounded t := by
  have tags : t.track.records.map Record.tag = s.track.records.map Record.tag := congrArg (fun v => v.1) hv
  have e : t.track.records.length = s.track.records.length := by
    rw [← List.length_map (f := Record.tag), tags, List.length_map]
  unfold ListBounded
  rw [e]
  exact h

theorem listOrdered_iff (s : State) :
    ListOrdered s ↔ ((s.track.records.map Record.tag).map fun x => x.2.2.2).Pairwise fun a b => strictlyAfter b a = true := by
  rw [List.map_map]
  exact Iff.rfl

theorem ListOrdered.of_tags {s t : State} (h : ListOrdered s) (ht : t.track.records.map Record.tag = s.track.records.map Record.tag) :
    ListOrdered t := by
  rw [listOrdered_iff] at *
  rw [ht]
  exact h

theorem ListOrdered.leaves {s t : State} {p : Record → Bool} {r : Record} (h : ListOrdered s) (l : Leaves s t p r) : ListOrdered t := by
  unfold ListOrdered
  rw [l.records]
  exact h.sublist (List.Sublist.map _ List.eraseP_sublist)

theorem ListOrdered.joins {s t : State} {p : Pos} {x : Origin × Option Binding} (h : ListOrdered s) (j : Joins s t p x)
    (after : ∀ r ∈ s.track.records, strictlyAfter p r.lead = true) : ListOrdered t := by
  rw [listOrdered_iff] at *
  rw [j.tags, List.map_append, List.pairwise_append]
  refine ⟨h, List.pairwise_singleton _ _, fun a ha b hb => ?_⟩
  rw [List.map_map] at ha
  obtain ⟨r, hr, rfl⟩ := List.mem_map.mp ha
  obtain rfl := List.mem_singleton.mp hb
  exact after r hr

/-- An edge that joins lies after every lead of a list that the half-range comparison orders. -/
theorem joined_after {s : State} {p : Pos} (h : LeadsComparable s) (due : eyeDue s .entry = some p)
    (order : outOfOrder (s.track.setEye .entry (s.track.eye .entry).accept) p = false) :
    ∀ r ∈ s.track.records, strictlyAfter p r.lead = true := by
  have pending : p ∈ s.track.entryEye.pendingAt := by
    unfold eyeDue at due
    split at due
    · next q hq =>
      split at due
      · obtain rfl := Option.some.inj due
        exact hq
      · cases due
    · cases due
  intro r hr
  cases hl : s.track.records.getLast? with
  | none => rw [List.getLast?_eq_none_iff.mp hl] at hr; cases hr
  | some n =>
    have newest : (s.track.setEye .entry (s.track.eye .entry).accept).newest = some n := hl
    unfold outOfOrder at order
    rw [newest] at order
    exact h p pending n (by rw [hl]; rfl) (by simpa using order) r hr

/-! ## The statement -/

theorem AfterReset.listView {s t : State} {port : Bool} (h : AfterReset s t port) : t.listView = ([], [], none) := by
  obtain ⟨e, docket⟩ := h.docket
  unfold State.listView
  rw [h.track, docket]
  rfl

theorem exec_listBounded {c : Instr} {s t : State} (h : exec c s = .next t) (hs : ListBounded s) : ListBounded t := by
  rcases exec_reset_or_effect h with ⟨port, after⟩ | ⟨e, u, effect, rfl⟩
  · have tags : t.track.records.map Record.tag = [] := congrArg (fun v => v.1) after.listView
    unfold ListBounded
    rw [List.map_eq_nil_iff.mp tags]
    decide
  · have u' : ListBounded u := by
      rcases effect.listView with same | change
      · exact hs.of_listView same
      · refine change.cases (P := ListBounded) (fun e x => x.of_listView e) (fun x => x) (fun l x => ?_) (fun _ _ room _ j => ?_) hs
        · unfold ListBounded
          rw [l.records]
          exact List.eraseP_sublist.length_le.trans x
        · have length := congrArg List.length j.tags
          rw [List.length_append, List.length_map, List.length_map, List.length_singleton] at length
          unfold ListBounded
          unfold listMax at room
          omega
    unfold ListBounded at *
    have length := congrArg List.length (e.kept u)
    rw [List.length_map, List.length_map] at length
    rw [length]
    exact u'

theorem exec_heldFormed {c : Instr} {s t : State} (h : exec c s = .next t) (hs : HeldFormed s) : HeldFormed t := by
  rcases exec_reset_or_effect h with ⟨port, after⟩ | ⟨e, u, effect, rfl⟩
  · have tags : t.track.records.map Record.tag = [] := congrArg (fun v => v.1) after.listView
    have held : t.docket.held = [] := congrArg (fun v => v.2.1) after.listView
    have offer : t.docket.offer = none := congrArg (fun v => v.2.2) after.listView
    exact ⟨by rw [held, List.map_eq_nil_iff.mp tags]; rfl, by rw [held]; exact List.nodup_nil,
      fun o ho => by rw [offer] at ho; cases ho⟩
  · refine e.heldFormed ?_
    rcases effect.listView with same | change
    · exact hs.of_listView same
    · exact change.cases (P := HeldFormed) (fun e x => x.of_listView e) (fun x => ⟨x.slots, x.nodup, fun o ho => by cases ho⟩)
        (fun l x => x.leaves l) (fun _ _ _ _ j => hs.joins j) hs

theorem exec_listOrdered {c : Instr} {s t : State} (h : exec c s = .next t) (comparable : LeadsComparable s) (hs : ListOrdered s) :
    ListOrdered t := by
  rcases exec_reset_or_effect h with ⟨port, after⟩ | ⟨e, u, effect, rfl⟩
  · have tags : t.track.records.map Record.tag = [] := congrArg (fun v => v.1) after.listView
    rw [listOrdered_iff, tags]
    exact List.Pairwise.nil
  · refine ListOrdered.of_tags (s := u) ?_ (e.kept u)
    rcases effect.listView with same | change
    · exact hs.of_tags (congrArg (fun v => v.1) same)
    · exact change.cases (P := ListOrdered) (fun e x => x.of_tags (congrArg (fun v => v.1) e)) (fun x => x) (fun l x => x.leaves l)
        (fun due _ _ order j => hs.joins j (joined_after comparable due order)) hs

/-- Settles O11: each rule over a reset, an admission, a close, and every other command. -/
theorem listAndHeldSlotRulesAreKept : Obligations.ListAndHeldSlotRulesAreKept := by
  intro s t h
  rcases step_cases h with ⟨c, l, run⟩ | rfl
  · refine ⟨fun hs => exec_listBounded run hs, fun hs => exec_heldFormed run ?_, fun comparable hs => exec_listOrdered run comparable hs⟩
    exact hs.of_listView rfl
  · exact ⟨fun hs => hs, fun hs => hs.of_listView rfl, fun _ hs => hs⟩

end Sys2Proof.Machine
end



section
/-! The tank over every command: the counter falls alone, the remainder stays below one microlitre, the low-mark state is re-formed
and the events of R70 are set. -/

namespace Sys2Proof.Machine

open Sys2Proof.Config

/-- What a consumption does at the tank from `s` to `t` (R69, R70). -/
structure TankMoves (s t : State) : Prop where
  notes : Notes s t
  setup : t.port.setup = s.port.setup
  bound : t.flux.bound = s.flux.bound
  counter : t.flux.counter ≤ s.flux.counter
  remainder : s.flux.remainder < 1000 → t.flux.remainder < 1000
  low : LowFormed s → LowFormed t
  zero : s.flux.counter ≠ 0 → t.flux.counter = 0 → Pending t .fluxEvent
  below : s.flux.low = false → t.flux.low = true → Pending t .fluxEvent

/-- The tank as the flux unit holds it. -/
def Flux.tank (f : Flux) : Nat × Nat × Nat × Bool :=
  (f.counter, f.remainder, f.bound, f.low)

theorem LowFormed.congr {s t : State} (h : LowFormed s) (setup : t.port.setup = s.port.setup)
    (counter : t.flux.counter = s.flux.counter) (low : t.flux.low = s.flux.low) : LowFormed t := by
  unfold LowFormed State.loaded State.ws at h ⊢
  rw [setup, counter, low]
  exact h

theorem TankMoves.of_same {s t : State} (notes : Notes s t) (setup : t.port.setup = s.port.setup)
    (tank : t.flux.tank = s.flux.tank) : TankMoves s t := by
  simp only [Flux.tank, Prod.mk.injEq] at tank
  obtain ⟨counter, remainder, bound, low⟩ := tank
  exact ⟨notes, setup, bound, counter.le, fun h => remainder ▸ h, fun h => h.congr setup counter low,
    fun h h' => absurd (counter ▸ h') h, fun h h' => by rw [low, h] at h'; cases h'⟩

theorem TankMoves.refl (s : State) : TankMoves s s := .of_same (.refl s) rfl rfl

theorem TankMoves.trans {s t u : State} (h : TankMoves s t) (g : TankMoves t u) : TankMoves s u := by
  refine ⟨h.notes.trans g.notes, g.setup.trans h.setup, g.bound.trans h.bound, g.counter.trans h.counter,
    fun r => g.remainder (h.remainder r), fun l => g.low (h.low l), fun c z => ?_, fun l b => ?_⟩
  · by_cases mid : t.flux.counter = 0
    · exact g.notes.kept _ (h.zero c mid)
    · exact g.zero mid z
  · cases mid : t.flux.low with
    | true => exact g.notes.kept _ (h.below l mid)
    | false => exact g.below mid b

theorem TankMoves.after {s t u : State} (h : TankMoves t u) (port : t.port = s.port) (tank : t.flux.tank = s.flux.tank) :
    TankMoves s u :=
  (TankMoves.of_same (.of_port port) (by rw [port]) tank).trans h

theorem tankMoves_setTank {s : State} {c r : Nat} (hc : c ≤ s.flux.counter) (hr : r < 1000) : TankMoves s (s.setTank c r) := by
  have events := setTank_events s c r
  exact ⟨notes_setTank s c r, setup_setTank s c r, rfl, hc, fun _ => hr, fun _ => events.low,
    fun h z => events.event.mpr (.inr (.inl ⟨h, z⟩)), fun h b => events.event.mpr (.inr (.inr ⟨h, b⟩))⟩

theorem tankMoves_creditTank (s : State) (n : Nat) : TankMoves s (s.creditTank n) :=
  tankMoves_setTank (Nat.sub_le _ _) (Nat.mod_lt _ (by decide))

/-! ## The operations that consume -/

theorem tankMoves_endPulse (s : State) (k : Idx8) (u : Pulse) (n : Nat) (b : Bool) : TankMoves s (s.endPulse k u n b) :=
  (tankMoves_creditTank _ _).after rfl rfl

theorem tankMoves_cutPulse (s : State) (p : Pulse → Bool) (b : Bool) (k : Idx8) : TankMoves s (s.cutPulse p b k) := by
  unfold State.cutPulse
  split
  · split
    · exact tankMoves_endPulse s _ _ _ _
    · exact .refl s
  · exact .refl s

theorem tankMoves_cutPulses (s : State) (p : Pulse → Bool) (b : Bool) : TankMoves s (s.cutPulses p b) := by
  unfold State.cutPulses
  generalize allIdx8 = ls
  induction ls generalizing s with
  | nil => exact .refl s
  | cons k ls ih => exact (tankMoves_cutPulse s p b k).trans (ih _)

theorem tankMoves_creditPurge (s : State) : TankMoves s s.creditPurge := by
  unfold State.creditPurge
  split
  · exact .refl s
  · exact (tankMoves_creditTank _ _).after rfl rfl

theorem tankMoves_endPurge (s : State) : TankMoves s s.endPurge := by
  unfold State.endPurge
  split
  · exact .refl s
  · exact (tankMoves_creditPurge s).trans (.of_same (portNotes_notify _ _) rfl rfl)

theorem tankMoves_beginInhibit (s : State) : TankMoves s s.beginInhibit :=
  ((tankMoves_cutPulses s _ _).trans (tankMoves_endPurge _)).trans (.of_same (.of_port rfl) rfl rfl)

theorem tankMoves_reformInhibit (s : State) : TankMoves s s.reformInhibit := by
  unfold State.reformInhibit
  dsimp only
  split
  · exact (tankMoves_beginInhibit s).trans (.of_same (.of_port rfl) rfl rfl)
  · exact .of_same (.of_port rfl) rfl rfl

theorem Move.tankMoves {s t : State} (m : Move s t) : TankMoves s t := by
  have notes := m.notes
  have setup := m.kept.keeps.portSetup
  cases m with
  | inhibit => exact tankMoves_reformInhibit s
  | _ => exact .of_same notes setup (by simp)

theorem Moves.tankMoves {s t : State} (m : Moves s t) : TankMoves s t :=
  m.lift TankMoves.refl TankMoves.trans Move.tankMoves

theorem tankMoves_refresh (t : State) : TankMoves t t.writeClock.refresh := .of_same (notes_refresh t) rfl rfl

theorem tankMoves_answer (t : State) (a : Answer) : TankMoves t (t.answer a) := by
  have notes : Notes t (t.answer a) := portNotes_answer t.port a
  cases a with
  | done => exact .of_same notes rfl rfl
  | refused code field => exact .of_same notes rfl rfl

theorem Ending.tankMoves (e : Ending) (u : State) : TankMoves u (e.of u) := by
  have evaluated := (moves_settleEval u).tankMoves
  induction e with
  | still => exact .refl u
  | settled => exact (moves_settle u).tankMoves
  | evaluated => exact evaluated
  | interval => exact evaluated.trans (tankMoves_refresh _)
  | answered e a ih => exact ih.trans (tankMoves_answer _ a)

theorem tankMoves_closeRecord (s : State) (p : Record → Bool) (r : Record) (o : CloseOutcome) (l : Nat) :
    TankMoves s (s.closeRecord p r o l) :=
  ((TankMoves.of_same (notes_reportClose s r o l) (by simp) (by simp)).trans (tankMoves_cutPulses _ _ _)).trans
    (.of_same (.of_port rfl) rfl rfl)

theorem tankMoves_closeLost (n : Nat) (s : State) : TankMoves s (s.closeLost n) := by
  induction n generalizing s with
  | zero => exact .refl s
  | succ n ih =>
    unfold State.closeLost
    split
    · exact (tankMoves_closeRecord s _ _ _ _).trans (ih _)
    · exact .refl s

theorem tankMoves_raiseLost (s : State) : TankMoves s s.raiseLost :=
  .of_same (notes_raiseLost s) (by simp [State.raiseLost]) (by simp [State.raiseLost])

theorem tankMoves_loseBoards (s : State) : TankMoves s s.loseBoards := by
  unfold State.loseBoards
  split
  · exact (tankMoves_closeLost _ s).trans (tankMoves_raiseLost _)
  · exact .refl s

theorem tankMoves_loseWaiting (s : State) : TankMoves s s.loseWaiting := by
  unfold State.loseWaiting
  split
  · exact ((tankMoves_closeRecord s _ _ _ _).trans (tankMoves_closeLost _ _)).trans (tankMoves_raiseLost _)
  · exact .refl s

theorem tankMoves_appendAtBar (s : State) : TankMoves s s.appendAtBar := by
  unfold State.appendAtBar
  split
  · split
    · exact tankMoves_endPurge s
    · exact .refl s
  · exact .refl s

theorem tankMoves_approachBar (s : State) (n : Nat) (p : Pos) (d : Direction) : TankMoves s (s.approachBar n p d) := by
  unfold State.approachBar
  split
  · exact tankMoves_endPurge s
  · exact .refl s

theorem tank_handLeading (s : State) (p : Pos) : (s.handLeading p).flux.tank = s.flux.tank := by
  have schedule : ∀ (t : State) (n : BitVec 16) (q : Pos) (o : Offer), (t.scheduleEdges n q o).flux.tank = t.flux.tank :=
    fun t n q o => by
      unfold State.scheduleEdges
      split <;> rfl
  have ofOffer : ∀ (t : State) (o : Offer) (b : Bool), (t.admitBoard p o b).flux.tank = t.flux.tank := fun t o b => by
    refine (schedule _ _ _ _).trans ?_
    simp
  unfold State.handLeading
  split
  · exact ofOffer _ _ _
  · exact ofOffer _ _ _
  · rfl

theorem tankMoves_clamp (s : State) (r : Record) (l : Nat) : TankMoves s (s.clamp r l) := by
  unfold State.clamp
  split
  · exact .refl s
  · exact (tankMoves_cutPulses s _ _).trans (.of_same (.of_port rfl) rfl rfl)

theorem tankMoves_topside (s : State) : TankMoves s s.topside := .of_same (.of_port (by simp)) (by simp) (by simp)

theorem tankMoves_handTrailing (s : State) : TankMoves s s.handTrailing :=
  .of_same (.of_port (by simp)) (by simp) (by simp)

theorem tankMoves_takeTrail (s : State) (p : Pos) : TankMoves s (s.takeTrail p) := by
  unfold State.takeTrail
  split
  · refine TankMoves.trans ?_ (tankMoves_topside _)
    exact (tankMoves_clamp _ _ _).after rfl rfl
  · exact .refl s

theorem tankMoves_sampleTank (s : State) (b : Bool) : TankMoves s (s.sampleTank b) := by
  cases b with
  | false => exact .of_same (.of_port rfl) rfl rfl
  | true => exact (tankMoves_setTank (s := s) (c := 0) (r := 0) (Nat.zero_le _) (by decide)).trans (.of_same (.of_port rfl) rfl rfl)

theorem tankMoves_sampleAll (s : State) (i : Readings) : TankMoves s (s.sampleAll i) := by
  have level : ∀ (t : State) (r : Option Int), TankMoves t (t.sampleLevel r) := fun t r =>
    .of_same (notes_sampleLevel t r) (by simp) (by simp)
  unfold State.sampleAll
  dsimp only
  generalize hu : (((s.sampleSpeed.sampleInputs i.temps).latchZones.sampleExtraction i).samplePumps i.chipRpm i.mainRpm) = u
  have before : TankMoves s u := by
    rw [← hu]
    exact .of_same (.of_port (by simp)) (by simp) (by simp)
  have pressure : ∀ t : State, TankMoves t (t.samplePressure i.pressure) := fun t => .of_same (.of_port rfl) rfl rfl
  exact (((before.trans (level _ _)).trans (pressure _)).trans (tankMoves_sampleTank _ _)).trans (.of_same (.of_port rfl) rfl rfl)

/-! ## A command -/

theorem tankMoves_holdValve (s : State) (k : Idx8) (u : Pulse) : TankMoves s (s.holdValve k u) := by
  unfold State.holdValve
  split
  · exact .of_same (.of_port rfl) rfl rfl
  · exact .refl s

theorem tankMoves_consumeEdges (s : State) : TankMoves s s.consumeEdges := .of_same (.of_port rfl) rfl rfl

theorem tankMoves_startPulses (s : State) : TankMoves s s.startPulses := .of_same (.of_port rfl) rfl rfl

theorem tankMoves_advance (s : State) (n : Nat) : TankMoves s (s.advance n) := .of_same (notes_advance s n) rfl rfl

theorem tank_releaseFaults (s : State) : s.releaseFaults.flux.tank = s.flux.tank := by
  unfold State.releaseFaults
  dsimp only
  split <;> rfl

theorem Accepts.tankMoves {q u : State} {c : Instr} {e : Ending} (h : Accepts q c e u) (hl : ∀ ws, c ≠ .loadSetup ws)
    (hf : ∀ ws, c ≠ .fluxRefilled ws) : TankMoves q u := by
  have notes := h.notes
  have setup := h.owned.2.1 hl
  cases h with
  | loadSetup ws => exact absurd rfl (hl ws)
  | fluxRefilled ws => exact absurd rfl (hf ws)
  | purgeFluxer ws => exact (tankMoves_cutPulses q _ _).trans (.of_same (.of_port rfl) rfl rfl)
  | clear ws => exact .of_same notes setup (by simp [tank_releaseFaults])
  | _ => exact .of_same notes setup (by simp)

/-- Every command but the two that set the tank, and the two on NOTICE, consumes at most. -/
theorem Effect.tankMoves {s u : State} {c : Instr} {e : Ending} (h : Effect s c e u) (hr : c ≠ .noticeRead)
    (hw : ∀ v, c ≠ .noticeWrite v) (hl : ∀ ws, c ≠ .loadSetup ws) (hf : ∀ ws, c ≠ .fluxRefilled ws) : TankMoves s u := by
  have notes := h.notes hr hw
  have setup := h.setup hl
  cases h with
  | noticeRead => exact absurd rfl hr
  | noticeWrite v => exact absurd rfl (hw v)
  | encoderCount d => exact (tankMoves_approachBar _ _ _ _).after (by simp) (by simp)
  | dropLost b => exact (tankMoves_loseWaiting _).after (by simp) (by simp)
  | dropPast b => exact (tankMoves_loseBoards _).after (by simp) (by simp)
  | entryLeading p =>
    exact (TankMoves.of_same (notes_handLeading _ _) (by simp) (tank_handLeading _ _)).trans (tankMoves_appendAtBar _) |>.after rfl rfl
  | entryTrailing p =>
    refine TankMoves.trans ?_ (tankMoves_handTrailing _)
    exact (tankMoves_takeTrail _ _).after rfl rfl
  | exitClosed p r => exact (tankMoves_closeRecord _ _ _ _ _).after rfl rfl
  | boardLost => exact tankMoves_loseBoards s
  | interval i ws =>
    refine TankMoves.trans (t := s.toInterval.present i ws) (.of_same (.of_eq rfl rfl) rfl rfl) ?_
    exact (tankMoves_sampleAll _ i).trans (.of_same (notes_intervalRaises _) (by simp) (by simp))
  | modulationBoundary =>
    refine TankMoves.trans (t := s.toModulation) (.of_same (.of_eq rfl rfl) rfl rfl) ?_
    exact (((tankMoves_cutPulses _ _ _).trans (tankMoves_creditPurge _)).trans (tankMoves_consumeEdges _)).trans
      (tankMoves_startPulses _)
  | lanePulseEnd k v =>
    exact ((tankMoves_advance s _).trans (tankMoves_endPulse _ k v _ true)).trans (tankMoves_holdValve _ k v)
  | purgeDurationComplete g =>
    exact (tankMoves_advance s _).trans (tankMoves_endPurge _)
  | refused c code q rc f hp hq => exact .of_same notes setup (by rw [hq.blocks.1])
  | accepted c code q e u hp hq hr acc =>
    have taken : q.flux.tank = s.flux.tank := by rw [hq.blocks.1]
    have first : TankMoves s q := .of_same (.of_eq hq.blocks.2.2.1 hq.blocks.2.2.2) hq.blocks.2.1 taken
    exact first.trans (acc.tankMoves hl hf)
  | _ => exact .of_same notes setup (by simp [Flux.tank])

end Sys2Proof.Machine
end



section
/-! The tank, the working set and the shot history over a step: the invariants of R69 to R71, R124 and R182. -/

namespace Sys2Proof.Machine

open Sys2Proof.Config

/-! ## The tank -/

/-- What a command does at the tank before its consequences: it consumes, or acts on the notices alone, or refills, or takes a
setup. -/
inductive TankChange (c : Instr) (s u : State) : Prop
  | moves (h : TankMoves s u)
  | notices (flux : u.flux = s.flux) (setup : u.port.setup = s.port.setup)
  | refilled (q : State) (v : Nat) (hv : v ≤ tankMax) (pos : 0 < v) (first : TankMoves s q) (h : u = q.refill v)
  | setup (q : State) (d : Setup) (hd : d.firstFailing = none) (ws) (hc : c = .loadSetup ws) (first : TankMoves s q)
      (h : u = q.takeSetup d)

/-- A request that is not accepted leaves the tank. -/
theorem Taken.tankMoves {s q : State} {code : Word} {ws : List HostWrite} (h : Taken s code ws q) : TankMoves s q := by
  obtain ⟨blocks, setup, notices, marks⟩ := h.blocks
  exact .of_same (.of_eq notices marks) setup (by rw [blocks])

theorem tankMoves_overrun (s : State) (m : Memory) :
    TankMoves s { s with mem := m, port := { s.port with overrun := true } } :=
  .of_same (.of_eq rfl rfl) rfl rfl

theorem Effect.tank {s u : State} {c : Instr} {e : Ending} (h : Effect s c e u) : TankChange c s u := by
  by_cases load : ∃ ws, c = .loadSetup ws
  · obtain ⟨ws, rfl⟩ := load
    cases h with
    | nothing => exact .moves (.refl s)
    | overrun => exact .moves (tankMoves_overrun s _)
    | refused c code q rc f hp hq => exact .moves hq.tankMoves
    | accepted c code q e u hp hq hr acc =>
      cases acc with
      | loadSetup ws hm hl hf => exact .setup q _ hf ws rfl hq.tankMoves rfl
  · by_cases fill : ∃ ws, c = .fluxRefilled ws
    · obtain ⟨ws, rfl⟩ := fill
      cases h with
      | nothing => exact .moves (.refl s)
      | overrun => exact .moves (tankMoves_overrun s _)
      | refused c code q rc f hp hq => exact .moves hq.tankMoves
      | accepted c code q e u hp hq hr acc =>
        cases acc with
        | fluxRefilled ws hv => exact .refilled q _ hv.2 hv.1 hq.tankMoves rfl
    · by_cases read : c = .noticeRead
      · subst read
        cases h with
        | noticeRead => exact .notices rfl rfl
        | nothing => exact .moves (.refl s)
        | overrun => exact .moves (tankMoves_overrun s _)
        | refused c code q rc f hp hq => exact .moves hq.tankMoves
        | accepted c code q e u hp hq hr acc => cases acc
      · by_cases write : ∃ v, c = .noticeWrite v
        · obtain ⟨v, rfl⟩ := write
          cases h with
          | noticeWrite => exact .notices rfl rfl
          | nothing => exact .moves (.refl s)
          | overrun => exact .moves (tankMoves_overrun s _)
          | refused c code q rc f hp hq => exact .moves hq.tankMoves
          | accepted c code q e u hp hq hr acc => cases acc
        · exact .moves (h.tankMoves read (fun v hv => write ⟨v, hv⟩) (fun ws hw => load ⟨ws, hw⟩) fun ws hw => fill ⟨ws, hw⟩)

theorem TankBounded.moves {s t : State} (h : TankBounded s) (m : TankMoves s t) : TankBounded t :=
  ⟨(m.counter.trans h.1).trans m.bound.ge, m.bound.le.trans h.2.1, m.remainder h.2.2⟩

theorem LowFormed.tank {s t : State} (h : LowFormed s) (flux : t.flux = s.flux) (setup : t.port.setup = s.port.setup) :
    LowFormed t := h.congr setup (by rw [flux]) (by rw [flux])

@[simp] theorem flux_setExpected (s : State) (e : Word) :
    (s.setExpected e).flux = s.flux ∧ (s.setExpected e).port.setup = s.port.setup := ⟨rfl, rfl⟩

/-- The flux unit and the setup that LOAD_SETUP leaves. -/
theorem takeSetup_tank (s : State) (d : Setup) :
    (s.takeSetup d).flux = { s.flux with low := decide (s.flux.counter < d.tankLowMark) } ∧
      (s.takeSetup d).port.setup = some d := by
  unfold State.takeSetup
  dsimp only
  split <;> exact ⟨rfl, rfl⟩

theorem notes_takeSetup (s : State) (d : Setup) : Notes s (s.takeSetup d) := by
  unfold State.takeSetup
  dsimp only
  split <;> exact .of_eq rfl rfl

theorem TankChange.bounded {c : Instr} {s u : State} (h : TankChange c s u) (hs : TankBounded s) : TankBounded u := by
  cases h with
  | moves m => exact hs.moves m
  | notices flux => unfold TankBounded; rw [flux]; exact hs
  | refilled q v hv pos first h => rw [h]; exact ⟨le_refl v, hv, (show 0 < 1000 by decide)⟩
  | setup q d hd ws hc first h => rw [h]; unfold TankBounded; rw [(takeSetup_tank q d).1]; exact hs.moves first

theorem TankChange.low {c : Instr} {s u : State} (h : TankChange c s u) (hs : LowFormed s) : LowFormed u := by
  cases h with
  | moves m => exact m.low hs
  | notices flux setup => exact hs.tank flux setup
  | refilled q v hv pos first h =>
    have low := (setTank_events q v 0).low
    rw [h]
    exact low.congr rfl rfl rfl
  | setup q d hd ws hc first h =>
    obtain ⟨flux, setup⟩ := takeSetup_tank q d
    rw [h]
    unfold LowFormed State.loaded State.ws
    rw [flux, setup]
    simp

theorem TankChange.step {c : Instr} {s u : State} (h : TankChange c s u) : TankStep c s u := by
  cases h with
  | moves m => exact ⟨m.zero, fun _ => m.below⟩
  | notices flux => exact ⟨fun h z => absurd (flux ▸ z) h, fun _ h b => by rw [flux, h] at b; cases b⟩
  | refilled q v hv pos first h =>
    rw [h]
    refine ⟨fun _ z => absurd z (by show ¬ v = 0; omega), fun _ l b => ?_⟩
    have events := setTank_events q v 0
    cases mid : q.flux.low with
    | true => exact (notes_setTank q v 0).kept _ (first.below l mid)
    | false => exact events.event.mpr (.inr (.inr ⟨mid, b⟩))
  | setup q d hd ws hc first h =>
    rw [h]
    refine ⟨fun h z => ?_, fun h => absurd hc (h ws)⟩
    rw [(takeSetup_tank q d).1] at z
    exact (notes_takeSetup q d).kept _ (first.zero h z)

theorem AfterReset.setup {s t : State} {port : Bool} (h : AfterReset s t port) : t.port.setup = none := by
  obtain ⟨g, b, eq, -⟩ := h.notices
  rw [eq]
  cases b <;> cases s.pins.estop <;> rfl

theorem exec_tankBounded {c : Instr} {s t : State} (h : exec c s = .next t) (hs : TankBounded s) : TankBounded t := by
  rcases exec_reset_or_effect h with ⟨port, after⟩ | ⟨e, u, effect, rfl⟩
  · obtain ⟨n, small, flux⟩ := after.flux
    unfold TankBounded
    rw [flux]
    exact ⟨le_refl n, small, (show 0 < 1000 by decide)⟩
  · exact (effect.tank.bounded hs).moves (e.tankMoves u)

theorem exec_lowFormed {c : Instr} {s t : State} (h : exec c s = .next t) (hs : LowFormed s) : LowFormed t := by
  rcases exec_reset_or_effect h with ⟨port, after⟩ | ⟨e, u, effect, rfl⟩
  · obtain ⟨n, -, flux⟩ := after.flux
    unfold LowFormed State.loaded
    rw [flux, after.setup]
    simp [Flux.atReset]
  · exact (e.tankMoves u).low (effect.tank.low hs)

theorem tankStep_of_exec {c : Instr} {s t : State} (h : exec c s = .next t) (hp : c ≠ .portReset)
    (hr : ∀ ws, c ≠ .powerOnReset ws) : TankStep c s t := by
  obtain ⟨e, u, effect, rfl⟩ := effect_of_exec h hp hr
  have first := effect.tank.step
  have second := e.tankMoves u
  refine ⟨fun h z => ?_, fun hc l b => ?_⟩
  · by_cases mid : u.flux.counter = 0
    · exact second.notes.kept _ (first.zero h mid)
    · exact second.zero mid z
  · cases mid : u.flux.low with
    | true => exact second.notes.kept _ (first.below hc l mid)
    | false => exact second.below mid b

/-! ## The working set -/

theorem exec_setupChecked {c : Instr} {s t : State} (h : exec c s = .next t) (hs : SetupChecked s) : SetupChecked t := by
  rcases exec_reset_or_effect h with ⟨port, after⟩ | ⟨e, u, effect, rfl⟩
  · unfold SetupChecked
    rw [after.setup]
    nofun
  · unfold SetupChecked
    rw [(e.tankMoves u).setup]
    cases effect.tank with
    | moves m => rw [m.setup]; exact hs
    | notices flux setup => rw [setup]; exact hs
    | refilled q v hv pos first h =>
      have setup : u.port.setup = s.port.setup := by rw [h]; exact (setup_setTank q v 0).trans first.setup
      rw [setup]; exact hs
    | setup q d hd ws hc first h =>
      rw [h, (takeSetup_tank q d).2]
      rintro x ⟨⟩
      exact hd

/-! ## The shot history (R124) -/

/-- What a command does to the shot history: nothing, a shot that starts where its conditions hold, or the oldest that leaves. -/
inductive HistoryChange (c : Instr) (s u : State) : Prop
  | same (h : u.pot.history = s.pot.history)
  | starts (due : shotDue s = true) (h : u.pot.history = s.pot.history ++ [s.clock]) (clock : u.clock = s.clock)
  | expires (x : Clock) (hx : s.pot.history = x :: u.pot.history)

@[simp] theorem history_enterMode (s : State) (m : Mode) : (s.enterMode m).pot.history = s.pot.history :=
  (kept_enterMode s m).keeps.potHistory

@[simp] theorem history_modeStage (s : State) : s.modeStage.pot.history = s.pot.history :=
  (kept_modeStage s).keeps.potHistory

@[simp] theorem history_raiseCause (s : State) (c : HaltCause) : (s.raiseCause c).pot.history = s.pot.history :=
  (kept_raiseCause s c).keeps.potHistory

@[simp] theorem history_raiseIf (s : State) (b : Bool) (c : HaltCause) : (s.raiseIf b c).pot.history = s.pot.history := by
  cases b
  · rfl
  · exact history_raiseCause s c

@[simp] theorem history_wakeOn (s : State) (b : Bool) : (s.wakeOn b).pot.history = s.pot.history := by
  unfold State.wakeOn; split <;> simp

@[simp] theorem history_trackFault (s : State) : s.setPhantom.pot.history = s.pot.history ∧
    s.setOverflow.pot.history = s.pot.history := by
  simp [State.setPhantom, State.setOverflow, State.trackFault, State.notify]

@[simp] theorem history_closeLost (n : Nat) (s : State) : (s.closeLost n).pot.history = s.pot.history := by
  induction n generalizing s with
  | zero => rfl
  | succ n ih => unfold State.closeLost; split <;> simp

@[simp] theorem history_raiseLost (s : State) : s.raiseLost.pot.history = s.pot.history := by
  simp [State.raiseLost]

@[simp] theorem history_lose (s : State) : s.loseBoards.pot.history = s.pot.history ∧
    s.loseWaiting.pot.history = s.pot.history := by
  unfold State.loseBoards State.loseWaiting
  constructor <;> split <;> simp

@[simp] theorem history_faultWidth (s : State) : s.faultWidth.pot.history = s.pot.history := by
  simp [State.faultWidth]

@[simp] theorem history_superviseLimit (s : State) : s.superviseLimit.pot.history = s.pot.history := by
  unfold State.superviseLimit; split <;> simp

@[simp] theorem history_testLimit (s : State) (k : Idx8) : (s.testLimit k).pot.history = s.pot.history := by
  simp [State.testLimit]

@[simp] theorem history_judgeLevel (p : Pot) (c : Option Setup) (v : Int) : (p.judgeLevel c v).history = p.history := by
  cases c <;> rfl

@[simp] theorem history_changeFlag (p : Pot) (f : LevelFlag) : (p.changeFlag f).history = p.history := by
  cases f <;> simp [Pot.changeFlag, Pot.setFlag, Pot.flag]

@[simp] theorem history_markStable (p : Pot) (w : Wave) : (p.markStable w).history = p.history := by
  cases w <;> rfl

@[simp] theorem history_settleFeed (p : Pot) (n : Nat) : (p.settleFeed n).history = p.history := by
  unfold Pot.settleFeed; split
  · rfl
  · split <;> rfl

@[simp] theorem history_sampleLevel (s : State) (r : Option Int) : (s.sampleLevel r).pot.history = s.pot.history := by
  unfold State.sampleLevel; split <;> simp [Pot.faultLevel, Pot.clearDwells]

@[simp] theorem history_takeSetup (s : State) (c : Setup) : (s.takeSetup c).pot.history = s.pot.history := by
  unfold State.takeSetup; dsimp only; split <;> rfl

@[simp] theorem history_reformPumps (s : State) : s.reformPumpTargets.pot.history = s.pot.history ∧
    s.reformPumpRefs.pot.history = s.pot.history ∧ s.reformConveyor.pot.history = s.pot.history := ⟨rfl, rfl, rfl⟩

@[simp] theorem history_moveTenth (s : State) (f : Bool) : (s.moveTenth f).pot.history = s.pot.history := by
  cases f <;> simp [State.moveTenth, State.afterMove]

@[simp] theorem history_moveTenths (n : Nat) (s : State) (f : Bool) : (State.moveTenths n s f).pot.history = s.pot.history := by
  induction n generalizing s with
  | zero => rfl
  | succ k ih => rw [State.moveTenths, ih, history_moveTenth]

@[simp] theorem history_countEncoder (s : State) (d : Direction) : (s.countEncoder d).pot.history = s.pot.history := by
  simp [State.countEncoder]

@[simp] theorem history_sampleAll (s : State) (i : Readings) : (s.sampleAll i).pot.history = s.pot.history := by
  simp [State.sampleAll, State.samplePumps]

@[simp] theorem history_intervalRaises (s : State) : s.intervalRaises.pot.history = s.pot.history := by
  simp [State.intervalRaises]

@[simp] theorem history_releaseFaults (s : State) : s.releaseFaults.pot.history = s.pot.history := by
  unfold State.releaseFaults Pot.atClear
  dsimp only
  split <;> split <;> rfl

@[simp] theorem history_leaveHalt (s : State) : s.leaveHalt.pot.history = s.pot.history := by
  unfold State.leaveHalt; split <;> simp

@[simp] theorem history_advance (s : State) (n : Nat) : (s.advance n).pot.history = s.pot.history := rfl

@[simp] theorem history_grids (s : State) : s.toInterval.pot.history = s.pot.history ∧
    s.toModulation.pot.history = s.pot.history ∧ s.boundary.pot.history = s.pot.history := ⟨rfl, rfl, rfl⟩

theorem Accepts.history {q u : State} {c : Instr} {e : Ending} (h : Accepts q c e u) : u.pot.history = q.pot.history := by
  cases h with
  | _ => simp

theorem Effect.history {s u : State} {c : Instr} {e : Ending} (h : Effect s c e u) : HistoryChange c s u := by
  cases h with
  | feederShotStart hf hd => exact .starts hd rfl rfl
  | shotHistoryExpiry x rest h => exact .expires x h
  | refused c code q rc f hp hq => exact .same (by rw [hq.blocks.1])
  | accepted c code q e u hp hq hr acc => exact .same (acc.history.trans (by rw [hq.blocks.1]))
  | _ => exact .same (by simp)

theorem history_refresh (t : State) : t.writeClock.refresh.pot.history = t.pot.history := rfl

theorem history_answer (t : State) (a : Answer) : (t.answer a).pot.history = t.pot.history := by
  cases a <;> rfl

theorem Ending.history (e : Ending) (u : State) : (e.of u).pot.history = u.pot.history := by
  have evaluated : u.settleEval.pot.history = u.pot.history := (kept_settleEval u).keeps.potHistory
  induction e with
  | still => rfl
  | settled => exact (kept_settle u).keeps.potHistory
  | evaluated => exact evaluated
  | interval => exact (history_refresh u.settleEval).trans evaluated
  | answered e a ih => exact (history_answer _ a).trans ih

/-- A setup that fails no check passes each. -/
theorem Setup.passes_check {d : Setup} (h : d.firstFailing = none) {k : Nat × (Setup → Bool)} (hk : k ∈ setupChecks) :
    k.2 d = true := by
  unfold Setup.firstFailing at h
  rw [Option.map_eq_none_iff, List.find?_eq_none] at h
  simpa only [Bool.not_eq_true, Bool.not_eq_false', Bool.not_eq_false] using h k hk

/-- A checked setup allows at most 20 shots; without one, none starts. -/
theorem maxShots_le {s : State} (h : SetupChecked s) : s.ws.maxShots ≤ 20 := by
  unfold State.ws
  cases hs : s.port.setup with
  | none => exact Nat.zero_le _
  | some d =>
    have range := Setup.passes_check (h d hs) (k := rangeCheck 93 1 20) (by simp [setupChecks])
    exact (of_decide_eq_true range).2

theorem exec_historyBounded {c : Instr} {s t : State} (h : exec c s = .next t) (hc : SetupChecked s)
    (hs : HistoryBounded s) : HistoryBounded t := by
  unfold HistoryBounded at hs ⊢
  rcases exec_reset_or_effect h with ⟨port, after⟩ | ⟨e, u, effect, rfl⟩
  · rw [after.pot]
    exact Nat.zero_le _
  · rw [e.history u]
    cases effect.history with
    | same h => rw [h]; exact hs
    | starts due h =>
      have most := maxShots_le hc
      have room : s.pot.history.length < s.ws.maxShots := by
        unfold shotDue at due
        simp only [Bool.and_eq_true, decide_eq_true_eq] at due
        exact due.1.2
      rw [h, List.length_append, List.length_singleton]
      omega
    | expires x h =>
      rw [h, List.length_cons] at hs
      omega

/-! ## The part's own events come in time -/

/-- A command that takes its moment is due at the present one. -/
def Timely (s : State) (c : Instr) : Prop :=
  match c with
  | .statusIntervalEnd _ _ => untilBoundary statusPeriod s.statusAt s.clock = 0
  | .heaterPeriodBoundary => untilBoundary 1000 s.heaterAt s.clock = 0
  | .modulationBoundary => untilBoundary modPeriod s.modAt s.clock = 0
  | .heaterOutputSwitch k => nextSwitch s k = some (periodTime s)
  | .lanePulseEnd k => pulseDue s k = true
  | .purgeDurationComplete => purgeDue s = true
  | .feederShotComplete => shotLeft s = some 0
  | .feederSettlingComplete => settlingLeft s = some 0
  | .shotHistoryExpiry => shotExpired s = true
  | .endSensorEvent => sensorDue s = true
  | .idleTimerExpiry => idleLeft s = some 0
  | .runOnTimerExpiry => s.modes.runOn = some 0
  | .startGraceEnd x => s.extr.grace x = some 0
  | .supervisionExpired => 1000 * s.ws.supervision ≤ s.port.supElapsed
  | _ => True

/-- Every listed event whose condition holds is timely. -/
def AllTimely (s : State) (l : List Due) : Prop :=
  ∀ d ∈ l, d.1 = true → Timely s d.2

theorem AllTimely.append {s : State} {l m : List Due} (h : AllTimely s l) (g : AllTimely s m) : AllTimely s (l ++ m) :=
  fun d hd => (List.mem_append.mp hd).elim (h d) (g d)

theorem timely_post (s : State) : AllTimely s (duePost s) := by
  intro d hd _
  unfold duePost at hd
  split at hd
  · next code _ =>
    rw [List.mem_singleton.mp hd]
    unfold waitingRequest
    dsimp only
    split <;> trivial
  · cases hd

theorem timely_track (s : State) : AllTimely s (dueTrack s) := by
  simp [AllTimely, dueTrack, Timely]

theorem timely_thermal (s : State) : AllTimely s (dueThermal s) := by
  simp [AllTimely, dueThermal, Timely, allIdx8, allZones]

theorem timely_pot (s : State) : AllTimely s (duePot s) := by
  simp [AllTimely, duePot, Timely, ended]

theorem timely_alarms (s : State) : AllTimely s (dueAlarms s) := by
  simp [AllTimely, dueAlarms, Timely, ended, allIdx8, Extr.grace]

theorem timely_width (s : State) : AllTimely s (dueWidth s) := by
  simp [AllTimely, dueWidth, Timely]

theorem timely_lines (s : State) : AllTimely s (dueLines s) := by
  simp [AllTimely, dueLines, Timely, ended]

theorem timely_flux (s : State) : AllTimely s (dueFlux s) := by
  simp [AllTimely, dueFlux, Timely, allIdx8]

theorem timely_boundaries (s : State) : AllTimely s (dueBoundaries s) := by
  simp [AllTimely, dueBoundaries, Timely, allIdx8]

theorem timely_of_due {s : State} {c : Instr} (h : dueNow s = some c) : Timely s c := by
  obtain ⟨d, found, rfl⟩ := Option.map_eq_some_iff.mp h
  have all := ((((((((timely_post s).append (timely_track s)).append (timely_thermal s)).append (timely_pot s)).append
    (timely_alarms s)).append (timely_width s)).append (timely_lines s)).append (timely_flux s)).append (timely_boundaries s)
  exact all d (List.mem_of_find?_eq_some found) (List.find?_some found)

theorem clock_advance_zero (s : State) {n : Nat} (h : n = 0) : (s.advance n).clock = s.clock := by
  subst h
  exact BitVec.add_zero s.clock

theorem Accepts.clock {q u : State} {c : Instr} {e : Ending} (h : Accepts q c e u) : u.clock = q.clock := by
  cases h with
  | _ => simp

/-- A command of the part that is due takes no time. -/
theorem Effect.clock_of_timely {s u : State} {c : Instr} {e : Ending} (h : Effect s c e u) (ht : Timely s c) :
    u.clock = s.clock := by
  cases h with
  | interval i ws =>
    simp only [State.blocks_intervalRaises, State.blocks_sampleAll, State.blocks_present]
    exact clock_advance_zero s ht
  | heaterPeriodBoundary => exact clock_advance_zero s ht
  | modulationBoundary =>
    simp only [State.blocks_startPulses, State.blocks_consumeEdges, State.blocks_creditPurge, State.blocks_finishPulses]
    exact clock_advance_zero s ht
  | heaterOutputSwitch k m h => exact clock_advance_zero s (by rw [Option.some.inj (h.symm.trans ht), Nat.sub_self])
  | lanePulseEnd k v h =>
    have ht : pulseDue s k = true := ht
    unfold pulseDue at ht
    rw [h] at ht
    simp only [State.blocks_holdValve, State.blocks_endPulse]
    exact clock_advance_zero s (by simp at ht; omega)
  | purgeDurationComplete g h =>
    have ht : purgeDue s = true := ht
    unfold purgeDue at ht
    rw [h] at ht
    simp only [State.blocks_endPurge]
    exact clock_advance_zero s (by simpa using ht)
  | feederShotComplete r h => exact clock_advance_zero s (Option.some.inj (h.symm.trans ht))
  | feederSettlingComplete r h => exact clock_advance_zero s (Option.some.inj (h.symm.trans ht))
  | shotHistoryExpiry x rest h =>
    have ht : shotExpired s = true := ht
    unfold shotExpired at ht
    rw [h] at ht
    exact clock_advance_zero s (by simp at ht; omega)
  | endSensorEvent p h =>
    have ht : sensorDue s = true := ht
    unfold sensorDue at ht
    rw [h] at ht
    simp only [State.blocks_acceptSensor]
    exact clock_advance_zero s (by simp at ht; omega)
  | idleTimerExpiry r h =>
    simp only [State.blocks_enterMode]
    exact clock_advance_zero s (Option.some.inj (h.symm.trans ht))
  | runOnTimerExpiry r h => exact clock_advance_zero s (Option.some.inj (h.symm.trans ht))
  | startGraceEnd x r h => exact clock_advance_zero s (Option.some.inj (h.symm.trans ht))
  | supervisionExpired => exact clock_advance_zero s (Nat.sub_eq_zero_of_le ht)
  | refused c code q rc f hp hq => rw [hq.blocks.1]
  | accepted c code q e u hp hq hr acc => rw [acc.clock, hq.blocks.1]
  | _ => simp

/-- On an empty queue a step is a command of the part that is due, or a millisecond in which none is. -/
theorem step_empty {s t : State} (hq : s.pending = []) (h : step s = .next t) :
    (∃ c, dueNow s = some c ∧ exec c s = .next t) ∨ (dueNow s = none ∧ t = s.advance 1) := by
  unfold step at h
  rw [hq] at h
  cases due : dueNow s with
  | some c => rw [due] at h; exact .inl ⟨c, rfl, h⟩
  | none => rw [due] at h; exact .inr ⟨rfl, (Host.Outcome.next.inj h).symm⟩

/-- Where no event is due, the oldest shot has not reached its age. -/
theorem notExpired_of_idle {s : State} (h : dueNow s = none) : shotExpired s = false := by
  unfold dueNow at h
  rw [Option.map_eq_none_iff, List.find?_eq_none] at h
  simpa using h (shotExpired s, .shotHistoryExpiry) (by simp [duePot])

theorem elapsed_next {a now : Clock} (h : elapsed a now < 600000) : elapsed a (now + 1) = elapsed a now + 1 := by
  unfold elapsed at h ⊢
  have e : now + 1 - a = (now - a) + 1 := by ring
  rw [e, BitVec.toNat_add]
  show ((now - a).toNat + 1) % 2 ^ 32 = _
  omega

theorem AgesFormed.congr {s t : State} (h : AgesFormed s) (history : t.pot.history = s.pot.history)
    (clock : t.clock = s.clock) : AgesFormed t := by
  unfold AgesFormed at h ⊢
  rw [history, clock]
  exact h

/-- The shots over a step on an empty queue. -/
theorem step_agesFormed {s t : State} (hq : s.pending = []) (h : step s = .next t) (hs : AgesFormed s) : AgesFormed t := by
  obtain ⟨sorted, young⟩ := hs
  rcases step_empty hq h with ⟨c, due, run⟩ | ⟨idle, rfl⟩
  · rcases exec_reset_or_effect run with ⟨port, after⟩ | ⟨e, u, effect, rfl⟩
    · unfold AgesFormed
      rw [after.pot]
      exact ⟨.nil, nofun⟩
    · have clock := effect.clock_of_timely (timely_of_due due)
      refine AgesFormed.congr (s := u) ?_ (e.history u) (e.clock u)
      unfold AgesFormed
      rw [clock]
      cases effect.history with
      | same h => rw [h]; exact ⟨sorted, young⟩
      | starts _ h =>
        have now : elapsed s.clock s.clock = 0 := by simp [elapsed]
        rw [h]
        refine ⟨?_, fun x hx => ?_⟩
        · rw [List.map_append, List.pairwise_append]
          refine ⟨sorted, List.pairwise_singleton _ _, fun a _ b hb => ?_⟩
          rw [List.map_singleton, List.mem_singleton, now] at hb
          omega
        · rcases List.mem_append.mp hx with old | new
          · exact young x old
          · rw [List.mem_singleton.mp new, now]; omega
      | expires x h =>
        rw [h] at sorted young
        exact ⟨(List.pairwise_cons.mp sorted).2, fun a ha => young a (List.mem_cons_of_mem _ ha)⟩
  · have less : ∀ a ∈ s.pot.history, elapsed a s.clock < 600000 := by
      have fresh := notExpired_of_idle idle
      unfold shotExpired at fresh
      cases hh : s.pot.history with
      | nil => nofun
      | cons x l =>
        rw [hh] at fresh sorted
        have first : elapsed x s.clock < 600000 := Nat.lt_of_not_le (of_decide_eq_false fresh)
        have rest := (List.pairwise_cons.mp sorted).1
        intro a ha
        rcases List.mem_cons.mp ha with rfl | ha
        · exact first
        · have older : elapsed a s.clock ≤ elapsed x s.clock := rest _ (List.mem_map_of_mem ha)
          omega
    have ages : s.pot.history.map (fun a => elapsed a (s.clock + 1)) =
        (s.pot.history.map fun a => elapsed a s.clock).map (· + 1) := by
      rw [List.map_map]
      exact List.map_congr_left fun a ha => elapsed_next (less a ha)
    refine ⟨?_, fun a ha => ?_⟩
    · show (s.pot.history.map fun a => elapsed a (s.clock + 1)).Pairwise _
      rw [ages]
      exact List.Pairwise.map _ (fun _ _ => Nat.succ_le_succ) sorted
    · show elapsed a (s.clock + 1) ≤ 600000
      rw [elapsed_next (less a ha)]
      exact less a ha

end Sys2Proof.Machine
end



section
/-! What every command does to the spray list, the active windows, the pulses and the purge (R61 to R68, R77, R78). -/

namespace Sys2Proof.Machine

open Sys2Proof.Config

/-- What the flux unit sprays with. -/
def Flux.spray (f : Flux) : List Edge × List ActiveWindow × Tab8 (Option Pulse) × Option Purge × List Inhibit :=
  (f.edges, f.active, f.pulses, f.purge, f.inhibit)

/-- The ordinals of the list. -/
def State.ordinals (s : State) : List (BitVec 16) :=
  s.track.records.map (·.ordinal)

theorem ordinals_of_tags {s t : State} (h : t.track.records.map Record.tag = s.track.records.map Record.tag) :
    t.ordinals = s.ordinals := by
  have e : ∀ u : State, u.ordinals = (u.track.records.map Record.tag).map fun x => x.1 := fun u => by
    rw [List.map_map]; rfl
  rw [e, e, h]

/-- The records of the ordinals `os` close from `s` to `t`, with their edges, windows and pulses (R67). -/
structure FluxClosed (s t : State) (os : List (BitVec 16)) : Prop where
  edges : t.flux.edges = s.flux.edges.filter fun e => !os.contains e.ordinal
  active : t.flux.active = s.flux.active.filter fun w => !os.contains w.ordinal
  pulses : ∀ k, t.flux.pulses.get k = (s.flux.pulses.get k).filter fun u => !os.contains u.ordinal
  purge : t.flux.purge = s.flux.purge
  inhibit : t.flux.inhibit = s.flux.inhibit
  closed : ∀ o ∈ os, t.ordinals.count o < s.ordinals.count o
  others : ∀ o, o ∉ os → t.ordinals.count o = s.ordinals.count o

theorem FluxClosed.of_same {s t : State} (h : t.flux.spray = s.flux.spray) (ho : t.ordinals = s.ordinals) : FluxClosed s t [] := by
  simp only [Flux.spray, Prod.mk.injEq] at h
  obtain ⟨edges, active, pulses, purge, inhibit⟩ := h
  refine ⟨?_, ?_, fun k => ?_, purge, inhibit, nofun, fun o _ => by rw [ho]⟩
  · rw [edges]; simp
  · rw [active]; simp
  · rw [pulses]
    cases s.flux.pulses.get k <;> rfl

theorem FluxClosed.count_le {s t : State} {os : List (BitVec 16)} (h : FluxClosed s t os) (o : BitVec 16) :
    t.ordinals.count o ≤ s.ordinals.count o := by
  by_cases m : o ∈ os
  · exact (h.closed o m).le
  · exact (h.others o m).le

theorem FluxClosed.trans {s t u : State} {os ps : List (BitVec 16)} (h : FluxClosed s t os) (g : FluxClosed t u ps) :
    FluxClosed s u (os ++ ps) := by
  have both : ∀ o : BitVec 16, (!(os ++ ps).contains o) = (!os.contains o && !ps.contains o) := fun o => by
    rw [List.contains_append, Bool.not_or]
  refine ⟨?_, ?_, fun k => ?_, g.purge.trans h.purge, g.inhibit.trans h.inhibit, fun o m => ?_, fun o m => ?_⟩
  · rw [g.edges, h.edges, List.filter_filter]
    simp only [both, Bool.and_comm]
  · rw [g.active, h.active, List.filter_filter]
    simp only [both, Bool.and_comm]
  · rw [g.pulses, h.pulses, Option.filter_filter]
    simp only [both]
  · rcases List.mem_append.mp m with m | m
    · exact (g.count_le o).trans_lt (h.closed o m)
    · exact (g.closed o m).trans_le (h.count_le o)
  · rw [List.mem_append, not_or] at m
    exact (g.others o m.2).trans (h.others o m.1)

/-- The records of some ordinals close. -/
def FluxCloses (s t : State) : Prop :=
  ∃ os, FluxClosed s t os

theorem FluxCloses.of_same {s t : State} (h : t.flux.spray = s.flux.spray) (ho : t.ordinals = s.ordinals) : FluxCloses s t :=
  ⟨_, .of_same h ho⟩

theorem FluxCloses.trans {s t u : State} (h : FluxCloses s t) (g : FluxCloses t u) : FluxCloses s u := by
  obtain ⟨os, h⟩ := h
  obtain ⟨ps, g⟩ := g
  exact ⟨_, h.trans g⟩

theorem count_eraseP {p : Record → Bool} {l : List Record} {r : Record} (h : l.find? p = some r) (o : BitVec 16) :
    (l.map (·.ordinal)).count o = ((l.eraseP p).map (·.ordinal)).count o + if o = r.ordinal then 1 else 0 := by
  obtain ⟨a, b, split, erased⟩ := eraseP_split h
  rw [erased, split]
  simp only [List.map_append, List.map_cons, List.count_append, List.count_cons, beq_iff_eq, eq_comm (a := r.ordinal)]
  omega

theorem fluxCloses_closeRecord {s : State} {p : Record → Bool} {r x : Record} (h : s.track.records.find? p = some r)
    (hx : x.ordinal = r.ordinal) (o : CloseOutcome) (l : Nat) : FluxCloses s (s.closeRecord p x o l) := by
  obtain ⟨a, ha⟩ : ∃ a, s.reportClose x o l = a := ⟨_, rfl⟩
  have flux : a.flux = s.flux := by rw [← ha]; simp
  have records : (s.closeRecord p x o l).track.records = s.track.records.eraseP p := (closeRecord_closes s p x o l).records
  have cut := cutPulses_ends a (fun u => u.ordinal == x.ordinal) false
  obtain ⟨b, hb⟩ : ∃ b, a.cutPulses (fun u => u.ordinal == x.ordinal) false = b := ⟨_, rfl⟩
  rw [hb] at cut
  have frame := uncredited_frame cut.rest
  obtain ⟨c, hc⟩ : ∃ c, s.closeRecord p x o l = c := ⟨_, rfl⟩
  have cFlux : c.flux = { b.flux with
      edges := b.flux.edges.filter fun e => e.ordinal != x.ordinal
      active := b.flux.active.filter fun w => w.ordinal != x.ordinal } := by rw [← hc, ← hb, ← ha]; rfl
  have count : ∀ q, s.ordinals.count q = c.ordinals.count q + if q = r.ordinal then 1 else 0 := fun q => by
    unfold State.ordinals
    rw [← hc, records]
    exact count_eraseP h q
  rw [hc]
  have one : ∀ q : BitVec 16, (!List.contains [x.ordinal] q) = (q != x.ordinal) := fun q => Bool.eq_iff_iff.mpr (by simp)
  have bEdges : b.flux.edges = s.flux.edges ∧ b.flux.active = s.flux.active ∧ b.flux.purge = s.flux.purge ∧
      b.flux.inhibit = s.flux.inhibit := by rw [frame, ← flux]; exact ⟨rfl, rfl, rfl, rfl⟩
  have every : ∀ k : Idx8, k ∈ allIdx8 := by decide
  refine ⟨[x.ordinal], ?_, ?_, fun k => ?_, ?_, ?_, fun q hq => ?_, fun q hq => ?_⟩
  · simp only [cFlux, one, bEdges.1]
  · simp only [cFlux, one, bEdges.2.1]
  · have pulses := cut.pulses k
    rw [if_pos (every k), flux] at pulses
    simp only [cFlux, one, pulses]
    rfl
  · rw [cFlux]; exact bEdges.2.2.1
  · rw [cFlux]; exact bEdges.2.2.2
  · rw [count q, if_pos ((List.mem_singleton.mp hq).trans hx)]
    exact Nat.lt_succ_self _
  · rw [count q, if_neg fun e => hq (List.mem_singleton.mpr (e.trans hx.symm))]
    rfl

theorem fluxCloses_closeLost (n : Nat) (s : State) : FluxCloses s (s.closeLost n) := by
  induction n generalizing s with
  | zero => exact .of_same rfl rfl
  | succ n ih =>
    unfold State.closeLost
    split
    · next r hr => exact (fluxCloses_closeRecord (lostCandidate_find hr) rfl _ _).trans (ih _)
    · exact .of_same rfl rfl

theorem fluxCloses_raiseLost (s : State) : FluxCloses s s.raiseLost :=
  .of_same (by simp [State.raiseLost]) (ordinals_of_tags (by simp [State.raiseLost]))

theorem fluxCloses_loseBoards (s : State) : FluxCloses s s.loseBoards := by
  unfold State.loseBoards
  split
  · exact (fluxCloses_closeLost _ s).trans (fluxCloses_raiseLost _)
  · exact .of_same rfl rfl

theorem fluxCloses_loseWaiting (s : State) : FluxCloses s s.loseWaiting := by
  unfold State.loseWaiting
  split
  · next r hr =>
    rw [exitCandidate_find] at hr
    exact ((fluxCloses_closeRecord hr rfl _ _).trans (fluxCloses_closeLost _ _)).trans (fluxCloses_raiseLost _)
  · exact .of_same rfl rfl

/-! ## Every command -/

/-- The flux unit's lists as before, and a running purge that may have ended. -/
structure PurgeStops (s t : State) : Prop where
  edges : t.flux.edges = s.flux.edges
  active : t.flux.active = s.flux.active
  pulses : t.flux.pulses = s.flux.pulses
  inhibit : t.flux.inhibit = s.flux.inhibit
  purge : t.flux.purge = s.flux.purge ∨ t.flux.purge = none
  ordinals : t.ordinals = s.ordinals

/-- What a command does to the spray list, the active windows, the pulses and the purge before its consequences. -/
inductive SprayChange (s : State) : Instr → State → Prop
  | same (c) (u : State) (h : u.flux.spray = s.flux.spray) (ho : u.ordinals = s.ordinals) : SprayChange s c u
  | stops (c) (u : State) (hc : c = .purgeDurationComplete ∨ ∃ d, c = .encoderCount d) (h : PurgeStops s u) : SprayChange s c u
  | purges (ws) (q : State) (n : Nat) (h : q.flux = s.flux) (ho : q.ordinals = s.ordinals) (hp : s.flux.purge = none) :
      SprayChange s (.purgeFluxer ws) (q.startPurge n)
  | closes (c) (u : State) (h : FluxCloses s u) : SprayChange s c u
  | admits (p) (h : eyeDue s .entry = some p) (ha : s.track.entryEye.accepted = false) :
      SprayChange s (.eyeChangeAccepted .entry)
        (State.appendAtBar
          (State.handLeading { s with track := s.track.setEye .entry (s.track.eye .entry).accept } p))
  | trailed (p) (h : eyeDue s .entry = some p) (ha : s.track.entryEye.accepted = true) :
      SprayChange s (.eyeChangeAccepted .entry)
        (State.handTrailing
          (State.takeTrail
            { s with track := { s.track.setEye .entry (s.track.eye .entry).accept with lastTrail := some p } } p))
  | boundary :
      SprayChange s .modulationBoundary s.toModulation.finishPulses.creditPurge.consumeEdges.startPulses
  | pulseEnds (k u) (h : s.flux.pulses.get k = some u) (hq : u.q ≠ 0) :
      SprayChange s (.lanePulseEnd k) (((s.advance (u.q - elapsed u.start s.clock)).endPulse k u u.q true).holdValve k u)

theorem endPurge_stops (s : State) : PurgeStops s s.endPurge := by
  obtain ⟨edges, active, pulses, inhibit⟩ := endPurge_lists s
  have ends := endPurge_ends s
  exact ⟨edges, active, pulses, inhibit, .inr ends.2.1, ordinals_of_tags (by rw [endPurge_frame])⟩

theorem PurgeStops.refl (s : State) : PurgeStops s s := ⟨rfl, rfl, rfl, rfl, .inl rfl, rfl⟩

theorem PurgeStops.after {s t u : State} (h : PurgeStops t u) (flux : t.flux.spray = s.flux.spray) (ho : t.ordinals = s.ordinals) :
    PurgeStops s u := by
  simp only [Flux.spray, Prod.mk.injEq] at flux
  obtain ⟨edges, active, pulses, purge, inhibit⟩ := flux
  exact ⟨h.edges.trans edges, h.active.trans active, h.pulses.trans pulses, h.inhibit.trans inhibit,
    h.purge.imp_left (·.trans purge), h.ordinals.trans ho⟩

theorem approachBar_stops (s : State) (n : Nat) (p : Pos) (d : Direction) : PurgeStops s (s.approachBar n p d) := by
  unfold State.approachBar
  split
  · exact endPurge_stops s
  · exact .refl s

theorem spray_sampleAll (s : State) (i : Readings) : (s.sampleAll i).flux.spray = s.flux.spray := by
  cases h : i.tankEmpty <;>
    simp [State.sampleAll, State.samplePressure, State.sampleTank, State.setTank, Flux.spray, h]

theorem spray_releaseFaults (s : State) : s.releaseFaults.flux.spray = s.flux.spray := by
  unfold State.releaseFaults
  dsimp only
  split <;> rfl

theorem Accepts.spray {q u : State} {c : Instr} {e : Ending} (h : Accepts q c e u) (hp : ∀ ws, c ≠ .purgeFluxer ws) :
    u.flux.spray = q.flux.spray := by
  cases h with
  | purgeFluxer ws => exact absurd rfl (hp ws)
  | clear ws => simp [spray_releaseFaults]
  | loadSetup ws => unfold State.takeSetup; dsimp only; split <;> rfl
  | fluxRefilled ws => rfl
  | _ => simp [Flux.spray]

theorem ordinals_of_listView {s u : State} (h : u.listView = s.listView) : u.ordinals = s.ordinals :=
  ordinals_of_tags (congrArg (fun v => v.1) h)

theorem Effect.spray {s u : State} {c : Instr} {e : Ending} (h : Effect s c e u) : SprayChange s c u := by
  cases h with
  | encoderCount d h =>
    refine .stops _ _ (.inr ⟨d, rfl⟩) ?_
    exact (approachBar_stops _ _ _ _).after (by simp) (ordinals_of_tags (by simp))
  | dropLost b =>
    exact .closes _ _ ((FluxCloses.of_same (by simp) (ordinals_of_tags (by simp))).trans (fluxCloses_loseWaiting _))
  | dropPast b =>
    exact .closes _ _ ((FluxCloses.of_same (by simp) (ordinals_of_tags (by simp))).trans (fluxCloses_loseBoards _))
  | entryLeading p h ha hl ho => exact .admits p h ha
  | entryTrailing p h ha => exact .trailed p h ha
  | exitClosed p r h hr =>
    obtain ⟨a, ha⟩ : ∃ a : State, a = { s with track := s.track.setEye .exit (s.track.eye .exit).accept } := ⟨_, rfl⟩
    have hr : a.track.records.find? exiting = some r := by rw [ha]; exact hr
    rw [← ha]
    refine .closes _ _ (FluxCloses.trans (t := a) (by rw [ha]; exact .of_same rfl rfl) ?_)
    have ordinal : (r.exitTest (exitLength r p) s.ws.exitTol).ordinal = r.ordinal := by rw [exitTest_rest]
    exact fluxCloses_closeRecord hr ordinal _ _
  | boardLost => exact .closes _ _ (fluxCloses_loseBoards s)
  | modulationBoundary => exact .boundary
  | lanePulseEnd k v h hq => exact .pulseEnds k v h hq
  | purgeDurationComplete g h =>
    exact .stops _ _ (.inl rfl) ((endPurge_stops _).after rfl rfl)
  | interval i ws =>
    refine .same _ _ ?_ (ordinals_of_tags (by simp))
    simp [spray_sampleAll]
  | accepted c code q e u hp hq hr acc =>
    have first : q.flux = s.flux ∧ q.ordinals = s.ordinals := by rw [hq.blocks.1]; exact ⟨rfl, rfl⟩
    by_cases purge : ∃ ws, c = .purgeFluxer ws
    · obtain ⟨ws, rfl⟩ := purge
      cases acc with
      | purgeFluxer _ hm hp hi => exact .purges ws q _ first.1 first.2 (first.1 ▸ hp)
    · refine .same _ _ ?_ ((ordinals_of_listView acc.listView).trans first.2)
      rw [acc.spray fun ws h => purge ⟨ws, h⟩, first.1]
  | refused c code q rc f hp hq => exact .same _ _ (by rw [hq.blocks.1]) (by rw [hq.blocks.1]; rfl)
  | requestOverrun code => exact .same _ _ rfl rfl
  | dropLate b => exact .same _ _ (by simp) (ordinals_of_tags (by simp))
  | lateLimit => exact .same _ _ rfl rfl
  | _ => exact .same _ _ (by simp [Flux.spray]) (ordinals_of_tags (by simp))

end Sys2Proof.Machine
end



section
/-! R61 to R68 and R77 for every command, before the consequences of its step. -/

namespace Sys2Proof.Machine

open Sys2Proof.Config

/-- What a command does to the flux unit's lists before its consequences: what `FluxStep` says, the inhibit standing, and no edge or
window of a closed record left. -/
structure FluxOp (c : Instr) (s u : State) : Prop where
  step : FluxStep c s u
  inhibit : u.flux.inhibit = s.flux.inhibit
  gone : ∀ o, u.ordinals.count o < s.ordinals.count o →
    (∀ e ∈ u.flux.edges, e.ordinal ≠ o) ∧ ∀ w ∈ u.flux.active, w.ordinal ≠ o
  owned : ∀ e ∈ u.flux.edges, (∃ d ∈ s.flux.edges, d.ordinal = e.ordinal) ∨ e.ordinal ∈ u.ordinals
  opened : ∀ w ∈ u.flux.active, w ∈ s.flux.active ∨ ∃ e ∈ s.flux.edges, e.ordinal = w.ordinal

theorem not_begins {s u : State} (h : u.flux.inhibit = s.flux.inhibit) : ¬ InhibitBegins s u := fun b =>
  b.2 (h.trans b.1)

theorem not_gone {s u : State} (h : u.ordinals = s.ordinals) (o : BitVec 16) : ¬ u.ordinals.count o < s.ordinals.count o := by
  rw [h]
  exact Nat.lt_irrefl _

/-- A command that leaves the edges and the active windows. -/
theorem FluxOp.of_lists {c : Instr} {s u : State} (inhibit : u.flux.inhibit = s.flux.inhibit) (edges : u.flux.edges = s.flux.edges)
    (active : u.flux.active = s.flux.active) (ordinals : u.ordinals = s.ordinals)
    (pulses : (∀ k v, u.flux.pulses.get k = some v → s.flux.pulses.get k = some v ∨
        (c = .lanePulseEnd k ∧ ∃ w, s.flux.pulses.get k = some w ∧ 16 ≤ w.q ∧ v = { w with q := 0 })) ∧
      ∀ k v, s.flux.pulses.get k = some v → u.flux.pulses.get k = some v ∨ c = .lanePulseEnd k ∨ ∃ ws, c = .purgeFluxer ws)
    (purge : u.flux.purge = s.flux.purge ∨ (s.flux.purge = none ∧ ∃ ws, c = .purgeFluxer ws) ∨
      (u.flux.purge = none ∧ (c = .purgeDurationComplete ∨ ∃ d, c = .encoderCount d))) : FluxOp c s u := by
  refine ⟨⟨fun e he => .inl (edges ▸ he), fun e he => .inl (edges.symm ▸ he), fun w hw => .inl (active ▸ hw),
    fun w hw => .inl (active.symm ▸ hw), fun k v h => ?_, fun k v h => ?_, ?_, fun b => absurd b (not_begins inhibit)⟩, inhibit,
    fun o h => absurd h (not_gone ordinals o), fun e he => .inl ⟨e, edges ▸ he, rfl⟩, fun w hw => .inl (active ▸ hw)⟩
  · exact (pulses.1 k v h).imp_right .inr
  · rcases pulses.2 k v h with h | h | h
    · exact .inl h
    · exact .inr (.inr (.inl h))
    · exact .inr (.inr (.inr (.inr (.inr (.inr h)))))
  · rcases purge with h | h | ⟨h, g | g⟩
    · exact .inl h
    · exact .inr (.inl h)
    · exact .inr (.inr (.inr ⟨h, .inl g⟩))
    · exact .inr (.inr (.inr ⟨h, .inr (.inr (.inl g))⟩))

theorem FluxCloses.op {s u : State} (c : Instr) (h : FluxCloses s u) : FluxOp c s u := by
  obtain ⟨os, edges, active, pulses, purge, inhibit, closed, others⟩ := h
  have split : ∀ {α : Type} (o : BitVec 16) (x : α) (l m : List α) (f : α → Bool), m = l.filter f → f x = !os.contains o → x ∈ l →
      x ∈ m ∨ RecordClosed s u o := fun o x l m f hm hf hx => by
    by_cases hc : o ∈ os
    · exact .inr (closed o hc)
    · refine .inl (hm ▸ List.mem_filter.mpr ⟨hx, ?_⟩)
      rw [hf]
      simpa using hc
  have left : ∀ o, u.ordinals.count o < s.ordinals.count o → o ∈ os := fun o lt => by
    by_contra hc
    exact absurd (others o hc) lt.ne
  refine ⟨⟨fun e he => .inl ?_, fun e he => ?_, fun w hw => .inl ?_, fun w hw => ?_, fun k v h => .inl ?_, fun k v h => ?_, .inl purge,
    fun b => absurd b (not_begins inhibit)⟩, inhibit, fun o lt => ⟨fun e he ho => ?_, fun w hw ho => ?_⟩,
    fun e he => .inl ⟨e, ?_, rfl⟩, fun w hw => .inl ?_⟩
  · rw [edges] at he; exact List.mem_of_mem_filter he
  · rcases split e.ordinal e _ _ _ edges rfl he with h | h
    · exact .inl h
    · exact .inr (.inr (.inl h))
  · rw [active] at hw; exact List.mem_of_mem_filter hw
  · rcases split w.ordinal w _ _ _ active rfl hw with h | h
    · exact .inl h
    · exact .inr (.inr (.inl h))
  · rw [pulses, Option.filter_eq_some_iff] at h
    exact h.1
  · by_cases hc : v.ordinal ∈ os
    · exact .inr (.inr (.inr (.inl (closed _ hc))))
    · refine .inl ?_
      rw [pulses, h, Option.filter_some, if_pos (by simpa using hc)]
  · rw [edges, List.mem_filter] at he
    have out := he.2
    rw [ho] at out
    simp [left o lt] at out
  · rw [active, List.mem_filter] at hw
    have out := hw.2
    rw [ho] at out
    simp [left o lt] at out
  · rw [edges] at he; exact List.mem_of_mem_filter he
  · rw [active] at hw; exact List.mem_of_mem_filter hw

/-! ## Pulses and purges -/

theorem startPurge_op {s q : State} (ws : List HostWrite) (n : Nat) (flux : q.flux = s.flux) (ordinals : q.ordinals = s.ordinals)
    (none_ : s.flux.purge = none) : FluxOp (.purgeFluxer ws) s (q.startPurge n) := by
  have cut := cutPulses_ends q (fun _ => true) true
  have frame := uncredited_frame cut.rest
  have pulses := cut.pulses
  obtain ⟨v, hv⟩ : ∃ v, q.cutPulses (fun _ => true) true = v := ⟨_, rfl⟩
  have tags : v.ordinals = q.ordinals := ordinals_of_tags (by rw [← hv]; exact tags_of_places (kept_cutPulses q _ true).places)
  have e : q.startPurge n = { v with flux := { v.flux with purge := some { remaining := n, creditedAt := v.clock } } } := by
    rw [← hv]; rfl
  rw [hv] at frame pulses
  have lists : v.flux.edges = s.flux.edges ∧ v.flux.active = s.flux.active ∧ v.flux.inhibit = s.flux.inhibit := by
    rw [frame, ← flux]; exact ⟨rfl, rfl, rfl⟩
  have every : ∀ k : Idx8, k ∈ allIdx8 := by decide
  rw [e]
  refine .of_lists lists.2.2 lists.1 lists.2.1 (tags.trans ordinals) ⟨fun k u h => ?_, fun k u h => .inr (.inr ⟨ws, rfl⟩)⟩
    (.inr (.inl ⟨none_, ws, rfl⟩))
  have h : v.flux.pulses.get k = some u := h
  rw [pulses, if_pos (every k), Option.filter_eq_some_iff] at h
  exact absurd h.2 (by decide)

theorem endPulse_lists (s : State) (k : Idx8) (u : Pulse) (n : Nat) (b : Bool) :
    (s.endPulse k u n b).flux.edges = s.flux.edges ∧ (s.endPulse k u n b).flux.active = s.flux.active ∧
      (s.endPulse k u n b).flux.inhibit = s.flux.inhibit ∧ (s.endPulse k u n b).flux.purge = s.flux.purge ∧
      (s.endPulse k u n b).flux.pulses = s.flux.pulses.set k none := ⟨rfl, rfl, rfl, rfl, rfl⟩

theorem pulseEnd_op (s : State) {k : Idx8} {u : Pulse} (h : s.flux.pulses.get k = some u) (n : Nat) :
    FluxOp (.lanePulseEnd k) s (((s.advance n).endPulse k u u.q true).holdValve k u) := by
  have lists := endPulse_lists (s.advance n) k u u.q true
  have tags : ((s.advance n).endPulse k u u.q true).ordinals = s.ordinals := ordinals_of_tags (by simp)
  obtain ⟨a, ha⟩ : ∃ a, (s.advance n).endPulse k u u.q true = a := ⟨_, rfl⟩
  rw [ha] at lists tags ⊢
  obtain ⟨edges, active, inhibit, purge, pulses⟩ := lists
  have before : (s.advance n).flux = s.flux := rfl
  rw [before] at edges active inhibit purge pulses
  unfold State.holdValve
  split
  · next full =>
    refine .of_lists inhibit edges active tags ⟨fun j v hv => ?_, fun j v hv => ?_⟩ (.inl purge)
    · have hv : (a.flux.pulses.set k (some { u with q := 0 })).get j = some v := hv
      rw [pulses, Tab8.get_set] at hv
      split at hv
      · next hj =>
        obtain rfl := Option.some.inj hv
        exact .inr ⟨by rw [hj], u, hj ▸ h, full, rfl⟩
      · next hj =>
        rw [Tab8.get_set, if_neg hj] at hv
        exact .inl hv
    · by_cases hj : j = k
      · exact .inr (.inl (by rw [hj]))
      · refine .inl ?_
        show (a.flux.pulses.set k (some { u with q := 0 })).get j = some v
        rw [pulses, Tab8.get_set, if_neg hj, Tab8.get_set, if_neg hj, hv]
  · refine .of_lists inhibit edges active tags ⟨fun j v hv => ?_, fun j v hv => ?_⟩ (.inl purge)
    · rw [pulses, Tab8.get_set] at hv
      split at hv
      · cases hv
      · exact .inl hv
    · by_cases hj : j = k
      · exact .inr (.inl (by rw [hj]))
      · rw [pulses, Tab8.get_set, if_neg hj]
        exact .inl hv

theorem PurgeStops.op {c : Instr} {s u : State} (h : PurgeStops s u) (hc : c = .purgeDurationComplete ∨ ∃ d, c = .encoderCount d) :
    FluxOp c s u :=
  .of_lists h.inhibit h.edges h.active h.ordinals ⟨fun _ _ x => .inl (h.pulses ▸ x), fun _ _ x => .inl (h.pulses.symm ▸ x)⟩
    (h.purge.imp_right fun x => .inr ⟨x, hc⟩)

theorem FluxOp.of_same {c : Instr} {s u : State} (h : u.flux.spray = s.flux.spray) (ho : u.ordinals = s.ordinals) : FluxOp c s u := by
  simp only [Flux.spray, Prod.mk.injEq] at h
  obtain ⟨edges, active, pulses, purge, inhibit⟩ := h
  exact .of_lists inhibit edges active ho ⟨fun k v x => .inl (pulses ▸ x), fun k v x => .inl (pulses.symm ▸ x)⟩ (.inl purge)

/-! ## A modulation boundary (R66) -/

theorem mem_foldl_consumeEdge {l : List Edge} {ws : List ActiveWindow} {w : ActiveWindow} (h : w ∈ l.foldl consumeEdge ws) :
    w ∈ ws ∨ ∃ e ∈ l, e.ordinal = w.ordinal := by
  induction l generalizing ws with
  | nil => exact .inl h
  | cons e l ih =>
    rcases ih h with g | ⟨d, hd, ho⟩
    · unfold consumeEdge at g
      split at g
      · rcases List.mem_append.mp g with g | g
        · exact .inl g
        · obtain rfl := List.mem_singleton.mp g
          exact .inr ⟨e, List.mem_cons_self, rfl⟩
      · exact .inl (List.mem_of_mem_filter g)
    · exact .inr ⟨d, List.mem_cons_of_mem e hd, ho⟩

theorem creditPurge_lists (s : State) : s.creditPurge.flux.edges = s.flux.edges ∧ s.creditPurge.flux.active = s.flux.active ∧
    s.creditPurge.flux.inhibit = s.flux.inhibit ∧ (s.flux.purge = none → s.creditPurge.flux.purge = none) := by
  cases h : s.flux.purge with
  | none => rw [creditPurge_none h]; exact ⟨rfl, rfl, rfl, fun _ => h⟩
  | some g => rw [creditPurge_some h]; exact ⟨rfl, rfl, rfl, (fun x => by cases x)⟩

theorem consumeEdges_lists (s : State) : s.consumeEdges.flux.edges.Sublist s.flux.edges ∧
    (∀ w ∈ s.consumeEdges.flux.active, w ∈ s.flux.active ∨ ∃ e ∈ s.flux.edges, e.ordinal = w.ordinal) ∧
    s.consumeEdges.flux.inhibit = s.flux.inhibit ∧ s.consumeEdges.flux.purge = s.flux.purge := by
  refine ⟨?_, fun w hw => ?_, rfl, rfl⟩
  · exact List.filter_sublist.trans (List.dropWhile_sublist _)
  · rcases mem_foldl_consumeEdge (h := hw) with g | ⟨e, he, ho⟩
    · exact .inl g
    · refine .inr ⟨e, ?_, ho⟩
      have due : e ∈ dueEdges s := by
        split at he
        · exact List.mem_of_mem_filter he
        · exact he
      exact (List.takeWhile_sublist _).subset due

theorem boundary_lists {s u : State} (h : s.toModulation.finishPulses.creditPurge.consumeEdges.startPulses = u) :
    u.flux.edges.Sublist s.flux.edges ∧ (∀ w ∈ u.flux.active, w ∈ s.flux.active ∨ ∃ e ∈ s.flux.edges, e.ordinal = w.ordinal) ∧
      u.flux.inhibit = s.flux.inhibit ∧ (s.flux.purge = none → u.flux.purge = none) := by
  have frame := uncredited_frame (cutPulses_ends s.toModulation (fun _ => true) true).rest
  obtain ⟨a, ha⟩ : ∃ a, s.toModulation.finishPulses = a := ⟨_, rfl⟩
  have first : a.flux.edges = s.flux.edges ∧ a.flux.active = s.flux.active ∧ a.flux.inhibit = s.flux.inhibit ∧
      a.flux.purge = s.flux.purge := by
    rw [← ha, State.finishPulses, frame]
    exact ⟨rfl, rfl, rfl, rfl⟩
  obtain ⟨edges, active, inhibit, purge⟩ := creditPurge_lists a
  obtain ⟨b, hb⟩ : ∃ b, a.creditPurge = b := ⟨_, rfl⟩
  rw [hb] at edges active inhibit purge
  obtain ⟨edges', active', inhibit', purge'⟩ := consumeEdges_lists b
  obtain ⟨d, hd⟩ : ∃ d, b.consumeEdges = d := ⟨_, rfl⟩
  rw [hd] at edges' active' inhibit' purge'
  have last : u.flux.edges = d.flux.edges ∧ u.flux.active = d.flux.active ∧ u.flux.inhibit = d.flux.inhibit ∧
      u.flux.purge = d.flux.purge := by
    rw [← h, ha, hb, hd]
    exact ⟨rfl, rfl, rfl, rfl⟩
  rw [edges, first.1] at edges' active'
  rw [active, first.2.1] at active'
  refine ⟨last.1 ▸ edges', last.2.1 ▸ active', ?_, fun n => ?_⟩
  · rw [last.2.2.1, inhibit', inhibit, first.2.2.1]
  · rw [last.2.2.2, purge', purge (first.2.2.2.trans n)]

theorem boundary_op {s u : State} (h : s.toModulation.finishPulses.creditPurge.consumeEdges.startPulses = u)
    (ordinals : u.ordinals = s.ordinals) : FluxOp .modulationBoundary s u := by
  obtain ⟨edges, active, inhibit, purge⟩ := boundary_lists h
  refine ⟨⟨fun e he => .inl (edges.subset he), fun _ _ => .inr (.inl rfl), fun _ _ => .inr rfl, fun _ _ => .inr (.inl rfl),
    fun _ _ _ => .inr (.inl rfl), fun _ _ _ => .inr (.inl rfl), ?_, fun b => absurd b (not_begins inhibit)⟩, inhibit,
    fun o lt => absurd lt (not_gone ordinals o), fun e he => .inl ⟨e, edges.subset he, rfl⟩, active⟩
  cases hp : s.flux.purge with
  | none => exact .inl (purge hp)
  | some g => exact .inr (.inr (.inl ⟨by simp, rfl⟩))

end Sys2Proof.Machine
end



section
/-! The spray list at an admission and at the clamp (R63, R65); R61 to R68, R77 and R78 for every command. -/

namespace Sys2Proof.Machine

open Sys2Proof.Config

/-! ## An admission (R63) -/

theorem handLeading_flux (s : State) (p : Pos) :
    (s.handLeading p).flux = { s.flux with edges := (s.handLeading p).flux.edges } := by
  have schedule : ∀ (t : State) (n : BitVec 16) (q : Pos) (o : Offer),
      (t.scheduleEdges n q o).flux = { t.flux with edges := (t.scheduleEdges n q o).flux.edges } := fun t n q o => by
    rw [scheduleEdges_frame]
  have ofOffer : ∀ (t : State) (o : Offer) (b : Bool),
      (t.admitBoard p o b).flux = { t.flux with edges := (t.admitBoard p o b).flux.edges } := fun t o b => by
    obtain ⟨r, hr⟩ : ∃ r, newRecord t p o.origin (some o.binding) b = r := ⟨_, rfl⟩
    obtain ⟨v, hv⟩ : ∃ v, (t.append r).bindSlot o = v := ⟨_, rfl⟩
    have flux : v.flux = t.flux := by rw [← hv, bindSlot_frame]; rfl
    have e : (t.admitBoard p o b).flux = (v.scheduleEdges r.ordinal p o).flux := by rw [← hv, ← hr]; rfl
    have step := schedule v r.ordinal p o
    rw [flux] at step
    rw [e]
    exact step
  unfold State.handLeading
  split
  · exact ofOffer _ _ _
  · exact ofOffer _ _ _
  · rfl

/-- The edges that join at an admission belong to the new record. -/
theorem handLeading_edges (s : State) (p : Pos) : (∀ e ∈ s.flux.edges, e ∈ (s.handLeading p).flux.edges) ∧
    ∀ e ∈ (s.handLeading p).flux.edges, e ∈ s.flux.edges ∨ e.ordinal = s.track.ordinal + 1 := by
  have ofOffer : ∀ (o : Offer) (b : Bool), (∀ e ∈ s.flux.edges, e ∈ (s.admitBoard p o b).flux.edges) ∧
      ∀ e ∈ (s.admitBoard p o b).flux.edges, e ∈ s.flux.edges ∨ e.ordinal = s.track.ordinal + 1 := fun o b => by
    have admits := admitBoard_admits s p o b
    refine ⟨fun e he => (admits.edges e).mpr (.inl he), fun e he => ?_⟩
    rcases (admits.edges e).mp he with h | ⟨-, k, w, -, rfl | rfl⟩
    · exact .inl h
    · exact .inr rfl
    · exact .inr rfl
  unfold State.handLeading
  split
  · exact ofOffer _ _
  · exact ofOffer _ _
  · exact ⟨fun e he => he, fun e he => .inl he⟩

theorem handLeading_ordinal (s : State) (p : Pos) : (s.handLeading p).track.ordinal = s.track.ordinal + 1 := by
  have ofOffer : ∀ (o : Offer) (b : Bool), (s.admitBoard p o b).track.ordinal = s.track.ordinal + 1 := fun o b =>
    congrArg (fun u => u.track.ordinal) (admitBoard_admits s p o b).core
  unfold State.handLeading
  split
  · exact ofOffer _ _
  · exact ofOffer _ _
  · rfl

theorem appendAtBar_cases (s : State) : s.appendAtBar = s ∨ (s.appendAtBar = s.endPurge ∧
    ∃ r, s.track.records.getLast? = some r ∧ s.ws.barF - 500 ≤ (s.track.pos - r.lead).toNat) := by
  unfold State.appendAtBar
  split
  · next r hr =>
    split
    · next near => exact .inr ⟨rfl, r, hr, near⟩
    · exact .inl rfl
  · exact .inl rfl

theorem admission_op {s a : State} {p : Pos} (flux : a.flux = s.flux) (ordinals : a.ordinals = s.ordinals)
    (ordinal : a.track.ordinal = s.track.ordinal) (setup : a.ws = s.ws)
    (ha : s.track.entryEye.accepted = false) : FluxOp (.eyeChangeAccepted .entry) s (a.handLeading p).appendAtBar := by
  have rest := handLeading_flux a p
  obtain ⟨keeps, joins⟩ := handLeading_edges a p
  have number := handLeading_ordinal a p
  have ws : (a.handLeading p).ws = s.ws := by
    have kept : (a.handLeading p).port.setup = a.port.setup := by simp
    unfold State.ws at setup ⊢
    rw [kept]
    exact setup
  obtain ⟨x, joined⟩ := handLeading_joins a p
  obtain ⟨b, hb⟩ : ∃ b, a.handLeading p = b := ⟨_, rfl⟩
  rw [hb] at rest keeps joins number ws joined ⊢
  rw [flux] at rest keeps joins
  rw [ordinal] at number joins
  have list : b.ordinals = s.ordinals ++ [s.track.ordinal + 1] := by
    have tags := congrArg (List.map fun x => x.1) joined.tags
    rw [List.map_append, List.map_map, List.map_map, ordinal] at tags
    rw [← ordinals]
    exact tags
  have lists := endPurge_lists b
  have none_ := (endPurge_ends b).2.1
  have frame := endPurge_frame b
  have bInhibit : b.flux.inhibit = s.flux.inhibit := by rw [rest]
  have bActive : b.flux.active = s.flux.active := by rw [rest]
  have bPulses : b.flux.pulses = s.flux.pulses := by rw [rest]
  have bPurge : b.flux.purge = s.flux.purge := by rw [rest]
  -- the purge apart, both outcomes leave the lists of the admission
  have all : ∀ u : State, u.flux.edges = b.flux.edges → u.flux.active = b.flux.active → u.flux.pulses = b.flux.pulses →
      u.flux.inhibit = b.flux.inhibit → u.track = b.track →
      (u.flux.purge = b.flux.purge ∨ (u.flux.purge = none ∧ ∃ r, b.track.records.getLast? = some r ∧
        b.ws.barF - 500 ≤ (b.track.pos - r.lead).toNat)) → FluxOp (.eyeChangeAccepted .entry) s u :=
      fun u edges active pulses inhibit track purge => by
    have same : u.flux.inhibit = s.flux.inhibit := inhibit.trans bInhibit
    have ordinals' : u.ordinals = s.ordinals ++ [s.track.ordinal + 1] := by
      unfold State.ordinals at list ⊢
      rw [track]; exact list
    have appends : Appends (.eyeChangeAccepted .entry) s u := ⟨rfl, ha, by rw [track, number]⟩
    have new : ∀ e ∈ u.flux.edges, e ∈ s.flux.edges ∨ e.ordinal = u.track.ordinal := fun e he => by
      rw [edges] at he
      rw [track, number]
      exact joins e he
    refine ⟨⟨fun e he => (new e he).imp_right fun h => .inl ⟨appends, h⟩, fun e he => .inl (by rw [edges]; exact keeps e he),
      fun w hw => .inl (by rw [active, bActive] at hw; exact hw), fun w hw => .inl (by rw [active, bActive]; exact hw),
      fun k v h => .inl (by rw [pulses, bPulses] at h; exact h), fun k v h => .inl (by rw [pulses, bPulses]; exact h), ?_,
      fun x => absurd x (not_begins same)⟩, same, fun o lt => ?_, fun e he => ?_,
      fun w hw => .inl (by rw [active, bActive] at hw; exact hw)⟩
    · rcases purge with h | ⟨h, r, hr, near⟩
      · exact .inl (h.trans bPurge)
      · refine .inr (.inr (.inr ⟨h, .inr (.inr (.inr ⟨appends, r, ?_, ?_⟩))⟩))
        · rw [track]; exact hr
        · rw [track, ← ws]; exact near
    · rw [ordinals', List.count_append] at lt
      omega
    · refine (new e he).imp (fun h => ⟨e, h, rfl⟩) fun h => ?_
      rw [ordinals', h, track, number]
      simp
  rcases appendAtBar_cases b with h | ⟨h, r, hr, near⟩ <;> rw [h]
  · exact all b rfl rfl rfl rfl rfl (.inl rfl)
  · exact all _ lists.1 lists.2.1 lists.2.2.1 lists.2.2.2 (by rw [frame]) (.inr ⟨none_, r, hr, near⟩)

/-! ## A trailing edge (R65) -/

theorem flux_handTrailing (s : State) : s.handTrailing.flux = s.flux := by
  rcases handTrailing_cases s with ⟨-, e⟩ | ⟨-, e⟩ <;> rw [e]

theorem topside_flux (s : State) : s.topside.flux = s.flux := rfl

theorem clamp_purge (s : State) (r : Record) (l : Nat) : (s.clamp r l).flux.purge = s.flux.purge := by
  unfold State.clamp
  split
  · rfl
  · dsimp only
    rw [uncredited_frame (cutPulses_ends s _ true).rest]

/-- A trailing edge leaves the flux unit, or clamps the windows of the newest record. -/
theorem takeTrail_flux (s : State) (p : Pos) : (s.takeTrail p).flux = s.flux ∨
    ∃ (r x : Record) (rc : Recipe) (l : Nat) (a v : State), s.track.owner = true ∧ s.track.records.getLast? = some r ∧ r.trail = none ∧
      x.ordinal = r.ordinal ∧ r.recipe? = some rc ∧ l ≤ 65535 ∧ a.flux = s.flux ∧ a.track.pos = s.track.pos ∧
      Clamped a v x rc.windows l (r.lead + tenths (s.ws.barF + l)) ∧ v.flux.purge = s.flux.purge ∧ (s.takeTrail p).flux = v.flux := by
  by_cases ho : s.track.owner = true
  · cases hl : s.track.records.getLast? with
    | none =>
      refine .inl ?_
      rw [takeTrail_unowned (.inr fun r h => by rw [hl] at h; cases h)]
    | some r =>
      by_cases ht : r.trail = none
      · obtain ⟨rs, split⟩ := List.getLast?_eq_some_iff.mp hl
        obtain ⟨x, hx⟩ : ∃ x, r.withTrail p s.ws.maxLength = x := ⟨_, rfl⟩
        have xr : x.ordinal = r.ordinal ∧ x.recipe? = r.recipe? ∧ x.lead = r.lead := by
          rw [← hx, withTrail_rest]; exact ⟨rfl, rfl, rfl⟩
        obtain ⟨a, ha⟩ : ∃ a : State, { s with track := { s.track with records := rs ++ [x] } } = a := ⟨_, rfl⟩
        have e := takeTrail_owned ho split ht p
        rw [hx, ha] at e
        have flux : (s.takeTrail p).flux = (a.clamp x (saturate16 (p - r.lead).toNat)).flux := by rw [e, topside_flux]
        have same : a.flux = s.flux ∧ a.track.pos = s.track.pos ∧ a.ws = s.ws := by rw [← ha]; exact ⟨rfl, rfl, rfl⟩
        cases hr : r.recipe? with
        | none =>
          refine .inl ?_
          have still : ∀ l, a.clamp x l = a := fun l => by unfold State.clamp; rw [xr.2.1, hr]
          rw [flux, still, same.1]
        | some rc =>
          have clamped := clamp_clamped a (xr.2.1.trans hr) (saturate16 (p - r.lead).toNat)
          have purge := clamp_purge a x (saturate16 (p - r.lead).toNat)
          rw [xr.2.2, same.2.2] at clamped
          exact .inr ⟨r, x, rc, _, a, _, ho, rfl, ht, xr.1, hr, Nat.min_le_right _ _, same.1, same.2.1, clamped,
            purge.trans (by rw [same.1]), flux⟩
      · refine .inl ?_
        rw [takeTrail_unowned (.inr fun q h => by
          rw [hl] at h
          rw [← Option.some.inj h]
          exact ht)]
  · refine .inl ?_
    rw [takeTrail_unowned (.inl (by simpa using ho))]

theorem clamped_op {s a v u : State} {r x : Record} {rc : Recipe} {l : Nat} {p : Pos} (ha : s.track.entryEye.accepted = true)
    (ho : s.track.owner = true) (hr : s.track.records.getLast? = some r) (ht : r.trail = none) (hx : x.ordinal = r.ordinal)
    (flux : a.flux = s.flux) (h : Clamped a v x rc.windows l p)
    (purge : v.flux.purge = s.flux.purge) (hu : u.flux = v.flux) (ordinals : u.ordinals = s.ordinals) :
    FluxOp (.eyeChangeAccepted .entry) s u := by
  obtain ⟨edges, active, inhibit, pulses, -, -⟩ := h
  have clamps : ∀ o, o = x.ordinal → ClampsWindows (.eyeChangeAccepted .entry) s o := fun o e =>
    ⟨rfl, ha, ho, r, hr, ht, (e.trans hx).symm⟩
  have edgesU : u.flux.edges = clampEdges a x rc.windows l p := by rw [hu, edges]
  have activeIff : ∀ w, w ∈ u.flux.active ↔ w ∈ s.flux.active ∧ ¬ ClampEnds a x rc.windows l p w := fun w => by
    rw [hu, active, flux]
  have same : u.flux.inhibit = s.flux.inhibit := by rw [hu, inhibit, flux]
  obtain ⟨ended, hended⟩ : ∃ ended : Pulse → Bool, ∀ y, ended y = true ↔
      ∃ w ∈ a.flux.active, w.ordinal = y.ordinal ∧ w.window = y.window ∧ w ∉ v.flux.active :=
    ⟨fun y => decide (∃ w ∈ a.flux.active, w.ordinal = y.ordinal ∧ w.window = y.window ∧ w ∉ v.flux.active),
      fun y => decide_eq_true_iff⟩
  obtain ⟨pulses, -, -⟩ := pulses ended hended
  have owned : ∀ e ∈ u.flux.edges, ∃ d ∈ s.flux.edges, d.ordinal = e.ordinal := fun e he => by
    rcases (mem_clampEdges a x rc.windows l p e).mp (edgesU ▸ he) with ⟨h, -⟩ | ⟨d, hd, -, -, -, rfl⟩
    · exact ⟨e, flux ▸ h, rfl⟩
    · exact ⟨d, flux ▸ hd, rfl⟩
  refine ⟨⟨fun e he => ?_, fun e he => ?_, fun w hw => .inl ((activeIff w).mp hw).1, fun w hw => ?_, fun k y hy => .inl ?_,
    fun k y hy => ?_, .inl ?_, fun b => absurd b (not_begins same)⟩, same, fun o lt => absurd lt (not_gone ordinals o),
    fun e he => .inl (owned e he), fun w hw => .inl ((activeIff w).mp hw).1⟩
  · rcases (mem_clampEdges a x rc.windows l p e).mp (edgesU ▸ he) with ⟨h, -⟩ | ⟨d, hd, -, ⟨ordinal, closes, late⟩, -, rfl⟩
    · exact .inl (flux ▸ h)
    · exact .inr (.inr ⟨clamps _ ordinal, closes, d, flux ▸ hd, rfl, late⟩)
  · by_cases mine : e.ordinal = x.ordinal
    · exact .inr (.inr (.inr (.inl (clamps _ mine))))
    · exact .inl (edgesU.symm ▸ (mem_clampEdges a x rc.windows l p e).mpr (.inl ⟨flux ▸ he, fun h => mine h.1, fun h => mine h.1⟩))
  · by_cases mine : w.ordinal = x.ordinal
    · exact .inr (.inr (.inr (.inl (clamps _ mine))))
    · exact .inl ((activeIff w).mpr ⟨hw, fun h => mine h.1⟩)
  · rw [hu, pulses, Option.filter_eq_some_iff, flux] at hy
    exact hy.1
  · by_cases end_ : ended y = true
    · obtain ⟨w, hw, ordinal, -, out⟩ := (hended y).mp end_
      have mine : ClampEnds a x rc.windows l p w := by_contra fun c => out ((active w).mpr ⟨hw, c⟩)
      exact .inr (.inr (.inr (.inr (.inl (clamps _ (ordinal.symm.trans mine.1))))))
    · refine .inl ?_
      rw [hu, pulses, flux, hy, Option.filter_some, if_pos (by simpa using end_)]
  · rw [hu, purge]

/-! ## Every command -/

theorem trailed_op {s : State} {p : Pos} (ha : s.track.entryEye.accepted = true) :
    FluxOp (.eyeChangeAccepted .entry) s
      (State.handTrailing
        (State.takeTrail
          { s with track := { s.track.setEye .entry (s.track.eye .entry).accept with lastTrail := some p } } p)) := by
  obtain ⟨a, e⟩ : ∃ a : State, { s with
      track := { s.track.setEye .entry (s.track.eye .entry).accept with lastTrail := some p } } = a := ⟨_, rfl⟩
  have same : a.flux = s.flux ∧ a.ordinals = s.ordinals ∧ a.track.owner = s.track.owner ∧ a.track.records = s.track.records := by
    rw [← e]; exact ⟨rfl, rfl, rfl, rfl⟩
  have ordinals : (a.takeTrail p).handTrailing.ordinals = s.ordinals := (ordinals_of_tags (by simp)).trans same.2.1
  rw [e]
  rcases takeTrail_flux a p with flux | ⟨r, x, rc, l, b, v, ho, hr, ht, hx, -, -, before, -, clamped, purge, flux⟩
  · exact .of_same (by rw [flux_handTrailing, flux, same.1]) ordinals
  · exact clamped_op ha (same.2.2.1 ▸ ho) (same.2.2.2 ▸ hr) ht hx (before.trans same.1) clamped (purge.trans (by rw [same.1]))
      ((flux_handTrailing _).trans flux) ordinals

theorem SprayChange.op {s u : State} {c : Instr} (h : SprayChange s c u) : FluxOp c s u := by
  cases h with
  | same _ _ f o => exact .of_same f o
  | stops _ _ h hc => exact hc.op h
  | purges ws q n f o hp => exact startPurge_op ws n f o hp
  | closes _ _ h => exact h.op c
  | admits p h ha => exact admission_op rfl rfl rfl rfl ha
  | trailed p h ha => exact trailed_op ha
  | boundary => exact boundary_op rfl (ordinals_of_tags (by simp))
  | pulseEnds k v h hq => exact pulseEnd_op s h _

/-! ## The consequences of a step -/

/-- What the consequences of a step keep of the list, and what they do to the flux unit's. -/
structure SpraySettles (u t : State) : Prop where
  flux : FluxSettles u t
  tags : t.track.records.map Record.tag = u.track.records.map Record.tag
  pos : t.track.pos = u.track.pos
  ordinal : t.track.ordinal = u.track.ordinal

theorem FluxSettles.of_same {u t : State} (h : t.flux.spray = u.flux.spray) : FluxSettles u t := by
  simp only [Flux.spray, Prod.mk.injEq] at h
  obtain ⟨edges, active, pulses, purge, inhibit⟩ := h
  exact ⟨fun _ => ⟨edges, active, pulses, purge⟩, fun b => absurd b (not_begins inhibit)⟩

theorem ordinal_of_kept {s t : State} (h : Kept s t) : t.track.ordinal = s.track.ordinal :=
  congrArg (fun u => u.track.ordinal) h.core

theorem pos_of_kept {s t : State} (h : Kept s t) : t.track.pos = s.track.pos :=
  congrArg (fun u => u.track.pos) h.core

theorem Ending.spray (e : Ending) (u : State) : SpraySettles u (e.of u) := by
  have settled : SpraySettles u u.settle :=
    ⟨fluxSettles_settle u, tags_of_places (kept_settle u).places, pos_of_kept (kept_settle u), ordinal_of_kept (kept_settle u)⟩
  have evaluated : SpraySettles u u.settleEval :=
    ⟨fluxSettles_settleEval u, tags_of_places (kept_settleEval u).places, pos_of_kept (kept_settleEval u),
      ordinal_of_kept (kept_settleEval u)⟩
  have refreshed : ∀ t : State, t.writeClock.refresh.flux = t.flux ∧ t.writeClock.refresh.track = t.track := fun _ => ⟨rfl, rfl⟩
  have answered : ∀ (t : State) (a : Answer), (t.answer a).flux = t.flux ∧ (t.answer a).track = t.track := fun t a => by
    cases a <;> exact ⟨rfl, rfl⟩
  have after : ∀ {v w : State}, SpraySettles u v → w.flux = v.flux ∧ w.track = v.track → SpraySettles u w := fun {v w} h ⟨f, t⟩ => by
    obtain ⟨flux, tags, pos, ordinal⟩ := h
    refine ⟨⟨?_, ?_⟩, by rw [t]; exact tags, by rw [t]; exact pos, by rw [t]; exact ordinal⟩ <;> unfold InhibitBegins <;> rw [f]
    · exact flux.still
    · exact flux.begins
  induction e with
  | still => exact ⟨.of_same rfl, rfl, rfl, rfl⟩
  | settled => exact settled
  | evaluated => exact evaluated
  | interval => exact after evaluated (refreshed _)
  | answered e a ih => exact after ih (answered _ a)

theorem newest_of_tags {s t : State} (h : t.track.records.map Record.tag = s.track.records.map Record.tag) {r : Record}
    (hr : s.track.records.getLast? = some r) : ∃ q, t.track.records.getLast? = some q ∧ q.lead = r.lead := by
  have last := congrArg List.getLast? h
  rw [List.getLast?_map, List.getLast?_map, hr] at last
  obtain ⟨q, hq, tag⟩ := Option.map_eq_some_iff.mp last
  exact ⟨q, hq, (congrArg (fun x => x.2.2.2) tag :)⟩

/-- What a command does to the flux unit's lists, its consequences with it. -/
theorem FluxOp.settles {c : Instr} {s u t : State} (h : FluxOp c s u) (g : SpraySettles u t) : FluxStep c s t := by
  obtain ⟨⟨joins, leaves, opens, ends, starts, stops, purge, -⟩, inhibit, -, -, -⟩ := h
  obtain ⟨⟨still, begins⟩, tags, pos, ordinal⟩ := g
  have ordinals := ordinals_of_tags tags
  have begin_ : InhibitBegins s t ↔ InhibitBegins u t := by unfold InhibitBegins; rw [inhibit]
  have closed : ∀ o, RecordClosed s u o → RecordClosed s t o := fun o x => by
    have count : t.ordinals.count o = u.ordinals.count o := by rw [ordinals]
    exact count.trans_lt x
  have appends : Appends c s u → Appends c s t := fun ⟨a, b, x⟩ => ⟨a, b, ordinal.trans x⟩
  have edges : ∀ e ∈ t.flux.edges, e ∈ u.flux.edges := fun e he => by
    by_cases b : InhibitBegins u t
    · rw [(begins b).2.2.2] at he; exact List.mem_of_mem_filter he
    · rw [← (still b).1]; exact he
  have stays : ∀ e ∈ u.flux.edges, e ∈ t.flux.edges ∨ (InhibitBegins u t ∧ e.opens = false ∧
      ∃ w ∈ u.flux.active, w.ordinal = e.ordinal ∧ w.window = e.window) := fun e he => by
    by_cases b : InhibitBegins u t
    · by_cases out : e.opens = false ∧ ∃ w ∈ u.flux.active, w.ordinal = e.ordinal ∧ w.window = e.window
      · exact .inr ⟨b, out⟩
      · refine .inl ?_
        rw [(begins b).2.2.2, List.mem_filter]
        refine ⟨he, ?_⟩
        rw [← Bool.not_eq_false]
        intro x
        simp only [Bool.or_eq_false_iff, Bool.not_eq_false', List.any_eq_true, Bool.and_eq_true, beq_iff_eq] at x
        exact out x
    · rw [(still b).1]; exact .inl he
  refine ⟨fun e he => ?_, fun e he => ?_, fun w hw => ?_, fun w hw => ?_, fun k v hv => ?_, fun k v hv => ?_, ?_, fun b => ?_⟩
  · rcases joins e (edges e he) with h | ⟨a, o⟩ | h
    · exact .inl h
    · exact .inr (.inl ⟨appends a, o.trans ordinal.symm⟩)
    · exact .inr (.inr h)
  · rcases leaves e he with h | h | h | h | ⟨b, -⟩
    · rcases stays e h with h | ⟨b, closes, w, hw, own⟩
      · exact .inl h
      · rcases opens w hw with h | h
        · exact .inr (.inr (.inr (.inr ⟨begin_.mpr b, closes, w, h, own⟩)))
        · exact .inr (.inl h)
    · exact .inr (.inl h)
    · exact .inr (.inr (.inl (closed _ h)))
    · exact .inr (.inr (.inr (.inl h)))
    · exact absurd b (not_begins inhibit)
  · by_cases b : InhibitBegins u t
    · rw [(begins b).1] at hw; cases hw
    · rw [(still b).2.1] at hw; exact opens w hw
  · by_cases b : InhibitBegins u t
    · exact .inr (.inr (.inr (.inr (begin_.mpr b))))
    · rw [(still b).2.1]
      rcases ends w hw with h | h | h | h | b'
      · exact .inl h
      · exact .inr (.inl h)
      · exact .inr (.inr (.inl (closed _ h)))
      · exact .inr (.inr (.inr (.inl h)))
      · exact absurd b' (not_begins inhibit)
  · by_cases b : InhibitBegins u t
    · rw [(begins b).2.1 k] at hv; cases hv
    · rw [(still b).2.2.1] at hv; exact starts k v hv
  · by_cases b : InhibitBegins u t
    · exact .inr (.inr (.inr (.inr (.inr (.inl (begin_.mpr b))))))
    · rw [(still b).2.2.1]
      rcases stops k v hv with h | h | h | h | h | b' | h
      · exact .inl h
      · exact .inr (.inl h)
      · exact .inr (.inr (.inl h))
      · exact .inr (.inr (.inr (.inl (closed _ h))))
      · exact .inr (.inr (.inr (.inr (.inl h))))
      · exact absurd b' (not_begins inhibit)
      · exact .inr (.inr (.inr (.inr (.inr (.inr h)))))
  · by_cases b : InhibitBegins u t
    · exact .inr (.inr (.inr ⟨(begins b).2.2.1, .inr (.inl (begin_.mpr b))⟩))
    · rw [(still b).2.2.2]
      rcases purge with h | h | h | ⟨n, h | b' | h | ⟨a, r, hr, near⟩⟩
      · exact .inl h
      · exact .inr (.inl h)
      · exact .inr (.inr (.inl h))
      · exact .inr (.inr (.inr ⟨n, .inl h⟩))
      · exact absurd b' (not_begins inhibit)
      · exact .inr (.inr (.inr ⟨n, .inr (.inr (.inl h))⟩))
      · obtain ⟨q, hq, lead⟩ := newest_of_tags tags hr
        exact .inr (.inr (.inr ⟨n, .inr (.inr (.inr ⟨appends a, q, hq, by rw [pos, lead]; exact near⟩))⟩))
  · obtain ⟨active, pulses, none_, -⟩ := begins (begin_.mp b)
    exact ⟨active, pulses, none_⟩

theorem fluxStep_of_exec {c : Instr} {s t : State} (h : exec c s = .next t) (hp : c ≠ .portReset)
    (hr : ∀ ws, c ≠ .powerOnReset ws) : FluxStep c s t := by
  obtain ⟨e, u, effect, rfl⟩ := effect_of_exec h hp hr
  exact effect.spray.op.settles (e.spray u)

/-! ## The owners of edges and windows -/

theorem edgesOwned_iff (s : State) : EdgesOwned s ↔
    (∀ e ∈ s.flux.edges, e.ordinal ∈ s.ordinals) ∧ ∀ w ∈ s.flux.active, w.ordinal ∈ s.ordinals := by
  unfold EdgesOwned State.ordinals
  simp only [List.mem_map]

theorem FluxOp.edgesOwned {c : Instr} {s u : State} (h : FluxOp c s u) (hs : EdgesOwned s) : EdgesOwned u := by
  obtain ⟨-, -, gone, owned, opened⟩ := h
  rw [edgesOwned_iff] at *
  obtain ⟨edges, active⟩ := hs
  have stays : ∀ o ∈ s.ordinals, o ∉ u.ordinals → u.ordinals.count o < s.ordinals.count o := fun o mem out => by
    rw [List.count_eq_zero.mpr out]
    exact List.count_pos_iff.mpr mem
  refine ⟨fun e he => ?_, fun w hw => ?_⟩
  · rcases owned e he with ⟨d, hd, ho⟩ | h
    · by_contra out
      exact (gone _ (stays _ (ho ▸ edges d hd) out)).1 e he rfl
    · exact h
  · have mem : w.ordinal ∈ s.ordinals := by
      rcases opened w hw with h | ⟨e, he, ho⟩
      · exact active w h
      · exact ho ▸ edges e he
    by_contra out
    exact (gone _ (stays _ mem out)).2 w hw rfl

theorem SpraySettles.edges {u t : State} (h : SpraySettles u t) :
    t.flux.edges.Sublist u.flux.edges ∧ t.flux.active.Sublist u.flux.active := by
  obtain ⟨still, begins⟩ := h.flux
  by_cases b : InhibitBegins u t
  · obtain ⟨active, -, -, edges⟩ := begins b
    rw [edges, active]
    exact ⟨List.filter_sublist, List.nil_sublist _⟩
  · obtain ⟨edges, active, -, -⟩ := still b
    rw [edges, active]
    exact ⟨.refl _, .refl _⟩

theorem SpraySettles.edgesOwned {u t : State} (h : SpraySettles u t) (hu : EdgesOwned u) : EdgesOwned t := by
  obtain ⟨edges, active⟩ := h.edges
  rw [edgesOwned_iff] at *
  rw [ordinals_of_tags h.tags]
  exact ⟨fun e he => hu.1 e (edges.subset he), fun w hw => hu.2 w (active.subset hw)⟩

theorem exec_edgesOwned {c : Instr} {s t : State} (h : exec c s = .next t) (hs : EdgesOwned s) : EdgesOwned t := by
  rcases exec_reset_or_effect h with ⟨port, after⟩ | ⟨e, u, effect, rfl⟩
  · obtain ⟨x, -, flux⟩ := after.flux
    rw [edgesOwned_iff, flux]
    exact ⟨nofun, nofun⟩
  · exact (e.spray u).edgesOwned (effect.spray.op.edgesOwned hs)

end Sys2Proof.Machine
end



section
/-! The spray edges in order of position (R62). -/

namespace Sys2Proof.Machine

open Sys2Proof.Config

/-! ## Positions within half the range of one -/

/-- A position lies less than half the range ahead of `b` (R1). -/
def Ahead (b p : Pos) : Prop :=
  (p - b).toNat < 2 ^ 31

theorem atOrAfter_iff_of_ahead {b x y : Pos} (hx : Ahead b x) (hy : Ahead b y) :
    atOrAfter y x = true ↔ (x - b).toNat ≤ (y - b).toNat := by
  unfold Ahead at *
  unfold atOrAfter
  rw [decide_eq_true_iff]
  bv_omega

/-- Positions that stand in order. -/
def InOrder (l : List Edge) : Prop :=
  (l.map (·.pos)).Pairwise fun a b => atOrAfter b a = true

theorem inOrder_cons (e : Edge) (l : List Edge) : InOrder (e :: l) ↔ (∀ x ∈ l, atOrAfter x.pos e.pos = true) ∧ InOrder l := by
  unfold InOrder
  rw [List.map_cons, List.pairwise_cons, List.forall_mem_map]

theorem InOrder.sublist {l m : List Edge} (h : InOrder m) (s : l.Sublist m) : InOrder l :=
  List.Pairwise.sublist (s.map _) h

theorem inOrder_insertEdge {b : Pos} {e : Edge} {l : List Edge} (he : Ahead b e.pos) (hl : ∀ x ∈ l, Ahead b x.pos) (h : InOrder l) :
    InOrder (insertEdge e l) := by
  induction l with
  | nil => exact List.pairwise_singleton _ _
  | cons x l ih =>
    obtain ⟨first, rest⟩ := (inOrder_cons x l).mp h
    have hx := hl x List.mem_cons_self
    have hr : ∀ y ∈ l, Ahead b y.pos := fun y hy => hl y (List.mem_cons_of_mem x hy)
    unfold insertEdge
    split
    · next after =>
      refine (inOrder_cons x _).mpr ⟨fun y hy => ?_, ih hr rest⟩
      rcases (mem_insertEdge e y l).mp hy with rfl | hy
      · exact after
      · exact first y hy
    · next before =>
      rw [atOrAfter_iff_of_ahead hx he] at before
      refine (inOrder_cons e _).mpr ⟨fun y hy => ?_, h⟩
      rw [atOrAfter_iff_of_ahead he (hl y hy)]
      rcases List.mem_cons.mp hy with rfl | hy
      · omega
      · have later := first y hy
        rw [atOrAfter_iff_of_ahead hx (hr y hy)] at later
        omega

/-- Edges inserted one after the other. -/
theorem inOrder_inserts {b : Pos} {es l : List Edge} (he : ∀ e ∈ es, Ahead b e.pos) (hl : ∀ x ∈ l, Ahead b x.pos) (h : InOrder l) :
    InOrder (es.foldl (fun l e => insertEdge e l) l) := by
  induction es generalizing l with
  | nil => exact h
  | cons e es ih =>
    have first := he e List.mem_cons_self
    refine ih (fun x hx => he x (List.mem_cons_of_mem e hx)) (fun x hx => ?_) (inOrder_insertEdge first hl h)
    rcases (mem_insertEdge e x l).mp hx with rfl | hx
    · exact first
    · exact hl x hx

theorem ahead_add {b p : Pos} {n : Nat} (h : (p - b).toNat < 2 ^ 30) (hn : n ≤ 2 ^ 18) : Ahead b (p + BitVec.ofNat 32 n) := by
  unfold Ahead
  have e : p + BitVec.ofNat 32 n - b = (p - b) + BitVec.ofNat 32 n := by ring
  rw [e, BitVec.toNat_add, BitVec.toNat_ofNat]
  omega

theorem Ahead.of_quarter {b p : Pos} (h : (p - b).toNat < 2 ^ 30) : Ahead b p := by
  unfold Ahead
  omega

/-- The edges of a board, within a quarter of the range (R63). -/
theorem inOrder_insertWindows {b lead : Pos} {f : Nat} {o : BitVec 16} {ws : List Window} {k : Nat} {l : List Edge}
    (hl : ∀ x ∈ l, Ahead b x.pos) (h : InOrder l) (hp : (lead - b).toNat < 2 ^ 30) (hf : f ≤ 65535)
    (hw : ∀ w ∈ ws, w.start ≤ 600 ∧ w.stop ≤ 600) : InOrder (insertWindows lead f o k ws l) := by
  induction ws generalizing k l with
  | nil => exact h
  | cons w ws ih =>
    obtain ⟨start, stop⟩ := hw w List.mem_cons_self
    have edges : ∀ e ∈ windowEdges lead f o k w, Ahead b e.pos := fun e he => by
      rcases (mem_windowEdges lead f o k w e).mp he with rfl | rfl
      · exact ahead_add hp (by omega)
      · exact ahead_add hp (by omega)
    unfold insertWindows
    refine ih (fun x hx => ?_) (inOrder_inserts edges hl h) fun v hv => hw v (List.mem_cons_of_mem w hv)
    rcases (mem_foldl_insertEdge _ l x).mp hx with hx | hx
    · exact hl x hx
    · exact edges x hx

/-! ## A command -/

theorem barF_le (s : State) : s.ws.barF ≤ 65535 := by
  unfold Setup.barF Setup.word
  exact Nat.le_of_lt_succ (BitVec.isLt _)

theorem pending_of_due {s : State} {e : Eye} {p : Pos} (h : eyeDue s e = some p) : (s.track.eye e).pendingAt = some p := by
  unfold eyeDue at h
  split at h
  · next q hq =>
    split at h
    · rw [hq, Option.some.inj h]
    · cases h
  · cases h

/-- The edges that an admission makes of those before it. -/
theorem handLeading_edges_eq (s : State) (p : Pos) : (s.handLeading p).flux.edges = s.flux.edges ∨
    ∃ o, s.docket.offer = some o ∧ (s.handLeading p).docket.offer = none ∧ (s.handLeading p).flux.edges =
      if o.skipFlux then s.flux.edges
      else insertWindows p s.ws.barF (s.track.ordinal + 1) 0 o.recipe.windows s.flux.edges := by
  have ofOffer : ∀ (o : Offer) (b : Bool), (s.admitBoard p o b).flux.edges =
      if o.skipFlux then s.flux.edges
      else insertWindows p s.ws.barF (s.track.ordinal + 1) 0 o.recipe.windows s.flux.edges := fun o b => by
    have number := newRecord_ordinal s p o.origin (some o.binding) b
    obtain ⟨r, hr⟩ : ∃ r, newRecord s p o.origin (some o.binding) b = r := ⟨_, rfl⟩
    obtain ⟨v, hv⟩ : ∃ v, (s.append r).bindSlot o = v := ⟨_, rfl⟩
    have flux : v.flux = s.flux ∧ v.ws = s.ws := by rw [← hv, bindSlot_frame]; exact ⟨rfl, rfl⟩
    have e : (s.admitBoard p o b).flux.edges = (v.scheduleEdges r.ordinal p o).flux.edges := by rw [← hv, ← hr]; rfl
    rw [hr] at number
    rw [e, number, State.scheduleEdges]
    split
    · rw [flux.1]
    · rw [flux.1, flux.2]
  have gone : ∀ (o : Offer) (b : Bool), (s.admitBoard p o b).docket.offer = none := fun o b => by
    rw [(admitBoard_admits s p o b).docket]
    exact (bindSlot_docket s o).2.1
  unfold State.handLeading
  split
  · next o _ h => exact .inr ⟨o, h, gone _ _, ofOffer _ _⟩
  · next o _ h => exact .inr ⟨o, h, gone _ _, ofOffer _ _⟩
  · exact .inl rfl

theorem cutPulses_edges (s : State) (p : Pulse → Bool) (b : Bool) : (s.cutPulses p b).flux.edges = s.flux.edges := by
  rw [uncredited_frame (cutPulses_ends s p b).rest]

theorem SprayChange.inOrder {s u : State} {c : Instr} (h : SprayChange s c u) (comparable : EdgesComparable s)
    (hs : EdgesOrdered s) : EdgesOrdered u := by
  have less : u.flux.edges.Sublist s.flux.edges → EdgesOrdered u := fun x => InOrder.sublist hs x
  obtain ⟨b, edges, leads, pending, offers⟩ := comparable
  have near : ∀ x ∈ s.flux.edges, Ahead b x.pos := fun x hx => .of_quarter (edges x hx)
  cases h with
  | same _ _ f o =>
    have e : u.flux.edges = s.flux.edges := congrArg (fun v => v.1) f
    exact less (by rw [e])
  | stops _ _ hc h => exact less (by rw [h.edges])
  | purges ws q n f o hp =>
    have e : (q.startPurge n).flux.edges = (q.cutPulses (fun _ => true) true).flux.edges := rfl
    exact less (by rw [e, cutPulses_edges, f])
  | closes _ _ h =>
    obtain ⟨os, h⟩ := h
    exact less (h.edges ▸ List.filter_sublist)
  | admits p h ha =>
    obtain ⟨a, e⟩ : ∃ a : State, { s with track := s.track.setEye .entry (s.track.eye .entry).accept } = a := ⟨_, rfl⟩
    have same : a.flux = s.flux ∧ a.docket = s.docket ∧ a.ws = s.ws := by rw [← e]; exact ⟨rfl, rfl, rfl⟩
    rw [e]
    unfold EdgesOrdered
    rw [(appendAtBar_lists _).1]
    rcases handLeading_edges_eq a p with h' | ⟨o, ho, -, h'⟩ <;> rw [h', same.1]
    · exact hs
    · split
      · exact hs
      · rw [same.2.1] at ho
        rw [same.2.2]
        exact inOrder_insertWindows near hs (pending p (pending_of_due h)) (barF_le s) (offers o ho)
  | trailed p h ha =>
    obtain ⟨a, e⟩ : ∃ a : State, { s with
        track := { s.track.setEye .entry (s.track.eye .entry).accept with lastTrail := some p } } = a := ⟨_, rfl⟩
    have same : a.flux = s.flux ∧ a.track.records = s.track.records ∧ a.ws = s.ws := by rw [← e]; exact ⟨rfl, rfl, rfl⟩
    rw [e]
    unfold EdgesOrdered
    rw [flux_handTrailing]
    rcases takeTrail_flux a p with flux | ⟨r, x, rc, l, q, v, ho, hr, ht, hx, -, hl, before, -, clamped, -, flux⟩
    · rw [flux, same.1]
      exact hs
    · have edges' : q.flux.edges = s.flux.edges := by rw [before, same.1]
      rw [flux, clamped.edges]
      unfold clampEdges
      dsimp only
      rw [edges']
      have lead := leads r (same.2.1 ▸ List.mem_of_getLast? hr)
      have kept : ∀ (f : Edge → Bool) (l : List Edge), InOrder l → InOrder (l.filter f) := fun f l h =>
        h.sublist List.filter_sublist
      refine inOrder_inserts (b := b) (fun y hy => ?_) (fun y hy => ?_) (kept _ _ (kept _ _ hs))
      · obtain ⟨d, -, rfl⟩ := List.mem_map.mp hy
        rw [same.2.2]
        exact ahead_add lead (by have := barF_le s; omega)
      · exact near y (List.mem_of_mem_filter (List.mem_of_mem_filter hy))
  | boundary => exact less (boundary_lists rfl).1
  | pulseEnds k v h hq =>
    obtain ⟨a, ha⟩ : ∃ a, (s.advance (v.q - elapsed v.start s.clock)).endPulse k v v.q true = a := ⟨_, rfl⟩
    have e : a.flux.edges = s.flux.edges := by rw [← ha]; rfl
    have held : (a.holdValve k v).flux.edges = a.flux.edges := by unfold State.holdValve; split <;> rfl
    refine less ?_
    rw [ha, held, e]

theorem exec_edgesOrdered {c : Instr} {s t : State} (h : exec c s = .next t) (comparable : EdgesComparable s) (hs : EdgesOrdered s) :
    EdgesOrdered t := by
  rcases exec_reset_or_effect h with ⟨port, after⟩ | ⟨e, u, effect, rfl⟩
  · obtain ⟨x, -, flux⟩ := after.flux
    unfold EdgesOrdered
    rw [flux]
    exact List.Pairwise.nil
  · exact InOrder.sublist (effect.spray.inOrder comparable hs) (e.spray u).edges.1

end Sys2Proof.Machine
end



section
/-! The docket unit's findings after it has formed them (R22 to R26): the scan comes to its end, and the next board is that of a
recipe that passed. -/

namespace Sys2Proof.Machine

open Sys2Proof.Config

/-! ## The scan comes to its end (R25) -/

theorem postedSlots_badRejected {s : State} {n : SlotIx} {others : List SlotIx} (x : SlotIx)
    (h : x ∈ postedSlots (s.badRejected n others)) : x ∈ postedSlots s ∧ x ≠ n := by
  obtain ⟨u, hu⟩ : ∃ u, (s.roundRejected others).rejectSlots [n] .badRecipe = u := ⟨_, rfl⟩
  have e : s.badRejected n others = u.setExpected (s.docket.expected + 1) := by rw [← hu]; rfl
  have word : (u.setExpected (s.docket.expected + 1)).mem.read (slotAt x) = u.mem.read (slotAt x) := by
    have b := slotAt_bounds x
    unfold State.setExpected
    rw [Memory.read_write, if_neg (by unfold mirrorEAt; omega)]
  rw [e] at h
  obtain ⟨wait, held⟩ := (mem_postedSlots _ x).mp h
  have posted : x ∈ postedSlots u := (mem_postedSlots u x).mpr ⟨(slotState_congr word).symm.trans wait, held⟩
  rw [← hu, mem_postedSlots_rejectSlots, State.roundRejected, mem_postedSlots_rejectSlots, State.staleRejected,
    mem_postedSlots_rejectSlots] at posted
  exact ⟨posted.1.1.1, fun c => posted.2 (List.mem_singleton.mpr c)⟩

theorem nodup_postedSlots (s : State) : (postedSlots s).Nodup := allSlots_nodup.filter _

/-- A round that finds a bad recipe leaves fewer slots that wait. -/
theorem postedSlots_shrinks {s : State} {n : SlotIx} {others : List SlotIx} (h : slotsAtE s = n :: others) :
    (postedSlots (s.badRejected n others)).length < (postedSlots s).length := by
  have mem : n ∈ postedSlots s := by
    have at' : n ∈ slotsAtE s := by rw [h]; exact List.mem_cons_self
    exact (mem_postedSlots s n).mpr ((mem_slotsAtE s n).mp at').1
  have nodup : (n :: postedSlots (s.badRejected n others)).Nodup :=
    List.nodup_cons.mpr ⟨fun c => (postedSlots_badRejected n c).2 rfl, nodup_postedSlots _⟩
  have sub : (n :: postedSlots (s.badRejected n others)) ⊆ postedSlots s := fun x hx => by
    rcases List.mem_cons.mp hx with rfl | hx
    · exact mem
    · exact (postedSlots_badRejected x hx).1
  exact (nodup.subperm sub).length_le

theorem scanDone_slotScan {s : State} {k : Nat} (hs : s.docket.source = .docket) (hl : s.loaded = true)
    (room : (postedSlots s).length < k) : ScanDone (s.slotScan k) := by
  induction k generalizing s with
  | zero => omega
  | succ k ih =>
    cases h : slotsAtE s with
    | nil => exact scanDone_none hs hl h k
    | cons n others =>
      by_cases v : verdictAt s n = .bad
      · have fewer := postedSlots_shrinks h
        have kept : Kept s (s.badRejected n others) :=
          ((kept_roundRejected s others).trans (kept_rejectSlot _ _ _)).trans (kept_setExpected _ _)
        rw [(slotScan_found h k).2 v]
        refine ih ?_ ((loaded_of_kept kept).trans hl) (by omega)
        exact (congrArg Docket.source (docket_roundRejected s others) :).trans hs
      · exact scanDone_found hs hl h v k

theorem postedSlots_length (s : State) : (postedSlots s).length ≤ 64 := List.length_filter_le _ _

/-! ## The findings, formed -/

/-- The findings of the standing recipe (R26, R29). -/
def State.standingFound (s : State) (n : Fin 16) : State :=
  s.findings none (if s.loaded then (judgeRecipe s.mem s.port.setup n.val).board false else none) (!s.loaded)
    ((judgeRecipe s.mem s.port.setup n.val).board false).isNone (standingSlot s).isNone

/-- The findings are those that their source gives (R22, R26). -/
structure Found (s : State) : Prop where
  scanned : s.docket.source = .docket → s.loaded = true → ScanDone s
  unloaded : s.docket.source = .docket → s.loaded = false → s.docket = (s.findings none none true false false).docket
  standing : ∀ n, s.docket.source = .standing n → s.docket = (s.standingFound n).docket

theorem reformDocket_eq {s : State} (ho : s.gate.state ≠ .opened) (hn : s.gate.state ≠ .late) :
    (s.docket.source = .docket → s.loaded = true → s.reformDocket = s.slotScan 65) ∧
      (s.docket.source = .docket → s.loaded = false → s.reformDocket = s.findings none none true false false) ∧
      ∀ n, s.docket.source = .standing n → s.reformDocket = s.standingFound n := by
  unfold State.reformDocket State.standingFound
  split
  · next g => exact absurd g ho
  · next g => exact absurd g hn
  · refine ⟨fun hs hl => ?_, fun hs hl => ?_, fun n hs => ?_⟩ <;> rw [hs]
    · exact if_pos hl
    · exact if_neg (by simp [hl])
    · dsimp only
      cases judgeRecipe s.mem s.port.setup n.val with
      | bad => simp [Verdict.board]
      | editing => simp [Verdict.board]
      | ready r => simp [Verdict.board]

/-- Where no offer is fixed, the docket unit forms its findings. -/
theorem reformDocket_found {s : State} (ho : s.gate.state ≠ .opened) (hn : s.gate.state ≠ .late) : Found s.reformDocket := by
  obtain ⟨scan, unloaded, standing⟩ := reformDocket_eq ho hn
  cases hs : s.docket.source with
  | docket =>
    cases hl : s.loaded with
    | true =>
      have done := scanDone_slotScan hs hl (Nat.lt_succ_of_le (postedSlots_length s))
      rw [scan hs hl]
      exact ⟨fun _ _ => done, fun _ l => absurd (done.loaded.symm.trans l) (by decide),
        fun n h => absurd (done.source.symm.trans h) (by simp)⟩
    | false =>
      rw [unloaded hs hl]
      have loaded : (s.findings none none true false false).loaded = false := hl
      have source : (s.findings none none true false false).docket.source = .docket := hs
      exact ⟨fun _ l => absurd (loaded.symm.trans l) (by decide), fun _ _ => rfl, fun n h => absurd (source.symm.trans h) (by simp)⟩
  | standing n =>
    rw [standing n hs]
    have source : (s.standingFound n).docket.source = .standing n := hs
    refine ⟨fun h => absurd (source.symm.trans h) (by simp), fun h => absurd (source.symm.trans h) (by simp), fun m h => ?_⟩
    obtain rfl : n = m := by simpa using source.symm.trans h
    rfl

/-- Findings that are formed are formed again the same. -/
theorem Found.fixed {s : State} (h : Found s) : s.reformDocket = s := by
  by_cases ho : s.gate.state = .opened
  · unfold State.reformDocket; rw [ho]
  · by_cases hn : s.gate.state = .late
    · unfold State.reformDocket; rw [hn]
    · obtain ⟨-, unloaded, standing⟩ := reformDocket_eq ho hn
      cases hs : s.docket.source with
      | docket =>
        cases hl : s.loaded with
        | true => exact (h.scanned hs hl).fixed
        | false => rw [unloaded hs hl]; exact State.findings_self (h.unloaded hs hl)
      | standing n => rw [standing n hs]; exact State.findings_self (h.standing n hs)

theorem standingSlot_congr {s t : State} (h : Aside s t) (ho : t.docket.offer = s.docket.offer) : standingSlot t = standingSlot s := by
  have held : t.docket.held = s.docket.held := by rw [h.docket]
  unfold standingSlot
  rw [ho, held]
  congr 1
  funext n
  rw [slotState_congr (h.read n 0)]

theorem Found.of_aside {s t : State} (h : Found s) (a : Aside s t) (ho : t.docket.offer = s.docket.offer) : Found t := by
  have docket : t.docket = s.docket := by
    rw [a.docket, ho]
  have loaded : t.loaded = s.loaded := by unfold State.loaded; rw [a.setup]
  refine ⟨fun hs hl => (h.scanned (docket ▸ hs) (loaded ▸ hl)).of_aside a, fun hs hl => ?_, fun n hs => ?_⟩
  · have found := h.unloaded (docket ▸ hs) (loaded ▸ hl)
    unfold State.findings at found ⊢
    rw [docket]
    exact found
  · have found := h.standing n (docket ▸ hs)
    unfold State.standingFound State.findings at found ⊢
    rw [docket, loaded, a.judge, standingSlot_congr a ho]
    exact found

/-! ## The next board -/

theorem judgeRecipe_ready {m : Memory} {st : Option Setup} {i : Nat} {r : Recipe} (h : judgeRecipe m st i = .ready r) :
    i ≤ 15 ∧ recipeState m i = .ready ∧ r = readRecipe m i ∧ r.passes st = true := by
  unfold judgeRecipe at h
  split at h
  · cases h
  · next hi =>
    split at h
    · cases h
    · cases h
    · next hr =>
      split at h
      · next hp =>
        obtain rfl := (Verdict.ready.injEq _ _ ▸ h : _ = r)
        exact ⟨by omega, hr, rfl, hp⟩
      · cases h

/-- The next board is of a recipe that passed (R25, R26): of the candidate's slot, or the standing one. -/
theorem Found.next {s : State} (h : Found s) {b : NextBoard} (hb : s.docket.next = some b) : s.loaded = true ∧
    ((∃ n, s.docket.source = .docket ∧ s.docket.candidate = some n ∧ slotsAtE s = [n] ∧ verdictAt s n = .ready b.recipe ∧
        b.skipFlux = slotSkipFlux s.mem n) ∨
      ∃ k, s.docket.source = .standing k ∧ judgeRecipe s.mem s.port.setup k.val = .ready b.recipe ∧ b.skipFlux = false) := by
  cases hs : s.docket.source with
  | docket =>
    cases hl : s.loaded with
    | true =>
      refine ⟨rfl, .inl ?_⟩
      rcases (h.scanned hs hl).found with ⟨-, e⟩ | ⟨n, list, -, e⟩
      · rw [e] at hb; cases hb
      · have next : (verdictAt s n).board (slotSkipFlux s.mem n) = some b := by rw [e] at hb; exact hb
        have candidate : s.docket.candidate = some n := by rw [e]; rfl
        obtain ⟨verdict, skip⟩ := (Verdict.board_iff _ _ _).mp next
        exact ⟨n, rfl, candidate, list, verdict, skip⟩
    | false =>
      rw [h.unloaded hs hl] at hb
      cases hb
  | standing k =>
    have e := h.standing k hs
    have next : (if s.loaded then (judgeRecipe s.mem s.port.setup k.val).board false else none) = some b := by rw [e] at hb; exact hb
    split at next
    · next hl =>
      obtain ⟨verdict, skip⟩ := (Verdict.board_iff _ _ _).mp next
      exact ⟨hl, .inr ⟨k, rfl, verdict, skip⟩⟩
    · cases next

theorem readRecipe_windows (m : Memory) (i : Nat) : (readRecipe m i).windows.length ≤ (readRecipe m i).windowCount := by
  unfold readRecipe
  simp

theorem Found.windows {s : State} (h : Found s) {b : NextBoard} (hb : s.docket.next = some b) :
    b.recipe.windows.length ≤ b.recipe.windowCount := by
  obtain ⟨-, ⟨n, -, -, -, verdict, -⟩ | ⟨k, -, verdict, -⟩⟩ := h.next hb
  · rw [(judgeRecipe_ready verdict).2.2.1]; exact readRecipe_windows _ _
  · rw [(judgeRecipe_ready verdict).2.2.1]; exact readRecipe_windows _ _

/-- The offer takes the next board (R33). -/
theorem Found.makeOffer {s : State} (h : Found s) {o : Offer} (ho : s.makeOffer = some o) :
    ∃ b, s.docket.next = some b ∧ b.recipe = o.recipe ∧ b.skipFlux = o.skipFlux := by
  unfold State.makeOffer at ho
  split at ho
  · next b hs hb =>
    obtain ⟨n, hn, rfl⟩ := Option.map_eq_some_iff.mp ho
    refine ⟨b, hb, rfl, ?_⟩
    obtain ⟨-, ⟨m, -, candidate, -, -, skip⟩ | ⟨k, source, -⟩⟩ := h.next hb
    · obtain rfl := Option.some.inj (candidate.symm.trans hn)
      exact skip
    · rw [source] at hs; cases hs
  · next k b hs hb =>
    obtain ⟨n, -, rfl⟩ := Option.map_eq_some_iff.mp ho
    refine ⟨b, hb, rfl, ?_⟩
    obtain ⟨-, ⟨m, source, -⟩ | ⟨j, -, -, skip⟩⟩ := h.next hb
    · rw [source] at hs; cases hs
    · exact skip
  · cases ho

end Sys2Proof.Machine
end



section
/-! The spray list within its bound (R62 to R64), and the statement of the tank, the spray list and the shot history. -/

namespace Sys2Proof.Machine

open Sys2Proof.Config

/-! ## The consequences of a step -/

theorem Move.edges {s t : State} (m : Move s t) : t.flux.edges.Sublist s.flux.edges := by
  have inhibit : s.reformInhibit.flux.edges.Sublist s.flux.edges := by
    by_cases h : s.flux.inhibit ≠ [] ∨ inhibitReasons s = []
    · rw [reformInhibit_still h]
    · push Not at h
      rw [reformInhibit_begins h.1 h.2]
      have cut := (endPurge_lists (s.cutPulses (fun _ => true) true)).1.trans (cutPulses_edges s _ true)
      have e : s.beginInhibit.flux.edges = (s.cutPulses (fun _ => true) true).endPurge.flux.edges.filter fun e =>
        !closesOneOf (s.cutPulses (fun _ => true) true).endPurge.flux.active e := rfl
      show s.beginInhibit.flux.edges.Sublist _
      rw [e, cut]
      exact List.filter_sublist
  cases m with
  | inhibit => exact inhibit
  | _ => simp

theorem Moves.edges {s t : State} (m : Moves s t) : t.flux.edges.Sublist s.flux.edges :=
  m.lift (R := fun s t => t.flux.edges.Sublist s.flux.edges) (fun _ => .refl _) (fun h g => g.trans h) Move.edges

/-- What gate evaluations and the other stages keep holds over the consequences of a step. -/
theorem lift_turns {P : State → Prop} (aside : ∀ {s t}, Moves s t → GateAside s t → P s → P t)
    (eval : ∀ {s}, P s → P s.gateEval) {s : State} (h : P s) : P s.settle ∧ P s.settleEval := by
  have stage : ∀ {u : State}, P u → P u.gateStage := fun {u} x => by
    rcases State.gateStage_cases u with e | e | e | e <;> rw [e]
    · exact x
    · exact eval x
    · exact aside (moves_changeover 8 u) (gateAside_changeover 8 u) x
    · exact eval (aside (moves_changeover 8 u) (gateAside_changeover 8 u) x)
  have reform : ∀ {u : State}, P u → P u.reform := fun {u} => aside (moves_reform u) (gateAside_reform u)
  have settle : ∀ {u : State}, P u → P u.settle := fun x => reform (stage (reform (stage (reform x))))
  exact ⟨settle h, settle (eval (reform h))⟩

/-! ## The gate evaluation -/

/-- The state in which a gate evaluation forms the hold set. -/
def State.evalView (s : State) : State :=
  s.reformDocket.takeClass.changeover 8

theorem gateEval_eq (s : State) : s.gateEval = s.evalView.takeHolds.gateTransition := rfl

theorem aside_evalView (s : State) : Aside s.reformDocket s.evalView :=
  (Aside.of_same (t := s.reformDocket.takeClass) (by simp) (by simp) (by simp)).trans (aside_changeover 8 _)

theorem evalView_found {s : State} (ho : s.gate.state ≠ .opened) (hn : s.gate.state ≠ .late) : Found s.evalView := by
  have offer : s.evalView.docket.offer = s.reformDocket.docket.offer := by
    have first : s.reformDocket.takeClass.docket.offer = s.reformDocket.docket.offer := by simp
    exact (gateAside_changeover 8 _).offer.trans first
  exact (reformDocket_found ho hn).of_aside (aside_evalView s) offer

theorem Found.of_docket {s t : State} (h : Found s) (hd : t.docket = s.docket) (hm : t.mem = s.mem) (hp : t.port.setup = s.port.setup) :
    Found t :=
  h.of_aside (.of_same hd hm hp) (by rw [hd])

/-- The gate opens on an offer for which the spray list has room (R64, Table 3-2). -/
theorem opened_room {s : State} {o : Offer} (found : Found s) (hg : s.gate.state = .closed) (empty : formHolds s = [])
    (ho : s.makeOffer = some o) (hs : o.skipFlux = false) (hl : s.flux.edges.length ≤ 32) :
    s.flux.edges.length + 2 * o.recipe.windows.length ≤ 32 := by
  obtain ⟨b, hb, recipe, skip⟩ := found.makeOffer ho
  have windows := found.windows hb
  have next : s.nextBoard = some b := by unfold State.nextBoard; rw [hg]; exact hb
  have room : ¬ edgeRoomHold s = true := fun c => by
    have mem : HoldReason.edgeRoom ∈ formHolds s := (mem_formHolds s _).mpr c
    rw [empty] at mem
    cases mem
  rw [edgeRoomHold_iff] at room
  have enough : 2 * b.recipe.windowCount ≤ 32 - s.flux.edges.length := by
    by_contra c
    exact room ⟨b, next, skip.trans hs, Nat.lt_of_not_le c⟩
  rw [← recipe]
  omega

theorem gateEval_edgesBounded {s : State} (h : EdgesBounded s) : EdgesBounded s.gateEval := by
  rw [gateEval_eq]
  have moves : Moves s s.evalView :=
    ((moves_reformDocket s).then (.phase _ _ _ _)).trans (moves_changeover 8 _)
  have less := moves.edges.length_le
  have aside := gateAside_scan s
  have found := @evalView_found s
  obtain ⟨u, hu⟩ : ∃ u, s.evalView = u := ⟨_, rfl⟩
  rw [hu] at less found ⊢
  have aside : GateAside s u := hu ▸ aside
  obtain ⟨bound, room⟩ := h
  have before : EdgesBounded u := ⟨less.trans bound, fun o ho hs => by
    rw [aside.offer] at ho
    have := room o ho hs
    omega⟩
  unfold State.gateTransition
  split
  · next g =>
    have closed : u.gate.state = .closed := g
    split
    · next empty =>
      have none_ : formHolds u = [] := List.isEmpty_iff.mp empty
      unfold State.openGate
      split
      · next o ho =>
        refine ⟨before.1, fun x hx hs => ?_⟩
        obtain rfl : o = x := Option.some.inj hx
        have state : s.gate.state = .closed := aside.gate.state.symm.trans closed
        exact opened_room (s := u) (found (by rw [state]; decide) (by rw [state]; decide)) closed none_ ho hs before.1
      · exact before
    · exact before
  · split
    · exact before
    · split
      · exact ⟨before.1, fun o ho => by cases ho⟩
      · exact before
  · split
    · exact ⟨before.1, fun o ho => by cases ho⟩
    · exact before
  · exact before

theorem Ending.edgesBounded (e : Ending) {u : State} (h : EdgesBounded u) : EdgesBounded (e.of u) := by
  have lift := lift_turns (P := EdgesBounded) (fun m a x => by
    obtain ⟨bound, room⟩ := x
    have less := m.edges.length_le
    refine ⟨less.trans bound, fun o ho hs => ?_⟩
    rw [a.offer] at ho
    have := room o ho hs
    omega) gateEval_edgesBounded h
  have same : ∀ {v w : State}, w.flux = v.flux → w.docket = v.docket → EdgesBounded v → EdgesBounded w := fun f d x => by
    unfold EdgesBounded at *
    rw [f, d]
    exact x
  have refreshed : ∀ v : State, v.writeClock.refresh.flux = v.flux ∧ v.writeClock.refresh.docket = v.docket := fun _ => ⟨rfl, rfl⟩
  have answered : ∀ (v : State) (a : Answer), (v.answer a).flux = v.flux ∧ (v.answer a).docket = v.docket := fun v a => by
    cases a <;> exact ⟨rfl, rfl⟩
  induction e with
  | still => exact h
  | settled => exact lift.1
  | evaluated => exact lift.2
  | interval => exact same (refreshed _).1 (refreshed _).2 lift.2
  | answered e a ih => exact same (answered _ a).1 (answered _ a).2 ih

/-! ## A command -/

theorem insertEdge_length (e : Edge) (l : List Edge) : (insertEdge e l).length = l.length + 1 := by
  induction l with
  | nil => rfl
  | cons x l ih =>
    unfold insertEdge
    split
    · rw [List.length_cons, ih, List.length_cons]
    · rfl

theorem inserts_length (es l : List Edge) : (es.foldl (fun l e => insertEdge e l) l).length = l.length + es.length := by
  induction es generalizing l with
  | nil => rfl
  | cons e es ih =>
    rw [List.foldl_cons, ih, insertEdge_length, List.length_cons]
    omega

theorem insertWindows_length (lead : Pos) (f : Nat) (o : BitVec 16) (ws : List Window) (k : Nat) (l : List Edge) :
    (insertWindows lead f o k ws l).length = l.length + 2 * ws.length := by
  induction ws generalizing k l with
  | nil => rfl
  | cons w ws ih =>
    have two : (windowEdges lead f o k w).length = 2 := rfl
    rw [insertWindows, ih, inserts_length, two, List.length_cons]
    omega

theorem filter_split_length (l : List Edge) (late f : Edge → Bool) :
    (l.filter fun e => !late e).length + (l.filter fun e => late e && f e).length ≤ l.length := by
  have split : l.length = (l.filter late).length + (l.filter fun e => !late e).length := List.length_eq_length_filter_add late
  have moved : (l.filter fun e => late e && f e).length ≤ (l.filter late).length :=
    (List.monotone_filter_right l (p := fun e => late e && f e) (q := late) fun e h => (Bool.and_eq_true_iff.mp h).1).length_le
  omega

theorem clampEdges_length (s : State) (r : Record) (ws : List Window) (l : Nat) (p : Pos) :
    (clampEdges s r ws l p).length ≤ s.flux.edges.length := by
  unfold clampEdges
  dsimp only
  rw [inserts_length, List.length_map]
  exact (filter_split_length _ _ _).trans (List.length_filter_le _ _)

theorem Effect.offer {s u : State} {c : Instr} {e : Ending} (h : Effect s c e u) :
    u.docket.offer = s.docket.offer ∨ u.docket.offer = none := by
  have view : ∀ {a b : State}, b.listView = a.listView → b.docket.offer = a.docket.offer := fun h => congrArg (fun v => v.2.2) h
  rcases h.listView with same | change
  · exact .inl (view same)
  · refine change.cases (P := fun x => x.docket.offer = s.docket.offer ∨ x.docket.offer = none) (fun e x => by rw [view e]; exact x)
      (fun _ => .inr rfl) (fun l x => by rw [l.offer]; exact x) (fun _ _ _ _ j => ?_) (.inl rfl)
    rcases j.taken with ⟨o, -, -, -, h⟩ | ⟨-, -, h⟩
    · exact .inr h
    · exact .inl h

theorem Effect.edgesBounded {s u : State} {c : Instr} {e : Ending} (h : Effect s c e u) (hs : EdgesBounded s) : EdgesBounded u := by
  have offer := h.offer
  obtain ⟨bound, room⟩ := hs
  have less : u.flux.edges.length ≤ s.flux.edges.length → EdgesBounded u := fun x => by
    refine ⟨x.trans bound, fun o ho hf => ?_⟩
    rcases offer with same | none_
    · have := room o (same ▸ ho) hf
      omega
    · rw [none_] at ho; cases ho
  cases h.spray with
  | same _ _ f o =>
    have e : u.flux.edges = s.flux.edges := congrArg (fun v => v.1) f
    exact less (by rw [e])
  | stops _ _ hc h => exact less (by rw [h.edges])
  | purges ws q n f o hp =>
    have e : (q.startPurge n).flux.edges = (q.cutPulses (fun _ => true) true).flux.edges := rfl
    exact less (by rw [e, cutPulses_edges, f])
  | closes _ _ h =>
    obtain ⟨os, h⟩ := h
    exact less (h.edges ▸ List.length_filter_le _ _)
  | admits p h ha =>
    obtain ⟨a, e⟩ : ∃ a : State, { s with track := s.track.setEye .entry (s.track.eye .entry).accept } = a := ⟨_, rfl⟩
    have same : a.flux = s.flux ∧ a.docket = s.docket := by rw [← e]; exact ⟨rfl, rfl⟩
    rw [e] at less ⊢
    have edges := (appendAtBar_lists (a.handLeading p)).1
    have same' : (a.handLeading p).appendAtBar.docket = (a.handLeading p).docket := by simp
    rcases handLeading_edges_eq a p with h' | ⟨o, ho, gone, h'⟩
    · exact less (by rw [edges, h', same.1])
    · rw [same.2] at ho
      refine ⟨?_, fun x hx => ?_⟩
      · rw [edges, h', same.1]
        split
        · exact bound
        · next hf =>
          rw [insertWindows_length]
          exact room o ho (by simpa using hf)
      · rw [same', gone] at hx; cases hx
  | trailed p h ha =>
    obtain ⟨a, e⟩ : ∃ a : State, { s with
        track := { s.track.setEye .entry (s.track.eye .entry).accept with lastTrail := some p } } = a := ⟨_, rfl⟩
    have same : a.flux = s.flux := by rw [← e]
    rw [e] at less ⊢
    refine less ?_
    rw [flux_handTrailing]
    rcases takeTrail_flux a p with flux | ⟨r, x, rc, l, q, v, -, -, -, -, -, -, before, -, clamped, -, flux⟩
    · rw [flux, same]
    · rw [flux, clamped.edges]
      exact (clampEdges_length _ _ _ _ _).trans (by rw [before, same])
  | boundary => exact less (boundary_lists rfl).1.length_le
  | pulseEnds k v h hq =>
    obtain ⟨a, ha⟩ : ∃ a, (s.advance (v.q - elapsed v.start s.clock)).endPulse k v v.q true = a := ⟨_, rfl⟩
    have e : a.flux.edges = s.flux.edges := by rw [← ha]; rfl
    have held : (a.holdValve k v).flux.edges = a.flux.edges := by unfold State.holdValve; split <;> rfl
    rw [ha] at less ⊢
    exact less (by rw [held, e])

theorem exec_edgesBounded {c : Instr} {s t : State} (h : exec c s = .next t) (hs : EdgesBounded s) : EdgesBounded t := by
  rcases exec_reset_or_effect h with ⟨port, after⟩ | ⟨e, u, effect, rfl⟩
  · obtain ⟨x, -, flux⟩ := after.flux
    have offer : t.docket.offer = none := congrArg (fun v => v.2.2) after.listView
    refine ⟨?_, fun o ho => by rw [offer] at ho; cases ho⟩
    rw [flux]
    exact Nat.zero_le _
  · exact e.edgesBounded (effect.edgesBounded hs)

/-! ## The statement -/

/-- Settles O12: each rule over a reset, a command's effect and its consequences, and a millisecond. -/
theorem tankBoundIsKept : Obligations.TankBoundIsKept := by
  refine ⟨fun s t h => ?_, fun c s t h hp hr => ⟨tankStep_of_exec h hp hr, fluxStep_of_exec h hp hr⟩, fluxSettles_settle⟩
  have ages : s.pending = [] → AgesFormed s → AgesFormed t := fun hq => step_agesFormed hq h
  refine ⟨?_, ?_, ?_, ?_, ?_, ?_, ?_, ages⟩ <;> rcases step_cases h with ⟨c, l, run⟩ | rfl
  · exact fun hs => exec_tankBounded run hs
  · exact id
  · exact fun hs => exec_lowFormed run hs
  · exact id
  · exact fun hs => exec_setupChecked run hs
  · exact id
  · exact fun hc hs => exec_historyBounded run hc hs
  · exact fun _ => id
  · exact fun hs => exec_edgesBounded run hs
  · exact id
  · exact fun hc hs => exec_edgesOrdered run hc hs
  · exact fun _ => id
  · exact fun hs => exec_edgesOwned run hs
  · exact id

end Sys2Proof.Machine
end



section
/-! The targets that no rule gives stay (R107, R126). -/

namespace Sys2Proof.Machine

open Sys2Proof.Config

/-! ## Candidates by the places of the records (R104) -/

/-- A test of records that looks at their places alone. -/
def ByPlace (f : Record → Bool) : Prop :=
  ∀ r q : Record, q.place = r.place → f q = f r

theorem all_of_places {f : Record → Bool} (hf : ByPlace f) {rs qs : List Record} (h : qs.map Record.place = rs.map Record.place)
    (hr : ∀ r ∈ rs, f r = false) : ∀ q ∈ qs, f q = false := fun q hq => by
  have mem : q.place ∈ rs.map Record.place := h ▸ List.mem_map_of_mem hq
  obtain ⟨r, hr', e⟩ := List.mem_map.mp mem
  rw [hf r q e.symm]
  exact hr r hr'

theorem place_fields {r q : Record} (h : q.place = r.place) : q.origin = r.origin ∧ q.lead = r.lead ∧ q.trail = r.trail ∧
    q.ordinal = r.ordinal ∧ q.binding = r.binding ∧ q.stage = r.stage := by
  simp only [Record.place, Prod.mk.injEq] at h
  obtain ⟨ordinal, origin, binding, lead, trail, stage⟩ := h
  exact ⟨origin, lead, trail, ordinal, binding, stage⟩

theorem overStretch_of_place {r q : Record} (h : q.place = r.place) (s : State) (a b : Nat) :
    overStretch s q a b = overStretch s r a b := by
  obtain ⟨-, lead, trail, -⟩ := place_fields h
  refine Bool.eq_iff_iff.mpr ?_
  rw [overStretch_iff, overStretch_iff]
  unfold Over
  rw [lead, trail]

theorem isIntruder_of_place {r q : Record} (h : q.place = r.place) : q.isIntruder = r.isIntruder := by
  obtain ⟨origin, -⟩ := place_fields h
  unfold Record.isIntruder
  rw [origin]

theorem zoneCandidate_byPlace (s : State) (z : Zone) : ByPlace (zoneCandidate s z) := fun r q h => by
  unfold zoneCandidate
  rw [isIntruder_of_place h, overStretch_of_place h]

theorem waveCandidate_byPlace (s : State) (w : Wave) : ByPlace (waveCandidate s w) := fun r q h => by
  unfold waveCandidate
  rw [isIntruder_of_place h, overStretch_of_place h]

theorem anyOverlap_byPlace (s : State) : ByPlace (anyOverlap s) := fun r q h => by
  unfold anyOverlap waveOverlap
  rw [overStretch_of_place h, overStretch_of_place h]

/-- Position and setup as before: a record lies where it lay. -/
structure SameGround (s t : State) : Prop where
  pos : t.track.pos = s.track.pos
  setup : t.port.setup = s.port.setup

theorem SameGround.overStretch {s t : State} (h : SameGround s t) (r : Record) (a b : Nat) :
    overStretch t r a b = overStretch s r a b := by
  refine Bool.eq_iff_iff.mpr ?_
  rw [overStretch_iff, overStretch_iff]
  unfold Over
  rw [h.pos]

theorem SameGround.ws {s t : State} (h : SameGround s t) : t.ws = s.ws := by
  unfold State.ws
  rw [h.setup]

theorem SameGround.zoneCandidate {s t : State} (h : SameGround s t) (z : Zone) : zoneCandidate t z = zoneCandidate s z := by
  funext r
  unfold Machine.zoneCandidate
  rw [h.ws, h.overStretch]

theorem SameGround.waveCandidate {s t : State} (h : SameGround s t) (w : Wave) : waveCandidate t w = waveCandidate s w := by
  funext r
  unfold Machine.waveCandidate
  rw [h.ws, h.overStretch]

theorem SameGround.anyOverlap {s t : State} (h : SameGround s t) : anyOverlap t = anyOverlap s := by
  funext r
  unfold Machine.anyOverlap waveOverlap
  rw [h.ws, h.overStretch, h.overStretch]

theorem Kept.ground {s t : State} (h : Kept s t) : SameGround s t := ⟨pos_of_kept h, h.keeps.portSetup⟩

/-! ## A target that no rule gives -/

/-- In PRODUCTION no record is a candidate for zone `z` (Table 6-3). -/
def NoZone (s : State) (z : Zone) : Prop :=
  s.modes.mode = .production ∧ ∀ r ∈ s.track.records, zoneCandidate s z r = false

/-- In PRODUCTION, or in COOLDOWN with records, none is a candidate for wave `w` (R126). -/
def NoWave (s : State) (w : Wave) : Prop :=
  (s.modes.mode = .production ∨ (s.modes.mode = .cooldown ∧ s.track.records ≠ [])) ∧
    ∀ r ∈ s.track.records, waveCandidate s w r = false

/-- In WARMUP no next recipe is reported. -/
def NoRecipe (s : State) : Prop :=
  s.modes.mode = .warmup ∧ s.nextBoard = none

theorem find_none {f : Record → Bool} {rs : List Record} (h : ∀ r ∈ rs, f r = false) : rs.find? f = none := by
  rw [List.find?_eq_none]
  exact fun r hr => by rw [h r hr]; decide

theorem zoneTarget_held {s : State} {z : Zone} (h : NoZone s z ∨ NoRecipe s) : zoneTarget s z = (s.thermal.zones.get z).target := by
  unfold zoneTarget zoneGovernor
  rcases h with ⟨mode, out⟩ | ⟨mode, none_⟩ <;> rw [mode] <;> dsimp only
  · rw [find_none out]; rfl
  · rw [none_]; rfl

theorem pumpTarget_held {s : State} {w : Wave} (h : NoWave s w ∨ NoRecipe s) : pumpTarget s w = (s.pot.pump w).target := by
  unfold pumpTarget waveGovernor
  rcases h with ⟨mode | ⟨mode, some_⟩, out⟩ | ⟨mode, none_⟩ <;> rw [mode] <;> dsimp only
  · rw [find_none out]; rfl
  · rw [find_none out, if_neg (by simpa using some_)]; rfl
  · rw [none_]; rfl

theorem Loop.formSettled_target (l : Loop) (auth : Bool) : (l.formSettled auth).target = l.target := by
  unfold Loop.formSettled
  split
  · rfl
  · split <;> rfl

theorem Loop.cutIf_target (l : Loop) (c : Bool) : (l.cutIf c).target = l.target := by
  cases c <;> rfl

theorem Loop.reform_target (l : Loop) (x : Int) (auth : Bool) (g : Option (BitVec 16)) : (l.reform x auth g).target = x := by
  have retarget : (l.retarget x).target = x := by unfold Loop.retarget; split <;> [assumption; rfl]
  exact (Loop.formSettled_target _ auth).trans retarget

theorem zone_reformZones (s : State) (z : Zone) : (s.reformZones.thermal.zones.get z).target = zoneTarget s z := by
  have get : s.reformZones.thermal.zones.get z =
      (s.thermal.zones.get z).reform (zoneTarget s z) s.thermal.auth ((zoneGovernor s z).map (·.ordinal)) := by
    unfold State.reformZones
    rw [Tab6.get_mapIdx]
  rw [get, Loop.reform_target]

theorem target_reformPotTarget (s : State) (z : Zone) :
    (s.reformPotTarget.thermal.zones.get z).target = (s.thermal.zones.get z).target := by
  unfold State.reformPotTarget
  rw [Tab6.get_mapIdx]
  exact Loop.formSettled_target _ _

theorem target_cutGrants (s : State) (z : Zone) :
    (s.cutGrants.thermal.zones.get z).target = (s.thermal.zones.get z).target := by
  unfold State.cutGrants
  rw [Tab6.get_mapIdx]
  exact Loop.cutIf_target _ _

theorem pump_reformPumpTargets (s : State) (w : Wave) : (s.reformPumpTargets.pot.pump w).target = pumpTarget s w := by
  cases w <;> rfl

theorem target_reformPumpRefs (s : State) (w : Wave) : (s.reformPumpRefs.pot.pump w).target = (s.pot.pump w).target := by
  cases w <;> exact Pump.follow_target _ _

/-- What a stage leaves of the zone and pump targets that no rule gives after it. -/
structure TargetsStay (s t : State) : Prop where
  zone : ∀ z, NoZone t z → NoZone s z ∧ (t.thermal.zones.get z).target = (s.thermal.zones.get z).target
  wave : ∀ w, NoWave t w → NoWave s w ∧ (t.pot.pump w).target = (s.pot.pump w).target

theorem TargetsStay.refl (s : State) : TargetsStay s s := ⟨fun _ h => ⟨h, rfl⟩, fun _ h => ⟨h, rfl⟩⟩

theorem TargetsStay.trans {s t u : State} (h : TargetsStay s t) (g : TargetsStay t u) : TargetsStay s u := by
  refine ⟨fun z hz => ?_, fun w hw => ?_⟩
  · obtain ⟨ht, e⟩ := g.zone z hz
    obtain ⟨hs, e'⟩ := h.zone z ht
    exact ⟨hs, e.trans e'⟩
  · obtain ⟨ht, e⟩ := g.wave w hw
    obtain ⟨hs, e'⟩ := h.wave w ht
    exact ⟨hs, e.trans e'⟩

/-- No rule gives a target after a stage: none gave it before. -/
theorem noTargets_back {s t : State} (ground : SameGround s t) (places : t.track.records.map Record.place = s.track.records.map Record.place)
    (production : t.modes.mode = .production → s.modes.mode = .production)
    (cooldown : t.modes.mode = .cooldown → s.modes.mode = .cooldown) :
    (∀ z, NoZone t z → NoZone s z) ∧ ∀ w, NoWave t w → NoWave s w := by
  refine ⟨fun z ⟨mode, out⟩ => ⟨production mode, ?_⟩, fun w ⟨mode, out⟩ => ⟨?_, ?_⟩⟩
  · rw [ground.zoneCandidate] at out
    exact all_of_places (zoneCandidate_byPlace s z) places.symm out
  · refine mode.imp production fun ⟨m, some_⟩ => ⟨cooldown m, fun e => some_ ?_⟩
    rw [e] at places
    exact List.map_eq_nil_iff.mp places
  · rw [ground.waveCandidate] at out
    exact all_of_places (waveCandidate_byPlace s w) places.symm out

theorem modeStage_running {s : State} {m : Mode} (h : s.modeStage.modes.mode = m) (ho : m ≠ .off) (he : m ≠ .economy) :
    s.modes.mode = m := by
  unfold State.modeStage at h
  split at h
  · rw [enterMode_mode] at h; exact absurd h.symm ho
  · split at h
    · rw [enterMode_mode] at h; exact absurd h.symm he
    · exact h

theorem Move.running {s t : State} (h : Move s t) {m : Mode} (ht : t.modes.mode = m) (ho : m ≠ .off) (he : m ≠ .economy) :
    s.modes.mode = m := by
  cases h with
  | mode => exact modeStage_running ht ho he
  | idle => exact ht
  | _ => simpa using ht

theorem TargetsStay.of_same {s t : State} (back : (∀ z, NoZone t z → NoZone s z) ∧ ∀ w, NoWave t w → NoWave s w)
    (zones : ∀ z, (t.thermal.zones.get z).target = (s.thermal.zones.get z).target) (pumps : ∀ w, (t.pot.pump w).target = (s.pot.pump w).target) : TargetsStay s t :=
  ⟨fun z h => ⟨back.1 z h, zones z⟩, fun w h => ⟨back.2 w h, pumps w⟩⟩

theorem pump_enterMode (s : State) (m : Mode) (w : Wave) : (s.enterMode m).pot.pump w = s.pot.pump w := by
  unfold State.enterMode
  split <;> rfl

theorem pump_modeStage (s : State) (w : Wave) : s.modeStage.pot.pump w = s.pot.pump w := by
  unfold State.modeStage
  split
  · exact pump_enterMode s _ w
  · split
    · exact pump_enterMode s _ w
    · rfl

theorem Move.targetsStay {s t : State} (m : Move s t) : TargetsStay s t := by
  have kept := m.kept
  have back := noTargets_back kept.ground kept.places (fun h => m.running h (by decide) (by decide))
    fun h => m.running h (by decide) (by decide)
  cases m with
  | mode => exact .of_same back (fun z => by simp) fun w => by rw [pump_modeStage]
  | zones =>
    refine ⟨fun z h => ⟨back.1 z h, ?_⟩, fun w h => ⟨back.2 w h, rfl⟩⟩
    rw [zone_reformZones]
    exact zoneTarget_held (.inl (back.1 z h))
  | pumpTargets =>
    refine ⟨fun z h => ⟨back.1 z h, rfl⟩, fun w h => ⟨back.2 w h, ?_⟩⟩
    rw [pump_reformPumpTargets]
    exact pumpTarget_held (.inl (back.2 w h))
  | pumpRefs => exact .of_same back (fun _ => rfl) fun w => target_reformPumpRefs s w
  | followDrop => exact .of_same back (fun _ => rfl) fun w => target_reformPumpRefs _ w
  | potTarget => exact .of_same back (fun z => target_reformPotTarget s z) fun _ => rfl
  | grants => exact .of_same back (fun z => target_cutGrants s z) fun _ => rfl
  | endDrop => exact .of_same back (fun _ => rfl) fun w => by cases w <;> rfl
  | ref => exact .of_same back (fun _ => rfl) fun w => by cases w <;> rfl
  | drive => exact .of_same back (fun _ => rfl) fun _ => rfl
  | waits => exact .of_same back (fun _ => rfl) fun _ => rfl
  | phase p g l => exact .of_same back (fun _ => rfl) fun _ => rfl
  | _ => exact .of_same back (fun z => by simp) fun w => by simp

theorem Moves.targetsStay {s t : State} (m : Moves s t) : TargetsStay s t :=
  m.lift TargetsStay.refl TargetsStay.trans Move.targetsStay

/-! ## The changeover as its two kinds of stages (R53 to R55) -/

/-- One stage of the changeover: the phase, the target and the line class take values, or the named class is followed. -/
inductive ClassMove : State → State → Prop
  | phase (s p t l) : ClassMove s { s with gate := { s.gate with phase := p, target := t, lineClass := l } }
  | name (s) : ClassMove s s.nameClass

/-- A sequence of stages of the changeover. -/
def ClassMoves : State → State → Prop := Relation.ReflTransGen ClassMove

theorem ClassMoves.lift {R : State → State → Prop} (refl : ∀ s, R s s) (trans : ∀ {s t u}, R s t → R t u → R s u)
    (phase : ∀ s p t l, R s { s with gate := { s.gate with phase := p, target := t, lineClass := l } })
    (name : ∀ s, R s s.nameClass) {s t : State} (h : ClassMoves s t) : R s t := by
  induction h with
  | refl => exact refl s
  | tail _ g ih =>
    refine trans ih ?_
    cases g with
    | phase p t l => exact phase _ p t l
    | name => exact name _

theorem ClassMoves.refl (s : State) : ClassMoves s s := Relation.ReflTransGen.refl

theorem ClassMoves.trans {s t u : State} (h : ClassMoves s t) (g : ClassMoves t u) : ClassMoves s u := Relation.ReflTransGen.trans h g

theorem ClassMove.one {s t : State} (h : ClassMove s t) : ClassMoves s t := Relation.ReflTransGen.single h

theorem ClassMoves.then {s t u : State} (h : ClassMoves s t) (g : ClassMove t u) : ClassMoves s u := h.trans g.one

theorem classMoves_phaseNone (s : State) : ClassMoves s s.phaseNone := by
  unfold State.phaseNone
  split
  · split
    · exact .refl s
    · exact (ClassMove.phase s _ _ _).one
  · exact .refl s

theorem classMoves_phaseDraining (s : State) : ClassMoves s s.phaseDraining := by
  unfold State.phaseDraining
  split
  · exact (ClassMove.phase s _ _ _).one
  · split
    · exact (ClassMove.phase s _ _ _).one
    · split
      · exact (ClassMove.phase s _ _ _).one.then (.name _)
      · exact (ClassMove.phase s _ _ _).one

theorem classMoves_retargetClass (s : State) : ClassMoves s s.retargetClass := by
  unfold State.retargetClass
  split
  · exact .refl s
  · split
    · exact .refl s
    · exact (ClassMove.phase s _ _ _).one.then (.name _)

theorem classMoves_phaseMoving (s : State) : ClassMoves s s.phaseMoving := by
  have first := classMoves_retargetClass s
  unfold State.phaseMoving
  dsimp only
  split
  · split
    · exact first.then (.phase _ _ _ _)
    · exact first
  · exact first

theorem classMoves_phaseSettling (s : State) : ClassMoves s s.phaseSettling := by
  have first := classMoves_retargetClass s
  unfold State.phaseSettling
  dsimp only
  split
  · split
    · exact first.then (.phase _ _ _ _)
    · split
      · exact first.then (.phase _ _ _ _)
      · exact first
  · exact first

theorem classMoves_changeover (fuel : Nat) (s : State) : ClassMoves s (s.changeover fuel) := by
  have step : ∀ u : State, ClassMoves u u.phaseStep := fun u => by
    unfold State.phaseStep
    split
    · split
      · exact classMoves_phaseNone u
      · exact classMoves_phaseDraining u
      · exact classMoves_phaseMoving u
      · exact classMoves_phaseSettling u
    · exact .refl u
  induction fuel generalizing s with
  | zero => exact .refl s
  | succ k ih =>
    unfold State.changeover
    dsimp only
    split
    · exact step s
    · exact (step s).trans (ih _)

/-! ## Targets over the gate's stages -/

/-- Every zone and pump has its target as before. -/
structure SameTargets (s t : State) : Prop where
  zone : ∀ z, (t.thermal.zones.get z).target = (s.thermal.zones.get z).target
  wave : ∀ w, (t.pot.pump w).target = (s.pot.pump w).target

theorem SameTargets.refl (s : State) : SameTargets s s := ⟨fun _ => rfl, fun _ => rfl⟩

theorem SameTargets.trans {s t u : State} (h : SameTargets s t) (g : SameTargets t u) : SameTargets s u :=
  ⟨fun z => (g.zone z).trans (h.zone z), fun w => (g.wave w).trans (h.wave w)⟩

theorem SameTargets.of_eq {s t : State} (h : t.thermal = s.thermal) (g : t.pot = s.pot) : SameTargets s t :=
  ⟨fun _ => by rw [h], fun _ => by rw [g]⟩

theorem sameTargets_reformConveyor (s : State) : SameTargets s s.reformConveyor := by
  refine ⟨fun z => by simp, fun w => ?_⟩
  have first : (s.followDrop.pot.pump w).target = (s.pot.pump w).target := target_reformPumpRefs _ w
  have middle : (s.followDrop.endDrop.reformRef.pot.pump w).target = (s.followDrop.pot.pump w).target := by cases w <;> rfl
  exact (target_reformPumpRefs _ w).trans (middle.trans first)

theorem sameTargets_nameClass (s : State) : SameTargets s s.nameClass := by
  refine SameTargets.trans (t := s.reformPotTarget) ⟨target_reformPotTarget s, fun _ => rfl⟩ ?_
  exact SameTargets.trans (t := s.reformPotTarget.reformWidth) (.of_eq rfl rfl) (sameTargets_reformConveyor _)

theorem sameTargets_changeover (fuel : Nat) (s : State) : SameTargets s (s.changeover fuel) :=
  (classMoves_changeover fuel s).lift SameTargets.refl SameTargets.trans (fun _ _ _ _ => .of_eq rfl rfl) sameTargets_nameClass

theorem sameTargets_gateEval (s : State) : SameTargets s s.gateEval := by
  have scan : SameTargets s s.reformDocket := .of_eq (by simp) (by simp)
  have cls : SameTargets s.reformDocket s.reformDocket.takeClass := .of_eq rfl rfl
  have holds : ∀ u : State, SameTargets u u.takeHolds := fun u => .of_eq rfl rfl
  have turn : ∀ u : State, SameTargets u u.gateTransition := fun u => .of_eq (by simp) (by simp)
  exact (((scan.trans cls).trans (sameTargets_changeover 8 _)).trans (holds _)).trans (turn _)

theorem sameTargets_gateStage (s : State) : SameTargets s s.gateStage := by
  rcases State.gateStage_cases s with h | h | h | h <;> rw [h]
  · exact .refl s
  · exact sameTargets_gateEval s
  · exact sameTargets_changeover 8 s
  · exact (sameTargets_changeover 8 s).trans (sameTargets_gateEval _)

/-! ## Targets in WARMUP -/

/-- The state in which the targets are re-formed. -/
def State.beforeTargets (s : State) : State :=
  s.beforeInhibit.reformInhibit.cutGrants

theorem reform_eq (s : State) : s.reform = s.beforeTargets.reformTargets.reformMotion.reformWaits.reformIdle.reformLine := rfl

theorem reform_targets (s : State) : (∀ z, (s.reform.thermal.zones.get z).target = zoneTarget s.beforeTargets z) ∧
    ∀ w, (s.reform.pot.pump w).target = pumpTarget s.beforeTargets w := by
  obtain ⟨u, hu⟩ : ∃ u, s.beforeTargets = u := ⟨_, rfl⟩
  rw [reform_eq, hu]
  have motion : SameTargets u.reformTargets u.reformTargets.reformMotion := by
    have first : SameTargets u.reformTargets u.reformTargets.reformOutfeed.reformWidth := .of_eq (by simp) (by simp)
    exact (first.trans (sameTargets_reformConveyor _)).trans (.of_eq rfl rfl)
  have rest := motion.trans (u := u.reformTargets.reformMotion.reformWaits.reformIdle.reformLine) (.of_eq rfl rfl)
  refine ⟨fun z => ?_, fun w => ?_⟩
  · rw [rest.zone]
    exact (target_reformPotTarget _ z).trans (zone_reformZones u z)
  · rw [rest.wave]
    have pumps : u.reformTargets.pot.pump w = u.reformZones.reformPumpTargets.pot.pump w := rfl
    rw [pumps, pump_reformPumpTargets]
    rfl

theorem nextBoard_congr {s t : State} (hg : t.gate.state = s.gate.state) (hd : t.docket = s.docket) : t.nextBoard = s.nextBoard := by
  unfold State.nextBoard
  rw [hg, hd]

theorem moves_beforeTargets (s : State) : Moves s s.beforeTargets :=
  ((((Moves.refl s).then (.mode _)).then (.fans _)).then (.horn _)).then (.inhibit _) |>.then (.grants _)

theorem Moves.running {s t : State} (h : Moves s t) {m : Mode} (ho : m ≠ .off) (he : m ≠ .economy) (ht : t.modes.mode = m) :
    s.modes.mode = m :=
  h.lift (R := fun s t => t.modes.mode = m → s.modes.mode = m) (fun _ => id) (fun f g => f ∘ g) (fun m h => m.running h ho he) ht

theorem sameTargets_beforeTargets (s : State) : SameTargets s s.beforeTargets := by
  have mode : SameTargets s s.modeStage := ⟨fun z => by simp, fun w => by rw [pump_modeStage]⟩
  have guards : SameTargets s.modeStage s.beforeInhibit.reformInhibit := .of_eq (by simp [State.beforeInhibit]) (by simp [State.beforeInhibit])
  exact (mode.trans guards).trans ⟨target_cutGrants _, fun _ => rfl⟩

theorem nextBoard_beforeTargets (s : State) : s.beforeTargets.nextBoard = s.nextBoard := by
  have gate : s.modeStage.gate.state = s.gate.state := by rw [gateStands_modeStage s]
  refine nextBoard_congr ?_ ?_
  · refine Eq.trans ?_ gate
    simp [State.beforeTargets, State.beforeInhibit]
  · simp [State.beforeTargets, State.beforeInhibit]

theorem reform_recipeless {s : State} (h : s.nextBoard = none) (hm : s.reform.modes.mode = .warmup) : SameTargets s s.reform := by
  have rest : Moves s.beforeTargets s.reform := by
    have first := ((Moves.refl s.beforeTargets).then (.zones _)).then (.pumpTargets _) |>.then (.potTarget _)
    have motion := (((first.then (.outfeed _)).then (.width _)).trans (moves_reformConveyor _)).then (.drive _)
    exact ((motion.then (.waits _)).then (.idle _)).then (.line _)
  have bare : NoRecipe s.beforeTargets := ⟨rest.running (by decide) (by decide) hm, (nextBoard_beforeTargets s).trans h⟩
  obtain ⟨zone, wave⟩ := reform_targets s
  refine (sameTargets_beforeTargets s).trans ⟨fun z => ?_, fun w => ?_⟩
  · rw [zone, zoneTarget_held (.inr bare)]
  · rw [wave, pumpTarget_held (.inr bare)]

/-- The gate stands where no offer is fixed. -/
def NoOffering (s : State) : Prop :=
  s.gate.state ≠ .opened ∧ s.gate.state ≠ .late

/-- In WARMUP an evaluation leaves the gate, and the findings are formed. -/
theorem gateEval_warm {s : State} (hm : s.modes.mode = .warmup) (hg : NoOffering s) :
    s.gateEval.gate.state = s.gate.state ∧ Found s.gateEval ∧ s.gateEval.docket = s.reformDocket.docket := by
  have found := evalView_found hg.1 hg.2
  have state : s.evalView.gate.state = s.gate.state := (gateAside_scan s).gate.state
  have mode : s.evalView.modes.mode = .warmup := by
    have e : s.evalView.modes = s.modes := by simp [State.evalView, State.takeClass]
    rw [e]; exact hm
  have docket : s.evalView.docket = s.reformDocket.docket := by simp [State.evalView]
  rw [gateEval_eq]
  obtain ⟨u, hu⟩ : ∃ u, s.evalView = u := ⟨_, rfl⟩
  rw [hu] at found state mode docket ⊢
  have held : u.takeHolds.gate.holds ≠ [] := by
    have mem : HoldReason.modeHold ∈ formHolds u := (mem_formHolds u _).mpr (by simp [holdStands, mode])
    exact List.ne_nil_of_mem mem
  have stands : u.takeHolds.gateTransition = u.takeHolds := by
    unfold State.gateTransition
    have g : u.takeHolds.gate.state = s.gate.state := state
    rw [g]
    split
    · rw [if_neg (by simpa using held)]
    · next x => exact absurd x hg.1
    · next x => exact absurd x hg.2
    · rfl
  rw [stands]
  exact ⟨state, found.of_docket rfl rfl (by simp [State.takeHolds]), docket⟩

theorem gateStage_warm {s : State} (hm : s.modes.mode = .warmup) (hg : NoOffering s) :
    s.gateStage.gate.state = s.gate.state ∧ (s.gateStage.docket = s.docket ∨ Found s.gateStage) ∧
      (Found s → s.gateStage.docket = s.docket ∧ Found s.gateStage) := by
  have state : (s.changeover 8).gate.state = s.gate.state := (gateAside_changeover 8 s).gate.state
  have docket : (s.changeover 8).docket = s.docket := by simp
  have mode : (s.changeover 8).modes.mode = .warmup := by simpa using hm
  have eval : ∀ {u : State}, u.modes.mode = .warmup → u.gate.state = s.gate.state → u.docket = s.docket → Aside s u →
      u.gateEval.gate.state = s.gate.state ∧ (u.gateEval.docket = s.docket ∨ Found u.gateEval) ∧
        (Found s → u.gateEval.docket = s.docket ∧ Found u.gateEval) := fun {u} m g d a => by
    obtain ⟨same, found, e⟩ := gateEval_warm m (by unfold NoOffering; rw [g]; exact hg)
    refine ⟨same.trans g, .inr found, fun f => ⟨?_, found⟩⟩
    rw [e, (f.of_aside a (by rw [d])).fixed, d]
  rcases State.gateStage_cases s with h | h | h | h <;> rw [h]
  · exact ⟨rfl, .inl rfl, fun f => ⟨rfl, f⟩⟩
  · exact eval hm rfl rfl (.of_same rfl rfl rfl)
  · exact ⟨state, .inl docket, fun f => ⟨docket, f.of_aside (aside_changeover 8 s) (by rw [docket])⟩⟩
  · exact eval mode state docket (aside_changeover 8 s)

theorem reform_aside (s : State) : Aside s s.reform ∧ s.reform.docket = s.docket ∧ s.reform.gate.state = s.gate.state := by
  have aside := aside_reform s
  have gate := gateAside_reform s
  refine ⟨aside, ?_, gate.gate.state⟩
  rw [aside.docket, gate.offer]

theorem NoOffering.reform {s : State} (h : NoOffering s) : NoOffering s.reform := by
  unfold NoOffering
  rw [(reform_aside s).2.2]
  exact h

theorem Found.reform {s : State} (h : Found s) : Found s.reform := by
  obtain ⟨aside, docket, -⟩ := reform_aside s
  exact h.of_aside aside (by rw [docket])

theorem nextBoard_reform (s : State) : s.reform.nextBoard = s.nextBoard := by
  obtain ⟨-, docket, state⟩ := reform_aside s
  exact nextBoard_congr state docket

/-- The stages of a step's consequences in WARMUP, no offer being fixed: a next recipe that is found stays. -/
theorem settle_warm {s : State} (hm : s.settle.modes.mode = .warmup) (hg : NoOffering s) :
    (Found s → s.settle.nextBoard = s.nextBoard) ∧
      (s.nextBoard = none → s.settle.nextBoard = none → SameTargets s s.settle) := by
  obtain ⟨r1, h1⟩ : ∃ r1, s.reform = r1 := ⟨_, rfl⟩
  obtain ⟨g1, h2⟩ : ∃ g1, r1.gateStage = g1 := ⟨_, rfl⟩
  obtain ⟨r2, h3⟩ : ∃ r2, g1.reform = r2 := ⟨_, rfl⟩
  obtain ⟨g2, h4⟩ : ∃ g2, r2.gateStage = g2 := ⟨_, rfl⟩
  have e : s.settle = g2.reform := by rw [← h4, ← h3, ← h2, ← h1]; rfl
  rw [e] at hm ⊢
  have m2 : g2.modes.mode = .warmup := (moves_reform g2).running (by decide) (by decide) hm
  have n2 : r2.modes.mode = .warmup := (h4 ▸ moves_gateStage r2 : Moves r2 g2).running (by decide) (by decide) m2
  have m1 : g1.modes.mode = .warmup := (h3 ▸ moves_reform g1 : Moves g1 r2).running (by decide) (by decide) n2
  have n1 : r1.modes.mode = .warmup := (h2 ▸ moves_gateStage r1 : Moves r1 g1).running (by decide) (by decide) m1
  have o1 : NoOffering r1 := h1 ▸ hg.reform
  obtain ⟨state1, docket1, fixed1⟩ := gateStage_warm n1 o1
  rw [h2] at state1 docket1 fixed1
  have p1 : NoOffering g1 := by unfold NoOffering; rw [state1]; exact o1
  have o2 : NoOffering r2 := h3 ▸ p1.reform
  obtain ⟨state2, -, fixed2⟩ := gateStage_warm n2 o2
  rw [h4] at state2 fixed2
  have b1 : r1.nextBoard = s.nextBoard := h1 ▸ nextBoard_reform s
  have b2 : r2.nextBoard = g1.nextBoard := h3 ▸ nextBoard_reform g1
  have b3 := nextBoard_reform g2
  have second : Found g1 → g2.nextBoard = g1.nextBoard := fun f =>
    (nextBoard_congr state2 (fixed2 (h3 ▸ f.reform)).1).trans b2
  refine ⟨fun f => ?_, fun before after => ?_⟩
  · have fr : Found r1 := h1 ▸ f.reform
    obtain ⟨docket, fg⟩ := fixed1 fr
    rw [b3, second fg, nextBoard_congr state1 docket, b1]
  · have bare : g1.nextBoard = none := by
      rcases docket1 with d | f
      · rw [nextBoard_congr state1 d, b1, before]
      · rw [← second f, ← b3, after]
    have s1 : SameTargets s r1 := h1 ▸ reform_recipeless before (h1.symm ▸ n1)
    have s2 : SameTargets r1 g1 := h2 ▸ sameTargets_gateStage r1
    have s3 : SameTargets g1 r2 := h3 ▸ reform_recipeless bare (h3.symm ▸ n2)
    have s4 : SameTargets r2 g2 := h4 ▸ sameTargets_gateStage r2
    exact (((s1.trans s2).trans s3).trans s4).trans (reform_recipeless (b3.symm.trans after) hm)

/-- Where no rule gives a target after a step's consequences, the one before them stands. -/
theorem targetsHeld_settle {s : State} (hg : s.nextBoard = none → NoOffering s) : TargetsHeld s s.settle := by
  have stay := (moves_settle s).targetsStay
  refine ⟨fun z h => ?_, fun w h => ?_⟩
  · rcases h with h | ⟨m, b, a⟩
    · exact (stay.zone z h).2
    · exact ((settle_warm m (hg b)).2 b a).zone z
  · rcases h with h | ⟨m, b, a⟩
    · exact (stay.wave w h).2
    · exact ((settle_warm m (hg b)).2 b a).wave w

theorem targetsHeld_settleEval {s : State} (hg : s.nextBoard = none → NoOffering s) : TargetsHeld s s.settleEval := by
  have stay := (moves_settleEval s).targetsStay
  have warm : s.settleEval.modes.mode = .warmup → s.nextBoard = none → s.settleEval.nextBoard = none → SameTargets s s.settleEval := by
    intro hm before after
    obtain ⟨r, hr⟩ : ∃ r, s.reform = r := ⟨_, rfl⟩
    obtain ⟨g, h⟩ : ∃ g, r.gateEval = g := ⟨_, rfl⟩
    have e : s.settleEval = g.settle := by rw [← h, ← hr]; rfl
    rw [e] at hm after ⊢
    have mg : g.modes.mode = .warmup := (moves_settle g).running (by decide) (by decide) hm
    have mr : r.modes.mode = .warmup := (h ▸ moves_gateEval r : Moves r g).running (by decide) (by decide) mg
    have no : NoOffering r := hr ▸ (hg before).reform
    obtain ⟨state, found, -⟩ := gateEval_warm mr no
    rw [h] at state found
    have no' : NoOffering g := by unfold NoOffering; rw [state]; exact no
    obtain ⟨stands, same⟩ := settle_warm hm no'
    have s1 : SameTargets s r := hr ▸ reform_recipeless before (hr.symm ▸ mr)
    have s2 : SameTargets r g := h ▸ sameTargets_gateEval r
    exact (s1.trans s2).trans (same ((stands found).symm.trans after) after)
  refine ⟨fun z h => ?_, fun w h => ?_⟩
  · rcases h with h | ⟨m, b, a⟩
    · exact (stay.zone z h).2
    · exact (warm m b a).zone z
  · rcases h with h | ⟨m, b, a⟩
    · exact (stay.wave w h).2
    · exact (warm m b a).wave w

theorem GateFormed.noOffering {s : State} (h : GateFormed s) (hb : s.nextBoard = none) : NoOffering s := by
  unfold State.nextBoard at hb
  refine ⟨fun g => ?_, fun g => ?_⟩ <;> rw [g] at hb
  · exact h.offer.mpr (.inl g) (Option.map_eq_none_iff.mp hb)
  · exact h.offer.mpr (.inr g) (Option.map_eq_none_iff.mp hb)

end Sys2Proof.Machine
end



section
/-! P by one tenth (1.1, 1.3, 6.6, 7.3, 9.4): what the rules do at each. -/

namespace Sys2Proof.Machine

open Sys2Proof.Config

/-! ## The conveyor re-formed once -/

theorem reformConveyor_referenceFormed (s : State) : ReferenceFormed s.reformConveyor := by
  obtain ⟨u, hu⟩ : ∃ u, s.followDrop.endDrop = u := ⟨_, rfl⟩
  have e : s.reformConveyor = u.reformRef.reformPumpRefs := by rw [← hu]; rfl
  rw [e, referenceFormed_iff]
  have ref := reformRef_ref u
  have after : conveyorRef u.reformRef.reformPumpRefs = conveyorRef u.reformRef := by
    apply conveyorRef_congr <;> simp [State.reformPumpRefs]
  rw [after, ← ref]
  rfl

theorem stopMarks_place (s : State) (r : Record) : (stopMarks s r).place = r.place := by
  unfold stopMarks
  rw [Record.markIf_rest, Record.markIf_rest]
  rfl

/-- What a stop leaves where the conveyor is re-formed once (R9, R130). -/
theorem reformConveyor_stopMarked {s : State} (hs : s.track.ref ≠ 0) (ht : s.reformConveyor.track.ref = 0) :
    StopMarked s s.reformConveyor := by
  obtain ⟨u, hu⟩ : ∃ u, s.followDrop.endDrop = u := ⟨_, rfl⟩
  have track : u.track = s.track := by rw [← hu]; rfl
  have ground : SameGround u u.reformRef.reformPumpRefs := ((kept_reformRef u).trans (kept_reformPumpRefs _)).ground
  have noDrop : s.pot.drop = .none → u.pot.drop = .none := fun h => by
    have first : s.followDrop.pot.drop = .none := by
      have e : s.followDrop.pot.drop = s.pot.drop.follow (runDemand s) := rfl
      rw [e, h]; rfl
    rw [← hu]
    unfold State.endDrop
    dsimp only
    rw [first]
    split <;> rfl
  have e : s.reformConveyor = u.reformRef.reformPumpRefs := by rw [← hu]; rfl
  rw [e] at ht ⊢
  have demand : conveyorRef u = 0 := by
    have ref : u.reformRef.track.ref = conveyorRef u := by
      unfold State.reformRef Track.refer
      dsimp only
      split
      · assumption
      · rfl
    exact ref.symm.trans ht
  have stops : conveyorStops u = true := by
    unfold conveyorStops
    rw [demand, track]
    simpa using hs
  have records : u.reformRef.reformPumpRefs.track.records = u.track.records.map (stopMarks u) := by
    have e : u.reformRef.reformPumpRefs.track.records = u.reformRef.track.records := rfl
    rw [e]
    unfold State.reformRef Track.refer
    dsimp only
    split <;> rfl
  have lies : ∀ r, anyOverlap u.reformRef.reformPumpRefs (stopMarks u r) = anyOverlap u r := fun r => by
    rw [ground.anyOverlap]
    exact anyOverlap_byPlace u r _ (stopMarks_place u r)
  have starts : s.pot.drop = .none → (∃ r ∈ u.track.records, anyOverlap u r = true) → dropStarts u = true := fun h g => by
    unfold dropStarts
    rw [stops, noDrop h]
    simpa using g
  have board : ∀ r : Record, (stopMarks u r).origin ≠ .intruder → r.isIntruder = false := fun r h => by
    rw [← Bool.not_eq_true, Record.isIntruder_iff, ← (place_fields (stopMarks_place u r)).1]
    exact h
  refine ⟨fun q hq hb => ?_, fun hd ⟨q, hq, hover⟩ => ?_, fun hd q hq hb hover => ?_⟩
  · rw [records] at hq
    obtain ⟨r, -, rfl⟩ := List.mem_map.mp hq
    unfold stopMarks
    rw [Record.has_markIf, Record.has_markIf, stops, board r hb]
    simp
  · rw [records] at hq
    obtain ⟨r, hr, rfl⟩ := List.mem_map.mp hq
    rw [lies] at hover
    have drop : u.reformRef.reformPumpRefs.pot.drop = .held := by
      have e : u.reformRef.reformPumpRefs.pot.drop = if dropStarts u then .held else u.pot.drop := rfl
      rw [e, starts hd ⟨r, hr, hover⟩]; rfl
    rw [drop]
    decide
  · rw [records] at hq
    obtain ⟨r, hr, rfl⟩ := List.mem_map.mp hq
    rw [lies] at hover
    unfold stopMarks
    rw [Record.has_markIf, starts hd ⟨r, hr, hover⟩, board r hb, hover]
    simp

/-! ## The wave entry test (R129) -/

theorem Pump.refer_stable (p : Pump) (n : Nat) : (p.refer n).stable = true ↔ p.stable = true ∧ p.ref = n := by
  unfold Pump.refer
  split
  · next h => exact ⟨fun g => ⟨g, h⟩, fun g => g.1⟩
  · next h => exact ⟨(fun g => by cases g), fun g => absurd g.2 h⟩

theorem Pump.follow_stable (p : Pump) (d : Drop) : (p.follow d).stable = true ↔
    p.stable = true ∧ p.ref = if d = .held then 0 else p.target := Pump.refer_stable p _

/-- A pump fails the test of R129 where it has a target and is not stable at it. -/
theorem Pump.unsteady_follow (p : Pump) (d : Drop) : (p.follow d).unsteady = true ↔
    p.target ≠ 0 ∧ (d = .held ∨ p.ref ≠ p.target ∨ p.stable = false) := by
  have e : (p.follow d).unsteady = true ↔ (p.follow d).target ≠ 0 ∧
      ((p.follow d).stable = false ∨ (p.follow d).ref ≠ (p.follow d).target) := by
    simp [Pump.unsteady]
  rw [e, Pump.follow_target, Pump.follow_ref, ← Bool.not_eq_true, Pump.follow_stable]
  refine and_congr_right fun nonzero => ?_
  by_cases held : d = .held
  · rw [if_pos held]
    exact ⟨fun _ => .inl held, fun _ => .inr (Ne.symm nonzero)⟩
  · rw [if_neg held, not_and_or, Bool.not_eq_true]
    exact ⟨fun h => .inr (h.elim Or.symm fun g => absurd rfl g), fun h => .inl (h.resolve_left held).symm⟩

/-- The wave entry tests of both waves set one flag alone. -/
theorem waveEntry_has (s : State) (w : Wave) (r : Record) (f : Flag) : (waveEntry s w r).has f = true ↔
    r.has f = true ∨ (f = .waveUnstable ∧ reachesWave s w r = true ∧ (s.pot.pump w).unsteady = true) := by
  unfold waveEntry
  rw [Record.has_markIf, Bool.or_eq_true, Bool.and_eq_true, Bool.and_eq_true, beq_iff_eq]
  refine or_congr_right ⟨fun ⟨h, g⟩ => ⟨g.symm, h⟩, fun ⟨g, h⟩ => ⟨h, g.symm⟩⟩

theorem waveEntry_core (s : State) (w : Wave) (r : Record) : (waveEntry s w r).core = r.core ∧ (waveEntry s w r).place = r.place := by
  unfold waveEntry
  rw [Record.markIf_rest]
  exact ⟨rfl, rfl⟩

theorem reachesWave_iff (s : State) (w : Wave) (r : Record) : reachesWave s w r = true ↔
    r.origin ≠ .intruder ∧ s.ws.waveStart w = relativeFrom s.track.pos r.lead ∧ s.ws.waveStart w ≠ 0 := by
  unfold reachesWave
  rw [Bool.and_eq_true, Bool.and_eq_true, Bool.not_eq_true', ← Bool.not_eq_true, Record.isIntruder_iff, beq_iff_eq, bne_iff_ne]
  exact and_assoc

/-! ## One tenth -/

/-- The state with P moved by one tenth. -/
def State.movedP (s : State) (forward : Bool) : State :=
  { s with track := { s.track with pos := if forward then s.track.pos + 1 else s.track.pos - 1 } }

/-- The wave entry tests of a forward tenth, in the state in which they are made. -/
def entered (b : State) (forward : Bool) (r : Record) : Record :=
  if forward then waveEntry b .main (waveEntry b .chip r) else r

theorem entered_place (b : State) (f : Bool) (r : Record) : (entered b f r).place = r.place ∧ (entered b f r).core = r.core := by
  unfold entered
  split
  · exact ⟨(waveEntry_core b .main _).2.trans (waveEntry_core b .chip r).2, (waveEntry_core b .main _).1.trans (waveEntry_core b .chip r).1⟩
  · exact ⟨rfl, rfl⟩

theorem entered_has (b : State) (f : Bool) (r : Record) (x : Flag) (hx : x ≠ .waveUnstable) : (entered b f r).has x = r.has x := by
  unfold entered
  split
  · refine Bool.eq_iff_iff.mpr ?_
    rw [waveEntry_has, waveEntry_has]
    simp [hx]
  · rfl

/-- The states of one tenth: the pumps re-formed in `b`, the records tested in `c`, the conveyor re-formed from `u`. -/
structure TenthParts (s : State) (f : Bool) (b c e u : State) : Prop where
  pumps : b = (s.movedP f).reformZones.reformPumpTargets.reformPumpRefs
  tested : c = { b with track := { b.track with records := b.track.records.map (entered b f) } }
  stop : e = c.topside.testBackPressure
  before : u = e.followDrop.endDrop
  last : s.moveTenth f = e.reformConveyor

theorem tenth_parts (s : State) (f : Bool) : ∃ b c e u, TenthParts s f b c e u := by
  obtain ⟨b, hb⟩ : ∃ b, b = (s.movedP f).reformZones.reformPumpTargets.reformPumpRefs := ⟨_, rfl⟩
  obtain ⟨c, hc⟩ : ∃ c : State, c = { b with track := { b.track with records := b.track.records.map (entered b f) } } := ⟨_, rfl⟩
  refine ⟨b, c, _, _, hb, hc, rfl, rfl, ?_⟩
  have whole : s.moveTenth f = (if f then b.waveEntries else b).topside.testBackPressure.reformConveyor := by
    rw [hb]; rfl
  rw [whole, hc]
  cases f with
  | false =>
    have same : b.track.records.map (entered b false) = b.track.records := List.map_id _
    rw [same]
    rfl
  | true => rfl

variable {s b c e u : State} {f : Bool}

theorem TenthParts.records (h : TenthParts s f b c e u) : (s.moveTenth f).track.records =
    s.track.records.map fun r => stopMarks u (topsideStep c (entered b f r)) := by
  have first : c.track.records = s.track.records.map (entered b f) := by rw [h.tested, h.pumps]; rfl
  have second : u.track.records = c.track.records.map (topsideStep c) := by rw [h.before, h.stop]; rfl
  have third : e.reformConveyor.track.records = u.track.records.map (stopMarks u) := by
    rw [h.before]
    have r : e.reformConveyor.track.records = e.followDrop.endDrop.reformRef.track.records := rfl
    rw [r]
    unfold State.reformRef Track.refer
    dsimp only
    split <;> rfl
  rw [h.last, third, second, first, List.map_map, List.map_map]
  rfl

theorem TenthParts.record_place (_ : TenthParts s f b c e u) (r : Record) :
    (stopMarks u (topsideStep c (entered b f r))).place = r.place := by
  rw [stopMarks_place]
  have step : (topsideStep c (entered b f r)).place = (entered b f r).place := by rw [topsideStep_rest]; rfl
  rw [step, (entered_place b f r).1]

theorem TenthParts.places (h : TenthParts s f b c e u) :
    (s.moveTenth f).track.records.map Record.place = s.track.records.map Record.place := by
  rw [h.records, List.map_map]
  exact List.map_congr_left fun r _ => h.record_place r

theorem moveTenth_pos (s : State) (f : Bool) : (s.moveTenth f).track.pos = if f then s.track.pos + 1 else s.track.pos - 1 := by
  obtain ⟨b, c, e, u, h⟩ := tenth_parts s f
  have first : e.track.pos = (s.movedP f).track.pos := by rw [h.stop, h.tested, h.pumps]; rfl
  rw [h.last, pos_of_kept (kept_reformConveyor e), first]
  rfl

theorem TenthParts.pos (h : TenthParts s f b c e u) : c.track.pos = (s.moveTenth f).track.pos := by
  rw [moveTenth_pos, h.tested, h.pumps]
  rfl

theorem TenthParts.setup (h : TenthParts s f b c e u) : b.port = s.port ∧ c.port = s.port ∧ e.port = s.port := by
  have first : b.port = s.port := by rw [h.pumps]; rfl
  have second : c.port = s.port := by rw [h.tested]; exact first
  exact ⟨first, second, by rw [h.stop]; exact second⟩

theorem TenthParts.inputs (h : TenthParts s f b c e u) : c.thermal.inputs = s.thermal.inputs ∧
    (s.moveTenth f).thermal.inputs = s.thermal.inputs := by
  have first : b.thermal.inputs = s.thermal.inputs := by rw [h.pumps]; rfl
  have second : c.thermal.inputs = s.thermal.inputs := by rw [h.tested]; exact first
  refine ⟨second, ?_⟩
  have third : e.thermal.inputs = c.thermal.inputs := by rw [h.stop]; rfl
  rw [h.last]
  exact ((kept_reformConveyor e).keeps.thermalInputs.trans third).trans second

/-- The stop request over one tenth (R158). -/
theorem TenthParts.stops (h : TenthParts s f b c e u) : (s.moveTenth f).outfeed.stop = true ↔ s.outfeed.stop = true ∨
    (s.outfeed.state ≠ .empty ∧ (∀ r ∈ s.track.records, r.stage ≠ .exiting) ∧
      ∃ r, s.track.records.head? = some r ∧ s.ws.exitX - s.ws.holdMargin ≤ relativeFrom (s.moveTenth f).track.pos r.lead) := by
  have outfeed : c.topside.outfeed = s.outfeed := by rw [h.tested, h.pumps]; rfl
  have last : (s.moveTenth f).outfeed = e.outfeed := by rw [h.last]; simp
  have stop : e.outfeed.stop = (s.outfeed.stop || nextBoardNear c.topside s.outfeed.state) := by
    rw [h.stop, ← outfeed]; rfl
  have ground : SameGround (s.moveTenth f) c.topside := ⟨h.pos, by
    have setup : (s.moveTenth f).port = s.port := by simp
    rw [setup]
    exact congrArg Port.setup h.setup.2.1⟩
  have places : c.topside.track.records.map Record.place = s.track.records.map Record.place := by
    have first : c.track.records = s.track.records.map (entered b f) := by rw [h.tested, h.pumps]; rfl
    have second : c.topside.track.records = c.track.records.map (topsideStep c) := rfl
    rw [second, first, List.map_map, List.map_map]
    refine List.map_congr_left fun r _ => ?_
    have step : (topsideStep c (entered b f r)).place = (entered b f r).place := by rw [topsideStep_rest]; rfl
    exact step.trans (entered_place b f r).1
  have ws : c.topside.ws = s.ws := by
    unfold State.ws
    rw [show c.topside.port = c.port from rfl, h.setup.2.1]
  rw [last, stop, Bool.or_eq_true]
  unfold nextBoardNear
  rw [Bool.and_eq_true, bne_iff_ne, backPressure_iff]
  refine or_congr_right (and_congr_right fun _ => ?_)
  unfold NextBoardNear
  rw [ws, ground.pos]
  refine and_congr ?_ ?_
  · have stages := congrArg (List.map fun x : BitVec 16 × Origin × Option Binding × Pos × Option Pos × Stage => x.2.2.2.2.2) places
    rw [List.map_map, List.map_map] at stages
    have all : ∀ rs : List Record, (∀ r ∈ rs, r.stage ≠ .exiting) ↔ ∀ x ∈ rs.map Record.stage, x ≠ .exiting := fun rs =>
      ⟨fun h x hx => (by obtain ⟨r, hr, e⟩ := List.mem_map.mp hx; rw [← e]; exact h r hr),
        fun h r hr => h _ (List.mem_map_of_mem hr)⟩
    have same : c.topside.track.records.map Record.stage = s.track.records.map Record.stage := stages
    rw [all, all, same]
  · have heads := congrArg List.head? places
    rw [List.head?_map, List.head?_map] at heads
    constructor
    · rintro ⟨q, hq, near⟩
      rw [hq] at heads
      obtain ⟨r, hr, place⟩ := Option.map_eq_some_iff.mp heads.symm
      exact ⟨r, hr, by rw [(place_fields place).2.1]; exact near⟩
    · rintro ⟨r, hr, near⟩
      rw [hr] at heads
      obtain ⟨q, hq, place⟩ := Option.map_eq_some_iff.mp heads
      exact ⟨q, hq, by rw [(place_fields place).2.1]; exact near⟩

/-- The targets over one tenth are those at the position reached (R107, R126). -/
theorem TenthParts.target (h : TenthParts s f b c e u) :
    (∀ z, ((s.moveTenth f).thermal.zones.get z).target = zoneTarget (s.movedP f) z) ∧
      ∀ w, ((s.moveTenth f).pot.pump w).target = pumpTarget (s.movedP f) w := by
  have rest : SameTargets e (s.moveTenth f) := by rw [h.last]; exact sameTargets_reformConveyor e
  have tests : SameTargets b e := by rw [h.stop, h.tested]; exact .of_eq rfl rfl
  have whole := tests.trans rest
  refine ⟨fun z => (whole.zone z).trans ?_, fun w => (whole.wave w).trans ?_⟩
  · rw [h.pumps]
    exact zone_reformZones (s.movedP f) z
  · rw [h.pumps]
    exact (target_reformPumpRefs _ w).trans (pump_reformPumpTargets _ w)

theorem moveTenth_stays (s : State) (f : Bool) : (s.moveTenth f).modes = s.modes ∧ (s.moveTenth f).gate = s.gate ∧
    (s.moveTenth f).docket = s.docket ∧ (s.moveTenth f).port = s.port ∧ (s.moveTenth f).flux = s.flux ∧
    (s.moveTenth f).pins = s.pins ∧ (s.moveTenth f).mem = s.mem := by
  refine ⟨?_, ?_, ?_, ?_, ?_, ?_, ?_⟩ <;> simp

theorem moveTenth_targets (s : State) (f : Bool) : TargetsHeld s (s.moveTenth f) := by
  obtain ⟨b, c, e, u, h⟩ := tenth_parts s f
  obtain ⟨modes, gate, docket, port, -⟩ := moveTenth_stays s f
  have ground : SameGround (s.movedP f) (s.moveTenth f) := ⟨moveTenth_pos s f, congrArg Port.setup port⟩
  have mode : (s.moveTenth f).modes.mode = (s.movedP f).modes.mode := by rw [modes]; rfl
  have back := noTargets_back (s := s.movedP f) ground h.places (fun g => mode ▸ g) fun g => mode ▸ g
  obtain ⟨zones, pumps⟩ := h.target
  have bare : (s.moveTenth f).modes.mode = .warmup → s.nextBoard = none → NoRecipe (s.movedP f) := fun m n =>
    ⟨mode ▸ m, n⟩
  refine ⟨fun z g => (zones z).trans (zoneTarget_held ?_), fun w g => (pumps w).trans (pumpTarget_held ?_)⟩
  · exact g.imp (back.1 z) fun ⟨m, n, _⟩ => bare m n
  · exact g.imp (back.2 w) fun ⟨m, n, _⟩ => bare m n

theorem moveTenth_stopped {s : State} {f : Bool} (hs : s.track.ref ≠ 0) (ht : (s.moveTenth f).track.ref = 0) :
    StopMarked s (s.moveTenth f) := by
  obtain ⟨b, c, e, u, h⟩ := tenth_parts s f
  have ref : e.track.ref = s.track.ref := by rw [h.stop, h.tested, h.pumps]; rfl
  have drop : e.pot.drop = s.pot.drop := by rw [h.stop, h.tested, h.pumps]; rfl
  rw [h.last] at ht ⊢
  obtain ⟨dwell, starts, interrupted⟩ := reformConveyor_stopMarked (s := e) (by rw [ref]; exact hs) ht
  exact ⟨dwell, fun g => starts (by rw [drop]; exact g), fun g => interrupted (by rw [drop]; exact g)⟩

theorem stopMarks_has (s : State) (r : Record) {x : Flag} (h1 : x ≠ .dwell) (h2 : x ≠ .waveInterrupted) :
    (stopMarks s r).has x = r.has x := by
  unfold stopMarks
  rw [Record.has_markIf, Record.has_markIf, beq_eq_false_iff_ne.mpr h1.symm, beq_eq_false_iff_ne.mpr h2.symm]
  simp

theorem TenthParts.captures (h : TenthParts s f b c e u) (r : Record) :
    CaptureStep s (s.moveTenth f) r (stopMarks u (topsideStep c (entered b f r))) := by
  have before : Aligned (entered b f r) r := ⟨(entered_place b f r).2.symm, fun x hx =>
    (entered_has b f r x (by rintro rfl; revert hx; decide)).symm⟩
  have after : Aligned (topsideStep c (entered b f r)) (stopMarks u (topsideStep c (entered b f r))) := by
    refine ⟨?_, fun x hx => stopMarks_has u _ (by rintro rfl; revert hx; decide) (by rintro rfl; revert hx; decide)⟩
    unfold stopMarks
    rw [Record.markIf_rest, Record.markIf_rest]
    rfl
  have step : CaptureStep c (s.moveTenth f) (entered b f r) (topsideStep c (entered b f r)) :=
    topsideStep_captures _ h.pos.symm
  refine (step.aligned before after).states ?_ h.inputs.1.symm rfl
  unfold State.ws
  rw [h.setup.2.1]

theorem TenthParts.unstable (_ : TenthParts s f b c e u) (r : Record) :
    (stopMarks u (topsideStep c (entered b f r))).has .waveUnstable = (entered b f r).has .waveUnstable := by
  rw [stopMarks_has u _ (by decide) (by decide), topsideStep_has c _ (by decide) (by decide) (by decide)]

theorem TenthParts.waveEntry (h : TenthParts s true b c e u) (r : Record) :
    WaveEntryStep s (s.moveTenth true) r (stopMarks u (topsideStep c (entered b true r))) := by
  unfold WaveEntryStep
  have moved : { s with track := { s.track with pos := (s.moveTenth true).track.pos } } = s.movedP true := by
    rw [moveTenth_pos]; rfl
  have pos : b.track.pos = (s.moveTenth true).track.pos := by rw [moveTenth_pos, h.pumps]; rfl
  have ws : b.ws = s.ws := by unfold State.ws; rw [h.setup.1]
  have pump : ∀ w, ∃ p : Pump, b.pot.pump w = p.follow s.pot.drop ∧ p.target = pumpTarget (s.movedP true) w ∧
      p.ref = (s.pot.pump w).ref ∧ p.stable = (s.pot.pump w).stable := fun w => by
    rw [h.pumps]
    cases w <;> exact ⟨_, rfl, rfl, rfl, rfl⟩
  have test : ∀ w (q : Record), q.place = r.place → (reachesWave b w q = true ∧ (b.pot.pump w).unsteady = true ↔
      r.origin ≠ .intruder ∧ ∃ tg, tg = pumpTarget (s.movedP true) w ∧
        s.ws.waveStart w = relativeFrom (s.moveTenth true).track.pos r.lead ∧ s.ws.waveStart w ≠ 0 ∧ tg ≠ 0 ∧
        (s.pot.drop = .held ∨ (s.pot.pump w).ref ≠ tg ∨ (s.pot.pump w).stable = false)) := fun w q place => by
    obtain ⟨origin, lead, -⟩ := place_fields place
    obtain ⟨p, e, target, ref, stable⟩ := pump w
    rw [reachesWave_iff, e, Pump.unsteady_follow, target, ref, stable, ws, pos, origin, lead]
    constructor
    · rintro ⟨⟨board, start, nonzero⟩, target, moved⟩
      exact ⟨board, _, rfl, start, nonzero, target, moved⟩
    · rintro ⟨board, _, rfl, start, nonzero, target, moved⟩
      exact ⟨⟨board, start, nonzero⟩, target, moved⟩
  rw [h.unstable, moved]
  have e : entered b true r = Machine.waveEntry b .main (Machine.waveEntry b .chip r) := rfl
  rw [e, waveEntry_has, waveEntry_has, or_assoc]
  refine or_congr_right ?_
  simp only [true_and]
  rw [test .chip r rfl, test .main _ (waveEntry_core b .chip r).2]
  constructor
  · rintro (⟨board, g⟩ | ⟨board, g⟩)
    · exact ⟨board, .chip, g⟩
    · exact ⟨board, .main, g⟩
  · rintro ⟨board, w, g⟩
    cases w with
    | chip => exact .inl ⟨board, g⟩
    | main => exact .inr ⟨board, g⟩

/-- What one tenth does (R2). -/
theorem moveTenth_step (s : State) (f : Bool) : TenthStep f s (s.moveTenth f) := by
  obtain ⟨b, c, e, u, h⟩ := tenth_parts s f
  have reference : ReferenceFormed (s.moveTenth f) := by rw [h.last]; exact reformConveyor_referenceFormed e
  refine ⟨moveTenth_pos s f, h.places, h.inputs.2, congrArg Port.setup (moveTenth_stays s f).2.2.2.1, h.stops,
    moveTenth_targets s f, reference, moveTenth_stopped, fun i r q hr hq => ?_⟩
  rw [h.records, List.getElem?_map, hr] at hq
  obtain rfl : stopMarks u (topsideStep c (entered b f r)) = q := Option.some.inj hq
  refine ⟨h.captures r, fun hf => ?_, fun hf => ?_⟩
  · subst hf
    exact h.waveEntry r
  · subst hf
    exact h.unstable r

end Sys2Proof.Machine
end



section
/-! One encoder count (1.1): the tenths, the purge's end at the bar, and the consequences. -/

namespace Sys2Proof.Machine

open Sys2Proof.Config

/-! ## What a count leaves outside the track unit -/

theorem Kept.withTrack {u v : State} (h : Kept u v) (x : Track) : Kept { u with track := x } { v with track := x } := by
  refine ⟨?_, h.mem⟩
  have c : ∀ w : State, State.core { w with track := x } =
      { w.core with track := (State.core { u with track := x }).track } := fun _ => rfl
  rw [c u, c v, h.core]

/-- What the tenths leave: outside the track unit what the re-forming rules leave, and these words of it. -/
structure CountFrame (s t : State) : Prop where
  offTrack : Kept { s with track := t.track } t
  words : t.track.frac = s.track.frac ∧ t.track.net = s.track.net ∧ t.track.entryEye = s.track.entryEye ∧
    t.track.exitEye = s.track.exitEye ∧ t.track.ordinal = s.track.ordinal ∧ t.track.owner = s.track.owner ∧
    t.track.overflow = s.track.overflow ∧ t.track.phantom = s.track.phantom ∧ t.track.lastTrail = s.track.lastTrail ∧
    t.track.measured = s.track.measured

theorem CountFrame.refl (s : State) : CountFrame s s := ⟨.refl s, rfl, rfl, rfl, rfl, rfl, rfl, rfl, rfl, rfl, rfl⟩

theorem CountFrame.trans {s t u : State} (h : CountFrame s t) (g : CountFrame t u) : CountFrame s u := by
  obtain ⟨off, a1, a2, a3, a4, a5, a6, a7, a8, a9, a10⟩ := h
  obtain ⟨off', b1, b2, b3, b4, b5, b6, b7, b8, b9, b10⟩ := g
  exact ⟨(off.withTrack u.track).trans off', b1.trans a1, b2.trans a2, b3.trans a3, b4.trans a4, b5.trans a5, b6.trans a6,
    b7.trans a7, b8.trans a8, b9.trans a9, b10.trans a10⟩

theorem Kept.countFrame {s t : State} (h : Kept s t) : CountFrame s t := by
  have k := h.keeps
  refine ⟨?_, k.trackFrac, k.trackNet, k.trackEntryEye, k.trackExitEye, k.trackOrdinal, k.trackOwner, k.trackOverflow,
    k.trackPhantom, k.trackLastTrail, k.trackMeasured⟩
  refine ⟨?_, h.mem⟩
  have c : State.core { s with track := t.track } = { s.core with track := t.core.track } := rfl
  rw [c, h.core]

theorem countFrame_moveTenth (s : State) (f : Bool) : CountFrame s (s.moveTenth f) := by
  obtain ⟨b, c, e, u, h⟩ := tenth_parts s f
  have first : CountFrame s (s.movedP f) := ⟨.refl _, rfl, rfl, rfl, rfl, rfl, rfl, rfl, rfl, rfl, rfl⟩
  have second : CountFrame (s.movedP f) b := by
    rw [h.pumps]
    exact (((kept_reformZones _).trans (kept_reformPumpTargets _)).trans (kept_reformPumpRefs _)).countFrame
  have third : CountFrame b e := by
    rw [h.stop, h.tested]
    refine ⟨.of_core rfl rfl, rfl, rfl, rfl, rfl, rfl, rfl, rfl, rfl, rfl, rfl⟩
  have last : CountFrame e (s.moveTenth f) := by
    rw [h.last]
    exact (kept_reformConveyor e).countFrame
  exact ((first.trans second).trans third).trans last

/-! ## The states of the tenths -/

/-- The states that a count passes through, from `s`. -/
def State.tenth (s : State) (f : Bool) (i : Nat) : State :=
  (fun u : State => u.moveTenth f)^[i] s

theorem tenth_succ (s : State) (f : Bool) (i : Nat) : s.tenth f (i + 1) = (s.tenth f i).moveTenth f :=
  Function.iterate_succ_apply' _ _ _

theorem moveTenths_tenth (n : Nat) (s : State) (f : Bool) : State.moveTenths n s f = s.tenth f n := by
  induction n generalizing s with
  | zero => rfl
  | succ k ih => exact ih (s.moveTenth f)

/-- The position after `i` tenths. -/
def posAt (f : Bool) (p : Pos) (i : Nat) : Pos :=
  if f then p + BitVec.ofNat 32 i else p - BitVec.ofNat 32 i

theorem posAt_succ (d : Direction) (p : Pos) (i : Nat) :
    posAt (d == .forward) (nextTenth d p) i = posAt (d == .forward) p (i + 1) := by
  have e : BitVec.ofNat 32 (i + 1) = BitVec.ofNat 32 i + 1 := by bv_omega
  cases d
  · change p + 1 + BitVec.ofNat 32 i = p + BitVec.ofNat 32 (i + 1)
    rw [e]; ring
  · change p - 1 - BitVec.ofNat 32 i = p - BitVec.ofNat 32 (i + 1)
    rw [e]; ring

theorem tenth_pos (s : State) (f : Bool) (i : Nat) : (s.tenth f i).track.pos = posAt f s.track.pos i := by
  induction i with
  | zero => cases f <;> simp [posAt, State.tenth]
  | succ i ih =>
    have e : BitVec.ofNat 32 (i + 1) = BitVec.ofNat 32 i + 1 := by bv_omega
    rw [tenth_succ, moveTenth_pos, ih]
    unfold posAt
    rw [e]
    cases f
    · change s.track.pos - BitVec.ofNat 32 i - 1 = s.track.pos - (BitVec.ofNat 32 i + 1)
      ring
    · change s.track.pos + BitVec.ofNat 32 i + 1 = s.track.pos + (BitVec.ofNat 32 i + 1)
      ring

theorem tenth_places (s : State) (f : Bool) (i : Nat) :
    (s.tenth f i).track.records.map Record.place = s.track.records.map Record.place := by
  induction i with
  | zero => rfl
  | succ i ih => rw [tenth_succ]; exact (moveTenth_step _ f).place.trans ih

theorem countFrame_tenth (s : State) (f : Bool) (i : Nat) : CountFrame s (s.tenth f i) := by
  induction i with
  | zero => exact .refl s
  | succ i ih => rw [tenth_succ]; exact ih.trans (countFrame_moveTenth _ f)

/-! ## The tenths and the accumulator of a count (R2) -/

theorem countSteps_forward {frac c : Nat} (hc : 0 < c) :
    (countSteps .forward frac c).2 + (countSteps .forward frac c).1 * c = frac + 10000 ∧ (countSteps .forward frac c).2 < c :=
  ⟨Nat.mod_add_div' _ c, Nat.mod_lt _ hc⟩

theorem countSteps_backward {frac c : Nat} (hc : 0 < c) (hf : frac < c) :
    (countSteps .backward frac c).2 + 10000 = frac + (countSteps .backward frac c).1 * c ∧ (countSteps .backward frac c).2 < c := by
  unfold countSteps
  dsimp only
  split
  · next h => exact ⟨by dsimp only; omega, by dsimp only; omega⟩
  · next h =>
    have low := Nat.div_add_mod' (10000 - frac + c - 1) c
    have up := Nat.mod_lt (10000 - frac + c - 1) hc
    obtain ⟨n, hn⟩ : ∃ n, (10000 - frac + c - 1) / c = n := ⟨_, rfl⟩
    rw [hn] at low ⊢
    dsimp only
    constructor <;> omega

/-! ## The board at the bar (R78) -/

theorem boardAtBar_iff (s : State) (n : Nat) (p : Pos) (d : Direction) : boardAtBar s n p d = true ↔
    ∃ i, i < n ∧ ∃ r ∈ s.track.records,
      reachesBar s.ws r (posAt (d == .forward) p i) (posAt (d == .forward) p (i + 1)) = true := by
  have zero : ∀ q, posAt (d == .forward) q 0 = q := fun q => by unfold posAt; split <;> simp
  induction n generalizing p with
  | zero => exact ⟨(fun h => by cases h), fun ⟨i, hi, _⟩ => absurd hi (Nat.not_lt_zero i)⟩
  | succ k ih =>
    have one : nextTenth d p = posAt (d == .forward) p 1 := by
      rw [← posAt_succ, zero]
    have rest := ih (nextTenth d p)
    unfold boardAtBar
    rw [Bool.or_eq_true, List.any_eq_true]
    refine (or_congr_right rest).trans ?_
    constructor
    · rintro (⟨r, hr, h⟩ | ⟨i, hi, r, hr, h⟩)
      · exact ⟨0, Nat.succ_pos k, r, hr, by rw [zero, ← one]; exact h⟩
      · exact ⟨i + 1, Nat.succ_lt_succ hi, r, hr, by rw [← posAt_succ, ← posAt_succ]; exact h⟩
    · rintro ⟨i, hi, r, hr, h⟩
      cases i with
      | zero =>
        rw [zero, ← one] at h
        exact .inl ⟨r, hr, h⟩
      | succ i =>
        rw [← posAt_succ, ← posAt_succ] at h
        exact .inr ⟨i, Nat.lt_of_succ_lt_succ hi, r, hr, h⟩

theorem reachesBar_iff (c : Setup) (r : Record) (a b : Pos) : reachesBar c r a b = true ↔
    (a - r.lead).toNat < c.barF - 500 ∧ c.barF - 500 ≤ (b - r.lead).toNat :=
  decide_eq_true_iff

/-! ## The count as one step -/

/-- The records from the last tenth to the end of the count: the captures and entry tests stand, no mark of a stop goes. -/
theorem approached_record {v u t : State} (hu : u.track.records = v.track.records) (ht : t = u.settle) {j : Nat} {r q : Record}
    (hr : v.track.records[j]? = some r) (hq : t.track.records[j]? = some q) :
    q.topside = r.topside ∧ (r.has .dwell = true → q.has .dwell = true) ∧
      (r.has .waveInterrupted = true → q.has .waveInterrupted = true) ∧
      ∀ f, f = .topsideLow ∨ f = .topsideHigh ∨ f = .topsideUnmeasured ∨ f = .waveUnstable → q.has f = r.has f := by
  subst ht
  rw [← hu] at hr
  have same := forall₂_getElem? (moves_settle u).sameFlags hr hq
  have more := forall₂_getElem? (follows_settle u).flags hr hq
  have cores : u.settle.track.records.map Record.core = u.track.records.map Record.core :=
    (congrArg (fun x => x.track.records) (kept_settle u).core :)
  have core : q.core = r.core := by
    have e : (u.settle.track.records.map Record.core)[j]? = (u.track.records.map Record.core)[j]? := by rw [cores]
    rw [List.getElem?_map, List.getElem?_map, hr, hq] at e
    exact Option.some.inj e
  refine ⟨(congrArg Record.topside core :), more _, more _, fun f hf => same f ?_ ?_ ?_⟩ <;>
    (rintro rfl; revert hf; decide)

theorem approachBar_frame (u : State) (n : Nat) (p : Pos) (d : Direction) :
    Kept u (u.approachBar n p d) ∧ (u.approachBar n p d).track = u.track ∧ (u.approachBar n p d).thermal = u.thermal ∧
      (u.approachBar n p d).pot = u.pot ∧ (u.approachBar n p d).gate = u.gate ∧ (u.approachBar n p d).docket = u.docket ∧
      (u.approachBar n p d).flux.inhibit = u.flux.inhibit := by
  unfold State.approachBar
  split
  · refine ⟨kept_endPurge u, ?_⟩
    have inhibit : u.endPurge.flux.inhibit = u.flux.inhibit := by
      unfold State.endPurge
      cases hg : u.flux.purge with
      | none => rfl
      | some g => rw [creditPurge_some hg]; rfl
    rw [endPurge_frame]
    exact ⟨rfl, rfl, rfl, rfl, rfl, inhibit⟩
  · exact ⟨.refl u, rfl, rfl, rfl, rfl, rfl, rfl⟩

theorem endPurge_none (u : State) : u.endPurge.flux.purge = none := by
  unfold State.endPurge
  cases hg : u.flux.purge with
  | none => exact hg
  | some g => rfl

theorem InhibitBegins.of_inhibit {s u t : State} (h : u.flux.inhibit = s.flux.inhibit) : InhibitBegins u t ↔ InhibitBegins s t := by
  unfold InhibitBegins
  rw [h]

/-- The purge after a count (R78). -/
theorem count_purge {s a u t : State} {d : Direction} {n : Nat} {g : Purge} (ha : a.flux = s.flux) (hw : a.ws = s.ws)
    (hr : a.track.records = s.track.records) (hp : a.track.pos = s.track.pos)
    (hu : u = (a.tenth (d == .forward) n).approachBar n s.track.pos d) (ht : t = u.settle) (hg : s.flux.purge = some g) :
    (InhibitBegins s t ∨ (∃ i, i < n ∧ ∃ r ∈ s.track.records,
        ((a.tenth (d == .forward) i).track.pos - r.lead).toNat < s.ws.barF - 500 ∧
          s.ws.barF - 500 ≤ ((a.tenth (d == .forward) (i + 1)).track.pos - r.lead).toNat) → t.flux.purge = none) ∧
    (¬ InhibitBegins s t → (∀ i, i < n → ∀ r ∈ s.track.records,
        s.ws.barF - 500 ≤ ((a.tenth (d == .forward) i).track.pos - r.lead).toNat ∨
          ((a.tenth (d == .forward) (i + 1)).track.pos - r.lead).toNat < s.ws.barF - 500) → t.flux.purge = some g) := by
  obtain ⟨v, hv⟩ : ∃ v, a.tenth (d == .forward) n = v := ⟨_, rfl⟩
  rw [hv] at hu
  have blocks := State.blocks_moveTenths a (d == .forward) n
  rw [moveTenths_tenth, hv] at blocks
  obtain ⟨-, -, -, -, -, -, -, -, flux, -, -, port, -⟩ := blocks
  have ws : v.ws = s.ws := by rw [← hw]; unfold State.ws; rw [port]
  have places : v.track.records.map Record.place = s.track.records.map Record.place := by
    rw [← hv, ← hr]; exact tenth_places a _ n
  have inhibit : u.flux.inhibit = s.flux.inhibit := by
    rw [hu, (approachBar_frame v n s.track.pos d).2.2.2.2.2.2, flux, ha]
  have settles := fluxSettles_settle u
  rw [← ht] at settles
  have begins : InhibitBegins u t ↔ InhibitBegins s t := InhibitBegins.of_inhibit inhibit
  have comes : boardAtBar v n s.track.pos d = true ↔ ∃ i, i < n ∧ ∃ r ∈ s.track.records,
      ((a.tenth (d == .forward) i).track.pos - r.lead).toNat < s.ws.barF - 500 ∧
        s.ws.barF - 500 ≤ ((a.tenth (d == .forward) (i + 1)).track.pos - r.lead).toNat := by
    rw [boardAtBar_iff]
    refine exists_congr fun i => and_congr_right fun _ => ?_
    rw [tenth_pos, tenth_pos, hp, ws]
    constructor
    · rintro ⟨q, hq, reach⟩
      obtain ⟨r, hr', e⟩ := List.mem_map.mp (places ▸ List.mem_map_of_mem (f := Record.place) hq)
      refine ⟨r, hr', ?_⟩
      rw [(place_fields e).2.1, ← reachesBar_iff]
      exact reach
    · rintro ⟨r, hr', reach⟩
      obtain ⟨q, hq, e⟩ := List.mem_map.mp (places.symm ▸ List.mem_map_of_mem (f := Record.place) hr')
      refine ⟨q, hq, ?_⟩
      rw [reachesBar_iff, (place_fields e).2.1]
      exact reach
  have purge : u.flux.purge = if boardAtBar v n s.track.pos d then none else some g := by
    rw [hu]
    unfold State.approachBar
    split
    · exact endPurge_none v
    · rw [flux, ha]; exact hg
  by_cases b : InhibitBegins s t
  · exact ⟨fun _ => (settles.begins (begins.mpr b)).2.2.1, fun h => absurd b h⟩
  · have still := (settles.still (mt begins.mp b)).2.2.2
    refine ⟨fun h => ?_, fun _ far => ?_⟩
    · rw [still, purge, if_pos (comes.mpr (h.resolve_left b))]
    · have off : ¬ boardAtBar v n s.track.pos d = true := fun c => by
        obtain ⟨i, hi, r, hr', below, reach⟩ := comes.mp c
        rcases far i hi r hr' with h | h
        · exact absurd below (Nat.not_lt.mpr h)
        · exact absurd reach (Nat.not_le.mpr h)
      rw [still, purge, if_neg off]

/-- A count as its tenths from the state with the new accumulator and net count (R2, R6). -/
theorem countEncoder_tenths (s : State) (d : Direction) (k : Nat × Nat) (hk : k = countSteps d s.track.frac s.ws.countsPerMetre) :
    ∃ net, (d = .forward → net = s.track.net + 1) ∧ (d = .backward → net = s.track.net - 1) ∧
      s.countEncoder d = (({ s with track := { s.track with frac := k.2, net := net } } : State).tenth (d == .forward)
        k.1).approachBar k.1 s.track.pos d := by
  subst hk
  cases d
  · refine ⟨s.track.net + 1, fun _ => rfl, (fun h => by cases h), ?_⟩
    rw [← moveTenths_tenth]
    rfl
  · refine ⟨s.track.net - 1, (fun h => by cases h), fun _ => rfl, ?_⟩
    rw [← moveTenths_tenth]
    rfl

/-- Settles O20: the count as its tenths, then the bar, then the consequences. -/
theorem encoderCountMovesThePosition : Obligations.EncoderCountMovesThePosition := by
  unfold Obligations.EncoderCountMovesThePosition
  intro s d
  have run : exec (.encoderCount d) s = .next (if s.loaded then (s.countEncoder d).settle else s) := rfl
  refine ⟨fun h => by rw [run, if_neg (by rw [h]; decide)], fun loaded positive below => ?_⟩
  rw [run, if_pos loaded]
  obtain ⟨k, hk⟩ : ∃ k, k = countSteps d s.track.frac s.ws.countsPerMetre := ⟨_, rfl⟩
  obtain ⟨net, up, down, count⟩ := countEncoder_tenths s d k hk
  obtain ⟨a, ha⟩ : ∃ a : State, a = { s with track := { s.track with frac := k.2, net := net } } := ⟨_, rfl⟩
  rw [← ha] at count
  obtain ⟨v, hv⟩ : ∃ v, v = a.tenth (d == .forward) k.1 := ⟨_, rfl⟩
  rw [← hv] at count
  obtain ⟨u, hu⟩ : ∃ u, u = v.approachBar k.1 s.track.pos d := ⟨_, rfl⟩
  rw [count, ← hu]
  obtain ⟨t, ht⟩ : ∃ t, t = u.settle := ⟨_, rfl⟩
  rw [← ht]
  have last : Kept v t := by
    rw [ht, hu]
    exact (approachBar_frame v k.1 s.track.pos d).1.trans (kept_settle _)
  have frame : CountFrame a t := by
    rw [hv] at last
    exact (countFrame_tenth a _ k.1).trans last.countFrame
  obtain ⟨off, frac, netT, entry, exit, ordinal, owner, overflow, phantom, trail, measured⟩ := frame
  have pos : t.track.pos = posAt (d == .forward) s.track.pos k.1 := by
    rw [last.keeps.trackPos, hv, tenth_pos, ha]
  rw [ha] at frac netT entry exit ordinal owner overflow phantom trail measured off
  dsimp only at frac netT entry exit ordinal owner overflow phantom trail measured off
  have places : t.track.records.map Record.place = s.track.records.map Record.place := by
    rw [last.places, hv, tenth_places, ha]
  have arithmetic : (d = .forward → t.track.frac + k.1 * s.ws.countsPerMetre = s.track.frac + 10000) ∧
      (d = .backward → t.track.frac + 10000 = s.track.frac + k.1 * s.ws.countsPerMetre) ∧
      t.track.frac < s.ws.countsPerMetre := by
    rw [frac, hk]
    cases d with
    | forward =>
      obtain ⟨sum, small⟩ := countSteps_forward (frac := s.track.frac) positive
      exact ⟨fun _ => sum, (fun h => by cases h), small⟩
    | backward =>
      obtain ⟨sum, small⟩ := countSteps_backward positive below
      exact ⟨(fun h => by cases h), fun _ => sum, small⟩
  obtain ⟨carries, borrows, small⟩ := arithmetic
  have approach := approachBar_frame v k.1 s.track.pos d
  rw [← hu] at approach
  obtain ⟨-, track, thermal, pot, gate, docket, -⟩ := approach
  refine ⟨t, k.1, rfl, fun h => ⟨?_, carries h, ?_⟩, fun h => ⟨?_, borrows h, ?_⟩, small, places, entry, exit, ordinal, owner,
    overflow, phantom, trail, measured, ⟨a.tenth (d == .forward), ?_, tenth_succ a _, fun i _ => ?_, ?_, ?_, ?_⟩, off.keeps⟩
  · rw [pos, h]; rfl
  · rw [netT, up h]
  · rw [pos, h]; rfl
  · rw [netT, down h]
  · rw [frac, netT]
    exact ha
  · rw [tenth_succ]
    exact moveTenth_step _ _
  · rw [← hv]
    exact fun j r q => approached_record (congrArg Track.records track) ht
  · intro formed
    rw [← hv]
    have blocks := State.blocks_moveTenths a (d == .forward) k.1
    rw [moveTenths_tenth, ← hv] at blocks
    obtain ⟨-, -, -, -, -, -, docketV, gateV, -⟩ := blocks
    have gateU : u.gate = s.gate := by rw [gate, gateV, ha]
    have docketU : u.docket = s.docket := by rw [docket, docketV, ha]
    have held : TargetsHeld u t := by
      rw [ht]
      refine targetsHeld_settle fun bare => ?_
      have same := formed.noOffering ((nextBoard_congr (by rw [gateU]) docketU).symm.trans bare)
      unfold NoOffering
      rw [gateU]
      exact same
    have board : u.nextBoard = v.nextBoard := nextBoard_congr (by rw [gate]) docket
    obtain ⟨zones, pumps⟩ := held
    rw [thermal] at zones
    refine ⟨fun z h => zones z (by rw [board]; exact h), fun w h => ?_⟩
    have pump : u.pot.pump w = v.pot.pump w := by rw [pot]
    rw [← pump]
    exact pumps w (by rw [board]; exact h)
  · exact fun g hg => count_purge (by rw [ha]) (by rw [ha]; rfl) (by rw [ha]) (by rw [ha]) (by rw [hu, hv]) ht hg

end Sys2Proof.Machine
end



section
/-! What a command that has no consequences leaves alone, and the step rule that follows: a rule that the consequences form is
kept by every step. -/

namespace Sys2Proof.Machine

open Sys2Proof.Config

/-- `t` is `s` but for what no re-formed rule looks at: time, memory, pending raw changes, running timers. -/
structure Undisturbed (s t : State) : Prop where
  upstream : t.pins.upstream = s.pins.upstream
  downstream : t.pins.downstream = s.pins.downstream
  track : { t.track with
    entryEye := s.track.entryEye, exitEye := s.track.exitEye, overflow := s.track.overflow, phantom := s.track.phantom } = s.track
  entryEye : t.track.entryEye.accepted = s.track.entryEye.accepted
  exitEye : t.track.exitEye.accepted = s.track.exitEye.accepted
  docket : t.docket = s.docket
  gate : { t.gate with width := s.gate.width } = s.gate
  inMotion : t.gate.width.inMotion = s.gate.width.inMotion
  width : s.gate.width.inMotion = false → t.gate.width = s.gate.width
  outfeed : { t.outfeed with sensor := s.outfeed.sensor } = s.outfeed
  flux : t.flux = s.flux
  thermal : { t.thermal with outputs := s.thermal.outputs } = s.thermal
  chip : t.pot.chip = s.pot.chip
  main : t.pot.main = s.pot.main
  drop : t.pot.drop = s.pot.drop
  levelGood : t.pot.levelGood = s.pot.levelGood
  extr : { t.extr with grace1 := s.extr.grace1, grace2 := s.extr.grace2, sampled := s.extr.sampled } = s.extr
  modes : { t.modes with idle := s.modes.idle, runOn := s.modes.runOn } = s.modes
  idle : t.modes.idle.isSome = s.modes.idle.isSome
  runOn : t.modes.runOn.isSome = s.modes.runOn.isSome
  setup : t.port.setup = s.port.setup
  supRunning : t.port.supRunning = s.port.supRunning
  hostLost : t.port.hostLost = s.port.hostLost
  line : NoticeLineFormed s → NoticeLineFormed t

namespace Undisturbed

variable {s t u : State}

theorem refl (s : State) : Undisturbed s s :=
  ⟨rfl, rfl, rfl, rfl, rfl, rfl, rfl, rfl, fun _ => rfl, rfl, rfl, rfl, rfl, rfl, rfl, rfl, rfl, rfl, rfl, rfl, rfl, rfl, rfl, id⟩

theorem trans (h : Undisturbed s t) (g : Undisturbed t u) : Undisturbed s u where
  upstream := g.upstream.trans h.upstream
  downstream := g.downstream.trans h.downstream
  track := (congrArg (fun x : Track => { x with
    entryEye := s.track.entryEye, exitEye := s.track.exitEye, overflow := s.track.overflow, phantom := s.track.phantom }) g.track :).trans h.track
  entryEye := g.entryEye.trans h.entryEye
  exitEye := g.exitEye.trans h.exitEye
  docket := g.docket.trans h.docket
  gate := (congrArg (fun x : Gate => { x with width := s.gate.width }) g.gate :).trans h.gate
  inMotion := g.inMotion.trans h.inMotion
  width := fun w => (g.width (h.inMotion.trans w)).trans (h.width w)
  outfeed := (congrArg (fun x : Outfeed => { x with sensor := s.outfeed.sensor }) g.outfeed :).trans h.outfeed
  flux := g.flux.trans h.flux
  thermal := (congrArg (fun x : Thermal => { x with outputs := s.thermal.outputs }) g.thermal :).trans h.thermal
  chip := g.chip.trans h.chip
  main := g.main.trans h.main
  drop := g.drop.trans h.drop
  levelGood := g.levelGood.trans h.levelGood
  extr := (congrArg (fun x : Extr => { x with grace1 := s.extr.grace1, grace2 := s.extr.grace2, sampled := s.extr.sampled })
    g.extr :).trans h.extr
  modes := (congrArg (fun x : Modes => { x with idle := s.modes.idle, runOn := s.modes.runOn }) g.modes :).trans h.modes
  idle := g.idle.trans h.idle
  runOn := g.runOn.trans h.runOn
  setup := g.setup.trans h.setup
  supRunning := g.supRunning.trans h.supRunning
  hostLost := g.hostLost.trans h.hostLost
  line := g.line ∘ h.line

/-! ## The parts that may differ -/

theorem advance (s : State) (n : Nat) : Undisturbed s (s.advance n) := by
  constructor
  case idle => simp [State.advance]
  case runOn => simp [State.advance]
  case width => exact fun _ => rfl
  case line => exact id
  all_goals rfl

theorem outside (s : State) (mem : Memory) (l : List Instr) (clock statusAt : Clock) :
    Undisturbed s { s with mem := mem, pending := l, clock := clock, statusAt := statusAt } :=
  { refl s with }

theorem pins (s : State) (p : Pins) (hu : p.upstream = s.pins.upstream) (hd : p.downstream = s.pins.downstream) :
    Undisturbed s { s with pins := p } :=
  { refl s with upstream := hu, downstream := hd }

theorem port (s : State) (p : Port) (hs : p.setup = s.port.setup) (hr : p.supRunning = s.port.supRunning)
    (hl : p.hostLost = s.port.hostLost) (line : NoticeLineFormed s → NoticeLineFormed { s with port := p }) :
    Undisturbed s { s with port := p } :=
  { refl s with setup := hs, supRunning := hr, hostLost := hl, line }

theorem pot (s : State) (p : Pot) (hc : p.chip = s.pot.chip) (hm : p.main = s.pot.main) (hd : p.drop = s.pot.drop)
    (hl : p.levelGood = s.pot.levelGood) : Undisturbed s { s with pot := p } :=
  { refl s with chip := hc, main := hm, drop := hd, levelGood := hl }

theorem sensor (s : State) (q : Qualifier) : Undisturbed s { s with outfeed := { s.outfeed with sensor := q } } :=
  { refl s with outfeed := rfl }

theorem outputs (s : State) (o : Tab8 Bool) : Undisturbed s { s with thermal := { s.thermal with outputs := o } } :=
  { refl s with thermal := rfl }

theorem flags (s : State) (o p : Bool) : Undisturbed s { s with track := { s.track with overflow := o, phantom := p } } :=
  { refl s with track := rfl }

theorem withWidth (s : State) (w : Width) (hm : w.inMotion = s.gate.width.inMotion)
    (hw : s.gate.width.inMotion = false → w = s.gate.width) : Undisturbed s { s with gate := { s.gate with width := w } } :=
  { refl s with gate := rfl, inMotion := hm, width := hw }

theorem rawEye (s : State) (e : Eye) (b : Bool) : Undisturbed s (s.rawEye e b) := by
  have same : ∀ q : Qualifier, (q.raw b s.track.pos).accepted = q.accepted := fun q => by
    unfold Qualifier.raw; split <;> rfl
  cases e with
  | entry => exact { refl s with track := rfl, entryEye := same _ }
  | exit => exact { refl s with track := rfl, exitEye := same _ }

theorem answer (s : State) (a : Answer) : Undisturbed s (s.answer a) := by
  refine port s _ ?_ ?_ ?_ fun _ => answer_line s a <;> cases a <;> rfl

theorem refresh (s : State) : Undisturbed s s.writeClock.refresh := { refl s with }

theorem taken {q : State} {code : Word} {ws : List HostWrite} (h : Taken s code ws q) : Undisturbed s q := by
  obtain ⟨-, -, h⟩ | ⟨-, h⟩ := h <;> rw [h] <;> exact { refl s with }

theorem step (w : Width) : w.step.inMotion = w.inMotion ∧ (w.inMotion = false → w.step = w) := by
  have state : w.step.state = w.state := by
    unfold Width.step
    split
    · rfl
    · split
      · rfl
      · split <;> rfl
    · rfl
    · rfl
    · rfl
  refine ⟨by unfold Width.inMotion; rw [state], fun h => ?_⟩
  unfold Width.inMotion at h
  unfold Width.step
  cases hw : w.state with
  | homing o => rw [hw] at h; cases h
  | moving => rw [hw] at h; cases h
  | _ => rfl

theorem turnInward (w : Width) : w.turnInward.inMotion = w.inMotion ∧ (w.inMotion = false → w.turnInward = w) := by
  unfold Width.turnInward
  split
  · next h => exact ⟨by unfold Width.inMotion; rw [h], fun g => by unfold Width.inMotion at g; rw [h] at g; cases g⟩
  · exact ⟨rfl, fun _ => rfl⟩

end Undisturbed

/-! ## The commands without consequences -/

theorem settleFeed_rest (p : Pot) (n : Nat) : (p.settleFeed n).chip = p.chip ∧ (p.settleFeed n).main = p.main ∧
    (p.settleFeed n).drop = p.drop ∧ (p.settleFeed n).levelGood = p.levelGood := by
  unfold Pot.settleFeed
  split
  · exact ⟨rfl, rfl, rfl, rfl⟩
  · split <;> exact ⟨rfl, rfl, rfl, rfl⟩

/-- An ending without consequences. -/
def Ending.silent : Ending → Bool
  | .still => true
  | .answered e _ => e.silent
  | _ => false

/-- An effect that no consequences follow disturbs nothing. -/
theorem Effect.undisturbed {s u : State} {c : Instr} {e : Ending} (h : Effect s c e u) (he : e.silent = true) :
    Undisturbed s u := by
  cases h with
  | nothing => exact .refl s
  | rawEye e b => exact .rawEye s e b
  | heaterOutputSwitch k m => exact (Undisturbed.advance s _).trans (.outputs _ _)
  | feederShotStart => exact .pot s _ rfl rfl rfl rfl
  | feederShotComplete r => exact (Undisturbed.advance s r).trans (.pot _ _ rfl rfl rfl rfl)
  | feederSettlingComplete r =>
    have pot := Undisturbed.pot (s.advance r) ((s.advance r).pot.settleFeed s.ws.minRise)
      (settleFeed_rest _ _).1 (settleFeed_rest _ _).2.1 (settleFeed_rest _ _).2.2.1 (settleFeed_rest _ _).2.2.2
    refine ((Undisturbed.advance s r).trans pot).trans (.port _ _ ?_ ?_ ?_ fun _ => line_iff _) <;>
      (unfold Port.notifyIf; split <;> rfl)
  | shotHistoryExpiry x rest => exact (Undisturbed.advance s _).trans (.pot _ _ rfl rfl rfl rfl)
  | widthLimitSeen e => exact .pins s _ (by cases e <;> rfl) (by cases e <;> rfl)
  | estopInputRelease => exact .pins s _ rfl rfl
  | endSensorRawChange b => exact (Undisturbed.pins s { s.pins with endSensor := b } rfl rfl).trans (.sensor _ _)
  | startGraceEnd x r =>
    refine (Undisturbed.advance s r).trans { Undisturbed.refl (s.advance r) with extr := ?_ }
    cases x <;> rfl
  | overrun =>
    exact { Undisturbed.refl s with }
  | refused _ code q _ _ hc hq => exact .taken hq
  | accepted _ code q _ _ hc hq hr ha =>
    cases ha with
    | sourceStands => exact .taken hq
    | clearTrackFlags => exact (Undisturbed.taken hq).trans (.flags _ _ _)
    | _ => cases he
  | requestOverrun code =>
    by_cases busy : s.port.request = .busy
    · rw [if_pos busy]
      exact .port s _ rfl rfl rfl id
    · rw [if_neg busy]
      exact .port s _ rfl rfl rfl id
  | noticeRead => exact .port s _ rfl rfl rfl id
  | noticeWrite v => exact .port s _ rfl rfl rfl fun _ => line_iff _
  | noticeEnWrite v => exact .port s _ rfl rfl rfl fun _ => line_iff _
  | posRead x => exact .port s _ rfl rfl rfl id
  | widthStepperStep => exact .withWidth s _ (Undisturbed.step _).1 (Undisturbed.step _).2
  | homeSwitchInactive =>
    exact (Undisturbed.pins s { s.pins with homeActive := false } rfl rfl).trans
      (.withWidth _ _ (Undisturbed.turnInward _).1 (Undisturbed.turnInward _).2)
  | _ => cases he

theorem Ending.undisturbed (e : Ending) (u : State) :
    (e.silent = true ∧ Undisturbed u (e.of u)) ∨ ∃ v : State, Undisturbed v.settle (e.of u) := by
  induction e with
  | still => exact .inl ⟨rfl, .refl u⟩
  | settled => exact .inr ⟨u, Undisturbed.refl u.settle⟩
  | evaluated => exact .inr ⟨u.reform.gateEval, Undisturbed.refl u.settleEval⟩
  | interval => exact .inr ⟨u.reform.gateEval, Undisturbed.refresh u.settleEval⟩
  | answered e a ih => exact ih.imp (fun h => ⟨h.1, h.2.trans (.answer _ a)⟩) fun ⟨v, h⟩ => ⟨v, h.trans (.answer _ a)⟩

/-- A command resets, disturbs nothing, or ends as the consequences of a step leave it. -/
theorem exec_disturbs {c : Instr} {s t : State} (h : exec c s = .next t) :
    (∃ port, AfterReset s t port) ∨ Undisturbed s t ∨ ∃ v : State, Undisturbed v.settle t := by
  rcases exec_reset_or_effect h with reset | ⟨e, u, effect, rfl⟩
  · exact .inl reset
  · exact .inr ((e.undisturbed u).imp (fun g => (effect.undisturbed g.1).trans g.2) id)

/-- A rule that the consequences of a step form, that the resets meet and that nothing else disturbs is kept by every step. -/
theorem step_keeps_rule (P : State → Prop) (settles : ∀ u : State, P u.settle)
    (resets : ∀ s t port, AfterReset s t port → P t) (still : ∀ s t, Undisturbed s t → P s → P t)
    {s t : State} (h : step s = .next t) (hs : P s) : P t := by
  rcases step_cases h with ⟨c, l, run⟩ | rfl
  · rcases exec_disturbs run with ⟨port, reset⟩ | same | ⟨v, same⟩
    · exact resets _ t port reset
    · exact still _ t same (still s _ (.outside s s.mem l s.clock s.statusAt) hs)
    · exact still _ t same (settles v)
  · exact still s _ (.advance s 1) hs

end Sys2Proof.Machine
end



section
/-! The targets as their tables say after every step (R5, R84, R85, R105 to R109, R126, R127). -/

namespace Sys2Proof.Machine

open Sys2Proof.Config

/-! ## The first record that a test names -/

theorem find_places {f g : Record → Bool} (hf : ByPlace f) (hg : ∀ r, g r = f r) {rs qs : List Record}
    (h : qs.map Record.place = rs.map Record.place) : (qs.find? g).map Record.place = (rs.find? f).map Record.place := by
  obtain rfl : g = f := funext hg
  induction rs generalizing qs with
  | nil => rw [List.map_eq_nil_iff.mp h]
  | cons r rs ih =>
    cases qs with
    | nil => cases h
    | cons q qs =>
      obtain ⟨head, tail⟩ := List.cons_eq_cons.mp h
      cases hr : g r with
      | true => rw [List.find?_cons_of_pos ((hf r q head).trans hr), List.find?_cons_of_pos hr]; exact congrArg some head
      | false =>
        rw [List.find?_cons_of_neg (by rw [hf r q head, hr]; decide), List.find?_cons_of_neg (by rw [hr]; decide)]
        exact ih tail

theorem recipe_of_place {r q : Record} (h : q.place = r.place) : q.recipe? = r.recipe? := by
  obtain ⟨-, -, -, -, binding, -⟩ := place_fields h
  unfold Record.recipe?
  rw [isIntruder_of_place h, binding]

/-- Two records of one place, or none. -/
theorem map_of_place {α : Type} {f : Record → α} (hf : ∀ r q : Record, q.place = r.place → f q = f r) {a b : Option Record}
    (h : b.map Record.place = a.map Record.place) : b.map f = a.map f := by
  cases a with
  | none => rw [Option.map_eq_none_iff.mp h]
  | some r =>
    obtain ⟨q, rfl, e⟩ := Option.map_eq_some_iff.mp h
    exact congrArg some (hf r q e)

/-! ## Targets and governing boards as the tables give them -/

/-- What the tables of the targets look at: mode, list, next recipe and ground. -/
structure SameRule (s t : State) : Prop where
  ground : SameGround s t
  places : t.track.records.map Record.place = s.track.records.map Record.place
  mode : t.modes.mode = s.modes.mode
  next : t.nextBoard = s.nextBoard

theorem SameRule.zoneGovernor {s t : State} (h : SameRule s t) (z : Zone) :
    (zoneGovernor t z).map Record.place = (zoneGovernor s z).map Record.place := by
  unfold Machine.zoneGovernor
  rw [h.mode]
  have found := find_places (zoneCandidate_byPlace s z) (fun r => congrFun (h.ground.zoneCandidate z) r) h.places
  cases s.modes.mode with
  | production => exact found
  | cooldown => exact found
  | _ => rfl

theorem SameRule.waveGovernor {s t : State} (h : SameRule s t) (w : Wave) :
    (waveGovernor t w).map Record.place = (waveGovernor s w).map Record.place := by
  unfold Machine.waveGovernor
  rw [h.mode]
  have found := find_places (waveCandidate_byPlace s w) (fun r => congrFun (h.ground.waveCandidate w) r) h.places
  cases s.modes.mode with
  | production => exact found
  | cooldown => exact found
  | _ => rfl

/-- A target that its rule gave stands at its rule. -/
theorem SameRule.zoneTarget {s t : State} (h : SameRule s t) {z : Zone}
    (ht : (t.thermal.zones.get z).target = zoneTarget s z) : (t.thermal.zones.get z).target = zoneTarget t z := by
  have zone := map_of_place (f := fun r => r.zone z) (fun r q e => by unfold Record.zone; rw [recipe_of_place e]) (h.zoneGovernor z)
  have keep : ∀ o : Option Int, (t.thermal.zones.get z).target = o.getD (s.thermal.zones.get z).target →
      (t.thermal.zones.get z).target = o.getD (t.thermal.zones.get z).target := fun o e => by
    cases o with
    | none => rfl
    | some x => exact e
  unfold Machine.zoneTarget at ht ⊢
  rw [h.mode, zone, h.next]
  cases hm : s.modes.mode <;> rw [hm] at ht
  case production => exact keep _ ht
  case warmup => exact keep _ ht
  all_goals exact ht

theorem isEmpty_of_places {rs qs : List Record} (h : qs.map Record.place = rs.map Record.place) : qs.isEmpty = rs.isEmpty := by
  cases rs with
  | nil => rw [List.map_eq_nil_iff.mp h]
  | cons r rs =>
    cases qs with
    | nil => cases h
    | cons q qs => rfl

theorem SameRule.pumpTarget {s t : State} (h : SameRule s t) {w : Wave}
    (ht : (t.pot.pump w).target = pumpTarget s w) : (t.pot.pump w).target = pumpTarget t w := by
  have wave := map_of_place (f := fun r => r.rpm w) (fun r q e => by unfold Record.rpm; rw [recipe_of_place e]) (h.waveGovernor w)
  have keep : ∀ o : Option Nat, (t.pot.pump w).target = o.getD (s.pot.pump w).target →
      (t.pot.pump w).target = o.getD (t.pot.pump w).target := fun o e => by
    cases o with
    | none => rfl
    | some x => exact e
  unfold Machine.pumpTarget at ht ⊢
  rw [h.mode, wave, h.next, isEmpty_of_places h.places]
  cases hm : s.modes.mode <;> rw [hm] at ht
  case production => exact keep _ ht
  case warmup => exact keep _ ht
  case cooldown =>
    cases he : s.track.records.isEmpty <;> rw [he] at ht
    · exact keep _ ht
    · exact ht
  all_goals exact ht

/-! ## The targets after a re-forming -/

theorem sameRule_reform (s : State) : SameRule s.beforeTargets s.reform := by
  obtain ⟨u, hu⟩ : ∃ u, s.beforeTargets = u := ⟨_, rfl⟩
  have next : s.reform.nextBoard = u.nextBoard := by rw [nextBoard_reform, ← hu, nextBoard_beforeTargets]
  rw [reform_eq, hu] at next ⊢
  have kept : Kept u u.reformTargets.reformMotion.reformWaits.reformIdle.reformLine :=
    ((((kept_reformTargets u).trans (kept_reformMotion _)).trans (kept_reformWaits _)).trans (kept_reformIdle _)).trans
      (kept_reformLine _)
  refine ⟨kept.ground, kept.places, ?_, next⟩
  simp [State.reformTargets, State.reformMotion, State.reformIdle]

theorem Loop.formSettled_rest (l : Loop) (auth : Bool) : (l.formSettled auth).governing = l.governing ∧
    (l.formSettled auth).sp = l.sp ∧ (l.formSettled auth).target = l.target := by
  unfold Loop.formSettled
  split
  · exact ⟨rfl, rfl, rfl⟩
  · split <;> exact ⟨rfl, rfl, rfl⟩

theorem Loop.reform_rest (l : Loop) (x : Int) (auth : Bool) (g : Option (BitVec 16)) :
    (l.reform x auth g).governing = g ∧ (l.reform x auth g).sp = x := by
  have sp : (l.retarget x).follow.sp = x := by unfold Loop.follow Loop.retarget; split <;> [assumption; rfl]
  exact ⟨rfl, (Loop.formSettled_rest _ auth).2.1.trans sp⟩

theorem Loop.retarget_target (l : Loop) (x : Int) : (l.retarget x).target = x := by
  unfold Loop.retarget
  split <;> [assumption; rfl]

theorem Pump.follow_governing (p : Pump) (d : Drop) : (p.follow d).governing = p.governing := by
  unfold Pump.follow Pump.refer
  generalize (if d = .held then 0 else p.target) = r
  split <;> rfl

theorem governing_reformConveyor (s : State) (w : Wave) :
    (s.reformConveyor.pot.pump w).governing = (s.pot.pump w).governing := by
  have refs : ∀ u : State, (u.reformPumpRefs.pot.pump w).governing = (u.pot.pump w).governing := fun u => by
    cases w <;> exact Pump.follow_governing _ _
  have first : (s.followDrop.pot.pump w).governing = (s.pot.pump w).governing :=
    (refs { s with pot := { s.pot with drop := s.pot.drop.follow (runDemand s) } }).trans (by cases w <;> rfl)
  have middle : (s.followDrop.endDrop.reformRef.pot.pump w).governing = (s.followDrop.pot.pump w).governing := by cases w <;> rfl
  exact (refs _).trans (middle.trans first)

/-- SP and the governing board of each zone, and the governing board of each pump, after a re-forming. -/
theorem reform_governing (s : State) :
    (∀ z, (s.reform.thermal.zones.get z).governing = (zoneGovernor s.beforeTargets z).map (·.ordinal) ∧
      (s.reform.thermal.zones.get z).sp = (s.reform.thermal.zones.get z).target) ∧
    (∀ w, (s.reform.pot.pump w).governing = (waveGovernor s.beforeTargets w).map (·.ordinal)) ∧
    s.reform.thermal.pot.target = potTarget s.reform := by
  have rule := sameRule_reform s
  obtain ⟨u, hu⟩ : ∃ u, s.beforeTargets = u := ⟨_, rfl⟩
  obtain ⟨t, ht⟩ : ∃ t, s.reform = t := ⟨_, rfl⟩
  have e : u.reformTargets.reformMotion.reformWaits.reformIdle.reformLine = t := by rw [← hu, ← ht]; rfl
  rw [hu, ht] at rule ⊢
  have thermal : t.thermal = u.reformTargets.thermal := by
    rw [← e]
    simp [State.reformMotion]
  have zone : ∀ z, t.thermal.zones.get z = ((u.thermal.zones.get z).reform (zoneTarget u z) u.thermal.auth
      ((zoneGovernor u z).map (·.ordinal))).formSettled u.thermal.auth := fun z => by
    rw [thermal]
    unfold State.reformTargets State.reformPotTarget State.reformPumpTargets State.reformZones
    rw [Tab6.get_mapIdx, Tab6.get_mapIdx]
  refine ⟨fun z => ?_, fun w => ?_, ?_⟩
  · obtain ⟨governing, sp, target⟩ := Loop.formSettled_rest ((u.thermal.zones.get z).reform (zoneTarget u z) u.thermal.auth
      ((zoneGovernor u z).map (·.ordinal))) u.thermal.auth
    rw [zone, governing, sp, target, Loop.reform_target]
    exact Loop.reform_rest _ _ _ _
  · have pot : (t.pot.pump w).governing = (u.reformTargets.reformOutfeed.reformWidth.pot.pump w).governing := by
      rw [← e]
      exact governing_reformConveyor u.reformTargets.reformOutfeed.reformWidth w
    rw [pot]
    cases w <;> rfl
  · have target : t.thermal.pot.target = potTarget u.reformZones.reformPumpTargets := by
      rw [thermal]
      have shape : u.reformTargets.thermal.pot =
          (u.reformZones.reformPumpTargets.thermal.pot.retarget (potTarget u.reformZones.reformPumpTargets)).formSettled u.thermal.auth := rfl
      rw [shape, Loop.formSettled_target, Loop.retarget_target]
    have named : t.gate.namedClass = u.gate.namedClass := by
      obtain ⟨phase, line, named⟩ : t.gate.phase = u.gate.phase ∧ t.gate.lineClass = u.gate.lineClass ∧
          t.gate.target = u.gate.target := by
        rw [← e]
        exact ⟨rfl, rfl, rfl⟩
      unfold Gate.namedClass
      rw [phase, line, named]
    rw [target]
    unfold potTarget
    rw [rule.mode, named, rule.ground.ws]
    rfl

/-- Every target as its table says, by mode. -/
theorem targetsFormed_of {t : State} (zones : ∀ z, (t.thermal.zones.get z).target = zoneTarget t z ∧
      (t.thermal.zones.get z).governing = (zoneGovernor t z).map (·.ordinal) ∧
      (t.thermal.zones.get z).sp = (t.thermal.zones.get z).target)
    (pumps : ∀ w, (t.pot.pump w).target = pumpTarget t w ∧ (t.pot.pump w).governing = (waveGovernor t w).map (·.ordinal))
    (pot : t.thermal.pot.target = potTarget t) : TargetsFormed t := by
  refine ⟨fun z => ?_, fun w => ?_, ?_⟩
  · obtain ⟨target, governing, sp⟩ := zones z
    unfold zoneTarget zoneGovernor at target
    unfold zoneGovernor at governing
    refine ⟨fun r found mode => ?_, fun out => ?_, fun mode empty => ?_, fun mode b hb => ?_, fun mode => ?_, sp⟩
    · rcases mode with mode | mode <;> rw [mode] at target governing <;> dsimp only at target governing <;>
        rw [found] at target governing <;> exact ⟨governing, target⟩
    · rw [governing]
      cases hm : t.modes.mode <;> dsimp only
      case production => rw [out.resolve_right fun h => h.1 hm]; rfl
      case cooldown => rw [out.resolve_right fun h => h.2 hm]; rfl
      all_goals rfl
    · rw [mode] at target
      dsimp only at target
      rw [empty] at target
      exact target
    · rw [mode] at target
      dsimp only at target
      rw [Option.mem_def.mp hb] at target
      exact target
    · rcases mode with mode | mode | mode <;> rw [mode] at target <;> exact target
  · obtain ⟨target, governing⟩ := pumps w
    unfold pumpTarget waveGovernor at target
    unfold waveGovernor at governing
    refine ⟨fun r found mode => ?_, fun out => ?_, fun mode empty => ?_, fun mode b hb => ?_, fun mode => ?_⟩
    · rcases mode with mode | mode <;> rw [mode] at target governing <;> dsimp only at target governing <;>
        rw [found] at target governing <;> exact ⟨governing, target⟩
    · rw [governing]
      cases hm : t.modes.mode <;> dsimp only
      case production => rw [out.resolve_right fun h => h.1 hm]; rfl
      case cooldown => rw [out.resolve_right fun h => h.2 hm]; rfl
      all_goals rfl
    · rw [mode] at target
      dsimp only at target
      rw [empty] at target
      exact target
    · rw [mode] at target
      dsimp only at target
      rw [Option.mem_def.mp hb] at target
      exact target
    · rcases mode with mode | mode | mode <;> rw [mode] at target <;> exact target
  · rw [pot]
    unfold potTarget
    cases hm : t.modes.mode <;> cases t.gate.namedClass <;> rfl

theorem reform_targetsFormed (s : State) : TargetsFormed s.reform := by
  have rule := sameRule_reform s
  obtain ⟨zones, pumps⟩ := reform_targets s
  obtain ⟨zoneBoards, pumpBoards, pot⟩ := reform_governing s
  have ordinal := fun {a b : Option Record} => map_of_place (a := a) (b := b) (f := fun r => r.ordinal)
    fun r q e => (place_fields e).2.2.2.1
  refine targetsFormed_of (fun z => ⟨rule.zoneTarget (zones z), ?_, (zoneBoards z).2⟩)
    (fun w => ⟨rule.pumpTarget (pumps w), ?_⟩) pot
  · rw [(zoneBoards z).1, ordinal (rule.zoneGovernor z)]
  · rw [pumpBoards w, ordinal (rule.waveGovernor w)]

theorem TargetsFormed.congr {s t : State} (h : TargetsFormed s) (rule : SameRule s t) (records : t.track.records = s.track.records)
    (zones : t.thermal.zones = s.thermal.zones) (pumps : ∀ w, t.pot.pump w = s.pot.pump w)
    (pot : t.thermal.pot.target = s.thermal.pot.target) (named : t.gate.namedClass = s.gate.namedClass) : TargetsFormed t := by
  obtain ⟨ground, -, mode, next⟩ := rule
  refine ⟨fun z => ?_, fun w => ?_, ?_⟩
  · obtain ⟨governed, ungoverned, cooldown, warmup, off, sp⟩ := h.zones z
    constructor
    case sp => rw [zones]; exact sp
    all_goals rw [mode, zones]
    case off => exact off
    case warmup => rw [next]; exact warmup
    all_goals rw [ground.zoneCandidate, records]
    case governed => exact governed
    case ungoverned => exact ungoverned
    case cooldown => exact cooldown
  · obtain ⟨governed, ungoverned, cooldown, warmup, off⟩ := h.pumps w
    constructor
    all_goals rw [mode, pumps]
    case off => exact off
    case warmup => rw [next]; exact warmup
    case cooldown => rw [records]; exact cooldown
    all_goals rw [ground.waveCandidate, records]
    case governed => exact governed
    case ungoverned => exact ungoverned
  · rw [pot, mode, named, ground.ws]
    exact h.pot

/-! ## What is left alone stands at its rule -/

namespace Undisturbed

variable {s t : State}

theorem mode (h : Undisturbed s t) : t.modes.mode = s.modes.mode := (congrArg Modes.mode h.modes :)

theorem records (h : Undisturbed s t) : t.track.records = s.track.records := (congrArg Track.records h.track :)

theorem ref (h : Undisturbed s t) : t.track.ref = s.track.ref := (congrArg Track.ref h.track :)

theorem pump (h : Undisturbed s t) (w : Wave) : t.pot.pump w = s.pot.pump w := by
  cases w
  · exact h.chip
  · exact h.main

theorem lineClass (h : Undisturbed s t) : t.gate.lineClass = s.gate.lineClass := (congrArg Gate.lineClass h.gate :)

theorem namedClass (h : Undisturbed s t) : t.gate.namedClass = s.gate.namedClass := (congrArg Gate.namedClass h.gate :)

theorem gateState (h : Undisturbed s t) : t.gate.state = s.gate.state := (congrArg Gate.state h.gate :)

theorem stop (h : Undisturbed s t) : t.outfeed.stop = s.outfeed.stop := (congrArg Outfeed.stop h.outfeed :)

theorem outfeedState (h : Undisturbed s t) : t.outfeed.state = s.outfeed.state := (congrArg Outfeed.state h.outfeed :)

theorem ground (h : Undisturbed s t) : SameGround s t := ⟨(congrArg Track.pos h.track :), h.setup⟩

theorem next (h : Undisturbed s t) : t.nextBoard = s.nextBoard := nextBoard_congr h.gateState h.docket

theorem rule (h : Undisturbed s t) : SameRule s t := ⟨h.ground, by rw [h.records], h.mode, h.next⟩

theorem targetsFormed (h : Undisturbed s t) (hs : TargetsFormed s) : TargetsFormed t :=
  hs.congr h.rule h.records (congrArg Thermal.zones h.thermal :) h.pump (congrArg (fun x => x.pot.target) h.thermal :) h.namedClass

theorem referenceFormed (h : Undisturbed s t) (hs : ReferenceFormed s) : ReferenceFormed t := by
  unfold ReferenceFormed at hs ⊢
  rw [h.ref, h.mode, h.lineClass, h.stop, h.inMotion, h.drop, h.namedClass]
  exact hs

theorem pumpsFormed (h : Undisturbed s t) (hs : PumpsFormed s) : PumpsFormed t := fun w => by
  rw [h.pump, h.drop]
  exact hs w

end Undisturbed

/-! ## The resets -/

namespace AfterReset

variable {s t : State} {port : Bool}

theorem mode (h : AfterReset s t port) : t.modes.mode = .off := by rw [h.modes]

theorem records (h : AfterReset s t port) : t.track.records = [] := by rw [h.track]; rfl

theorem pump (h : AfterReset s t port) (w : Wave) : t.pot.pump w = Pump.atReset := by
  rw [h.pot]
  cases w <;> rfl

theorem referenceFormed (h : AfterReset s t port) : ReferenceFormed t := by
  unfold ReferenceFormed
  rw [h.mode, h.track, if_neg fun g => by rcases g.1 with x | x | x <;> cases x]
  rfl

theorem pumpsFormed (h : AfterReset s t port) : PumpsFormed t := fun w => by
  rw [h.pump]
  split <;> rfl

theorem targetsFormed (h : AfterReset s t port) : TargetsFormed t := by
  refine targetsFormed_of (fun z => ?_) (fun w => ?_) ?_
  · have zone : t.thermal.zones.get z = Loop.atReset := by
      rw [h.thermal]
      exact Tab6.get_ofFn _ z
    unfold zoneTarget zoneGovernor
    rw [zone, h.mode]
    exact ⟨rfl, rfl, rfl⟩
  · unfold pumpTarget waveGovernor
    rw [h.pump, h.mode]
    exact ⟨rfl, rfl⟩
  · unfold potTarget
    rw [h.thermal, h.mode]
    rfl

end AfterReset

end Sys2Proof.Machine
end



section
/-! The wave drop, the marks of a stop, and the stability flags over every command (R5 to R9, R104, R127 to R132). -/

namespace Sys2Proof.Machine

open Sys2Proof.Config

/-! ## Where a record lies (R104) -/

theorem stretchesFormed (s : State) : StretchesFormed s := by
  have board : ∀ r : Record, (!r.isIntruder) = true ↔ r.origin ≠ .intruder := fun r => by
    rw [Bool.not_eq_true', ← Bool.not_eq_true, Record.isIntruder_iff]
  refine ⟨fun z r => ?_, fun w r => ?_, fun r => ?_, fun r => overStretch_iff s r _ _⟩
  · unfold zoneCandidate
    rw [Bool.and_eq_true, board, overStretch_iff]
  · unfold waveCandidate
    rw [Bool.and_eq_true, board, overStretch_iff]
  · unfold anyOverlap waveOverlap
    rw [Bool.or_eq_true, overStretch_iff, overStretch_iff]
    constructor
    · rintro (h | h)
      · exact ⟨.chip, h⟩
      · exact ⟨.main, h⟩
    · rintro ⟨w, h⟩
      cases w with
      | chip => exact .inl h
      | main => exact .inr h

/-- A checked setup has the chip wave before the main wave (R181). -/
theorem waves_ordered {s : State} (h : SetupChecked s) : s.ws.waveStart .chip ≤ s.ws.waveStart .main ∧
    s.ws.waveEnd .chip ≤ s.ws.waveEnd .main := by
  unfold State.ws
  cases hs : s.port.setup with
  | none => exact ⟨Nat.zero_le _, Nat.le_refl _⟩
  | some d =>
    have check : ∀ k ∈ geometryChecks, k.2 d = true := fun k hk =>
      Setup.passes_check (h d hs) (by unfold setupChecks; simp only [List.mem_append]; simp [hk])
    have chip : d.word 27 < d.word 28 := of_decide_eq_true (check (afterField 27 28 true) (by simp [geometryChecks]))
    have between : d.word 28 ≤ d.word 29 := of_decide_eq_true (check (afterField 28 29 false) (by simp [geometryChecks]))
    have main : d.word 29 < d.word 30 := of_decide_eq_true (check (afterField 29 30 true) (by simp [geometryChecks]))
    change d.word 27 ≤ d.word 29 ∧ d.word 28 ≤ d.word 30
    omega

/-- With a checked setup a record that overlaps a wave lies in the wave stretch (R126, R132). -/
theorem overlap_stretch {s : State} (hc : SetupChecked s) {r : Record} (h : anyOverlap s r = true) : inWaveStretch s r = true := by
  obtain ⟨start, finish⟩ := waves_ordered hc
  obtain ⟨w, lead, trail⟩ := ((stretchesFormed s).overlap r).mp h
  refine ((stretchesFormed s).stretch r).mpr ⟨?_, fun q hq => ?_⟩
  · cases w with
    | chip => exact (Nat.sub_le _ _).trans lead
    | main => exact (Nat.sub_le _ _).trans (start.trans lead)
  · cases w with
    | chip => exact (trail q hq).trans_le finish
    | main => exact trail q hq

theorem inWaveStretch_byPlace (s : State) : ByPlace (inWaveStretch s) := fun _ _ h => overStretch_of_place h s _ _

theorem SameGround.inWaveStretch {s t : State} (h : SameGround s t) : inWaveStretch t = inWaveStretch s := by
  funext r
  unfold Machine.inWaveStretch
  rw [h.ws, h.overStretch]

/-! ## The drop after a re-forming (R131, R132) -/

theorem Pump.refer_same {p : Pump} {n : Nat} (h : p.ref = n) : p.refer n = p := by
  unfold Pump.refer
  rw [if_pos h]

theorem Pump.follow_follow (p : Pump) (d : Drop) : (p.follow d).follow d = p.follow d := by
  refine Pump.refer_same ?_
  rw [Pump.follow_ref, Pump.follow_target]

theorem Pot.steady_iff (p : Pot) : p.steady = true ↔
    (p.chip.stable = true ∧ p.chip.ref = p.chip.target) ∧ p.main.stable = true ∧ p.main.ref = p.main.target := by
  unfold Pot.steady
  simp only [Bool.and_eq_true, beq_iff_eq]
  exact ⟨fun ⟨⟨⟨a, b⟩, c⟩, d⟩ => ⟨⟨a, c⟩, b, d⟩, fun ⟨⟨a, c⟩, b, d⟩ => ⟨⟨⟨a, b⟩, c⟩, d⟩⟩

theorem Drop.follow_held {d : Drop} {n : Nat} (h : d.follow n = .held) : n = 0 := by
  unfold Drop.follow at h
  split at h
  · cases h
  · split at h
    · assumption
    · cases h
  · split at h
    · assumption
    · cases h

theorem Drop.follow_recovering {d : Drop} {n : Nat} (h : d.follow n = .recovering) : n ≠ 0 := by
  unfold Drop.follow at h
  split at h
  · cases h
  · split at h
    · cases h
    · assumption
  · split at h
    · cases h
    · assumption

/-- The states of a re-forming of the conveyor, before the reference and after it. -/
structure ConveyorParts (s u : State) : Prop where
  before : u = s.followDrop.endDrop
  last : s.reformConveyor = u.reformRef.reformPumpRefs

theorem conveyor_parts (s : State) : ∃ u, ConveyorParts s u := ⟨_, rfl, rfl⟩

namespace ConveyorParts

variable {s u : State}

theorem demand (h : ConveyorParts s u) : runDemand u = runDemand s ∧ runDemand s.reformConveyor = runDemand s := by
  rw [h.last, h.before]
  exact ⟨rfl, rfl⟩

/-- The drop before the reference: where it stands, the stretch holds a board, and while it recovers the waves are not steady. -/
theorem drop (h : ConveyorParts s u) : u.pot.drop = .none ∧
      (stretchEmpty s = true ∨ s.pot.drop = .none ∨ (s.pot.drop.follow (runDemand s) = .recovering ∧ s.followDrop.pot.steady = true)) ∨
    (u.pot.drop = s.pot.drop.follow (runDemand s) ∧ s.pot.drop ≠ .none ∧ stretchEmpty s = false ∧
      (u.pot.drop = .recovering → s.followDrop.pot.steady = false)) := by
  have first : s.followDrop.pot.drop = s.pot.drop.follow (runDemand s) := rfl
  have empty : stretchEmpty s.followDrop = stretchEmpty s := rfl
  have shape : u.pot.drop = if stretchEmpty s || (s.pot.drop.follow (runDemand s) == .recovering && s.followDrop.pot.steady)
      then .none else s.pot.drop.follow (runDemand s) := by
    rw [h.before, ← first, ← empty]; rfl
  by_cases none_ : s.pot.drop = .none
  · refine .inl ⟨?_, .inr (.inl none_)⟩
    rw [shape, none_]
    split <;> rfl
  · by_cases ends : (stretchEmpty s || (s.pot.drop.follow (runDemand s) == .recovering && s.followDrop.pot.steady)) = true
    · refine .inl ⟨by rw [shape, if_pos ends], ?_⟩
      rw [Bool.or_eq_true, Bool.and_eq_true, beq_iff_eq] at ends
      exact ends.imp_right .inr
    · refine .inr ⟨by rw [shape, if_neg ends], none_, ?_, fun rec => ?_⟩
      · rw [Bool.or_eq_true, not_or, Bool.not_eq_true] at ends
        exact ends.1
      · rw [shape, if_neg ends] at rec
        rw [Bool.or_eq_true, not_or, Bool.and_eq_true, beq_iff_eq] at ends
        rw [← Bool.not_eq_true]
        exact fun steady => ends.2 ⟨rec, steady⟩

theorem last_drop (h : ConveyorParts s u) : s.reformConveyor.pot.drop = if dropStarts u then .held else u.pot.drop := by
  rw [h.last]; rfl

theorem ref (h : ConveyorParts s u) : s.reformConveyor.track.ref = conveyorRef u ∧ u.track = s.track := by
  refine ⟨?_, by rw [h.before]; rfl⟩
  rw [h.last]
  exact Track.refer_ref _ _

theorem records (h : ConveyorParts s u) : s.reformConveyor.track.records = s.track.records.map (stopMarks u) := by
  have e : u.reformRef.reformPumpRefs.track.records = u.track.records.map (stopMarks u) := by
    have r : u.reformRef.reformPumpRefs.track.records = u.reformRef.track.records := rfl
    rw [r]
    unfold State.reformRef Track.refer
    dsimp only
    split <;> rfl
  rw [h.last, e, h.ref.2]

theorem ground (h : ConveyorParts s u) : SameGround s u := by
  rw [h.before]
  exact ⟨rfl, rfl⟩

theorem pump (h : ConveyorParts s u) (w : Wave) (hd : s.reformConveyor.pot.drop = s.pot.drop.follow (runDemand s)) :
    s.reformConveyor.pot.pump w = s.followDrop.pot.pump w := by
  have drop : u.reformRef.pot.drop = s.pot.drop.follow (runDemand s) := by
    rw [← hd, h.last]; rfl
  have pumps : u.reformRef.pot.pump w = (s.pot.pump w).follow (s.pot.drop.follow (runDemand s)) := by
    rw [h.before]
    cases w <;> rfl
  have last : s.reformConveyor.pot.pump w = (u.reformRef.pot.pump w).follow u.reformRef.pot.drop := by
    rw [h.last]
    cases w <;> rfl
  rw [last, drop, pumps, Pump.follow_follow]
  cases w <;> rfl

end ConveyorParts

theorem reformConveyor_stretch (s : State) (r : Record) : inWaveStretch s.reformConveyor r = inWaveStretch s r := by
  rw [(kept_reformConveyor s).ground.inWaveStretch]

theorem DropFormed.of_none {s : State} (h : s.pot.drop = .none) : DropFormed s :=
  ⟨fun g => Drop.noConfusion (h.symm.trans g), fun g => Drop.noConfusion (h.symm.trans g), fun g => absurd h g⟩

/-- The drop stands at its rules after a re-forming of the conveyor (R131, R132). -/
theorem reformConveyor_dropFormed {s : State} (hc : SetupChecked s) : DropFormed s.reformConveyor := by
  obtain ⟨u, h⟩ := conveyor_parts s
  have last := h.last_drop
  have demand := h.demand.2
  by_cases starts : dropStarts u = true
  · rw [if_pos starts] at last
    unfold dropStarts conveyorStops at starts
    simp only [Bool.and_eq_true, beq_iff_eq, List.any_eq_true] at starts
    obtain ⟨⟨⟨-, stopped⟩, none_⟩, r, hr, hover⟩ := starts
    have zero : runDemand s = 0 := by
      unfold conveyorRef at stopped
      rw [if_pos none_, h.demand.1] at stopped
      exact stopped
    refine ⟨fun _ => demand.trans zero, fun g => ?_, fun _ => ?_⟩
    · rw [last] at g
      cases g
    · rw [h.ref.2] at hr
      refine ⟨stopMarks u r, by rw [h.records]; exact List.mem_map_of_mem hr, ?_⟩
      rw [reformConveyor_stretch, inWaveStretch_byPlace s r _ (stopMarks_place u r)]
      rw [h.ground.anyOverlap] at hover
      exact overlap_stretch hc hover
  · rw [if_neg starts] at last
    rcases h.drop with ⟨none_, -⟩ | ⟨follows, -, stretch, unsteady⟩
    · rw [none_] at last
      exact .of_none last
    · have whole : s.reformConveyor.pot.drop = s.pot.drop.follow (runDemand s) := last.trans follows
      refine ⟨fun g => ?_, fun g => ?_, fun _ => ?_⟩
      · rw [demand]
        exact Drop.follow_held (whole.symm.trans g)
      · rw [demand]
        refine ⟨Drop.follow_recovering (whole.symm.trans g), ?_⟩
        have steady := unsteady (last.symm.trans g)
        rw [← Bool.not_eq_true, Pot.steady_iff] at steady
        have chip : s.reformConveyor.pot.chip = s.followDrop.pot.chip := h.pump .chip whole
        have main : s.reformConveyor.pot.main = s.followDrop.pot.main := h.pump .main whole
        rw [chip, main]
        exact steady
      · unfold stretchEmpty at stretch
        rw [List.all_eq_false] at stretch
        obtain ⟨r, hr, lies⟩ := stretch
        refine ⟨stopMarks u r, by rw [h.records]; exact List.mem_map_of_mem hr, ?_⟩
        rw [reformConveyor_stretch, inWaveStretch_byPlace s r _ (stopMarks_place u r)]
        simpa using lies

theorem DropFormed.congr {s t : State} (h : DropFormed s) (drop : t.pot.drop = s.pot.drop) (demand : runDemand t = runDemand s)
    (pumps : ∀ w, t.pot.pump w = s.pot.pump w) (ground : SameGround s t) (records : t.track.records = s.track.records) :
    DropFormed t := by
  obtain ⟨held, recovering, stretch⟩ := h
  have chip : t.pot.chip = s.pot.chip := pumps .chip
  have main : t.pot.main = s.pot.main := pumps .main
  refine ⟨?_, ?_, ?_⟩
  · rw [drop, demand]; exact held
  · rw [drop, demand, chip, main]; exact recovering
  · rw [drop, records, ground.inWaveStretch]; exact stretch

theorem reform_dropFormed {s : State} (hc : SetupChecked s) : DropFormed s.reform := by
  obtain ⟨u, hu⟩ : ∃ u, s.beforeTargets.reformTargets.reformOutfeed.reformWidth = u := ⟨_, rfl⟩
  have setup : u.port.setup = s.port.setup := by
    have first : Kept s s.beforeTargets := (moves_beforeTargets s).lift Kept.refl Kept.trans Move.kept
    rw [← hu]
    exact (((first.trans (kept_reformTargets _)).trans (kept_reformOutfeed _)).trans (kept_reformWidth _)).keeps.portSetup
  have e : s.reform = u.reformConveyor.reformDrive.reformWaits.reformIdle.reformLine := by rw [reform_eq, ← hu]; rfl
  have formed := reformConveyor_dropFormed (s := u) (by unfold SetupChecked; rw [setup]; exact hc)
  rw [e]
  obtain ⟨v, hv⟩ : ∃ v, u.reformConveyor = v := ⟨_, rfl⟩
  rw [hv] at formed ⊢
  refine formed.congr rfl ?_ (fun w => by cases w <;> rfl) ⟨rfl, rfl⟩ rfl
  unfold runDemand namedSpeed Gate.namedClass
  rfl

theorem Undisturbed.runDemand {s t : State} (h : Undisturbed s t) : runDemand t = runDemand s := by
  unfold Machine.runDemand namedSpeed
  rw [h.mode, h.lineClass, h.stop, h.inMotion, h.namedClass]

theorem Undisturbed.dropFormed {s t : State} (h : Undisturbed s t) (hs : DropFormed s) : DropFormed t :=
  hs.congr h.drop h.runDemand h.pump h.ground h.records

theorem AfterReset.dropFormed {s t : State} {port : Bool} (h : AfterReset s t port) : DropFormed t := by
  exact .of_none (by rw [h.pot]; rfl)

/-! ## The stages beside the conveyor's -/

theorem drop_modeStage (s : State) : s.modeStage.pot.drop = s.pot.drop := by
  have enter : ∀ m, (s.enterMode m).pot.drop = s.pot.drop := fun m => by
    unfold State.enterMode
    split <;> rfl
  unfold State.modeStage
  split
  · exact enter _
  · split
    · exact enter _
    · rfl

/-- Where the inhibit begins, the track unit changes in its records alone (R73). -/
theorem track_reformInhibit (s : State) :
    s.reformInhibit.track = { s.track with records := s.reformInhibit.track.records } := by
  have cut : (s.cutPulses (fun _ => true) true).track =
      { s.track with records := (s.cutPulses (fun _ => true) true).track.records } :=
    (congrArg State.track (uncredited_frame (cutPulses_ends s (fun _ => true) true).rest) :)
  have purge : (s.cutPulses (fun _ => true) true).endPurge.track = (s.cutPulses (fun _ => true) true).track := by
    rw [endPurge_frame]
  obtain ⟨v, hv⟩ : ∃ v, (s.cutPulses (fun _ => true) true).endPurge = v := ⟨_, rfl⟩
  have begun : s.beginInhibit.track = { s.track with records := s.beginInhibit.track.records } := by
    have e : s.beginInhibit.track = { v.track with records := s.beginInhibit.track.records } := by rw [← hv]; rfl
    rw [e, ← hv, purge, cut]
  unfold State.reformInhibit
  dsimp only
  split
  · exact begun
  · rfl

/-- What every stage but the re-forming of the conveyor leaves: references, stability, drop, and no flag lost. -/
structure Beside (s t : State) : Prop where
  kept : Kept s t
  flags : List.Forall₂ MoreFlags s.track.records t.track.records
  ref : t.track.ref = s.track.ref
  moved : t.track.refMoved = s.track.refMoved ∧ ∀ w, (t.pot.pump w).refMoved = (s.pot.pump w).refMoved
  speed : t.track.speedStable = s.track.speedStable ∧ t.track.passes = s.track.passes ∧ t.track.misses = s.track.misses
  drop : t.pot.drop = s.pot.drop
  pump : ∀ w, (t.pot.pump w).ref = (s.pot.pump w).ref ∧ (t.pot.pump w).stable = (s.pot.pump w).stable ∧
    (t.pot.pump w).count = (s.pot.pump w).count

namespace Beside

variable {s t u : State}

theorem refl (s : State) : Beside s s :=
  ⟨.refl s, forall₂_moreFlags_refl _, rfl, ⟨rfl, fun _ => rfl⟩, ⟨rfl, rfl, rfl⟩, rfl, fun _ => ⟨rfl, rfl, rfl⟩⟩

theorem trans (h : Beside s t) (g : Beside t u) : Beside s u := by
  obtain ⟨a1, a2, a3⟩ := h.speed
  obtain ⟨b1, b2, b3⟩ := g.speed
  refine ⟨h.kept.trans g.kept, forall₂_moreFlags_trans h.flags g.flags, g.ref.trans h.ref,
    ⟨g.moved.1.trans h.moved.1, fun w => (g.moved.2 w).trans (h.moved.2 w)⟩, ⟨b1.trans a1, b2.trans a2, b3.trans a3⟩, g.drop.trans h.drop, fun w => ?_⟩
  obtain ⟨x1, x2, x3⟩ := h.pump w
  obtain ⟨y1, y2, y3⟩ := g.pump w
  exact ⟨y1.trans x1, y2.trans x2, y3.trans x3⟩

theorem of_same (kept : Kept s t) (track : t.track = s.track) (chip : t.pot.chip = s.pot.chip) (main : t.pot.main = s.pot.main)
    (drop : t.pot.drop = s.pot.drop) : Beside s t := by
  have pump : ∀ w, t.pot.pump w = s.pot.pump w := fun w => by cases w with | chip => exact chip | main => exact main
  refine ⟨kept, ?_, ?_, ⟨?_, fun w => by rw [pump w]⟩, ?_, drop, fun w => by rw [pump w]; exact ⟨rfl, rfl, rfl⟩⟩
  · rw [track]; exact forall₂_moreFlags_refl _
  · rw [track]
  · rw [track]
  · rw [track]; exact ⟨rfl, rfl, rfl⟩

theorem modeStage (s : State) : Beside s s.modeStage := by
  have pump := pump_modeStage s
  exact .of_same (kept_modeStage s) (by simp) (pump .chip) (pump .main) (drop_modeStage s)

theorem inhibit (s : State) : Beside s s.reformInhibit := by
  have track := track_reformInhibit s
  refine ⟨kept_reformInhibit s, (follows_reformInhibit s).flags, ?_, ⟨?_, fun w => by simp⟩, ?_, by simp, fun w => by simp⟩ <;> rw [track]
  exact ⟨rfl, rfl, rfl⟩

theorem targets (s : State) : Beside s s.reformTargets :=
  ⟨kept_reformTargets s, forall₂_moreFlags_refl _, rfl, ⟨rfl, fun w => by cases w <;> rfl⟩, ⟨rfl, rfl, rfl⟩, rfl, fun w => by cases w <;> exact ⟨rfl, rfl, rfl⟩⟩

theorem before (s : State) : Beside s s.beforeTargets.reformTargets.reformOutfeed.reformWidth := by
  have first := (((modeStage s).trans (.of_same (kept_reformFans _) rfl rfl rfl rfl)).trans (.of_same (kept_reformHorn _) rfl rfl rfl rfl)).trans
    ((inhibit _).trans (.of_same (kept_cutGrants _) rfl rfl rfl rfl))
  have next := (targets s.beforeTargets).trans ((of_same (kept_reformOutfeed _) rfl rfl rfl rfl).trans (.of_same (kept_reformWidth _) rfl rfl rfl rfl))
  exact first.trans next

theorem after (s : State) : Beside s s.reformDrive.reformWaits.reformIdle.reformLine :=
  ⟨(((kept_reformDrive s).trans (kept_reformWaits _)).trans (kept_reformIdle _)).trans (kept_reformLine _),
    forall₂_moreFlags_refl _, rfl, ⟨rfl, fun _ => rfl⟩, ⟨rfl, rfl, rfl⟩, rfl, fun _ => ⟨rfl, rfl, rfl⟩⟩

end Beside

/-- A relation that the conveyor's re-forming and the stages beside it keep holds over the consequences of a step. -/
theorem lift_conveyor {R : State → State → Prop} (trans : ∀ {s t u}, R s t → R t u → R s u) (beside : ∀ {s t}, Beside s t → R s t)
    (conveyor : ∀ s, R s s.reformConveyor) (s : State) : R s s.settle ∧ R s s.settleEval := by
  have refl : ∀ u : State, R u u := fun u => beside (.refl u)
  have reform : ∀ u : State, R u u.reform := fun u => by
    have e : u.reform = u.beforeTargets.reformTargets.reformOutfeed.reformWidth.reformConveyor.reformDrive.reformWaits.reformIdle.reformLine := by
      rw [reform_eq]; rfl
    rw [e]
    exact trans (trans (beside (.before u)) (conveyor _)) (beside (.after _))
  have change : ∀ u : State, R u (u.changeover 8) := fun u => by
    refine (classMoves_changeover 8 u).lift refl trans (fun x p t l => beside (.of_same (.of_core rfl rfl) rfl rfl rfl rfl)) fun x => ?_
    have first : Beside x x.reformPotTarget.reformWidth :=
      .of_same ((kept_reformPotTarget x).trans (kept_reformWidth _)) rfl rfl rfl rfl
    exact trans (beside first) (conveyor _)
  have eval : ∀ u : State, R u u.gateEval := fun u => by
    have scan : Beside u u.reformDocket.takeClass :=
      (Beside.of_same (kept_reformDocket u) (by simp) (by simp) (by simp) (by simp)).trans (.of_same (kept_takeClass _) rfl rfl rfl rfl)
    have turn : ∀ x : State, Beside x x.takeHolds.gateTransition := fun x =>
      (Beside.of_same (kept_takeHolds x) rfl rfl rfl rfl).trans
        (.of_same (kept_gateTransition _) (by simp) (by simp) (by simp) (by simp))
    exact trans (trans (beside scan) (change _)) (beside (turn _))
  have stage : ∀ u : State, R u u.gateStage := fun u => by
    rcases State.gateStage_cases u with h | h | h | h <;> rw [h]
    · exact refl u
    · exact eval u
    · exact change u
    · exact trans (change u) (eval _)
  have pass : ∀ u : State, R u u.pass := fun u => trans (reform u) (stage _)
  have settle : ∀ u : State, R u u.settle := fun u => trans (trans (pass u) (pass _)) (reform _)
  exact ⟨settle s, trans (trans (reform s) (eval _)) (settle _)⟩

end Sys2Proof.Machine
end



section
/-! What a stop of the conveyor leaves over the consequences of a step (R9, R130), and what a changed reference leaves of the
stability flags (R7, R8, R128). -/

namespace Sys2Proof.Machine

open Sys2Proof.Config

/-! ## The marks of a stop -/

/-- The line runs, or has left the marks of a stop; `b` says that no drop ran before it. -/
structure Stopping (b : Prop) (s : State) : Prop where
  dwell : s.track.ref ≠ 0 ∨ ∀ r ∈ s.track.records, r.origin ≠ .intruder → r.has .dwell = true
  drop : b → (∃ r ∈ s.track.records, anyOverlap s r = true) → s.track.ref ≠ 0 ∨ s.pot.drop ≠ .none
  interrupted : b → (s.track.ref ≠ 0 ∧ s.pot.drop = .none) ∨
    ∀ r ∈ s.track.records, r.origin ≠ .intruder → anyOverlap s r = true → r.has .waveInterrupted = true

theorem has_of_moreFlags {r q : Record} (h : MoreFlags r q) {f : Flag} (hr : r.has f = true) : q.has f = true := h _ hr

/-- Each record after a stage comes of one before it, at its place. -/
theorem record_before {s t : State} (kept : Kept s t) (flags : List.Forall₂ MoreFlags s.track.records t.track.records)
    {q : Record} (hq : q ∈ t.track.records) :
    ∃ r ∈ s.track.records, q.place = r.place ∧ anyOverlap t q = anyOverlap s r ∧ MoreFlags r q := by
  obtain ⟨i, hi⟩ := List.getElem?_of_mem hq
  have places : (t.track.records.map Record.place)[i]? = (s.track.records.map Record.place)[i]? := by rw [kept.places]
  rw [List.getElem?_map, List.getElem?_map, hi] at places
  obtain ⟨r, hr, e⟩ := Option.map_eq_some_iff.mp places.symm
  refine ⟨r, List.mem_of_getElem? hr, e.symm, ?_, forall₂_getElem? flags hr hi⟩
  rw [kept.ground.anyOverlap]
  exact anyOverlap_byPlace s r q e.symm

namespace Stopping

variable {b : Prop} {s t : State}

/-- A stage that leaves the references and the drop leaves the marks. -/
theorem beside (h : Stopping b s) (side : Beside s t) : Stopping b t := by
  obtain ⟨dwell, drop, interrupted⟩ := h
  have back := fun {q} => record_before (q := q) side.kept side.flags
  refine ⟨?_, ?_, ?_⟩ <;> rw [side.ref]
  · refine dwell.imp id fun h q hq hb => ?_
    obtain ⟨r, hr, place, -, more⟩ := back hq
    exact has_of_moreFlags more (h r hr (by rw [← (place_fields place).1]; exact hb))
  · rintro hb ⟨q, hq, lies⟩
    obtain ⟨r, hr, -, same, -⟩ := back hq
    rw [side.drop]
    exact drop hb ⟨r, hr, by rw [← same]; exact lies⟩
  · intro hb
    rw [side.drop]
    refine (interrupted hb).imp id fun h q hq bound lies => ?_
    obtain ⟨r, hr, place, same, more⟩ := back hq
    exact has_of_moreFlags more (h r hr (by rw [← (place_fields place).1]; exact bound) (by rw [← same]; exact lies))

/-- A drop does not end over a stopped conveyor while a board overlaps a wave (R132). -/
theorem drop_stays (hc : SetupChecked s) (hd : s.pot.drop ≠ .none) (lies : ∃ r ∈ s.track.records, anyOverlap s r = true)
    (ht : s.reformConveyor.track.ref = 0) : s.reformConveyor.pot.drop ≠ .none := by
  obtain ⟨u, h⟩ := conveyor_parts s
  have last := h.last_drop
  rcases h.drop with ⟨none_, ends⟩ | ⟨follows, -, -, -⟩
  · exfalso
    rcases ends with empty | idle | ⟨recovers, -⟩
    · obtain ⟨r, hr, hover⟩ := lies
      have out := List.all_eq_true.mp empty r hr
      rw [overlap_stretch hc hover] at out
      cases out
    · exact hd idle
    · rw [h.ref.1] at ht
      unfold conveyorRef at ht
      rw [if_pos none_, h.demand.1] at ht
      exact Drop.follow_recovering recovers ht
  · rw [last]
    split
    · decide
    · rw [follows]
      unfold Drop.follow
      cases hs : s.pot.drop with
      | none => exact absurd hs hd
      | held => dsimp only; split <;> decide
      | recovering => dsimp only; split <;> decide

theorem no_drop (hd : s.pot.drop = .none) (ht : s.reformConveyor.track.ref ≠ 0) : s.reformConveyor.pot.drop = .none := by
  obtain ⟨u, h⟩ := conveyor_parts s
  have none_ : u.pot.drop = .none := h.drop.elim (fun g => g.1) fun g => absurd hd g.2.1
  have runs : dropStarts u = false := by
    rw [h.ref.1] at ht
    unfold dropStarts conveyorStops
    rw [beq_eq_false_iff_ne.mpr ht]
    simp
  rw [h.last_drop, runs]
  exact none_

theorem conveyor (h : Stopping b s) (hc : SetupChecked s) : Stopping b s.reformConveyor := by
  obtain ⟨dwell, drop, interrupted⟩ := h
  have marks := reformConveyor_stopMarked (s := s)
  have flags : List.Forall₂ MoreFlags s.track.records s.reformConveyor.track.records := by
    obtain ⟨u, h⟩ := conveyor_parts s
    rw [h.records]
    exact (flagged_stopMarks u _).imp fun _ _ g => g.2
  have back := fun {q} => record_before (q := q) (kept_reformConveyor s) flags
  refine ⟨?_, ?_, ?_⟩
  · by_cases ht : s.reformConveyor.track.ref = 0
    · refine .inr ?_
      by_cases hs : s.track.ref = 0
      · intro q hq hb
        obtain ⟨r, hr, place, -, more⟩ := back hq
        exact has_of_moreFlags more (dwell.resolve_left (fun g => g hs) r hr (by rw [← (place_fields place).1]; exact hb))
      · exact (marks hs ht).dwell
    · exact .inl ht
  · rintro hb ⟨q, hq, lies⟩
    obtain ⟨r, hr, -, same, -⟩ := back hq
    have over_ : ∃ r ∈ s.track.records, anyOverlap s r = true := ⟨r, hr, by rw [← same]; exact lies⟩
    by_cases ht : s.reformConveyor.track.ref = 0
    · refine .inr ?_
      by_cases hd : s.pot.drop = .none
      · exact (marks ((drop hb over_).resolve_right fun g => g hd) ht).drop hd ⟨q, hq, lies⟩
      · exact drop_stays hc hd over_ ht
    · exact .inl ht
  · intro hb
    rcases interrupted hb with ⟨hs, hd⟩ | marked
    · by_cases ht : s.reformConveyor.track.ref = 0
      · exact .inr ((marks hs ht).interrupted hd)
      · exact .inl ⟨ht, no_drop hd ht⟩
    · refine .inr fun q hq bound lies => ?_
      obtain ⟨r, hr, place, same, more⟩ := back hq
      exact has_of_moreFlags more (marked r hr (by rw [← (place_fields place).1]; exact bound) (by rw [← same]; exact lies))

theorem settles (s : State) (hc : SetupChecked s) (h : Stopping b s) : Stopping b s.settle ∧ Stopping b s.settleEval := by
  have lift := lift_conveyor (R := fun s t => Kept s t ∧ (SetupChecked s → Stopping b s → Stopping b t))
    (fun {s t u} x y => ⟨x.1.trans y.1, fun hc h => y.2 (by unfold SetupChecked; rw [x.1.keeps.portSetup]; exact hc) (x.2 hc h)⟩)
    (fun side => ⟨side.kept, fun _ h => h.beside side⟩) (fun s => ⟨kept_reformConveyor s, fun hc h => h.conveyor hc⟩) s
  exact ⟨lift.1.2 hc h, lift.2.2 hc h⟩

/-- Where no reference stands any more, the stop has left its marks. -/
theorem marked {s t : State} (h : Stopping (s.pot.drop = .none) t) (ht : t.track.ref = 0) : StopMarked s t := by
  obtain ⟨dwell, drop, interrupted⟩ := h
  exact ⟨dwell.resolve_left fun g => g ht, fun hd lies => (drop hd lies).resolve_left fun g => g ht,
    fun hd => (interrupted hd).resolve_left fun g => g.1 ht⟩

theorem of_runs {s u : State} (hs : s.track.ref ≠ 0) (ref : u.track.ref = s.track.ref) (drop : u.pot.drop = s.pot.drop) :
    Stopping (s.pot.drop = .none) u := by
  have runs : u.track.ref ≠ 0 := by rw [ref]; exact hs
  exact ⟨.inl runs, fun _ _ => .inl runs, fun hd => .inl ⟨runs, drop.trans hd⟩⟩

end Stopping

/-! ## The stability flags -/

/-- A changed reference leaves its flag clear and its counts 0; flag and counts do not come up otherwise. -/
structure Steady (s t : State) : Prop where
  speed : (t.track.ref = s.track.ref ∧ t.track.speedStable = s.track.speedStable ∧ t.track.passes = s.track.passes ∧
      t.track.misses = s.track.misses) ∨ (t.track.speedStable = false ∧ t.track.passes = 0 ∧ t.track.misses = 0)
  pump : ∀ w, ((t.pot.pump w).ref = (s.pot.pump w).ref ∧ (t.pot.pump w).stable = (s.pot.pump w).stable ∧
      (t.pot.pump w).count = (s.pot.pump w).count) ∨ ((t.pot.pump w).stable = false ∧ (t.pot.pump w).count = 0)

namespace Steady

variable {s t u : State}

theorem trans (h : Steady s t) (g : Steady t u) : Steady s u := by
  refine ⟨?_, fun w => ?_⟩
  · rcases g.speed with ⟨r, a, b, c⟩ | clear
    · rw [r, a, b, c]; exact h.speed
    · exact .inr clear
  · rcases g.pump w with ⟨r, a, b⟩ | clear
    · rw [r, a, b]; exact h.pump w
    · exact .inr clear

theorem beside (h : Beside s t) : Steady s t :=
  ⟨.inl ⟨h.ref, h.speed⟩, fun w => .inl (h.pump w)⟩

theorem pumpRefs (s : State) : Steady s s.reformPumpRefs := by
  have one : ∀ (p : Pump) (d : Drop), ((p.follow d).ref = p.ref ∧ (p.follow d).stable = p.stable ∧ (p.follow d).count = p.count) ∨
      ((p.follow d).stable = false ∧ (p.follow d).count = 0) := fun p d => by
    unfold Pump.follow Pump.refer
    generalize (if d = .held then 0 else p.target) = r
    split
    · exact .inl ⟨rfl, rfl, rfl⟩
    · exact .inr ⟨rfl, rfl⟩
  refine ⟨.inl ⟨rfl, rfl, rfl, rfl⟩, fun w => ?_⟩
  cases w <;> exact one _ _

theorem conveyor (s : State) : Steady s s.reformConveyor := by
  have same : ∀ (x : State) (d : Drop), Steady x { x with pot := { x.pot with drop := d } } := fun x d =>
    ⟨.inl ⟨rfl, rfl, rfl, rfl⟩, fun w => .inl (by cases w <;> exact ⟨rfl, rfl, rfl⟩)⟩
  have ref : ∀ x : State, Steady x x.reformRef := fun x => by
    refine ⟨?_, fun w => .inl (by cases w <;> exact ⟨rfl, rfl, rfl⟩)⟩
    unfold State.reformRef Track.refer
    dsimp only
    split
    · exact .inl ⟨rfl, rfl, rfl, rfl⟩
    · exact .inr ⟨rfl, rfl, rfl⟩
  have follow : Steady s s.followDrop := (same s _).trans (pumpRefs _)
  exact ((follow.trans (same _ _)).trans (ref _)).trans (pumpRefs _)

theorem settles (s : State) : Steady s s.settle ∧ Steady s s.settleEval :=
  lift_conveyor (R := Steady) trans beside conveyor s

theorem refresh (s : State) : Steady s s.writeClock.refresh := ⟨.inl ⟨rfl, rfl, rfl, rfl⟩, fun _ => .inl ⟨rfl, rfl, rfl⟩⟩

theorem answer (s : State) (a : Answer) : Steady s (s.answer a) := ⟨.inl ⟨rfl, rfl, rfl, rfl⟩, fun _ => .inl ⟨rfl, rfl, rfl⟩⟩

theorem ending (e : Ending) (u : State) : Steady u (e.of u) := by
  induction e with
  | still => exact .beside (.refl u)
  | settled => exact (settles u).1
  | evaluated => exact (settles u).2
  | interval => exact (settles u).2.trans (refresh _)
  | answered e a ih => exact ih.trans (answer _ a)

end Steady

end Sys2Proof.Machine
end



section
/-! The references, the targets and the next recipe before the consequences of a command (R5, R85, R107, R126 to R128). -/

namespace Sys2Proof.Machine

open Sys2Proof.Config

/-- The conveyor's and the pumps' references, with their flags and counts, and the drop. -/
def State.refView (s : State) : (Nat × Bool × Nat × Nat) × Drop × Pump × Pump :=
  ((s.track.ref, s.track.speedStable, s.track.passes, s.track.misses), s.pot.drop, s.pot.chip, s.pot.main)

/-- The gate less its width drive, its class and UPSTREAM_AVAILABLE's count, and the docket unit's findings. -/
def State.gateView (s : State) : Gate × Docket :=
  ({ s.gate with width := Gate.atReset.width, upstreamCount := 0, lineClass := none, phase := .none, target := none },
    { s.docket with source := .docket, expected := 0, held := [], offer := none })

/-- Both views, which nearly every operation leaves. -/
def State.blockView (s : State) : ((Nat × Bool × Nat × Nat) × Drop × Pump × Pump) × Gate × Docket :=
  (s.refView, s.gateView)

theorem refView_of {s t : State} (track : t.track = s.track) (chip : t.pot.chip = s.pot.chip) (main : t.pot.main = s.pot.main)
    (drop : t.pot.drop = s.pot.drop) : t.refView = s.refView := by
  unfold State.refView
  rw [track, chip, main, drop]

@[simp] theorem blockView_enterMode (s : State) (m : Mode) : (s.enterMode m).blockView = s.blockView := by
  unfold State.enterMode
  split
  · rfl
  · cases m <;> rfl

@[simp] theorem blockView_raiseCause (s : State) (c : HaltCause) : (s.raiseCause c).blockView = s.blockView := by
  unfold State.raiseCause
  split
  · rfl
  · dsimp only
    split
    · exact blockView_enterMode _ _
    · rfl

@[simp] theorem blockView_raiseIf (s : State) (b : Bool) (c : HaltCause) : (s.raiseIf b c).blockView = s.blockView := by
  unfold State.raiseIf
  split
  · exact blockView_raiseCause s c
  · rfl

@[simp] theorem blockView_trackFault (s : State) : (s.trackFault).blockView = s.blockView := blockView_raiseIf _ _ _

@[simp] theorem blockView_setOverflow (s : State) : (s.setOverflow).blockView = s.blockView := blockView_trackFault _

@[simp] theorem blockView_setPhantom (s : State) : (s.setPhantom).blockView = s.blockView := blockView_trackFault _

@[simp] theorem blockView_disown (s : State) : (s.disown).blockView = s.blockView := rfl

@[simp] theorem blockView_modeStage (s : State) : (s.modeStage).blockView = s.blockView := by
  unfold State.modeStage
  split
  · exact blockView_enterMode s _
  · split
    · exact blockView_enterMode s _
    · rfl

@[simp] theorem blockView_cutPulses (s : State) (p : Pulse → Bool) (b : Bool) : (s.cutPulses p b).blockView = s.blockView := by
  rw [uncredited_frame (cutPulses_ends s p b).rest]
  rfl

@[simp] theorem blockView_finishPulses (s : State) : (s.finishPulses).blockView = s.blockView := blockView_cutPulses s _ _

@[simp] theorem blockView_startPurge (s : State) (n : Nat) : (s.startPurge n).blockView = s.blockView := blockView_cutPulses s (fun _ => true) true

@[simp] theorem blockView_creditPurge (s : State) : (s.creditPurge).blockView = s.blockView := by
  unfold State.creditPurge
  split <;> rfl

@[simp] theorem blockView_endPurge (s : State) : (s.endPurge).blockView = s.blockView := by
  rw [endPurge_frame]
  rfl

@[simp] theorem refView_admitBoard (s : State) (p : Pos) (o : Offer) (late : Bool) :
    (s.admitBoard p o late).refView = s.refView := by
  have slot : ∀ a : State, (a.bindSlot o).refView = a.refView := fun a => by unfold State.bindSlot; split <;> rfl
  have edges : ∀ (a : State) (n : BitVec 16), (a.scheduleEdges n p o).refView = a.refView := fun a n => by
    unfold State.scheduleEdges; split <;> rfl
  unfold State.admitBoard
  exact (edges _ _).trans (slot _)

@[simp] theorem refView_handLeading (s : State) (p : Pos) : (s.handLeading p).refView = s.refView := by
  unfold State.handLeading
  split
  · exact refView_admitBoard s p _ false
  · exact refView_admitBoard s p _ true
  · rfl

@[simp] theorem blockView_appendAtBar (s : State) : (s.appendAtBar).blockView = s.blockView := by
  unfold State.appendAtBar
  split
  · split
    · exact blockView_endPurge s
    · rfl
  · rfl

@[simp] theorem blockView_clamp (s : State) (r : Record) (l : Nat) : (s.clamp r l).blockView = s.blockView := by
  unfold State.clamp
  split
  · rfl
  · exact blockView_cutPulses s _ true

@[simp] theorem blockView_takeTrail (s : State) (p : Pos) : (s.takeTrail p).blockView = s.blockView := by
  unfold State.takeTrail
  split
  · exact blockView_clamp _ _ _
  · rfl

@[simp] theorem refView_handTrailing (s : State) : (s.handTrailing).refView = s.refView := by
  unfold State.handTrailing
  split <;> rfl

@[simp] theorem blockView_closeRecord (s : State) (p : Record → Bool) (r : Record) (o : CloseOutcome) (l : Nat) : (s.closeRecord p r o l).blockView = s.blockView := by
  have report : (s.reportClose r o l).blockView = s.blockView := by unfold State.reportClose; split <;> rfl
  exact (blockView_cutPulses (s.reportClose r o l) (fun u => u.ordinal == r.ordinal) false).trans report

@[simp] theorem blockView_closeLost (n : Nat) (s : State) : (s.closeLost n).blockView = s.blockView := by
  induction n generalizing s with
  | zero => rfl
  | succ k ih =>
    unfold State.closeLost
    split
    · exact (ih _).trans (blockView_closeRecord s _ _ _ _)
    · rfl

theorem blockView_raiseLost (s : State) : s.raiseLost.blockView = s.blockView := (blockView_raiseCause _ _).trans (blockView_modeStage s)

@[simp] theorem blockView_loseBoards (s : State) : (s.loseBoards).blockView = s.blockView := by
  unfold State.loseBoards
  split
  · exact (blockView_raiseLost _).trans (blockView_closeLost _ s)
  · rfl

@[simp] theorem blockView_loseWaiting (s : State) : (s.loseWaiting).blockView = s.blockView := by
  unfold State.loseWaiting
  split
  · exact ((blockView_raiseLost _).trans (blockView_closeLost _ _)).trans (blockView_closeRecord s _ _ _ _)
  · rfl

@[simp] theorem blockView_markZoneFault (s : State) (z : Zone) : (s.markZoneFault z).blockView = s.blockView := rfl

@[simp] theorem blockView_markInputFault (s : State) (k : Idx8) : (s.markInputFault k).blockView = s.blockView := by
  unfold State.markInputFault
  split
  · split <;> rfl
  · rfl

@[simp] theorem blockView_latchInput (s : State) (k : Idx8) : (s.latchInput k).blockView = s.blockView := by
  unfold State.latchInput
  split <;> rfl

@[simp] theorem blockView_testLimit (s : State) (k : Idx8) : (s.testLimit k).blockView = s.blockView := (blockView_raiseIf _ _ _).trans (blockView_latchInput s k)

@[simp] theorem blockView_faultWidth (s : State) : (s.faultWidth).blockView = s.blockView := blockView_raiseCause _ _

@[simp] theorem blockView_superviseLimit (s : State) : (s.superviseLimit).blockView = s.blockView := by
  unfold State.superviseLimit
  split
  · exact blockView_faultWidth s
  · rfl

@[simp] theorem blockView_acceptSensor (s : State) : (s.acceptSensor).blockView = s.blockView := by
  unfold State.acceptSensor State.outfeedSensor
  split <;> rfl

@[simp] theorem blockView_setAuth (s : State) (b : Bool) : (s.setAuth b).blockView = s.blockView := rfl

@[simp] theorem blockView_rawEye (s : State) (e : Eye) (b : Bool) : (s.rawEye e b).blockView = s.blockView := by cases e <;> rfl

@[simp] theorem blockView_holdValve (s : State) (k : Idx8) (u : Pulse) : (s.holdValve k u).blockView = s.blockView := by
  unfold State.holdValve
  split <;> rfl

@[simp] theorem blockView_endPulse (s : State) (k : Idx8) (u : Pulse) (n : Nat) (b : Bool) : (s.endPulse k u n b).blockView = s.blockView := by
  rfl

@[simp] theorem blockView_boundary (s : State) : (s.boundary).blockView = s.blockView := rfl

@[simp] theorem blockView_wakeOn (s : State) (b : Bool) : (s.wakeOn b).blockView = s.blockView := by
  unfold State.wakeOn
  split
  · exact blockView_enterMode s _
  · rfl

@[simp] theorem blockView_takeSetup (s : State) (c : Setup) : (s.takeSetup c).blockView = s.blockView := by
  unfold State.takeSetup
  dsimp only
  split <;> rfl

@[simp] theorem blockView_releaseFaults (s : State) : s.releaseFaults.blockView = s.blockView := by
  have clear : s.pot.atClear.chip = s.pot.chip ∧ s.pot.atClear.main = s.pot.main ∧ s.pot.atClear.drop = s.pot.drop := by
    unfold Pot.atClear
    split <;> exact ⟨rfl, rfl, rfl⟩
  obtain ⟨chip, main, drop⟩ := clear
  unfold State.releaseFaults
  dsimp only
  split <;> exact Prod.ext (refView_of rfl chip main drop) rfl

@[simp] theorem blockView_leaveHalt (s : State) : s.leaveHalt.blockView = s.blockView := by
  unfold State.leaveHalt
  split
  · exact blockView_enterMode s _
  · rfl

theorem judgeLevel_rest (p : Pot) (c : Option Setup) (v : Int) : (p.judgeLevel c v).chip = p.chip ∧
    (p.judgeLevel c v).main = p.main ∧ (p.judgeLevel c v).drop = p.drop := by
  unfold Pot.judgeLevel
  split <;> exact ⟨rfl, rfl, rfl⟩

theorem Accepts.blockView {q u : State} {c : Instr} {e : Ending} (h : Accepts q c e u) : u.blockView = q.blockView := by
  cases h with
  | loadSetup => exact blockView_takeSetup q _
  | start => exact blockView_enterMode _ _
  | shutdown => exact blockView_enterMode q _
  | shutdownHalted => exact blockView_enterMode q _
  | stop => exact blockView_raiseCause q _
  | clear => exact (blockView_leaveHalt _).trans (blockView_releaseFaults q)
  | economy => exact blockView_enterMode q _
  | wake => exact blockView_enterMode q _
  | purgeFluxer => exact blockView_startPurge q _
  | _ => rfl

/-- The commands that touch the references and their flags, or the gate. -/
inductive ViewChange (s : State) : Instr → Ending → State → Prop
  | counts (d) : ViewChange s (.encoderCount d) .settled (s.countEncoder d)
  | samples (i ws) :
      ViewChange s (.statusIntervalEnd i ws) .interval ((s.toInterval.present i ws).sampleAll i).intervalRaises
  | speedStable (h : s.track.stableDue = true) :
      ViewChange s .speedStableSet .settled { s with track := { s.track with speedStable := true } }
  | conveyorSpeed : ViewChange s .conveyorSpeed .settled
      (State.raiseCause { s with track := { s.track with misses := 0 } } .conveyorSpeed)
  | pumpStable (w) : ViewChange s (.pumpStableSet w) .settled { s with pot := s.pot.markStable w }
  | closes (c) (a : State) (h : a.blockView = s.blockView) (hl : s.gate.state = .late) : ViewChange s c .evaluated a.closeGate
  | leads (a : State) (p) (h : a.blockView = s.blockView) (ho : a.docket.offer = s.docket.offer) :
      ViewChange s (.eyeChangeAccepted .entry) .evaluated (a.handLeading p).appendAtBar
  | trails (a : State) (h : a.blockView = s.blockView) : ViewChange s (.eyeChangeAccepted .entry) .evaluated a.handTrailing

theorem Effect.view {s u : State} {c : Instr} {e : Ending} (h : Effect s c e u) : u.blockView = s.blockView ∨ ViewChange s c e u := by
  cases h with
  | encoderCount d => exact .inr (.counts d)
  | interval i ws => exact .inr (.samples i ws)
  | speedStableSet h => exact .inr (.speedStable h)
  | conveyorSpeed => exact .inr .conveyorSpeed
  | pumpStableSet w => exact .inr (.pumpStable w)
  | rawEye e b => exact .inl (blockView_rawEye s e b)
  | dropLate b h hl => exact .inr (.closes _ _ (blockView_rawEye s .entry b) hl)
  | lateLimit h => exact .inr (.closes _ s rfl (eq_of_beq (Bool.and_eq_true_iff.mp h).1))
  | dropLost b => exact .inl ((blockView_loseWaiting _).trans (blockView_rawEye s .exit b))
  | dropPast b => exact .inl ((blockView_loseBoards _).trans (blockView_rawEye s .exit b))
  | overflow => exact .inl (blockView_setOverflow _)
  | phantom => exact .inl (blockView_setPhantom _)
  | entryLeading p => exact .inr (.leads _ p rfl rfl)
  | entryTrailing p => exact .inr (.trails _ (blockView_takeTrail _ p))
  | exitPhantom => exact .inl (blockView_setPhantom _)
  | exitClosed => exact .inl (blockView_closeRecord _ _ _ _ _)
  | entryJam => exact .inl (blockView_raiseCause _ _)
  | boardLost => exact .inl (blockView_loseBoards s)
  | inputFault k => exact .inl ((blockView_raiseIf _ _ _).trans (blockView_markInputFault s k))
  | inputRecovery k => exact .inl (blockView_testLimit _ k)
  | inputFillingEnd k => exact .inl ((blockView_testLimit _ k).trans (blockView_raiseIf _ _ _))
  | levelFlagChange f => exact .inl ((blockView_raiseIf _ _ _).trans (by cases f <;> rfl))
  | vapourHalt => exact .inl (blockView_raiseCause _ _)
  | modulationBoundary =>
    have last : ∀ a : State, a.consumeEdges.startPulses.blockView = a.blockView := fun a => rfl
    exact .inl ((last _).trans ((blockView_creditPurge _).trans (blockView_finishPulses _)))
  | lanePulseEnd k v => exact .inl ((blockView_holdValve _ k v).trans (blockView_endPulse _ k v _ true))
  | purgeDurationComplete g => exact .inl (blockView_endPurge _)
  | feederSettlingComplete r =>
    obtain ⟨chip, main, drop, -⟩ := settleFeed_rest (s.advance r).pot s.ws.minRise
    exact .inl (Prod.ext (refView_of rfl chip main drop) rfl)
  | levelInputRecovered =>
    obtain ⟨chip, main, drop⟩ := judgeLevel_rest { s.pot with levelGood := true } s.port.setup s.pot.level
    exact .inl (Prod.ext (refView_of rfl chip main drop) rfl)
  | widthMotionStart => exact .inl (blockView_superviseLimit _)
  | homingTravelExceeded => exact .inl (blockView_faultWidth s)
  | widthLimitFault e => exact .inl (blockView_faultWidth _)
  | thermostatContactOpen => exact .inl (blockView_raiseCause _ _)
  | estopInputActive => exact .inl (blockView_raiseCause _ _)
  | upstreamAvailableChange b => exact .inl (blockView_wakeOn _ b)
  | endSensorEvent p => exact .inl (blockView_acceptSensor _)
  | idleTimerExpiry r => exact .inl (blockView_enterMode _ _)
  | warmupComplete => exact .inl (blockView_enterMode s _)
  | heatAuthInvalid v => exact .inl (blockView_raiseCause _ _)
  | homeSwitchFault => exact .inl (blockView_faultWidth _)
  | refused c code q rc f hp hq => exact .inl (by rw [hq.blocks.1]; rfl)
  | accepted c code q e u hp hq hr ha => exact .inl (ha.blockView.trans (by rw [hq.blocks.1]; rfl))
  | _ => exact .inl rfl

/-! ## The zones' targets -/

theorem Accepts.zones {q u : State} {c : Instr} {e : Ending} (h : Accepts q c e u) : u.thermal.zones = q.thermal.zones :=
  congrArg Prod.snd h.loops

theorem zoneTargets_boundary (s : State) (z : Zone) :
    (s.boundary.thermal.zones.get z).target = (s.thermal.zones.get z).target := by
  have settle : ∀ (l : Loop) (pv : Option Int) (n : Nat) (a : Bool), (l.settleStep pv n a).target = l.target := fun l pv n a => by
    unfold Loop.settleStep
    split
    · unfold Loop.settleTest
      split <;> rfl
    · exact Loop.formSettled_target l a
  obtain ⟨v, hv⟩ : ∃ v, s.toAllocation = v := ⟨_, rfl⟩
  have last : s.boundary.thermal.zones = v.allocateStep.thermal.zones := by rw [← hv]; rfl
  have first : (v.thermal.zones.get z).target = (s.thermal.zones.get z).target := by
    rw [← hv]
    unfold State.toAllocation State.settleStep State.controlStep State.rampStep
    rw [Tab6.get_mapIdx, settle, Tab6.get_mapIdx]
    rfl
  rw [last, ← first]
  unfold State.allocateStep
  rw [Tab6.get_mapIdx]
  rfl

theorem target_markSettled (t : Thermal) (l : LoopId) (z : Zone) :
    ((t.markSettled l).zones.get z).target = (t.zones.get z).target := by
  cases l with
  | pot => rfl
  | zone y =>
    simp only [Thermal.markSettled, Tab6.get_set]
    split
    · next e => rw [e]
    · rfl

theorem zones_testLimit (s : State) (k : Idx8) : (s.testLimit k).thermal.zones = s.thermal.zones :=
  congrArg Prod.snd (loops_testLimit s k)

theorem zones_sampleAll (s : State) (i : Readings) : (s.sampleAll i).thermal.zones = s.thermal.zones :=
  congrArg Prod.snd (loops_sampleAll s i)

theorem Effect.zoneTargets {s u : State} {c : Instr} {e : Ending} (h : Effect s c e u) (hd : ∀ d, c ≠ .encoderCount d) (z : Zone) :
    (u.thermal.zones.get z).target = (s.thermal.zones.get z).target := by
  cases h with
  | encoderCount d => exact absurd rfl (hd d)
  | refused c code q rc f hp hq => rw [hq.blocks.1]
  | accepted c code q e u hp hq hr ha => rw [ha.zones, hq.blocks.1]
  | interval i ws =>
    rw [thermal_intervalRaises, zones_sampleAll]
    rfl
  | inputFault k => simp [Thermal.setInput]
  | inputRecovery k => exact congrArg (fun t => (t.get z).target) (zones_testLimit _ k)
  | inputFillingEnd k =>
    rw [zones_testLimit]
    simp [Thermal.setInput]
  | heaterPeriodBoundary => exact zoneTargets_boundary s z
  | loopSettled l => exact target_markSettled s.thermal l z
  | heatAuthInvalid => simp [State.setAuth]
  | rawEye => rfl
  | heatAuthEnable => rfl
  | heatAuthDisable => rfl
  | _ => simp

end Sys2Proof.Machine
end



section
/-! The references, targets and drop over a step (R5, R9, R85, R126 to R132). -/

namespace Sys2Proof.Machine

open Sys2Proof.Config

/-! ## The stability flags at a command -/

theorem refView_parts {s u : State} (h : u.refView = s.refView) : u.track.ref = s.track.ref ∧
    u.track.speedStable = s.track.speedStable ∧ u.track.passes = s.track.passes ∧ u.track.misses = s.track.misses ∧
    u.pot.drop = s.pot.drop ∧ ∀ w, u.pot.pump w = s.pot.pump w := by
  obtain ⟨track, rest⟩ := Prod.mk.inj h
  obtain ⟨drop, pumps⟩ := Prod.mk.inj rest
  obtain ⟨chip, main⟩ := Prod.mk.inj pumps
  obtain ⟨ref, flags⟩ := Prod.mk.inj track
  obtain ⟨stable, counts⟩ := Prod.mk.inj flags
  obtain ⟨passes, misses⟩ := Prod.mk.inj counts
  refine ⟨ref, stable, passes, misses, drop, fun w => ?_⟩
  cases w
  · exact chip
  · exact main

theorem Steady.of_view {s u : State} (h : u.refView = s.refView) : Steady s u := by
  obtain ⟨ref, stable, passes, misses, -, pump⟩ := refView_parts h
  exact ⟨.inl ⟨ref, stable, passes, misses⟩, fun w => .inl (by rw [pump]; exact ⟨rfl, rfl, rfl⟩)⟩

theorem Steady.moveTenth (s : State) (f : Bool) : Steady s (s.moveTenth f) := by
  obtain ⟨b, c, e, u, h⟩ := tenth_parts s f
  have targets : ∀ x : State, Steady x x.reformZones.reformPumpTargets := fun x =>
    ⟨.inl ⟨rfl, rfl, rfl, rfl⟩, fun w => .inl (by cases w <;> exact ⟨rfl, rfl, rfl⟩)⟩
  have first : Steady s b := by
    rw [h.pumps]
    have moved : Steady s (s.movedP f) := .of_view rfl
    exact (moved.trans (targets _)).trans (.pumpRefs _)
  have second : Steady b c := .of_view (by rw [h.tested]; rfl)
  have third : Steady c e := .of_view (by rw [h.stop]; rfl)
  rw [h.last]
  exact ((first.trans second).trans third).trans (.conveyor e)

theorem Steady.moveTenths (n : Nat) (s : State) (f : Bool) : Steady s (State.moveTenths n s f) := by
  induction n generalizing s with
  | zero => exact .of_view rfl
  | succ k ih => exact (Steady.moveTenth s f).trans (ih _)

/-- A count turns the accumulator, moves by its tenths and ends at the fluxer bar. -/
theorem countEncoder_parts (s : State) (d : Direction) : ∃ a v n f p, s.countEncoder d = v.approachBar n p d ∧
    v = State.moveTenths n a f ∧ a.blockView = s.blockView :=
  ⟨_, _, _, _, _, rfl, rfl, rfl⟩

theorem Steady.countEncoder (s : State) (d : Direction) : Steady s (s.countEncoder d) := by
  obtain ⟨a, v, n, f, p, e, hv, view⟩ := countEncoder_parts s d
  obtain ⟨-, track, -, pot, -⟩ := approachBar_frame v n p d
  rw [e]
  have first : Steady s v := hv ▸ (Steady.of_view (congrArg Prod.fst view)).trans (.moveTenths n a f)
  exact first.trans (.of_view (refView_of track (by rw [pot]) (by rw [pot]) (by rw [pot])))

/-- What a steady change leaves of a command's own step. -/
theorem StabilityStep.then {c : Instr} {s u t : State} (h : StabilityStep c s u) (g : Steady u t) : StabilityStep c s t where
  speed hr := by
    rcases g.speed with ⟨ref, stable, passes, misses⟩ | clear
    · rw [stable, passes, misses]
      exact h.speed (by rw [← ref]; exact hr)
    · exact clear
  speedSet hs ht := by
    rcases g.speed with ⟨-, stable, -⟩ | ⟨clear, -⟩
    · exact h.speedSet hs (stable ▸ ht)
    · rw [clear] at ht; cases ht
  speedCounts hc := by
    rcases g.speed with ⟨-, -, passes, misses⟩ | ⟨-, passes, misses⟩
    · rw [passes, misses]; exact h.speedCounts hc
    · exact ⟨.inr passes, .inr misses⟩
  pump w hr := by
    rcases g.pump w with ⟨ref, stable, count⟩ | clear
    · rw [stable, count]
      exact h.pump w (by rw [← ref]; exact hr)
    · exact clear
  pumpSet w hs ht := by
    rcases g.pump w with ⟨-, stable, -⟩ | ⟨clear, -⟩
    · exact h.pumpSet w hs (stable ▸ ht)
    · rw [clear] at ht; cases ht
  pumpCounts hc w := by
    rcases g.pump w with ⟨-, -, count⟩ | ⟨-, count⟩
    · rw [count]; exact h.pumpCounts hc w
    · exact .inr count

theorem StabilityStep.same {c : Instr} (s : State) : StabilityStep c s s where
  speed h := absurd rfl h
  speedSet h g := by rw [h] at g; cases g
  speedCounts _ := ⟨.inl rfl, .inl rfl⟩
  pump _ h := absurd rfl h
  pumpSet _ h g := by rw [h] at g; cases g
  pumpCounts _ _ := .inl rfl

theorem Steady.step {c : Instr} {s t : State} (h : Steady s t) : StabilityStep c s t := (StabilityStep.same s).then h

theorem refView_latchZones (s : State) : s.latchZones.refView = s.refView := by
  have zone : ∀ (a : State) (z : Zone), (a.latchZone z).refView = a.refView := fun a z => by
    unfold State.latchZone
    dsimp only
    split <;> rfl
  simp [State.latchZones, allZones, zone]

theorem refView_sampleLevel (s : State) (v : Option Int) : (s.sampleLevel v).refView = s.refView := by
  unfold State.sampleLevel
  split
  · next raw _ _ =>
    obtain ⟨chip, main, drop⟩ := judgeLevel_rest { s.pot with level := correctedLevel s.ws.levelComp s.pot.main.measured raw }
      s.port.setup (correctedLevel s.ws.levelComp s.pot.main.measured raw)
    exact refView_of rfl chip main drop
  · rfl
  · rfl
  · rfl

theorem refView_sampleTank (s : State) (b : Bool) : (s.sampleTank b).refView = s.refView := by
  unfold State.sampleTank
  cases b <;> rfl

theorem blockView_intervalRaises (s : State) : s.intervalRaises.blockView = s.blockView := by
  simp [State.intervalRaises]

/-- The references through the samples: they stand, and no flag comes up (R7, R128). -/
theorem sampleAll_refs (s : State) (i : Readings) :
    (s.sampleAll i).track.ref = s.track.ref ∧ ((s.sampleAll i).track.speedStable = true → s.track.speedStable = true) ∧
    (s.sampleAll i).pot.drop = s.pot.drop ∧ ∀ w, ((s.sampleAll i).pot.pump w).ref = (s.pot.pump w).ref ∧ ((s.sampleAll i).pot.pump w).target = (s.pot.pump w).target ∧
      (((s.sampleAll i).pot.pump w).stable = true → (s.pot.pump w).stable = true) := by
  obtain ⟨a, ha⟩ : ∃ a, (s.sampleSpeed.sampleInputs i.temps).latchZones.sampleExtraction i = a := ⟨_, rfl⟩
  obtain ⟨x, hx⟩ : ∃ x, (((a.samplePumps i.chipRpm i.mainRpm).sampleLevel i.level).samplePressure i.pressure) = x := ⟨_, rfl⟩
  have whole : s.sampleAll i = { (x.sampleTank i.tankEmpty).sampleContact with
      pot := { (x.sampleTank i.tankEmpty).sampleContact.pot with feedTest := true } } := by
    rw [← hx, ← ha]
    rfl
  have last : (s.sampleAll i).refView = (a.samplePumps i.chipRpm i.mainRpm).refView := by
    have tail : (x.sampleTank i.tankEmpty).refView = (a.samplePumps i.chipRpm i.mainRpm).refView := by
      rw [refView_sampleTank, ← hx]
      exact refView_sampleLevel _ _
    rw [whole]
    exact tail
  have first : a.refView = s.sampleSpeed.refView := by
    have gases : ∀ x : State, (x.sampleExtraction i).refView = x.refView := fun x => refView_of (by simp) (by simp) (by simp) (by simp)
    have inputs : (s.sampleSpeed.sampleInputs i.temps).refView = s.sampleSpeed.refView := rfl
    rw [← ha, gases, refView_latchZones, inputs]
  obtain ⟨ref, stable, -, -, drop, pump⟩ := refView_parts last
  obtain ⟨ref1, stable1, -, -, drop1, pump1⟩ := refView_parts first
  have window : s.sampleSpeed.track.ref = s.track.ref ∧ (s.sampleSpeed.track.speedStable = true → s.track.speedStable = true) := by
    have e : s.sampleSpeed.track = s.track.window s.ws.countsPerMetre := rfl
    rw [e]
    unfold Track.window
    split
    · exact ⟨rfl, id⟩
    · exact ⟨rfl, fun h => (Bool.and_eq_true_iff.mp h).1⟩
  have sample : ∀ (p : Pump) (n m : Nat) b, (p.sample n m b).ref = p.ref ∧ (p.sample n m b).target = p.target ∧
      ((p.sample n m b).stable = true → p.stable = true) := fun p n m b => by
    unfold Pump.sample
    split
    · exact ⟨rfl, rfl, id⟩
    · dsimp only
      split
      · exact ⟨rfl, rfl, id⟩
      · exact ⟨rfl, rfl, fun h => by cases h⟩
  refine ⟨(ref.trans ref1).trans window.1, fun h => window.2 (stable1 ▸ stable ▸ h), drop.trans drop1, fun w => ?_⟩
  have old : a.pot.pump w = s.pot.pump w := pump1 w
  rw [pump, ← old]
  cases w <;> exact sample _ _ _ _

theorem ViewChange.stability {c : Instr} {e : Ending} {s u : State} (h : ViewChange s c e u) : StabilityStep c s u := by
  have same := StabilityStep.same (c := c) s
  cases h with
  | counts d => exact (Steady.countEncoder s d).step
  | samples i ws =>
    refine StabilityStep.then ?_ (.of_view (congrArg Prod.fst (blockView_intervalRaises _)))
    obtain ⟨ref, speed, -, pump⟩ := sampleAll_refs (s.toInterval.present i ws) i
    refine ⟨fun h => absurd ref h, fun h g => ?_, fun h => absurd rfl (h i ws), fun w h => absurd (pump w).1 h, fun w h g => ?_,
      fun h => absurd rfl (h i ws)⟩
    · rw [show s.track.speedStable = true from speed g] at h
      cases h
    · rw [show (s.pot.pump w).stable = true from (pump w).2.2 g] at h
      cases h
  | speedStable =>
    exact { same with speed := fun h => absurd rfl h, speedSet := fun _ _ => rfl }
  | conveyorSpeed =>
    refine StabilityStep.then ?_ (.of_view (congrArg Prod.fst (blockView_raiseCause _ _)))
    exact { same with speed := fun h => absurd rfl h, speedCounts := fun _ => ⟨.inl rfl, .inr rfl⟩ }
  | pumpStable w =>
    have stands : ∀ v, (({ s with pot := s.pot.markStable w } : State).pot.pump v).ref = (s.pot.pump v).ref ∧
        (({ s with pot := s.pot.markStable w } : State).pot.pump v).count = (s.pot.pump v).count ∧
        (v ≠ w → (({ s with pot := s.pot.markStable w } : State).pot.pump v).stable = (s.pot.pump v).stable) := fun v => by
      cases w <;> cases v
      · exact ⟨rfl, rfl, fun h => absurd rfl h⟩
      · exact ⟨rfl, rfl, fun _ => rfl⟩
      · exact ⟨rfl, rfl, fun _ => rfl⟩
      · exact ⟨rfl, rfl, fun h => absurd rfl h⟩
    refine { same with pump := fun v h => absurd (stands v).1 h, pumpSet := fun v h g => ?_, pumpCounts := fun _ v => .inl (stands v).2.1 }
    by_cases e : v = w
    · rw [e]
    · rw [(stands v).2.2 e, h] at g
      cases g
  | closes c a view =>
    have closed : a.closeGate.refView = s.refView := congrArg Prod.fst view
    exact (Steady.of_view closed).step
  | leads a p old =>
    have view : (a.handLeading p).appendAtBar.refView = s.refView :=
      (congrArg Prod.fst (blockView_appendAtBar _)).trans ((refView_handLeading a p).trans (congrArg Prod.fst old))
    exact (Steady.of_view view).step
  | trails a old => exact (Steady.of_view ((refView_handTrailing a).trans (congrArg Prod.fst old))).step

theorem stabilityStep_of_exec {c : Instr} {s t : State} (h : exec c s = .next t) : StabilityStep c s t := by
  rcases exec_reset_or_effect h with ⟨port, reset⟩ | ⟨e, u, effect, rfl⟩
  · refine Steady.step ⟨.inr ?_, fun w => .inr ?_⟩
    · rw [reset.track]
      exact ⟨rfl, rfl, rfl⟩
    · rw [reset.pump]
      exact ⟨rfl, rfl⟩
  · refine StabilityStep.then ?_ (.ending e u)
    rcases effect.view with same | change
    · exact (Steady.of_view (congrArg Prod.fst same)).step
    · exact change.stability

/-! ## The targets that no rule gives -/

/-- A command leaves the findings, and an offer does not come with it. -/
structure BoardStands (s u : State) : Prop where
  next : NoOffering s → u.docket.next = s.docket.next
  state : NoOffering s → NoOffering u

theorem nextBoard_bare {s : State} (h : NoOffering s) : s.nextBoard = s.docket.next := by
  unfold State.nextBoard
  split
  · next e => exact absurd e h.1
  · next e => exact absurd e h.2
  · rfl

theorem BoardStands.of_view {s u : State} (h : u.gateView = s.gateView) : BoardStands s u := by
  have state : u.gate.state = s.gate.state := congrArg (fun x : Gate × Docket => x.1.state) h
  exact ⟨fun _ => congrArg (fun x : Gate × Docket => x.2.next) h, fun no => by unfold NoOffering; rw [state]; exact no⟩

theorem handLeading_bare {s : State} (h : NoOffering s) (p : Pos) : s.handLeading p = s.intrude p := by
  unfold State.handLeading
  split
  · next e _ => exact absurd e h.1
  · next e _ => exact absurd e h.2
  · rfl

theorem Effect.board {s u : State} {c : Instr} {e : Ending} (h : Effect s c e u) : BoardStands s u := by
  rcases h.view with same | change
  · exact .of_view (congrArg Prod.snd same)
  · cases change with
    | counts d =>
      obtain ⟨a, v, n, f, p, e, hv, view⟩ := countEncoder_parts s d
      obtain ⟨-, -, -, -, gate, docket, -⟩ := approachBar_frame v n p d
      have moved : v.gateView = a.gateView := by
        unfold State.gateView
        rw [hv]
        simp
      rw [e]
      refine .of_view (Eq.trans ?_ (moved.trans (congrArg Prod.snd view)))
      unfold State.gateView
      rw [gate, docket]
    | samples i ws =>
      refine .of_view ?_
      refine (congrArg Prod.snd (blockView_intervalRaises _)).trans ?_
      change State.gateView _ = _
      unfold State.gateView
      simp [State.present, State.toInterval]
    | speedStable => exact .of_view rfl
    | conveyorSpeed => exact .of_view (congrArg Prod.snd (blockView_raiseCause _ _))
    | pumpStable w => exact .of_view rfl
    | closes c a same late => exact ⟨fun no => absurd late no.2, fun no => absurd late no.2⟩
    | leads a p same =>
      obtain ⟨next, state⟩ := BoardStands.of_view (congrArg Prod.snd same)
      have bar := BoardStands.of_view (congrArg Prod.snd (blockView_appendAtBar (a.handLeading p)))
      refine ⟨fun no => ?_, fun no => ?_⟩
      · have bare := handLeading_bare (state no) p
        rw [bar.next (by rw [bare]; exact state no), bare]
        exact next no
      · exact bar.state (by rw [handLeading_bare (state no) p]; exact state no)
    | trails a same =>
      obtain ⟨next, state⟩ := BoardStands.of_view (congrArg Prod.snd same)
      refine ⟨fun no => ?_, fun no => ?_⟩ <;> unfold State.handTrailing
      · split <;> exact next no
      · split
        · exact ⟨fun g => GateState.noConfusion g, fun g => GateState.noConfusion g⟩
        · exact state no
        · exact state no
        · exact state no

theorem Effect.pumpTarget {s u : State} {c : Instr} {e : Ending} (h : Effect s c e u) (hd : ∀ d, c ≠ .encoderCount d) (w : Wave) :
    (u.pot.pump w).target = (s.pot.pump w).target := by
  have same : ∀ {x y : State}, x.refView = y.refView → (x.pot.pump w).target = (y.pot.pump w).target := fun h => by
    rw [(refView_parts h).2.2.2.2.2 w]
  rcases h.view with view | change
  · exact same (congrArg Prod.fst view)
  · cases change with
    | counts d => exact absurd rfl (hd d)
    | samples i ws =>
      have raises : (State.intervalRaises ((s.toInterval.present i ws).sampleAll i)).refView =
          ((s.toInterval.present i ws).sampleAll i).refView := congrArg Prod.fst (blockView_intervalRaises _)
      exact (same raises).trans ((sampleAll_refs _ i).2.2.2 w).2.1
    | speedStable => rfl
    | conveyorSpeed =>
      have raise := refView_parts (congrArg Prod.fst (blockView_raiseCause { s with track := { s.track with misses := 0 } } .conveyorSpeed))
      rw [raise.2.2.2.2.2 w]
    | pumpStable v => cases v <;> cases w <;> rfl
    | closes c a view => exact same (congrArg Prod.fst view)
    | leads a p view =>
      exact same ((congrArg Prod.fst (blockView_appendAtBar _)).trans ((refView_handLeading a p).trans (congrArg Prod.fst view)))
    | trails a view => exact same ((refView_handTrailing a).trans (congrArg Prod.fst view))

theorem TargetsHeld.refresh {s t : State} (h : TargetsHeld s t) : TargetsHeld s t.writeClock.refresh := ⟨h.zone, h.pump⟩

theorem targetsHeld_ending (e : Ending) (u : State) (h : u.nextBoard = none → NoOffering u) : TargetsHeld u (e.of u) := by
  induction e with
  | still => exact ⟨fun _ _ => rfl, fun _ _ => rfl⟩
  | settled => exact targetsHeld_settle h
  | evaluated => exact targetsHeld_settleEval h
  | interval => exact (targetsHeld_settleEval h).refresh
  | answered e a ih =>
    obtain ⟨zone, pump⟩ := ih
    cases a <;> exact ⟨zone, pump⟩

theorem TargetsStay.ending (e : Ending) (u : State) : TargetsStay u (e.of u) := by
  induction e with
  | still => exact .refl u
  | settled => exact (moves_settle u).targetsStay
  | evaluated => exact (moves_settleEval u).targetsStay
  | interval =>
    have refresh : ∀ v : State, TargetsStay v v.writeClock.refresh := fun v => ⟨fun _ h => ⟨h, rfl⟩, fun _ h => ⟨h, rfl⟩⟩
    exact (moves_settleEval u).targetsStay.trans (refresh _)
  | answered e a ih =>
    have answer : ∀ v : State, TargetsStay v (v.answer a) := fun v => by
      cases a <;> exact ⟨fun _ h => ⟨h, rfl⟩, fun _ h => ⟨h, rfl⟩⟩
    exact ih.trans (answer _)

/-- A command that does not count keeps the targets that no rule gives. -/
theorem targetsHeld_of_exec {c : Instr} {s t : State} (h : exec c s = .next t) (hd : ∀ d, c ≠ .encoderCount d)
    (formed : GateFormed s) : TargetsHeld s t := by
  rcases exec_reset_or_effect h with ⟨port, reset⟩ | ⟨e, u, effect, rfl⟩
  · have off := reset.mode
    refine ⟨fun z h => ?_, fun w h => ?_⟩ <;> rw [off] at h
    · rcases h with ⟨m, -⟩ | ⟨m, -⟩ <;> cases m
    · rcases h with ⟨m | ⟨m, -⟩, -⟩ | ⟨m, -⟩ <;> cases m
  · have bare : s.nextBoard = none → u.nextBoard = none ∧ NoOffering u := fun none_ => by
      have no := formed.noOffering none_
      have after := effect.board.state no
      refine ⟨?_, after⟩
      rw [nextBoard_bare after, effect.board.next no, ← nextBoard_bare no]
      exact none_
    have stay := TargetsStay.ending e u
    have held := fun none_ => targetsHeld_ending e u fun _ => (bare none_).2
    refine ⟨fun z h => Eq.trans ?_ (effect.zoneTargets hd z), fun w h => Eq.trans ?_ (effect.pumpTarget hd w)⟩
    · rcases h with h | ⟨m, b, a⟩
      · exact (stay.zone z h).2
      · exact (held b).zone z (.inr ⟨m, (bare b).1, a⟩)
    · rcases h with h | ⟨m, b, a⟩
      · exact (stay.wave w h).2
      · exact (held b).pump w (.inr ⟨m, (bare b).1, a⟩)

/-! ## The stop of the conveyor -/

theorem ViewChange.ref_drop {c : Instr} {e : Ending} {s u : State} (h : ViewChange s c e u) (hd : ∀ d, c ≠ .encoderCount d) :
    u.track.ref = s.track.ref ∧ u.pot.drop = s.pot.drop := by
  have same : ∀ {x y : State}, x.refView = y.refView → x.track.ref = y.track.ref ∧ x.pot.drop = y.pot.drop := fun h =>
    ⟨(refView_parts h).1, (refView_parts h).2.2.2.2.1⟩
  cases h with
  | counts d => exact absurd rfl (hd d)
  | samples i ws =>
    obtain ⟨ref, drop⟩ := same (congrArg Prod.fst (blockView_intervalRaises ((s.toInterval.present i ws).sampleAll i)))
    obtain ⟨ref1, -, drop1, -⟩ := sampleAll_refs (s.toInterval.present i ws) i
    exact ⟨ref.trans ref1, drop.trans drop1⟩
  | speedStable => exact ⟨rfl, rfl⟩
  | conveyorSpeed =>
    have raise := refView_parts (congrArg Prod.fst (blockView_raiseCause { s with track := { s.track with misses := 0 } } .conveyorSpeed))
    exact ⟨raise.1, raise.2.2.2.2.1⟩
  | pumpStable v => cases v <;> exact ⟨rfl, rfl⟩
  | closes c a view => exact same (congrArg Prod.fst view)
  | leads a p view =>
    exact same ((congrArg Prod.fst (blockView_appendAtBar _)).trans ((refView_handLeading a p).trans (congrArg Prod.fst view)))
  | trails a view => exact same ((refView_handTrailing a).trans (congrArg Prod.fst view))

theorem Stopping.ending {b : Prop} (e : Ending) (u : State) (hc : SetupChecked u) (h : Stopping b u) : Stopping b (e.of u) := by
  induction e with
  | still => exact h
  | settled => exact (h.settles u hc).1
  | evaluated => exact (h.settles u hc).2
  | interval =>
    have refresh : ∀ v : State, Stopping b v → Stopping b v.writeClock.refresh := fun v g => ⟨g.dwell, g.drop, g.interrupted⟩
    exact refresh _ (h.settles u hc).2
  | answered e a ih =>
    have answer : ∀ v : State, Stopping b v → Stopping b (v.answer a) := fun v g => by
      cases a <;> exact ⟨g.dwell, g.drop, g.interrupted⟩
    exact answer _ ih

/-- The stop of the conveyor at a command that does not count leaves its marks (R9, R130). -/
theorem stopMarked_of_exec {c : Instr} {s t : State} (h : exec c s = .next t) (hd : ∀ d, c ≠ .encoderCount d)
    (checked : SetupChecked s) (hs : s.track.ref ≠ 0) (ht : t.track.ref = 0) : StopMarked s t := by
  rcases exec_reset_or_effect h with ⟨port, reset⟩ | ⟨e, u, effect, rfl⟩
  · have empty : ∀ r, r ∉ t.track.records := fun r => by
      rw [reset.records]
      exact List.not_mem_nil
    exact ⟨fun r hr => absurd hr (empty r), fun _ ⟨r, hr, _⟩ => absurd hr (empty r), fun _ r hr => absurd hr (empty r)⟩
  · obtain ⟨ref, drop⟩ : u.track.ref = s.track.ref ∧ u.pot.drop = s.pot.drop := by
      rcases effect.view with view | change
      · have parts := refView_parts (congrArg Prod.fst view)
        exact ⟨parts.1, parts.2.2.2.2.1⟩
      · exact change.ref_drop hd
    have before : SetupChecked u := by
      have after := exec_setupChecked h checked
      unfold SetupChecked at after ⊢
      rw [← (e.tankMoves u).setup]
      exact after
    exact ((Stopping.of_runs hs ref drop).ending e u before).marked ht

theorem step_setupChecked {s t : State} (h : step s = .next t) (hs : SetupChecked s) : SetupChecked t := by
  rcases step_cases h with ⟨c, l, run⟩ | rfl
  · exact exec_setupChecked run hs
  · exact hs

/-- Settles O4: each rule is formed by the consequences of a command, met by the resets and disturbed by nothing else. -/
theorem referenceRulesAreKept : Obligations.ReferenceRulesAreKept := by
  unfold Obligations.ReferenceRulesAreKept
  refine ⟨fun s t h => ⟨?_, ?_, ?_, fun hc formed => ?_, stretchesFormed t⟩, fun c s t h => ⟨stabilityStep_of_exec h,
    targetsHeld_of_exec h, stopMarked_of_exec h⟩⟩
  · exact step_keeps_rule ReferenceFormed (fun u => settle_referenceFormed u) (fun _ _ _ reset => reset.referenceFormed)
      (fun _ _ same => same.referenceFormed) h
  · exact step_keeps_rule PumpsFormed (fun u => settle_pumpsFormed u) (fun _ _ _ reset => reset.pumpsFormed)
      (fun _ _ same => same.pumpsFormed) h
  · exact step_keeps_rule TargetsFormed (fun u => reform_targetsFormed _) (fun _ _ _ reset => reset.targetsFormed)
      (fun _ _ same => same.targetsFormed) h
  · have forms : ∀ x : State, SetupChecked x.reform → DropFormed x.reform := fun x checked => reform_dropFormed (by
      unfold SetupChecked at checked ⊢
      rw [← (kept_reform x).keeps.portSetup]
      exact checked)
    have settles : ∀ u : State, SetupChecked u.settle → DropFormed u.settle := fun u => forms _
    exact step_keeps_rule (fun x => SetupChecked x → DropFormed x) settles (fun _ _ _ reset _ => reset.dropFormed)
      (fun _ _ same formed checked => (formed (by unfold SetupChecked; rw [← same.setup]; exact checked) |> same.dropFormed))
      h (fun _ => formed) (step_setupChecked h hc)

end Sys2Proof.Machine
end



section
/-! What a command does to the line mode, the halt causes, the mode's timers and the line class before its consequences (R163,
R166, R170, R174). -/

namespace Sys2Proof.Machine

open Sys2Proof.Config

/-- The mode, the causes, the wake arm and whether the run-on timer runs; the line class, phase and target; HOST_LOST and whether
the supervision timer runs. -/
def State.modeView (s : State) :
    (Mode × List HaltCause × Option Bool × Bool) × (Option LineClass × Phase × Option LineClass) × Bool × Bool :=
  ((s.modes.mode, s.modes.causes, s.modes.wakeArm, s.modes.runOn.isSome), (s.gate.lineClass, s.gate.phase, s.gate.target),
    s.port.hostLost, s.port.supRunning)

/-- Halt causes are raised, and nothing else of the view changes. -/
inductive Raised (s : State) : State → Prop
  | view {a : State} (h : a.modeView = s.modeView) : Raised s a
  | same {a u : State} (h : Raised s a) (view : u.modeView = a.modeView) (port : u.port = a.port) : Raised s u
  | raise {a : State} (h : Raised s a) (x : HaltCause) : Raised s (a.raiseCause x)

namespace Raised

variable {s a : State}

theorem raiseIf (h : Raised s a) (b : Bool) (x : HaltCause) : Raised s (a.raiseIf b x) := by
  unfold State.raiseIf
  split
  · exact h.raise x
  · exact h

theorem raise_of (h : a.modeView = s.modeView) (x : HaltCause) : Raised s (a.raiseCause x) := (Raised.view h).raise x

theorem raiseIf_of (h : a.modeView = s.modeView) (b : Bool) (x : HaltCause) : Raised s (a.raiseIf b x) :=
  (Raised.view h).raiseIf b x

theorem faultWidth (h : Raised s a) : Raised s a.faultWidth := by
  obtain ⟨w, hw⟩ : ∃ w : State, { a with gate := { a.gate with width := { a.gate.width with state := .fault, pos := 0, travel := 0 } } } = w :=
    ⟨_, rfl⟩
  have stopped : Raised s w := h.same (by rw [← hw]; rfl) (by rw [← hw])
  have e : a.faultWidth = w.raiseCause .widthDrive := by rw [← hw]; rfl
  rw [e]
  exact stopped.raise _

theorem superviseLimit (h : Raised s a) : Raised s a.superviseLimit := by
  unfold State.superviseLimit
  split
  · exact h.faultWidth
  · exact h

end Raised

/-- What a command does to the view, where it does not only raise causes. -/
inductive ModeOp (s : State) : Instr → State → Prop
  | start (ws) (a : State) (h : a.modeView = s.modeView) (old : s.modes.mode = .off) (causes : s.modes.causes = []) :
      ModeOp s (.start ws) (State.enterMode { a with gate := { a.gate with lineClass := a.nextClass } } .warmup)
  | complete (h : warmupReady s = true) : ModeOp s .warmupComplete (s.enterMode .production)
  | idles (a : State) (h : a.modeView = s.modeView) (runs : s.modes.idle ≠ none) (old : s.modes.mode = .production) :
      ModeOp s .idleTimerExpiry (a.enterMode .economy)
  | economy (ws) (a : State) (h : a.modeView = s.modeView) (old : s.modes.mode = .warmup ∨ s.modes.mode = .production)
      (empty : a.track.records = []) : ModeOp s (.economy ws) (a.enterMode .economy)
  | wakes (c) (a : State) (h : a.modeView = s.modeView)
      (why : (∃ ws, c = .wake ws) ∨ (c = .upstreamAvailableChange true ∧ s.pins.upstream = false))
      (old : s.modes.mode = .economy) : ModeOp s c (a.enterMode .warmup)
  | cools (ws) (a : State) (h : a.modeView = s.modeView)
      (old : s.modes.mode = .warmup ∨ s.modes.mode = .production ∨ s.modes.mode = .economy) :
      ModeOp s (.shutdown ws) (a.enterMode .cooldown)
  | shuts (ws) (a : State) (h : a.modeView = s.modeView) (old : s.modes.mode = .halted) :
      ModeOp s (.shutdown ws) (a.enterMode .off)
  | clears (ws) (a : State) (h : a.modeView = s.modeView) : ModeOp s (.clear ws) a.removeCauses.leaveHalt
  | loses (c) (a : State) (h : a.modeView = s.modeView) : ModeOp s c a.raiseLost
  | setup (ws) (a : State) (d : Setup) (h : a.modeView = s.modeView) (off : s.modes.mode = .off) :
      ModeOp s (.loadSetup ws) (a.takeSetup d)
  | runOnEnds (n) : ModeOp s .runOnTimerExpiry { s.advance n with modes := { (s.advance n).modes with runOn := none } }
  | expires (n) : ModeOp s .supervisionExpired { s.advance n with port := (s.advance n).port.expire }
  | alive (v) : ModeOp s (.hostAliveWrite v)
      { s with port := { s.port with supElapsed := 0, supRunning := s.ws.supervision != 0, hostLost := false } }

/-! ## The operations that leave the view -/

@[simp] theorem modeView_notifyIf (s : State) (b : Bool) (n : Notice) :
    ({ s with port := s.port.notifyIf b n } : State).modeView = s.modeView := by
  unfold Port.notifyIf
  split <;> rfl

@[simp] theorem modeView_creditTank (s : State) (n : Nat) : (s.creditTank n).modeView = s.modeView :=
  modeView_notifyIf s _ _

@[simp] theorem modeView_cutPulses (s : State) (p : Pulse → Bool) (b : Bool) : (s.cutPulses p b).modeView = s.modeView := by
  rw [uncredited_frame (cutPulses_ends s p b).rest]
  rfl

@[simp] theorem modeView_finishPulses (s : State) : s.finishPulses.modeView = s.modeView := modeView_cutPulses s _ _

@[simp] theorem modeView_startPurge (s : State) (n : Nat) : (s.startPurge n).modeView = s.modeView :=
  modeView_cutPulses s (fun _ => true) true

@[simp] theorem modeView_creditPurge (s : State) : s.creditPurge.modeView = s.modeView := by
  unfold State.creditPurge
  split
  · rfl
  · exact modeView_creditTank _ _

@[simp] theorem modeView_endPurge (s : State) : s.endPurge.modeView = s.modeView := by
  unfold State.endPurge
  split
  · rfl
  · exact modeView_creditPurge s

theorem modeView_countEncoder (s : State) (d : Direction) : (s.countEncoder d).modeView = s.modeView := by
  have bar : ∀ (a : State) (n : Nat) (p : Pos), (a.approachBar n p d).modeView = a.modeView := fun a n p => by
    unfold State.approachBar
    split
    · exact modeView_endPurge a
    · rfl
  refine (bar _ _ _).trans ?_
  simp [State.modeView]

@[simp] theorem modeView_handLeading (s : State) (p : Pos) : (s.handLeading p).modeView = s.modeView := by
  have slot : ∀ (a : State) (o : Offer), (a.bindSlot o).modeView = a.modeView := fun a o => by unfold State.bindSlot; split <;> rfl
  have edges : ∀ (a : State) (n : BitVec 16) (o : Offer), (a.scheduleEdges n p o).modeView = a.modeView := fun a n o => by
    unfold State.scheduleEdges; split <;> rfl
  have boards : ∀ (o : Offer) (late : Bool), (s.admitBoard p o late).modeView = s.modeView := fun o late =>
    (edges _ _ o).trans (slot _ o)
  unfold State.handLeading
  split
  · exact boards _ false
  · exact boards _ true
  · rfl

@[simp] theorem modeView_appendAtBar (s : State) : s.appendAtBar.modeView = s.modeView := by
  unfold State.appendAtBar
  split
  · split
    · exact modeView_endPurge s
    · rfl
  · rfl

@[simp] theorem modeView_takeTrail (s : State) (p : Pos) : (s.takeTrail p).modeView = s.modeView := by
  have clamp : ∀ (a : State) (r : Record) (l : Nat), (a.clamp r l).modeView = a.modeView := fun a r l => by
    unfold State.clamp
    split
    · rfl
    · exact modeView_cutPulses a _ true
  unfold State.takeTrail
  split
  · exact clamp _ _ _
  · rfl

@[simp] theorem modeView_handTrailing (s : State) : s.handTrailing.modeView = s.modeView := by
  unfold State.handTrailing
  split <;> rfl

@[simp] theorem modeView_closeRecord (s : State) (p : Record → Bool) (r : Record) (o : CloseOutcome) (l : Nat) :
    (s.closeRecord p r o l).modeView = s.modeView := by
  have report : (s.reportClose r o l).modeView = s.modeView := by unfold State.reportClose; split <;> rfl
  exact (modeView_cutPulses (s.reportClose r o l) (fun u => u.ordinal == r.ordinal) false).trans report

@[simp] theorem modeView_closeLost (n : Nat) (s : State) : (s.closeLost n).modeView = s.modeView := by
  induction n generalizing s with
  | zero => rfl
  | succ k ih =>
    unfold State.closeLost
    split
    · exact (ih _).trans (modeView_closeRecord s _ _ _ _)
    · rfl

@[simp] theorem modeView_rawEye (s : State) (e : Eye) (b : Bool) : (s.rawEye e b).modeView = s.modeView := by
  cases e <;> rfl

@[simp] theorem modeView_markInputFault (s : State) (k : Idx8) : (s.markInputFault k).modeView = s.modeView := by
  unfold State.markInputFault
  split
  · split <;> rfl
  · rfl

@[simp] theorem modeView_latchInput (s : State) (k : Idx8) : (s.latchInput k).modeView = s.modeView := by
  unfold State.latchInput
  split <;> rfl

theorem Raised.testLimit {s a : State} (h : Raised s a) (k : Idx8) : Raised s (a.testLimit k) :=
  (h.same (modeView_latchInput a k) (by simp)).raiseIf _ _

@[simp] theorem modeView_acceptSensor (s : State) : s.acceptSensor.modeView = s.modeView := by
  unfold State.acceptSensor State.outfeedSensor
  split <;> rfl

@[simp] theorem modeView_holdValve (s : State) (k : Idx8) (u : Pulse) : (s.holdValve k u).modeView = s.modeView := by
  unfold State.holdValve
  split <;> rfl

@[simp] theorem modeView_advance (s : State) (n : Nat) : (s.advance n).modeView = s.modeView := by
  unfold State.modeView State.advance
  simp

@[simp] theorem modeView_boundary (s : State) : s.boundary.modeView = s.modeView :=
  modeView_advance s _

@[simp] theorem modeView_toModulation (s : State) : s.toModulation.modeView = s.modeView :=
  modeView_advance s (untilBoundary modPeriod s.modAt s.clock)

@[simp] theorem modeView_setTank (s : State) (c r : Nat) : (s.setTank c r).modeView = s.modeView := modeView_notifyIf s _ _

theorem modeView_sampleTank (s : State) (b : Bool) : (s.sampleTank b).modeView = s.modeView := by
  cases b
  · rfl
  · exact modeView_setTank s 0 0

theorem modeView_sampleLevel (s : State) (v : Option Int) : (s.sampleLevel v).modeView = s.modeView := by
  unfold State.sampleLevel
  split <;> rfl

theorem modeView_latchZones (s : State) : s.latchZones.modeView = s.modeView := by
  have zone : ∀ (a : State) (z : Zone), (a.latchZone z).modeView = a.modeView := fun a z => by
    unfold State.latchZone
    dsimp only
    split <;> rfl
  simp [State.latchZones, allZones, zone]

@[simp] theorem modeView_sampleAll (s : State) (i : Readings) : (s.sampleAll i).modeView = s.modeView := by
  obtain ⟨a, ha⟩ : ∃ a, (s.sampleSpeed.sampleInputs i.temps).latchZones = a := ⟨_, rfl⟩
  obtain ⟨b, hb⟩ : ∃ b, (a.sampleExtraction i).samplePumps i.chipRpm i.mainRpm = b := ⟨_, rfl⟩
  obtain ⟨x, hx⟩ : ∃ x, (b.sampleLevel i.level).samplePressure i.pressure = x := ⟨_, rfl⟩
  have whole : s.sampleAll i = { (x.sampleTank i.tankEmpty).sampleContact with
      pot := { (x.sampleTank i.tankEmpty).sampleContact.pot with feedTest := true } } := by
    rw [← hx, ← hb, ← ha]
    rfl
  have first : a.modeView = s.modeView := by
    rw [← ha, modeView_latchZones]
    rfl
  have second : b.modeView = a.modeView := by
    rw [← hb]
    rfl
  have third : x.modeView = b.modeView := by
    rw [← hx]
    exact modeView_sampleLevel b i.level
  have last : (s.sampleAll i).modeView = (x.sampleTank i.tankEmpty).modeView := by
    rw [whole]
    rfl
  rw [last, modeView_sampleTank, third, second, first]

@[simp] theorem modeView_releaseFaults (s : State) : s.releaseFaults.modeView = s.modeView := by
  unfold State.releaseFaults
  dsimp only
  split <;> rfl

/-! ## The commands -/

theorem Taken.modeView {s q : State} {code : Word} {ws : List HostWrite} (h : Taken s code ws q) : q.modeView = s.modeView := by
  obtain ⟨-, -, h⟩ | ⟨-, h⟩ := h <;> rw [h] <;> rfl

theorem Accepts.modeOp {s q u : State} {c : Instr} {e : Ending} (h : Accepts q c e u) (view : q.modeView = s.modeView) :
    Raised s u ∨ ModeOp s c u := by
  have mode : q.modes.mode = s.modes.mode := congrArg (fun v => v.1.1) view
  have causes : q.modes.causes = s.modes.causes := congrArg (fun v => v.1.2.1) view
  cases h with
  | loadSetup ws hm => exact .inr (.setup ws q _ view (mode ▸ hm))
  | start ws hm hl hc => exact .inr (.start ws q view (mode ▸ hm) (causes ▸ hc))
  | shutdown ws hm => exact .inr (.cools ws q view (mode ▸ hm))
  | shutdownHalted ws hm => exact .inr (.shuts ws q view (mode ▸ hm))
  | stop ws => exact .inl ((Raised.view view).raise _)
  | clear ws => exact .inr (.clears ws _ ((modeView_releaseFaults q).trans view))
  | economy ws hm hr => exact .inr (.economy ws q view (mode ▸ hm) hr)
  | wake ws hm => exact .inr (.wakes _ q view (.inl ⟨ws, rfl⟩) (mode ▸ hm))
  | setSequence => exact .inl (.view view)
  | cancelDocket => exact .inl (.view view)
  | purgeFluxer => exact .inl (.view ((modeView_startPurge q _).trans view))
  | ackAlarms => exact .inl (.view ((modeView_notifyIf q _ _).trans view))
  | fluxRefilled => exact .inl (.view ((modeView_setTank q _ 0).trans view))
  | _ => exact .inl (.view view)

theorem Effect.modeOp {s u : State} {c : Instr} {e : Ending} (h : Effect s c e u) : Raised s u ∨ ModeOp s c u := by
  have fault : ∀ a : State, a.modeView = s.modeView → Raised s a.trackFault := fun a view => by
    have notified : (a.notify .trackFault).modeView = s.modeView := view
    exact .raiseIf_of notified _ _
  cases h with
  | dropLost b =>
    unfold State.loseWaiting
    split
    · next r _ =>
      have closed := modeView_closeRecord (s.rawEye .exit b) notExiting r .lost 0
      exact .inr (.loses _ _ ((modeView_closeLost _ _).trans (closed.trans (modeView_rawEye s .exit b))))
    · exact .inl (.view (modeView_rawEye s .exit b))
  | dropPast b =>
    unfold State.loseBoards
    split
    · exact .inr (.loses _ _ ((modeView_closeLost _ _).trans (modeView_rawEye s .exit b)))
    · exact .inl (.view (modeView_rawEye s .exit b))
  | boardLost h =>
    unfold State.loseBoards
    rw [if_pos h]
    exact .inr (.loses _ _ (modeView_closeLost _ s))
  | overflow => exact .inl (fault _ rfl)
  | phantom => exact .inl (fault _ rfl)
  | exitPhantom p => exact .inl ((fault { s with track := { s.track.setEye .exit (s.track.eye .exit).accept with phantom := true } } rfl).same rfl rfl)
  | entryJam => exact .inl (.raise_of (by rfl) _)
  | interval i ws =>
    have first : ((s.toInterval.present i ws).sampleAll i).modeView = s.modeView :=
      (modeView_sampleAll _ i).trans (modeView_advance s _)
    exact .inl ((((Raised.view first).raiseIf _ _).raiseIf _ _).raiseIf _ _ |>.raiseIf _ _)
  | inputFault k => exact .inl (.raiseIf_of (by exact modeView_markInputFault s k) _ _)
  | inputRecovery k => exact .inl (.testLimit (.view (by rfl)) k)
  | inputFillingEnd k => exact .inl (.testLimit (.raiseIf_of (by rfl) _ _) k)
  | conveyorSpeed => exact .inl (.raise_of (by rfl) _)
  | levelFlagChange f => exact .inl (.raiseIf_of (by rfl) _ _)
  | vapourHalt => exact .inl (.raise_of (by rfl) _)
  | widthMotionStart => exact .inl (.superviseLimit (.view (by rfl)))
  | homingTravelExceeded => exact .inl (.faultWidth (.view rfl))
  | widthLimitFault e => exact .inl (.raise_of (by rfl) _)
  | thermostatContactOpen => exact .inl (.raise_of (by rfl) _)
  | estopInputActive => exact .inl (.raise_of (by rfl) _)
  | upstreamAvailableChange b h =>
    unfold State.wakeOn
    split
    · next wake =>
      obtain ⟨asserted, economy⟩ := Bool.and_eq_true_iff.mp wake
      subst asserted
      exact .inr (.wakes _ _ rfl (.inr ⟨rfl, by simpa using h⟩) (eq_of_beq economy))
    · exact .inl (.view rfl)
  | idleTimerExpiry r h hm => exact .inr (.idles _ (modeView_advance s r) (by intro g; rw [idleLeft, g] at h; cases h) hm)
  | runOnTimerExpiry r => exact .inr (.runOnEnds r)
  | supervisionExpired => exact .inr (.expires _)
  | warmupComplete h => exact .inr (.complete h)
  | refused c code q rc f hp hq => exact .inl (.view hq.modeView)
  | accepted c code q e u hp hq hr ha => exact ha.modeOp hq.modeView
  | hostAliveWrite v => exact .inr (.alive v)
  | heatAuthInvalid v => exact .inl (.raise_of (by rfl) _)
  | homeSwitchFault => exact .inl (.raise_of (by rfl) _)
  | encoderCount d => exact .inl (.view (modeView_countEncoder s d))
  | rawEye e b => exact .inl (.view (modeView_rawEye s e b))
  | dropLate b => exact .inl (.view (modeView_rawEye s .entry b))
  | entryLeading p => exact .inl (.view ((modeView_appendAtBar _).trans (modeView_handLeading _ p)))
  | entryTrailing p => exact .inl (.view ((modeView_handTrailing _).trans (modeView_takeTrail _ p)))
  | exitClosed p r => exact .inl (.view (modeView_closeRecord _ _ _ _ _))
  | heaterPeriodBoundary => exact .inl (.view (modeView_boundary s))
  | modulationBoundary =>
    have last : ∀ a : State, a.consumeEdges.startPulses.modeView = a.modeView := fun _ => rfl
    exact .inl (.view ((last _).trans ((modeView_creditPurge _).trans ((modeView_finishPulses _).trans (modeView_toModulation s)))))
  | lanePulseEnd k v =>
    have ended : ∀ a : State, (a.endPulse k v v.q true).modeView = a.modeView := fun _ => modeView_creditTank _ _
    exact .inl (.view ((modeView_holdValve _ k v).trans ((ended _).trans (modeView_advance s _))))
  | purgeDurationComplete g => exact .inl (.view ((modeView_endPurge _).trans (modeView_advance s _)))
  | heaterOutputSwitch => exact .inl (.view (modeView_advance s _))
  | feederShotComplete => exact .inl (.view (modeView_advance s _))
  | feederSettlingComplete r =>
    have formed : ∀ a : State, a.reformLine.modeView = a.modeView := fun _ => rfl
    refine .inl (.view ((formed _).trans (Eq.trans ?_ (modeView_advance s r))))
    exact modeView_notifyIf { s.advance r with pot := (s.advance r).pot.settleFeed s.ws.minRise } _ _
  | shotHistoryExpiry => exact .inl (.view (modeView_advance s _))
  | endSensorEvent p => exact .inl (.view ((modeView_acceptSensor _).trans (modeView_advance s _)))
  | startGraceEnd => exact .inl (.view (modeView_advance s _))
  | requestOverrun code =>
    refine .inl (.view ?_)
    by_cases busy : s.port.request = .busy
    · rw [if_pos busy]; rfl
    · rw [if_neg busy]; rfl
  | nothing => exact .inl (.view rfl)
  | _ => exact .inl (.view rfl)

end Sys2Proof.Machine
end



section
/-! The mode over a command (R163, R164, R166 to R170, R174): the causes of a change, the halt, the fans and the timers. -/

namespace Sys2Proof.Machine

open Sys2Proof.Config

/-! ## The raise of causes -/

theorem raiseCause_cases (s : State) (x : HaltCause) : s.raiseCause x = s ∨ (x ∉ s.modes.causes ∧
    ((s.modes.mode.runs = false ∧ s.raiseCause x =
        { s with modes := { s.modes with causes := s.modes.causes ++ [x] }, port := s.port.notify .halted }) ∨
      (s.modes.mode.runs = true ∧ s.raiseCause x =
        State.enterMode { s with modes := { s.modes with causes := s.modes.causes ++ [x] }, port := s.port.notify .halted }
          .halted))) := by
  unfold State.raiseCause
  split
  · exact .inl rfl
  · next fresh =>
    refine .inr ⟨fresh, ?_⟩
    dsimp only
    split
    · next h => exact .inr ⟨h, rfl⟩
    · next h => exact .inl ⟨eq_false_of_ne_true h, rfl⟩

/-- What the raise of causes leaves and changes. -/
structure Halting (s u : State) : Prop where
  causes : ∀ x ∈ s.modes.causes, x ∈ u.modes.causes
  lineClass : u.gate.lineClass = s.gate.lineClass ∧ u.gate.phase = s.gate.phase ∧ u.gate.target = s.gate.target
  host : u.port.hostLost = s.port.hostLost ∧ u.port.supRunning = s.port.supRunning
  mode : (u.modes.mode = s.modes.mode ∧ u.modes.wakeArm = s.modes.wakeArm ∧ u.modes.runOn.isSome = s.modes.runOn.isSome ∧
      (s.modes.mode.runs = true → u.modes.causes = s.modes.causes)) ∨
    (s.modes.mode.runs = true ∧ u.modes.mode = .halted ∧ u.modes.wakeArm = none ∧ u.modes.runOn.isSome = false ∧
      (∃ x ∈ u.modes.causes, x ∉ s.modes.causes) ∧ Pending u .modeChanged)

theorem modeView_parts {s u : State} (h : u.modeView = s.modeView) : u.modes.mode = s.modes.mode ∧ u.modes.causes = s.modes.causes ∧
    u.modes.wakeArm = s.modes.wakeArm ∧ u.modes.runOn.isSome = s.modes.runOn.isSome ∧
    (u.gate.lineClass = s.gate.lineClass ∧ u.gate.phase = s.gate.phase ∧ u.gate.target = s.gate.target) ∧
    (u.port.hostLost = s.port.hostLost ∧ u.port.supRunning = s.port.supRunning) :=
  ⟨congrArg (fun v => v.1.1) h, congrArg (fun v => v.1.2.1) h, congrArg (fun v => v.1.2.2.1) h, congrArg (fun v => v.1.2.2.2) h,
    ⟨congrArg (fun v => v.2.1.1) h, congrArg (fun v => v.2.1.2.1) h, congrArg (fun v => v.2.1.2.2) h⟩,
    congrArg (fun v => v.2.2.1) h, congrArg (fun v => v.2.2.2) h⟩

theorem Halting.view {s u : State} (h : u.modeView = s.modeView) : Halting s u := by
  obtain ⟨mode, causes, arm, runOn, cls, host⟩ := modeView_parts h
  exact ⟨fun x hx => causes ▸ hx, cls, host, .inl ⟨mode, arm, runOn, fun _ => causes⟩⟩

theorem Halting.same {s a u : State} (h : Halting s a) (view : u.modeView = a.modeView) (port : u.port = a.port) : Halting s u := by
  obtain ⟨mode, causes, arm, runOn, cls, host⟩ := modeView_parts view
  obtain ⟨c, l, o, m⟩ := h
  refine ⟨fun x hx => causes ▸ c x hx, ⟨cls.1.trans l.1, cls.2.1.trans l.2.1, cls.2.2.trans l.2.2⟩,
    ⟨host.1.trans o.1, host.2.trans o.2⟩, ?_⟩
  rw [mode, arm, runOn, causes]
  unfold Pending
  rw [port]
  exact m

theorem Halting.raise {s a : State} (h : Halting s a) (x : HaltCause) : Halting s (a.raiseCause x) := by
  rcases raiseCause_cases a x with e | ⟨fresh, ⟨stands, e⟩ | ⟨runs, e⟩⟩ <;> rw [e]
  · exact h
  · obtain ⟨c, l, o, m⟩ := h
    have more : ∀ y, y ∈ a.modes.causes → y ∈ a.modes.causes ++ [x] := fun y hy => List.mem_append_left _ hy
    refine ⟨fun y hy => more y (c y hy), l, o, ?_⟩
    rcases m with ⟨mode, arm, runOn, causes⟩ | ⟨runs, mode, arm, runOn, ⟨y, hy, new⟩, pending⟩
    · refine .inl ⟨mode, arm, runOn, fun runs => ?_⟩
      rw [mode, runs] at stands
      cases stands
    · exact .inr ⟨runs, mode, arm, runOn, ⟨y, more y hy, new⟩, notifyIf_mono a.port true _ _ pending⟩
  · obtain ⟨c, l, o, m⟩ := h
    have old : s.modes.mode.runs = true := by
      rcases m with ⟨mode, -⟩ | ⟨runs, -⟩
      · rw [← mode]; exact runs
      · exact runs
    have moves : a.modes.mode ≠ .halted := fun g => by rw [g] at runs; cases runs
    rw [enterMode_of_ne (show ({ a with modes := { a.modes with causes := a.modes.causes ++ [x] }, port := a.port.notify .halted } : State).modes.mode ≠
      .halted from moves)]
    refine ⟨fun y hy => List.mem_append_left _ (c y hy), l, o, .inr ⟨old, rfl, rfl, rfl, ⟨x, List.mem_append_right _ (List.mem_singleton.mpr rfl),
      fun g => fresh (c x g)⟩, notify_pending _ _⟩⟩

theorem Raised.halting {s u : State} (h : Raised s u) : Halting s u := by
  induction h with
  | view h => exact .view h
  | same _ view port ih => exact ih.same view port
  | raise _ x ih => exact ih.raise x

/-! ## The mode of a command and its causes (R163) -/

/-- What becomes of the mode before the consequences: as the table of transitions has it. -/
structure ModeBefore (c : Instr) (s u : State) : Prop where
  move : u.modes.mode = s.modes.mode ∨ ModeMay c s u s.modes.mode u.modes.mode
  notice : u.modes.mode ≠ s.modes.mode → Pending u .modeChanged

theorem enterMode_view {s a : State} {m : Mode} (h : a.modeView = s.modeView) (old : s.modes.mode ≠ m) :
    (a.enterMode m).modes.mode = m ∧ Pending (a.enterMode m) .modeChanged :=
  ⟨enterMode_mode a m, enterMode_pending (by rw [(modeView_parts h).1]; exact old)⟩

theorem Halting.before {c : Instr} {s u : State} (h : Halting s u) : ModeBefore c s u := by
  rcases h.mode with ⟨mode, -⟩ | ⟨runs, mode, -, -, joins, pending⟩
  · exact ⟨.inl mode, fun g => absurd mode g⟩
  · refine ⟨.inr ?_, fun _ => pending⟩
    rw [mode]
    cases hm : s.modes.mode with
    | off => rw [hm] at runs; cases runs
    | halted => rw [hm] at runs; cases runs
    | warmup => exact joins
    | production => exact joins
    | economy => exact joins
    | cooldown => exact joins

/-- The mode stage takes the two transitions that conditions bring. -/
theorem modeStage_cases (s : State) : s.modeStage = s ∨
    (s.modes.mode = .cooldown ∧ MachineEmpty s ∧ s.modeStage = s.enterMode .off) ∨
    (s.modes.mode = .production ∧ s.port.hostLost = true ∧ s.track.records = [] ∧ s.modeStage = s.enterMode .economy) := by
  unfold State.modeStage
  split
  · next h =>
    obtain ⟨mode, empty⟩ := Bool.and_eq_true_iff.mp h
    obtain ⟨records, outfeed⟩ := Bool.and_eq_true_iff.mp empty
    exact .inr (.inl ⟨eq_of_beq mode, ⟨List.isEmpty_iff.mp records, eq_of_beq outfeed⟩, rfl⟩)
  · split
    · next h =>
      obtain ⟨first, records⟩ := Bool.and_eq_true_iff.mp h
      obtain ⟨mode, lost⟩ := Bool.and_eq_true_iff.mp first
      exact .inr (.inr ⟨eq_of_beq mode, lost, List.isEmpty_iff.mp records, rfl⟩)
    · exact .inl rfl

/-- What holds of a machine that stays empty, with HOST_LOST and the causes as they are, holds of a change of mode. -/
theorem ModeMay.congr {c : Instr} {s u t : State} {a b : Mode} (h : ModeMay c s u a b)
    (empty : u.track.records = [] → t.track.records = []) (outfeed : u.outfeed.state = .empty → t.outfeed.state = .empty)
    (lost : t.port.hostLost = u.port.hostLost) (causes : t.modes.causes = u.modes.causes) : ModeMay c s t a b := by
  have machine : MachineEmpty u → MachineEmpty t := fun ⟨x, y⟩ => ⟨empty x, outfeed y⟩
  have cooled : (∃ ws, c = .shutdown ws) ∧ MachineEmpty u → (∃ ws, c = .shutdown ws) ∧ MachineEmpty t := .imp id machine
  have halted : (∃ x ∈ u.modes.causes, x ∉ s.modes.causes) → ∃ x ∈ t.modes.causes, x ∉ s.modes.causes := by
    rw [causes]
    exact id
  cases a <;> cases b
  any_goals exact h
  case warmup.economy =>
    obtain ⟨records, why⟩ := h
    exact ⟨empty records, why.imp id fun ⟨x, y, z⟩ => ⟨x, y, lost.trans z⟩⟩
  case production.economy => exact h.imp id fun ⟨records, why⟩ => ⟨empty records, why.imp id lost.trans⟩
  case warmup.off => exact cooled h
  case production.off => exact cooled h
  case economy.off => exact cooled h
  case cooldown.off => exact machine h
  case warmup.halted => exact halted h
  case production.halted => exact halted h
  case economy.halted => exact halted h
  case cooldown.halted => exact halted h
  case halted.warmup => exact ⟨h.1, causes.trans h.2⟩

theorem modes_enterMode (s : State) (m : Mode) : (s.enterMode m).modes.causes = s.modes.causes ∧
    (s.enterMode m).port.hostLost = s.port.hostLost ∧ (s.enterMode m).track = s.track ∧ (s.enterMode m).outfeed = s.outfeed := by
  unfold State.enterMode
  split <;> exact ⟨rfl, rfl, rfl, rfl⟩

/-- The mode stage continues a table's transition (R167, R169). -/
theorem ModeBefore.modeStage {c : Instr} {s u : State} (h : ModeBefore c s u) : ModeBefore c s u.modeStage := by
  rcases modeStage_cases u with e | ⟨cooldown, empty, e⟩ | ⟨production, lost, empty, e⟩ <;> rw [e]
  · exact h
  · obtain ⟨causes, host, track, outfeed⟩ := modes_enterMode u .off
    have mode := enterMode_mode u .off
    have machine : MachineEmpty (u.enterMode .off) := by
      unfold MachineEmpty
      rw [track, outfeed]
      exact empty
    refine ⟨.inr ?_, fun _ => enterMode_pending (by rw [cooldown]; decide)⟩
    rw [mode]
    rcases h.move with same | may
    · rw [same] at cooldown
      rw [cooldown]
      exact machine
    · rw [cooldown] at may
      cases hm : s.modes.mode with
      | warmup => rw [hm] at may; exact ⟨may, machine⟩
      | production => rw [hm] at may; exact ⟨may, machine⟩
      | economy => rw [hm] at may; exact ⟨may, machine⟩
      | off => rw [hm] at may; exact may.elim
      | cooldown => exact machine
      | halted => rw [hm] at may; exact may.elim
  · obtain ⟨causes, host, track, outfeed⟩ := modes_enterMode u .economy
    have mode := enterMode_mode u .economy
    have records : (u.enterMode .economy).track.records = [] := by rw [track]; exact empty
    have gone : (u.enterMode .economy).port.hostLost = true := host.trans lost
    refine ⟨.inr ?_, fun _ => enterMode_pending (by rw [production]; decide)⟩
    rw [mode]
    rcases h.move with same | may
    · rw [same] at production
      rw [production]
      exact .inr ⟨records, .inr gone⟩
    · rw [production] at may
      cases hm : s.modes.mode with
      | warmup => rw [hm] at may; exact ⟨records, .inr ⟨may.1, may.2, gone⟩⟩
      | production => exact .inr ⟨records, .inr gone⟩
      | economy => rw [hm] at may; exact may.elim
      | off => rw [hm] at may; exact may.elim
      | cooldown => rw [hm] at may; exact may.elim
      | halted => rw [hm] at may; exact may.elim

/-- The consequences of lost boards: the mode stage, then the raise (R16). -/
theorem ModeBefore.raiseLost {c : Instr} {s a : State} (view : a.modeView = s.modeView) : ModeBefore c s a.raiseLost := by
  obtain ⟨mode, causes, -⟩ := modeView_parts view
  unfold State.raiseLost
  rcases modeStage_cases a with e | ⟨cooldown, empty, e⟩ | ⟨production, lost, empty, e⟩ <;> rw [e]
  · exact (Halting.raise (.view view) _).before
  · obtain ⟨-, -, track, outfeed⟩ := modes_enterMode a .off
    have off := enterMode_mode a .off
    have pending := enterMode_pending (s := a) (m := .off) (by rw [cooldown]; decide)
    have machine : MachineEmpty (a.enterMode .off) := by
      unfold MachineEmpty
      rw [track, outfeed]
      exact empty
    have was : s.modes.mode = .cooldown := mode.symm.trans cooldown
    rcases raiseCause_cases (a.enterMode .off) .boardLost with g | ⟨-, ⟨-, g⟩ | ⟨runs, -⟩⟩
    · rw [g]
      exact ⟨.inr (by rw [off, was]; exact machine), fun _ => pending⟩
    · rw [g]
      refine ⟨.inr ?_, fun _ => notifyIf_mono _ true _ _ pending⟩
      rw [show ∀ x y, ({ a.enterMode .off with modes := { (a.enterMode .off).modes with causes := x }, port := y } : State).modes.mode =
        .off from fun _ _ => off, was]
      exact machine
    · rw [off] at runs
      cases runs
  · obtain ⟨held, host, track, -⟩ := modes_enterMode a .economy
    have economy := enterMode_mode a .economy
    have was : s.modes.mode = .production := mode.symm.trans production
    have records : (a.enterMode .economy).track.records = [] := by rw [track]; exact empty
    have gone : (a.enterMode .economy).port.hostLost = true := host.trans lost
    have pending := enterMode_pending (s := a) (m := .economy) (by rw [production]; decide)
    rcases (Halting.raise (.view (u := a.enterMode .economy) rfl) .boardLost).mode with ⟨stays, -⟩ | ⟨-, halted, -, -, ⟨x, joins, new⟩, notice⟩
    · refine ⟨.inr ?_, fun _ => raiseCause_notices _ _ _ pending⟩
      rw [stays, economy, was]
      have host' := (Halting.raise (.view (u := a.enterMode .economy) rfl) .boardLost).host.1
      have track' : ((a.enterMode .economy).raiseCause .boardLost).track = (a.enterMode .economy).track := by simp
      exact .inr ⟨by rw [track']; exact records, .inr (host'.trans gone)⟩
    · refine ⟨.inr ?_, fun _ => notice⟩
      rw [halted, was]
      exact ⟨x, joins, by rw [← causes, ← held]; exact new⟩

/-! ## The commands -/

theorem ModeOp.before {c : Instr} {s u : State} (h : ModeOp s c u) (hs : ∀ ws, c = .start ws → s.modes.mode ≠ u.modes.mode → s.loaded = true ∧ s.pins.estop = false) :
    ModeBefore c s u := by
  cases h with
  | start ws a view old causes =>
    have mode := enterMode_mode { a with gate := { a.gate with lineClass := a.nextClass } } .warmup
    obtain ⟨loaded, estop⟩ := hs ws rfl (by rw [mode, old]; decide)
    refine ⟨.inr ?_, fun _ => enterMode_pending ?_⟩
    · rw [mode, old]
      exact ⟨⟨ws, rfl⟩, loaded, estop, causes⟩
    · have was := (modeView_parts view).1.trans old
      exact fun g => by rw [show a.modes.mode = .warmup from g] at was; cases was
  | complete ready =>
    obtain ⟨old, met⟩ := (warmupReady_iff s).mp ready
    obtain ⟨mode, pending⟩ := enterMode_view (s := s) (m := .production) rfl (by rw [old]; decide)
    exact ⟨.inr (by rw [mode, old]; exact ⟨rfl, met⟩), fun _ => pending⟩
  | idles a view runs old =>
    obtain ⟨mode, pending⟩ := enterMode_view (m := .economy) view (by rw [old]; decide)
    exact ⟨.inr (by rw [mode, old]; exact .inl ⟨rfl, runs⟩), fun _ => pending⟩
  | economy ws a view old empty =>
    obtain ⟨mode, pending⟩ := enterMode_view (m := .economy) view (by rcases old with g | g <;> rw [g] <;> decide)
    have records : (a.enterMode .economy).track.records = [] := by rw [(modes_enterMode a .economy).2.2.1]; exact empty
    refine ⟨.inr ?_, fun _ => pending⟩
    rw [mode]
    rcases old with g | g <;> rw [g]
    · exact ⟨records, .inl ⟨ws, rfl⟩⟩
    · exact .inr ⟨records, .inl ⟨ws, rfl⟩⟩
  | wakes _ a view why old =>
    obtain ⟨mode, pending⟩ := enterMode_view (m := .warmup) view (by rw [old]; decide)
    exact ⟨.inr (by rw [mode, old]; exact why), fun _ => pending⟩
  | cools ws a view old =>
    obtain ⟨mode, pending⟩ := enterMode_view (m := .cooldown) view (by rcases old with g | g | g <;> rw [g] <;> decide)
    refine ⟨.inr ?_, fun _ => pending⟩
    rw [mode]
    rcases old with g | g | g <;> rw [g] <;> exact ⟨ws, rfl⟩
  | shuts ws a view old =>
    obtain ⟨mode, pending⟩ := enterMode_view (m := .off) view (by rw [old]; decide)
    exact ⟨.inr (by rw [mode, old]; exact ⟨ws, rfl⟩), fun _ => pending⟩
  | clears ws a view =>
    have old := (modeView_parts view).1
    unfold State.leaveHalt
    split
    · next g =>
      obtain ⟨halted, gone⟩ := g
      have was : s.modes.mode = .halted := old.symm.trans halted
      refine ⟨.inr ?_, fun _ => enterMode_pending (by rw [halted]; decide)⟩
      rw [enterMode_mode, was]
      exact ⟨⟨ws, rfl⟩, (modes_enterMode _ _).1.trans (List.isEmpty_iff.mp gone)⟩
    · exact ⟨.inl old, fun g => absurd old g⟩
  | loses _ a view => exact .raiseLost view
  | setup ws a d view =>
    have mode : (a.takeSetup d).modes.mode = s.modes.mode := by
      refine Eq.trans ?_ (modeView_parts view).1
      unfold State.takeSetup
      dsimp only
      split <;> rfl
    exact ⟨.inl mode, fun g => absurd mode g⟩
  | runOnEnds n => exact ⟨.inl rfl, fun g => absurd rfl g⟩
  | expires n => exact ⟨.inl rfl, fun g => absurd rfl g⟩
  | alive v => exact ⟨.inl rfl, fun g => absurd rfl g⟩

/-- START is refused with the E-STOP input active or no setup (R164). -/
theorem start_conditions {s t : State} {ws : List HostWrite} (h : exec (.start ws) s = .next t) (moved : t.modes.mode ≠ s.modes.mode) :
    s.loaded = true ∧ s.pins.estop = false := by
  have stays : ∀ (q : State) (a : Answer), (q.answer a).modes = q.modes := fun q a => by cases a <;> rfl
  have decided : ∀ q : State, q.modes = s.modes → q.loaded = s.loaded → q.pins = s.pins →
      ((decideStart q).2.answer (decideStart q).1).modes.mode ≠ s.modes.mode → s.loaded = true ∧ s.pins.estop = false := by
    intro q modes loaded pins change
    rw [stays] at change
    unfold decideStart at change
    split at change
    · exact absurd (congrArg Modes.mode modes) change
    · split at change
      · exact absurd (congrArg Modes.mode modes) change
      · next hl =>
        split at change
        · exact absurd (congrArg Modes.mode modes) change
        · next hc =>
          rw [loaded] at hl
          rw [pins] at hc
          exact ⟨by simpa using hl, by simp at hc; exact hc.1⟩
  obtain rfl := Host.Outcome.next.inj h
  have taken : ∀ q : State, q.modes = s.modes → q.loaded = s.loaded → q.pins = s.pins → ∀ code,
      (q.takePost code decideStart).modes.mode ≠ s.modes.mode → s.loaded = true ∧ s.pins.estop = false := by
    intro q modes loaded pins code change
    unfold State.takePost at change
    split at change
    · exact decided q modes loaded pins change
    · rw [stays] at change
      exact absurd (congrArg Modes.mode modes) change
  have change : (s.request 0x0002 ws decideStart).modes.mode ≠ s.modes.mode := moved
  obtain ⟨q, hq⟩ : ∃ q : State, { s with mem := hostWrites ws s.mem } = q := ⟨_, rfl⟩
  have written : q.modes = s.modes ∧ q.loaded = s.loaded ∧ q.pins = s.pins := by rw [← hq]; exact ⟨rfl, rfl, rfl⟩
  obtain ⟨modes, loaded, pins⟩ := written
  unfold State.request at change
  rw [hq] at change
  dsimp only at change
  split at change
  · split at change
    · exact taken q modes loaded pins _ change
    · exact absurd (congrArg Modes.mode modes) change
  · exact taken { q with port := q.port.post 0x0002 } modes loaded pins 0x0002 change

/-! ## The consequences -/

theorem modeStage_modeStage (u : State) : u.modeStage.modeStage = u.modeStage := by
  obtain ⟨a, b⟩ := still_after (kept_modeStage u) (follows_modeStage u).outfeed rfl
  exact modeStage_of_still a b

theorem reform_modeStage (u : State) : u.modeStage.reform = u.reform := by
  unfold State.reform
  rw [modeStage_modeStage]

theorem settle_modeStage (u : State) : u.modeStage.settle = u.settle := by
  unfold State.settle State.pass
  rw [reform_modeStage]

theorem settleEval_modeStage (u : State) : u.modeStage.settleEval = u.settleEval := by
  unfold State.settleEval
  rw [reform_modeStage]

theorem settleEval_mode (u : State) : u.settleEval.modes.mode = u.modeStage.modes.mode := by
  have kept : Kept u u.reform.gateEval := (kept_reform u).trans (kept_gateEval _)
  have modes : u.reform.gateEval.modes.mode = u.modeStage.modes.mode := by
    have e : u.reform.gateEval.modes = u.reform.modes := by simp
    rw [e]
    exact (mode_of_modes (reform_modes u)).1
  have outfeed := ((follows_reform u).trans (follows_gateEval _)).outfeed
  obtain ⟨a, b⟩ := still_after kept outfeed modes
  exact (settle_mode_of_still a b).trans modes

/-- A transition of the table stands where the mode and its conditions do. -/
theorem ModeBefore.congr {c : Instr} {s u t : State} (h : ModeBefore c s u) (mode : t.modes.mode = u.modes.mode)
    (kept : Kept u t) (outfeed : OutfeedMoves u.outfeed.state t.outfeed.state) (notes : Notes u t) : ModeBefore c s t := by
  refine ⟨?_, fun moved => notes.kept _ (h.notice (mode ▸ moved))⟩
  rw [mode]
  refine h.move.imp id fun may => may.congr (fun empty => ?_) outfeed.empty_iff.mpr kept.keeps.portHostLost kept.keeps.modesCauses
  exact List.isEmpty_iff.mp (kept.records_isEmpty.trans (List.isEmpty_iff.mpr empty))

theorem ModeBefore.ending {c : Instr} {s u : State} (e : Ending) (h : ModeBefore c s u) : ModeBefore c s (e.of u) := by
  have evaluated : ModeBefore c s u.settleEval := by
    have mode := settleEval_mode u.modeStage
    rw [modeStage_modeStage] at mode
    rw [← settleEval_modeStage]
    exact h.modeStage.congr mode (kept_settleEval _) (follows_settleEval _).outfeed (moves_settleEval _).notes
  induction e with
  | still => exact h
  | settled =>
    have mode := settle_mode u.modeStage
    rw [modeStage_modeStage] at mode
    show ModeBefore c s u.settle
    rw [← settle_modeStage]
    exact h.modeStage.congr mode (kept_settle _) (follows_settle _).outfeed (moves_settle _).notes
  | evaluated => exact evaluated
  | interval =>
    have refresh : ∀ v : State, ModeBefore c s v → ModeBefore c s v.writeClock.refresh := fun v g => ⟨g.move, g.notice⟩
    exact refresh _ evaluated
  | answered e a ih =>
    have notes : Notes (e.of u) ((e.of u).answer a) := portNotes_answer _ a
    cases a <;> exact ⟨ih.move, fun moved => notes.kept _ (ih.notice moved)⟩

theorem modeStep_of_exec {c : Instr} {s t : State} (h : exec c s = .next t) (hp : c ≠ .portReset)
    (hr : ∀ ws, c ≠ .powerOnReset ws) : ModeStep c s t := by
  have after : t.modes.mode ≠ s.modes.mode → ModeBefore c s t := by
    obtain ⟨e, u, effect, rfl⟩ := effect_of_exec h hp hr
    intro moved
    refine ModeBefore.ending e ?_
    rcases effect.modeOp with raised | op
    · exact raised.halting.before
    · exact op.before fun ws hc _ => start_conditions (hc ▸ h) moved
  exact ⟨fun moved => (after moved).move.resolve_left moved, fun moved => (after moved).notice moved⟩

/-! ## The halt (R170) -/

theorem HaltFormed.modeStage {s : State} (h : HaltFormed s) : HaltFormed s.modeStage := by
  rcases modeStage_cases s with e | ⟨-, -, e⟩ | ⟨production, -, -, e⟩ <;> rw [e]
  · exact h
  · intro runs
    rw [enterMode_mode] at runs
    cases runs
  · intro _
    rw [(modes_enterMode s .economy).1]
    exact h (by rw [production]; rfl)

theorem HaltFormed.halting {s u : State} (h : HaltFormed s) (g : Halting s u) : HaltFormed u := by
  intro runs
  rcases g.mode with ⟨mode, -, -, causes⟩ | ⟨-, halted, -⟩
  · rw [mode] at runs
    rw [causes runs]
    exact h runs
  · rw [halted] at runs
    cases runs

theorem HaltFormed.view {s a : State} (h : HaltFormed s) (view : a.modeView = s.modeView) : HaltFormed a := h.halting (.view view)

/-- A running line enters another mode without a cause. -/
theorem HaltFormed.enter {a : State} (h : HaltFormed a) (runs : a.modes.mode.runs = true) (m : Mode) : HaltFormed (a.enterMode m) := by
  intro _
  rw [(modes_enterMode a m).1]
  exact h runs

theorem ModeOp.haltFormed {c : Instr} {s u : State} (h : ModeOp s c u) (hs : HaltFormed s) : HaltFormed u := by
  have runs : ∀ {a : State} {m : Mode}, a.modeView = s.modeView → s.modes.mode = m → m.runs = true → a.modes.mode.runs = true :=
    fun view old r => by rw [(modeView_parts view).1, old]; exact r
  cases h with
  | start ws a view old causes =>
    intro _
    rw [(modes_enterMode _ _).1]
    exact (modeView_parts view).2.1.trans causes
  | complete ready => exact hs.enter (by rw [((warmupReady_iff s).mp ready).1]; rfl) _
  | idles a view _ old => exact (hs.view view).enter (runs view old rfl) _
  | economy ws a view old => exact (hs.view view).enter (old.elim (runs view · rfl) (runs view · rfl)) _
  | wakes _ a view _ old => exact (hs.view view).enter (runs view old rfl) _
  | cools ws a view old => exact (hs.view view).enter (old.elim (runs view · rfl) (·.elim (runs view · rfl) (runs view · rfl))) _
  | shuts ws a view old =>
    intro r
    rw [enterMode_mode] at r
    cases r
  | clears ws a view =>
    have first : HaltFormed a.removeCauses := fun r => by
      have none_ : a.modes.causes = [] := hs.view view r
      show a.modes.causes.filter _ = []
      rw [none_]
      rfl
    unfold State.leaveHalt
    split
    · next g =>
      intro _
      rw [(modes_enterMode _ _).1]
      exact List.isEmpty_iff.mp g.2
    · exact first
  | loses _ a view => exact (hs.view view).modeStage.halting (Halting.raise (.view rfl) _)
  | setup ws a d view off =>
    have mode : (a.takeSetup d).modes.mode = a.modes.mode := by
      unfold State.takeSetup
      dsimp only
      split <;> rfl
    intro r
    rw [mode, (modeView_parts view).1, off] at r
    cases r
  | runOnEnds n => exact hs
  | expires n => exact hs
  | alive v => exact hs

end Sys2Proof.Machine
end



section
/-! The fans, the timers and the standing of the mode over a step (R137, R138, R166, R167, R169, R174). -/

namespace Sys2Proof.Machine

open Sys2Proof.Config

/-- A rule that every effect and every mode stage keeps, and that looks at the modes and the host's timers alone. -/
structure ModeRule (P : State → Prop) : Prop where
  resets : ∀ s t port, AfterReset s t port → P t
  effects : ∀ {s u : State} {c : Instr} {e : Ending}, Effect s c e u → P s → P u
  stage : ∀ s : State, P s → P s.modeStage
  same : ∀ s t : State, { t.modes with idle := none } = { s.modes with idle := none } → t.port.hostLost = s.port.hostLost →
    t.port.supRunning = s.port.supRunning → t.port.setup = s.port.setup → P s → P t
  ticks : ∀ s : State, P s → P (s.advance 1)

theorem settleEval_modes (u : State) : { u.settleEval.modes with idle := none } = { u.modeStage.modes with idle := none } := by
  have kept : Kept u u.reform.gateEval := (kept_reform u).trans (kept_gateEval _)
  have e : u.reform.gateEval.modes = u.reform.modes := by simp
  have modes : { u.reform.gateEval.modes with idle := none } = { u.modeStage.modes with idle := none } := by
    rw [e]
    exact reform_modes u
  have outfeed := ((follows_reform u).trans (follows_gateEval _)).outfeed
  obtain ⟨a, b⟩ := still_after kept outfeed (mode_of_modes modes).1
  have last := settle_modes u.reform.gateEval
  rw [modeStage_of_still a b] at last
  exact last.trans modes

theorem ModeRule.ending {P : State → Prop} (rule : ModeRule P) (e : Ending) (u : State) (h : P u) : P (e.of u) := by
  have evaluated : P u.settleEval := by
    have kept := (kept_modeStage u).keeps
    have last := (kept_settleEval u).keeps
    exact rule.same u.modeStage _ (settleEval_modes u) (last.portHostLost.trans kept.portHostLost.symm) (last.portSupRunning.trans kept.portSupRunning.symm)
      (last.portSetup.trans kept.portSetup.symm) (rule.stage u h)
  induction e with
  | still => exact h
  | settled =>
    have kept := (kept_modeStage u).keeps
    have last := (kept_settle u).keeps
    exact rule.same u.modeStage _ (settle_modes u) (last.portHostLost.trans kept.portHostLost.symm) (last.portSupRunning.trans kept.portSupRunning.symm)
      (last.portSetup.trans kept.portSetup.symm) (rule.stage u h)
  | evaluated => exact evaluated
  | interval =>
    have refresh : ∀ v : State, P v → P v.writeClock.refresh := fun v => rule.same v _ rfl rfl rfl rfl
    exact refresh _ evaluated
  | answered e a ih =>
    refine rule.same (e.of u) _ ?_ ?_ ?_ ?_ ih <;> cases a <;> rfl

theorem ModeRule.step {P : State → Prop} (rule : ModeRule P) {s t : State} (h : step s = .next t) (hs : P s) : P t := by
  rcases step_cases h with ⟨c, l, run⟩ | rfl
  · rcases exec_reset_or_effect run with ⟨port, reset⟩ | ⟨e, u, effect, rfl⟩
    · exact rule.resets _ t port reset
    · exact rule.ending e u (rule.effects effect (rule.same s _ rfl rfl rfl rfl hs))
  · exact rule.ticks s hs

/-! ## The halt -/

theorem haltRule : ModeRule HaltFormed where
  resets s t port reset runs := by
    rw [reset.mode] at runs
    cases runs
  effects h hs := by
    rcases h.modeOp with raised | op
    · exact hs.halting raised.halting
    · exact op.haltFormed hs
  stage _ hs := hs.modeStage
  same s t modes _ _ _ hs runs := by
    obtain ⟨mode, causes, -⟩ := mode_of_modes modes
    rw [mode] at runs
    rw [causes]
    exact hs runs
  ticks s hs := hs

/-! ## The run-on timer and the wake arm -/

/-- Under `x` the run-on timer runs in OFF alone, and under `y` the wake arm is held in ECONOMY alone (R138, R167): the two rules are
kept apart from one another. -/
structure ArmsFormed (x y : Prop) (s : State) : Prop where
  runOn : x → s.modes.runOn.isSome = true → s.modes.mode = .off
  wakeArm : y → (s.modes.wakeArm ≠ none ↔ s.modes.mode = .economy)

variable {x y : Prop}

theorem ArmsFormed.congr {s t : State} (h : ArmsFormed x y s) (mode : t.modes.mode = s.modes.mode)
    (runOn : t.modes.runOn.isSome = true → s.modes.runOn.isSome = true) (arm : t.modes.wakeArm = s.modes.wakeArm) : ArmsFormed x y t := by
  refine ⟨fun g r => ?_, ?_⟩
  · rw [mode]; exact h.runOn g (runOn r)
  · rw [mode, arm]; exact h.wakeArm

theorem ArmsFormed.enter {a : State} (h : ArmsFormed x y a) (m : Mode) : ArmsFormed x y (a.enterMode m) := by
  by_cases same : a.modes.mode = m
  · unfold State.enterMode
    rw [if_pos same]
    exact h
  · rw [enterMode_of_ne same]
    refine ⟨fun _ r => ?_, fun _ => ?_⟩
    · cases m with
      | off => rfl
      | _ => cases r
    · by_cases e : m = .economy
      · simp [e]
      · simp [e]

theorem ArmsFormed.stage {s : State} (h : ArmsFormed x y s) : ArmsFormed x y s.modeStage := by
  rcases modeStage_cases s with e | ⟨-, -, e⟩ | ⟨-, -, -, e⟩ <;> rw [e]
  · exact h
  · exact h.enter _
  · exact h.enter _

theorem ArmsFormed.halting {s u : State} (h : ArmsFormed x y s) (g : Halting s u) : ArmsFormed x y u := by
  rcases g.mode with ⟨mode, arm, runOn, -⟩ | ⟨-, halted, arm, runOn, -⟩
  · exact h.congr mode (by rw [runOn]; exact id) arm
  · refine ⟨fun _ r => ?_, fun _ => ?_⟩
    · rw [runOn] at r
      cases r
    · simp [halted, arm]

theorem ArmsFormed.view {s a : State} (h : ArmsFormed x y s) (view : a.modeView = s.modeView) : ArmsFormed x y a := h.halting (.view view)

theorem ModeOp.armsFormed {c : Instr} {s u : State} (h : ModeOp s c u) (hs : ArmsFormed x y s) : ArmsFormed x y u := by
  cases h with
  | start ws a view => exact ((hs.view view).congr rfl id rfl : ArmsFormed x y { a with gate := { a.gate with lineClass := a.nextClass } }).enter _
  | complete => exact hs.enter _
  | idles a view => exact (hs.view view).enter _
  | economy ws a view => exact (hs.view view).enter _
  | wakes _ a view => exact (hs.view view).enter _
  | cools ws a view => exact (hs.view view).enter _
  | shuts ws a view => exact (hs.view view).enter _
  | clears ws a view =>
    have first : ArmsFormed x y a.removeCauses := (hs.view view).congr rfl id rfl
    unfold State.leaveHalt
    split
    · exact first.enter _
    · exact first
  | loses _ a view => exact (hs.view view).stage.halting (Halting.raise (.view rfl) _)
  | setup ws a d view =>
    refine (hs.view view).congr ?_ ?_ ?_
    · unfold State.takeSetup; dsimp only; split <;> rfl
    · unfold State.takeSetup; dsimp only; split <;> simp
    · unfold State.takeSetup; dsimp only; split <;> rfl
  | runOnEnds n => exact hs.congr rfl (fun r => by cases r) rfl
  | expires n => exact hs.congr rfl (by simp [State.advance]) rfl
  | alive v => exact hs.congr rfl id rfl

theorem armsRule : ModeRule (ArmsFormed x y) where
  resets s t port reset := by
    refine ⟨fun _ _ => reset.mode, fun _ => ?_⟩
    rw [reset.modes]
    simp
  effects h hs := by
    rcases h.modeOp with raised | op
    · exact hs.halting raised.halting
    · exact op.armsFormed hs
  stage _ hs := hs.stage
  same s t modes _ _ _ hs := by
    obtain ⟨mode, -, arm, runOn⟩ := mode_of_modes modes
    exact hs.congr mode (by rw [runOn]; exact id) arm
  ticks s hs := hs.congr rfl (by simp [State.advance]) rfl

/-! ## The supervision timer -/

/-- The supervision timer runs with HOST_LOST withdrawn and a nonzero period alone (R174). -/
def SupervisionFormed (s : State) : Prop :=
  s.port.supRunning = true → s.port.hostLost = false ∧ s.ws.supervision ≠ 0

theorem SupervisionFormed.congr {s t : State} (h : SupervisionFormed s) (host : t.port.hostLost = s.port.hostLost ∧
    t.port.supRunning = s.port.supRunning) (setup : t.port.setup = s.port.setup) : SupervisionFormed t := by
  unfold SupervisionFormed State.ws
  rw [host.1, host.2, setup]
  exact h

theorem supervision_takeSetup (a : State) (d : Setup) : SupervisionFormed (a.takeSetup d) := by
  have port : (a.takeSetup d).port = a.port.atSetup d := by
    unfold State.takeSetup
    dsimp only
    split <;> rfl
  intro runs
  unfold State.ws
  rw [port] at runs ⊢
  exact ⟨rfl, by simpa [Port.atSetup] using runs⟩

theorem ModeOp.supervisionFormed {c : Instr} {s u : State} (h : ModeOp s c u) (hs : SupervisionFormed s)
    (setup : u.port.setup = s.port.setup) : SupervisionFormed u := by
  have enter : ∀ (a : State) (m : Mode), (a.enterMode m).port.hostLost = a.port.hostLost ∧
      (a.enterMode m).port.supRunning = a.port.supRunning := fun a m => by
    unfold State.enterMode
    split <;> exact ⟨rfl, rfl⟩
  have stays : ∀ {a u : State}, a.modeView = s.modeView → (u.port.hostLost = a.port.hostLost ∧ u.port.supRunning = a.port.supRunning) →
      u.port.setup = s.port.setup → SupervisionFormed u := fun view host setup =>
    hs.congr ⟨host.1.trans (modeView_parts view).2.2.2.2.2.1, host.2.trans (modeView_parts view).2.2.2.2.2.2⟩ setup
  cases h with
  | start ws a view => exact stays view (enter { a with gate := { a.gate with lineClass := a.nextClass } } _) setup
  | complete => exact stays rfl (enter s _) setup
  | idles a view => exact stays view (enter a _) setup
  | economy ws a view => exact stays view (enter a _) setup
  | wakes _ a view => exact stays view (enter a _) setup
  | cools ws a view => exact stays view (enter a _) setup
  | shuts ws a view => exact stays view (enter a _) setup
  | clears ws a view =>
    refine stays view ?_ setup
    unfold State.leaveHalt
    split
    · exact enter a.removeCauses _
    · exact ⟨rfl, rfl⟩
  | loses _ a view =>
    have stage := (kept_modeStage a).keeps
    have raise := (Halting.raise (.view (u := a.modeStage) rfl) .boardLost).host
    exact stays view ⟨raise.1.trans stage.portHostLost, raise.2.trans stage.portSupRunning⟩ setup
  | setup ws a d => exact supervision_takeSetup a d
  | runOnEnds n => exact hs
  | expires n => exact fun r => by cases r
  | alive v =>
    intro r
    have nonzero : s.ws.supervision ≠ 0 := bne_iff_ne.mp r
    exact ⟨rfl, nonzero⟩

theorem Effect.setup_or {s u : State} {c : Instr} {e : Ending} (h : Effect s c e u) : u.port.setup = s.port.setup ∨
    ∃ (a : State) (d : Setup), u = a.takeSetup d := by
  cases h.tank with
  | moves m => exact .inl m.setup
  | notices flux setup => exact .inl setup
  | refilled q v hv pos first e => exact .inl (by rw [e]; exact (setup_setTank q v 0).trans first.setup)
  | setup q d hd ws hc first e => exact .inr ⟨q, d, e⟩

theorem supervisionRule : ModeRule SupervisionFormed where
  resets s t port reset runs := by
    obtain ⟨g, b, shape, -⟩ := reset.notices
    rw [shape] at runs
    have off : (resetNotices { Port.atReset with generation := g } b s.pins.estop).supRunning = false := by
      unfold resetNotices
      cases b <;> cases s.pins.estop <;> rfl
    rw [off] at runs
    cases runs
  effects h hs := by
    rcases h.setup_or with setup | ⟨a, d, rfl⟩
    · rcases h.modeOp with raised | op
      · exact hs.congr raised.halting.host setup
      · exact op.supervisionFormed hs setup
    · exact supervision_takeSetup a d
  stage s hs := hs.congr ⟨(kept_modeStage s).keeps.portHostLost, (kept_modeStage s).keeps.portSupRunning⟩ (kept_modeStage s).keeps.portSetup
  same s t _ lost running setup hs := hs.congr ⟨lost, running⟩ setup
  ticks s hs := hs

/-! ## What the consequences form -/

theorem fanCommand_iff (s : State) : fanCommand s = true ↔ s.modes.mode ≠ .off ∨ s.modes.runOn ≠ none := by
  simp [fanCommand, Option.isSome_iff_ne_none]

/-- The fans are commanded on as R137 and R138 have it. -/
theorem settle_fanCommand (u : State) : u.settle.extr.fan = fanCommand u.settle := by
  obtain ⟨mode, -, -, runOn⟩ := mode_of_modes (settle_modes u)
  rw [(settle_fans u).2]
  unfold fanCommand
  rw [mode, runOn]

theorem step_fanCommand {s t : State} (h : step s = .next t) (hs : s.extr.fan = fanCommand s) : t.extr.fan = fanCommand t := by
  refine step_keeps_rule (fun x => x.extr.fan = fanCommand x) settle_fanCommand (fun s t port reset => ?_) (fun s t same hs => ?_) h hs
  · unfold fanCommand
    rw [reset.fan.1, reset.modes]
    cases port <;> rfl
  · have fan : t.extr.fan = s.extr.fan := (congrArg Extr.fan same.extr :)
    unfold fanCommand
    rw [fan, same.mode, same.runOn]
    exact hs

theorem FansFormed.iff (s : State) : FansFormed s ↔ s.extr.fan = fanCommand s ∧ (s.modes.runOn.isSome = true → s.modes.mode = .off) := by
  constructor
  · rintro ⟨fan, runOn⟩
    exact ⟨Bool.eq_iff_iff.mpr (fan.trans (fanCommand_iff s).symm), fun r => runOn (Option.isSome_iff_ne_none.mp r)⟩
  · rintro ⟨fan, runOn⟩
    exact ⟨by rw [fan]; exact fanCommand_iff s, fun r => runOn (Option.isSome_iff_ne_none.mpr r)⟩

/-- The idle timer runs as R166 has it. -/
def IdleFormed (s : State) : Prop := s.modes.idle.isSome = idleRuns s

theorem idleRuns_iff (s : State) : idleRuns s = true ↔
    s.modes.mode = .production ∧ s.track.records = [] ∧ s.pins.upstream = false ∧ s.ws.idleTime ≠ 0 := by
  simp [idleRuns, and_assoc]

theorem IdleFormed.iff (s : State) : IdleFormed s ↔ (s.modes.idle ≠ none ↔
    s.modes.mode = .production ∧ s.track.records = [] ∧ s.pins.upstream = false ∧ s.ws.idleTime ≠ 0) := by
  unfold IdleFormed
  rw [Bool.eq_iff_iff, idleRuns_iff, Option.isSome_iff_ne_none]

theorem step_idleFormed {s t : State} (h : step s = .next t) (hs : IdleFormed s) : IdleFormed t := by
  refine step_keeps_rule IdleFormed (fun u => ?_) (fun s t port reset => ?_) (fun s t same hs => ?_) h hs
  · exact Bool.eq_iff_iff.mpr (Option.isSome_iff_ne_none.trans (reform_idle u.pass.pass))
  · unfold IdleFormed idleRuns
    rw [reset.modes]
    rfl
  · unfold IdleFormed idleRuns State.ws at *
    rw [same.idle, same.mode, same.records, same.upstream, same.setup]
    exact hs

theorem modeStands_iff (s : State) : ModeStands s ↔ cooldownDone s = false ∧ hostLostEconomy s = false := by
  have empty : MachineEmpty s ↔ drained s = true := by simp [MachineEmpty, drained]
  constructor
  · rintro ⟨cooldown, production⟩
    refine ⟨?_, ?_⟩ <;> rw [Bool.eq_false_iff]
    · intro g
      obtain ⟨mode, done⟩ := Bool.and_eq_true_iff.mp g
      exact cooldown (eq_of_beq mode) (empty.mpr done)
    · intro g
      obtain ⟨first, records⟩ := Bool.and_eq_true_iff.mp g
      obtain ⟨mode, lost⟩ := Bool.and_eq_true_iff.mp first
      exact production (eq_of_beq mode) lost (List.isEmpty_iff.mp records)
  · rintro ⟨cooldown, production⟩
    refine ⟨fun mode machine => ?_, fun mode lost records => ?_⟩
    · simp [cooldownDone, mode, empty.mp machine] at cooldown
    · simp [hostLostEconomy, mode, lost, records] at production

theorem step_modeStands {s t : State} (h : step s = .next t) (hs : ModeStands s) : ModeStands t := by
  refine step_keeps_rule ModeStands (fun u => ?_) (fun s t port reset => ?_) (fun s t same hs => ?_) h hs
  · exact (modeStands_iff _).mpr (still_after (kept_settle u) (follows_settle u).outfeed (settle_mode u))
  · have mode := reset.mode
    refine ⟨fun g => ?_, fun g => ?_⟩ <;> rw [mode] at g <;> cases g
  · obtain ⟨cooldown, production⟩ := hs
    refine ⟨fun g => ?_, fun g lost => ?_⟩
    · unfold MachineEmpty
      rw [same.records, same.outfeedState]
      exact cooldown (same.mode ▸ g)
    · rw [same.records]
      exact production (same.mode ▸ g) (same.hostLost ▸ lost)

end Sys2Proof.Machine
end



section
/-! What a re-forming forms it leaves the next time: the outfeed, the pot, the width drive, the reference and the drop (R5, R57,
R85, R91, R130 to R132, R156 to R158). -/

namespace Sys2Proof.Machine

open Sys2Proof.Config

/-- A further re-forming finds the modes, the fans, the inhibit, the outfeed, the pot loop, the width drive, the reference and the
pumps as it would make them. -/
structure Reformed (s : State) : Prop where
  rests : Rests s
  outfeed : s.reformOutfeed.outfeed = s.outfeed
  pot : (s.thermal.pot.retarget (potTarget s)).formSettled s.thermal.auth = s.thermal.pot
  width : s.reformWidth.gate.width = s.gate.width
  ref : s.track.ref = conveyorRef s
  held : s.pot.drop ≠ .none → runDemand s ≠ 0 → s.pot.drop = .recovering ∧ stretchEmpty s = false ∧ s.pot.steady = false
  pumps : PumpsFormed s

/-! ## Each part once more -/

theorem Loop.retarget_formSettled (l : Loop) (t : Int) (a : Bool) :
    (((l.retarget t).formSettled a).retarget t).formSettled a = (l.retarget t).formSettled a := by
  have target : ((l.retarget t).formSettled a).target = t := by
    rw [Loop.formSettled_target, Loop.retarget_target]
  have once : ((l.retarget t).formSettled a).retarget t = (l.retarget t).formSettled a := by
    generalize (l.retarget t).formSettled a = m at target ⊢
    unfold Loop.retarget
    rw [if_pos target]
  rw [once]
  generalize l.retarget t = m
  unfold Loop.formSettled
  cases a with
  | false => rfl
  | true =>
    by_cases h : m.target = 0
    · simp [h]
    · simp [h]

theorem Width.retarget_retarget (w : Width) (n : Option Nat) : (w.retarget n).retarget n = w.retarget n := by
  unfold Width.retarget
  cases hw : w.state with
  | moving =>
    cases n with
    | none => simp [hw]
    | some t =>
      by_cases same : t = w.target
      · simp [same, hw]
      · by_cases arrived : w.pos = t
        · simp [same, arrived]
        · simp [same, arrived]
  | _ => simp [hw]

theorem Width.halt_halt (w : Width) : w.halt.halt = w.halt := by
  unfold Width.halt
  cases hw : w.state <;> simp [hw]

theorem reformWidth_reformWidth (s : State) : s.reformWidth.reformWidth.gate.width = s.reformWidth.gate.width := by
  have may : widthMayMove s.reformWidth = widthMayMove s := rfl
  have named : namedWidth s.reformWidth = namedWidth s := rfl
  have twice : s.reformWidth.reformWidth.gate.width = if widthMayMove s.reformWidth then s.reformWidth.gate.width.retarget (namedWidth s.reformWidth)
      else s.reformWidth.gate.width.halt := rfl
  have once : s.reformWidth.gate.width = if widthMayMove s then s.gate.width.retarget (namedWidth s) else s.gate.width.halt := rfl
  rw [twice, may, named, once]
  by_cases h : widthMayMove s = true
  · simp only [h, if_true]
    exact Width.retarget_retarget _ _
  · simp only [h]
    exact Width.halt_halt _

theorem countChange_same (c : BitVec 8) (b : Bool) : countChange c b b = c := by
  unfold countChange
  simp

/-- The outfeed re-formed once stands at the next re-forming. -/
theorem reformOutfeed_again {z y : State} (kept : Kept z y) (mode : y.modes.mode = z.modes.mode) (d : Bool)
    (h : y.outfeed = { z.reformOutfeed.outfeed with drive := d }) : y.reformOutfeed.outfeed = y.outfeed := by
  obtain ⟨st, hst⟩ : ∃ st, handshake z.outfeed.state z.modes.mode.outfeedMoves z.pins.downstream = st := ⟨_, rfl⟩
  have once : z.reformOutfeed.outfeed = { z.outfeed with
      state := st, available := boardAvailable st z.modes.mode.outfeedMoves
      availableCount := countChange z.outfeed.availableCount z.outfeed.available (boardAvailable st z.modes.mode.outfeedMoves)
      stop := stopFormed z st } := by
    rw [← hst]
    rfl
  have state : handshake y.outfeed.state y.modes.mode.outfeedMoves y.pins.downstream = st := by
    rw [h, once, mode, kept.keeps.pins, ← hst]
    exact handshake_idem _ _ _
  have stop : stopFormed y st = stopFormed z st := by
    obtain ⟨near, tail⟩ := kept.nearAndTail st
    unfold stopFormed
    rw [near, tail, h, once]
    unfold stopFormed
    cases z.outfeed.stop <;> cases nextBoardNear z st <;> cases st != .empty <;> simp
  have twice : y.reformOutfeed.outfeed = { y.outfeed with
      state := st, available := boardAvailable st y.modes.mode.outfeedMoves
      availableCount := countChange y.outfeed.availableCount y.outfeed.available (boardAvailable st y.modes.mode.outfeedMoves)
      stop := stopFormed y st } := by
    rw [← state]
    rfl
  rw [twice, stop, mode, h, once, countChange_same]

/-! ## The conveyor once more -/

theorem reformRef_same {s : State} (h : s.track.ref = conveyorRef s) :
    s.reformRef.track.ref = s.track.ref ∧ s.reformRef.track.speedStable = s.track.speedStable := by
  unfold State.reformRef Track.refer
  dsimp only
  rw [if_pos h]
  exact ⟨rfl, rfl⟩

/-- A reference that is formed stands, with its flag, where no drop ends. -/
theorem reformConveyor_same {s : State} (ref : s.track.ref = conveyorRef s)
    (held : s.pot.drop ≠ .none → runDemand s ≠ 0 → s.pot.drop = .recovering ∧ stretchEmpty s = false ∧ s.followDrop.pot.steady = false) :
    s.reformConveyor.track.ref = s.track.ref ∧ s.reformConveyor.track.speedStable = s.track.speedStable := by
  obtain ⟨u, h⟩ := conveyor_parts s
  have same : u.track.ref = conveyorRef u := by
    rw [h.ref.2, ref]
    unfold conveyorRef
    rw [h.demand.1]
    by_cases none_ : s.pot.drop = .none
    · have after : u.pot.drop = .none := h.drop.elim (fun g => g.1) fun g => absurd none_ g.2.1
      rw [if_pos none_, if_pos after]
    · rw [if_neg none_]
      by_cases demand : runDemand s = 0
      · rw [demand]
        split <;> rfl
      · obtain ⟨recovers, stretch, steady⟩ := held none_ demand
        rcases h.drop with ⟨-, empty | idle | ⟨-, waves⟩⟩ | ⟨follows, -⟩
        · rw [stretch] at empty; cases empty
        · exact absurd idle none_
        · rw [steady] at waves; cases waves
        · rw [if_neg (by rw [follows, Drop.follow_none]; exact none_)]
  obtain ⟨r, f⟩ := reformRef_same same
  rw [h.last]
  refine ⟨?_, ?_⟩
  · rw [← h.ref.2]; exact r
  · rw [← h.ref.2]; exact f

/-- What the drop is after a re-forming of the conveyor. -/
theorem reformConveyor_held (s : State) (none_ : s.reformConveyor.pot.drop ≠ .none) (demand : runDemand s.reformConveyor ≠ 0) :
    s.reformConveyor.pot.drop = .recovering ∧ stretchEmpty s.reformConveyor = false ∧ s.reformConveyor.pot.steady = false := by
  obtain ⟨u, h⟩ := conveyor_parts s
  rw [h.demand.2] at demand
  have last := h.last_drop
  have empty : stretchEmpty s.reformConveyor = stretchEmpty s := by
    unfold stretchEmpty
    rw [h.records, List.all_map]
    refine congrArg (fun f => s.track.records.all f) (funext fun r => ?_)
    show (!inWaveStretch s.reformConveyor (stopMarks u r)) = !inWaveStretch s r
    rw [reformConveyor_stretch, inWaveStretch_byPlace s r _ (stopMarks_place u r)]
  by_cases starts : dropStarts u = true
  · exfalso
    unfold dropStarts conveyorStops at starts
    obtain ⟨⟨⟨-, zero⟩, drop⟩, -⟩ : ((_ ∧ conveyorRef u = 0) ∧ u.pot.drop = .none) ∧ _ := by
      simpa [and_assoc] using starts
    unfold conveyorRef at zero
    rw [if_pos drop, h.demand.1] at zero
    exact demand zero
  · rw [if_neg starts] at last
    rcases h.drop with ⟨gone, -⟩ | ⟨follows, -, stretch, steady⟩
    · exact absurd (last.trans gone) none_
    · have recovers : u.pot.drop = .recovering := by
        rw [follows]
        unfold Drop.follow
        cases hd : s.pot.drop with
        | none => rw [last, follows, hd] at none_; exact absurd rfl none_
        | held => dsimp only; rw [if_neg demand]
        | recovering => dsimp only; rw [if_neg demand]
      refine ⟨last.trans recovers, empty.trans stretch, ?_⟩
      have pump := fun w => h.pump w (last.trans follows)
      have chip : s.reformConveyor.pot.chip = s.followDrop.pot.chip := pump .chip
      have main : s.reformConveyor.pot.main = s.followDrop.pot.main := pump .main
      have waves := steady recovers
      unfold Pot.steady at waves ⊢
      rw [chip, main]
      exact waves

/-! ## The whole -/

/-- The stages of a re-forming: up to the outfeed, the outfeed and the width drive, the conveyor, and what follows. -/
structure ReformParts (s x y z : State) : Prop where
  first : x = s.beforeTargets.reformTargets
  motion : y = x.reformOutfeed.reformWidth
  conveyor : z = y.reformConveyor
  last : s.reform = z.reformDrive.reformWaits.reformIdle.reformLine

theorem reform_parts (s : State) : ∃ x y z, ReformParts s x y z := ⟨_, _, _, rfl, rfl, rfl, rfl⟩

namespace ReformParts

variable {s x y z : State}

theorem kept (h : ReformParts s x y z) : Kept s x ∧ Kept x y ∧ Kept y z ∧ Kept z s.reform := by
  refine ⟨?_, ?_, ?_, ?_⟩
  · rw [h.first]
    exact (moves_beforeTargets s |>.lift Kept.refl Kept.trans Move.kept).trans (kept_reformTargets _)
  · rw [h.motion]
    exact (kept_reformOutfeed x).trans (kept_reformWidth _)
  · rw [h.conveyor]
    exact kept_reformConveyor y
  · rw [h.last]
    exact ((kept_reformDrive z).trans (kept_reformWaits _)).trans ((kept_reformIdle _).trans (kept_reformLine _))

/-- What the last stages leave. -/
theorem tail (h : ReformParts s x y z) : s.reform.track.ref = z.track.ref ∧ s.reform.track.speedStable = z.track.speedStable ∧
    s.reform.track.records = z.track.records ∧ s.reform.track.pos = z.track.pos ∧ s.reform.pot = z.pot ∧ s.reform.thermal = z.thermal ∧
    s.reform.gate.width = z.gate.width ∧ s.reform.gate.namedClass = z.gate.namedClass ∧ s.reform.gate.lineClass = z.gate.lineClass ∧
    s.reform.modes.mode = z.modes.mode ∧ s.reform.port.setup = z.port.setup ∧ s.reform.outfeed.stop = z.outfeed.stop ∧
    s.reform.outfeed.state = z.outfeed.state ∧ ∃ d, s.reform.outfeed = { z.outfeed with drive := d } := by
  rw [h.last]
  exact ⟨rfl, rfl, rfl, rfl, rfl, rfl, rfl, rfl, rfl, rfl, rfl, rfl, rfl, _, rfl⟩

/-- What the conveyor leaves. -/
theorem middle (h : ReformParts s x y z) : z.thermal = y.thermal ∧ z.gate = y.gate ∧ z.modes = y.modes ∧ z.port = y.port ∧
    z.outfeed = y.outfeed := by
  rw [h.conveyor]
  have ref : ∀ u : State, u.reformRef.thermal = u.thermal ∧ u.reformRef.gate = u.gate ∧ u.reformRef.modes = u.modes ∧
      u.reformRef.port = u.port ∧ u.reformRef.outfeed = u.outfeed := fun u => ⟨rfl, rfl, rfl, rfl, rfl⟩
  exact ref y.followDrop.endDrop

theorem head (h : ReformParts s x y z) : y.thermal = x.thermal ∧ y.modes = x.modes ∧ y.port = x.port ∧ y.track = x.track ∧ y.pot = x.pot ∧
    { y.gate with width := x.gate.width } = x.gate ∧ y.outfeed = x.reformOutfeed.outfeed := by
  rw [h.motion]
  refine ⟨?_, ?_, ?_, ?_, ?_, ?_, ?_⟩
  · rfl
  · rfl
  · rfl
  · rfl
  · rfl
  · rfl
  · rfl

end ReformParts

theorem reformed_reform (s : State) : Reformed s.reform := by
  obtain ⟨x, y, z, h⟩ := reform_parts s
  obtain ⟨refT, -, recordsT, posT, potT, thermalT, widthT, namedT, classT, modeT, setupT, stopT, stateT, d, outfeedT⟩ := h.tail
  obtain ⟨thermalM, gateM, modesM, portM, outfeedM⟩ := h.middle
  obtain ⟨thermalH, modesH, portH, trackH, potH, gateH, outfeedH⟩ := h.head
  obtain ⟨k1, k2, k3, k4⟩ := h.kept
  have namedH : y.gate.namedClass = x.gate.namedClass := (congrArg Gate.namedClass gateH :)
  have classH : y.gate.lineClass = x.gate.lineClass := (congrArg Gate.lineClass gateH :)
  have named : s.reform.gate.namedClass = x.gate.namedClass := by rw [namedT, gateM, namedH]
  have mode : s.reform.modes.mode = x.modes.mode := by rw [modeT, modesM, modesH]
  refine ⟨?_, ?_, ?_, ?_, (referenceFormed_iff _).mp (reform_referenceFormed s), fun none_ demand => ?_, reform_pumpsFormed s⟩
  · exact (moves_reformRest s.beforeInhibit.reformInhibit).calm (rests_reformInhibit s) |>.2
  · exact reformOutfeed_again (z := x) ((k2.trans k3).trans k4) mode d (by rw [outfeedT, outfeedM, outfeedH])
  · obtain ⟨w, hw⟩ : ∃ w, s.beforeTargets.reformZones.reformPumpTargets = w := ⟨_, rfl⟩
    have shape : x = w.reformPotTarget := by rw [h.first, ← hw]; rfl
    have target : potTarget s.reform = potTarget w := by
      have n : s.reform.gate.namedClass = w.gate.namedClass := by rw [named, shape]; rfl
      have m : s.reform.modes.mode = w.modes.mode := by rw [mode, shape]; rfl
      have p : s.reform.port.setup = w.port.setup := by rw [setupT, portM, portH, shape]; rfl
      unfold potTarget State.ws
      rw [n, m, p]
    have pot : s.reform.thermal.pot = (w.thermal.pot.retarget (potTarget w)).formSettled w.thermal.auth := by
      rw [thermalT, thermalM, thermalH, shape]
      rfl
    have auth : s.reform.thermal.auth = w.thermal.auth := by
      rw [thermalT, thermalM, thermalH, shape]
      rfl
    rw [target, pot, auth]
    exact Loop.retarget_formSettled _ _ _
  · have same : s.reform.reformWidth.gate.width = x.reformOutfeed.reformWidth.reformWidth.gate.width := by
      have may : widthMayMove s.reform = widthMayMove y := by
        have empty : s.reform.track.records.isEmpty = y.track.records.isEmpty := (k3.trans k4).records_isEmpty
        unfold widthMayMove
        rw [modeT, modesM, empty, stateT, outfeedM]
      have namedWidth_ : namedWidth s.reform = namedWidth y := by
        unfold namedWidth
        rw [namedT, gateM]
      have width : s.reform.gate.width = y.gate.width := by rw [widthT, gateM]
      unfold State.reformWidth
      dsimp only
      rw [may, namedWidth_, width, h.motion]
      rfl
    rw [same, reformWidth_reformWidth, widthT, gateM, h.motion]
  · have demandZ : runDemand s.reform = runDemand z := by
      unfold runDemand namedSpeed
      rw [modeT, classT, stopT, widthT, namedT]
    have stretch : stretchEmpty s.reform = stretchEmpty z := by
      unfold stretchEmpty
      rw [recordsT, SameGround.inWaveStretch (s := z) (t := s.reform) ⟨posT, setupT⟩]
    rw [demandZ] at demand
    rw [stretch]
    rw [potT] at none_ ⊢
    rw [h.conveyor] at none_ demand ⊢
    exact reformConveyor_held y none_ demand

/-- What a further re-forming leaves of a re-formed state. -/
structure SameForms (s t : State) : Prop where
  modes : { t.modes with idle := none } = { s.modes with idle := none }
  outfeed : ∃ d, t.outfeed = { s.outfeed with drive := d }
  pot : t.thermal.pot.target = s.thermal.pot.target ∧ t.thermal.pot.settled = s.thermal.pot.settled
  width : t.gate.width = s.gate.width
  ref : t.track.ref = s.track.ref
  speed : t.track.speedStable = s.track.speedStable

/-- What a loop's re-forming looks at and sets. -/
def Loop.aim (l : Loop) : Int × Bool × Nat := (l.target, l.settled, l.count)

theorem Loop.aim_formed {l m : Loop} (h : m.aim = l.aim) (t : Int) (a : Bool) :
    ((m.retarget t).formSettled a).aim = ((l.retarget t).formSettled a).aim := by
  obtain ⟨target, settled, count⟩ : m.target = l.target ∧ m.settled = l.settled ∧ m.count = l.count :=
    ⟨congrArg (fun x : Int × Bool × Nat => x.1) h, congrArg (fun x : Int × Bool × Nat => x.2.1) h,
      congrArg (fun x : Int × Bool × Nat => x.2.2) h⟩
  have first : (m.retarget t).aim = (l.retarget t).aim := by
    unfold Loop.retarget
    rw [target]
    split
    · exact h
    · rfl
  have last : ∀ p q : Loop, q.aim = p.aim → (q.formSettled a).aim = (p.formSettled a).aim := fun p q g => by
    have e : q.target = p.target := congrArg (fun x : Int × Bool × Nat => x.1) g
    unfold Loop.formSettled
    split
    · exact congrArg (fun n => (n, false, 0)) e
    · rw [e]
      split
      · rfl
      · exact g
  exact last _ _ first

theorem steady_follow {p q : Pot} (chip : ∃ n g, q.chip = { p.chip with target := n, governing := g })
    (main : ∃ n g, q.main = { p.main with target := n, governing := g }) (refs : p.chip.ref = p.chip.target ∧ p.main.ref = p.main.target)
    (h : p.steady = false) : ({ q with chip := q.chip.follow .recovering, main := q.main.follow .recovering } : Pot).steady = false := by
  have one : ∀ (a b : Pump), (∃ n g, b = { a with target := n, governing := g }) → (b.follow .recovering).stable = true → a.stable = true := by
    rintro a b ⟨n, g, rfl⟩ stable
    have shape : (({ a with target := n, governing := g } : Pump).follow .recovering).stable = if a.ref = n then a.stable else false := by
      unfold Pump.follow Pump.refer
      rw [if_neg (show ¬ Drop.recovering = Drop.held by decide)]
      dsimp only
      split <;> rfl
    rw [shape] at stable
    split at stable
    · exact stable
    · cases stable
  rw [Bool.eq_false_iff] at h ⊢
  intro steady
  obtain ⟨⟨⟨a, b⟩, -⟩, -⟩ : (((_ = true ∧ _ = true) ∧ _ = true) ∧ _ = true) := by
    simpa only [Pot.steady, Bool.and_eq_true] using steady
  refine h ?_
  unfold Pot.steady
  rw [one _ _ chip a, one _ _ main b, refs.1, refs.2]
  simp

/-- The outfeed block that a re-forming makes. -/
theorem reformOutfeed_congr {s x : State} (kept : Kept s x) (mode : x.modes.mode = s.modes.mode) (outfeed : x.outfeed = s.outfeed) :
    x.reformOutfeed.outfeed = s.reformOutfeed.outfeed := by
  have shape : ∀ v : State, v.reformOutfeed.outfeed =
      let st := handshake v.outfeed.state v.modes.mode.outfeedMoves v.pins.downstream
      { v.outfeed with
        state := st, available := boardAvailable st v.modes.mode.outfeedMoves
        availableCount := countChange v.outfeed.availableCount v.outfeed.available (boardAvailable st v.modes.mode.outfeedMoves)
        stop := stopFormed v st } := fun _ => rfl
  have stop : ∀ st, stopFormed x st = stopFormed s st := fun st => by
    obtain ⟨near, tail⟩ := kept.nearAndTail st
    unfold stopFormed
    rw [near, tail, outfeed]
  rw [shape, shape, mode, outfeed, kept.keeps.pins]
  dsimp only
  rw [stop]

/-- The first stages leave a re-formed state as it is, but for the horn and the grants. -/
theorem Reformed.beforeTargets {s : State} (h : Reformed s) : s.beforeTargets = s.reformHorn.cutGrants := by
  have horn : Rests s.reformHorn := (Move.horn s).rests h.rests
  unfold State.beforeTargets State.beforeInhibit
  rw [modeStage_of_still h.rests.cooldown h.rests.economy, reformFans_of_rests h.rests, reformInhibit_of_rests horn]

theorem Loop.cutIf_aim (l : Loop) (b : Bool) : (l.cutIf b).aim = l.aim := by
  unfold Loop.cutIf
  split <;> rfl

theorem Reformed.reform {s : State} (h : Reformed s) : SameForms s s.reform := by
  obtain ⟨x, y, z, p⟩ := reform_parts s
  obtain ⟨refT, speedT, recordsT, posT, potT, thermalT, widthT, namedT, classT, modeT, setupT, stopT, stateT, d, outfeedT⟩ := p.tail
  obtain ⟨thermalM, gateM, modesM, portM, outfeedM⟩ := p.middle
  obtain ⟨thermalH, modesH, portH, trackH, potH, gateH, outfeedH⟩ := p.head
  obtain ⟨k1, k2, -, -⟩ := p.kept
  obtain ⟨w, hw⟩ : ∃ w, s.beforeTargets = w := ⟨_, rfl⟩
  obtain ⟨modesW, outfeedW, gateW, portW, authW, trackW, dropW⟩ : w.modes = s.modes ∧ w.outfeed = s.outfeed ∧ w.gate = s.gate ∧
      w.port = s.port ∧ w.thermal.auth = s.thermal.auth ∧ w.track = s.track ∧ w.pot = s.pot := by
    rw [← hw, h.beforeTargets]
    exact ⟨rfl, rfl, rfl, rfl, rfl, rfl, rfl⟩
  have aimW : w.thermal.pot.aim = s.thermal.pot.aim := by
    rw [← hw, h.beforeTargets]
    exact Loop.cutIf_aim _ _
  have shape : x = w.reformTargets := by rw [p.first, hw]
  obtain ⟨modesX, outfeedX, gateX, trackX, portX⟩ : x.modes = s.modes ∧ x.outfeed = s.outfeed ∧ x.gate = s.gate ∧ x.track = s.track ∧
      x.port = s.port := by
    rw [shape, ← modesW, ← outfeedW, ← gateW, ← trackW, ← portW]
    exact ⟨rfl, rfl, rfl, rfl, rfl⟩
  have mode : x.modes.mode = s.modes.mode := by rw [modesX]
  have outfeed : x.reformOutfeed.outfeed = s.outfeed := (reformOutfeed_congr k1 mode outfeedX).trans h.outfeed
  have width : y.gate.width = s.gate.width := by
    have empty : x.reformOutfeed.track.records.isEmpty = s.track.records.isEmpty := (k1.trans (kept_reformOutfeed x)).records_isEmpty
    have may : widthMayMove x.reformOutfeed = widthMayMove s := by
      unfold widthMayMove
      rw [show x.reformOutfeed.modes = x.modes from rfl, mode, empty, outfeed]
    have named : namedWidth x.reformOutfeed = namedWidth s := by
      unfold namedWidth
      rw [show x.reformOutfeed.gate = x.gate from rfl, gateX]
    rw [← h.width, p.motion]
    unfold State.reformWidth
    dsimp only
    rw [may, named, show x.reformOutfeed.gate = x.gate from rfl, gateX]
  have gate : y.gate = s.gate := by
    rw [gateX, ← width] at gateH
    exact gateH
  have demand : runDemand y = runDemand s := by
    unfold runDemand namedSpeed
    rw [modesH, modesX, gate, outfeedH, outfeed]
  have track : y.track = s.track := trackH.trans trackX
  have stretch : stretchEmpty y = stretchEmpty s := by
    unfold stretchEmpty
    rw [SameGround.inWaveStretch (s := s) (t := y) ⟨by rw [track], by rw [portH, portX]⟩, track]
  have drop : y.pot.drop = s.pot.drop := by
    rw [potH, shape, ← dropW]
    rfl
  have follows : y.pot.drop ≠ .none → runDemand y ≠ 0 → y.pot.drop = .recovering ∧ stretchEmpty y = false ∧ y.followDrop.pot.steady = false := by
    rw [drop, demand, stretch]
    intro stands runs
    obtain ⟨recovers, lies, steady⟩ := h.held stands runs
    refine ⟨recovers, lies, ?_⟩
    have next : y.pot.drop.follow (runDemand y) = .recovering := by
      rw [drop, recovers, demand]
      exact if_neg runs
    have pot : y.followDrop.pot = { y.pot with drop := .recovering, chip := y.pot.chip.follow .recovering, main := y.pot.main.follow .recovering } := by
      rw [← next]
      rfl
    have chip := h.pumps .chip
    have main := h.pumps .main
    rw [recovers, if_neg (by decide)] at chip main
    have targets : (∃ n g, y.pot.chip = { s.pot.chip with target := n, governing := g }) ∧ ∃ n g, y.pot.main = { s.pot.main with target := n, governing := g } := by
      rw [potH, shape, ← dropW]
      exact ⟨⟨_, _, rfl⟩, _, _, rfl⟩
    rw [pot]
    exact steady_follow targets.1 targets.2 ⟨chip, main⟩ steady
  obtain ⟨refZ, speedZ⟩ := reformConveyor_same (s := y) (by
    rw [track, h.ref]
    unfold conveyorRef
    rw [drop, demand]) follows
  refine ⟨?_, ⟨d, ?_⟩, ?_, ?_, ?_, ?_⟩
  · rw [reform_modes, modeStage_of_still h.rests.cooldown h.rests.economy]
  · rw [outfeedT, outfeedM, outfeedH, outfeed]
  · have target : potTarget w.reformZones.reformPumpTargets = potTarget s := by
      have modes : w.reformZones.reformPumpTargets.modes = s.modes := modesW
      have gate_ : w.reformZones.reformPumpTargets.gate = s.gate := gateW
      have port : w.reformZones.reformPumpTargets.port = s.port := portW
      unfold potTarget State.ws
      rw [modes, gate_, port]
    have formed : s.reform.thermal.pot = (w.thermal.pot.retarget (potTarget s)).formSettled s.thermal.auth := by
      rw [thermalT, thermalM, thermalH, shape, ← target, ← authW]
      rfl
    have aim := Loop.aim_formed aimW (potTarget s) s.thermal.auth
    rw [← formed, h.pot] at aim
    exact ⟨congrArg (fun a : Int × Bool × Nat => a.1) aim, congrArg (fun a : Int × Bool × Nat => a.2.1) aim⟩
  · rw [widthT, gateM, width]
  · rw [refT, p.conveyor, refZ, track]
  · rw [speedT, p.conveyor, speedZ, track]

end Sys2Proof.Machine
end



section
/-! What a command does to the width drive, the outfeed and the annunciators before its consequences (R57 to R60, R149, R154 to
R158). -/

namespace Sys2Proof.Machine

open Sys2Proof.Config

/-- The width drive; the outfeed state, the stop request and BOARD_AVAILABLE_OUT; HORN and BEACON; the exit eye. -/
def State.lineView (s : State) :
    Width × (OutfeedState × Bool × Bool × BitVec 8) × (Bool × BitVec 8 × Bool × BitVec 8) × Bool :=
  (s.gate.width, (s.outfeed.state, s.outfeed.stop, s.outfeed.available, s.outfeed.availableCount),
    (s.extr.horn, s.extr.hornCount, s.extr.beacon, s.extr.beaconCount), s.track.exitEye.accepted)

/-- The view with the exit eye at `b`. -/
def State.lineViewAt (s : State) (b : Bool) :
    Width × (OutfeedState × Bool × Bool × BitVec 8) × (Bool × BitVec 8 × Bool × BitVec 8) × Bool :=
  (s.lineView.1, s.lineView.2.1, s.lineView.2.2.1, b)

@[simp] theorem lineView_enterMode (s : State) (m : Mode) : (s.enterMode m).lineView = s.lineView := by
  unfold State.enterMode
  split
  · rfl
  · cases m <;> rfl

@[simp] theorem lineView_raiseCause (s : State) (c : HaltCause) : (s.raiseCause c).lineView = s.lineView := by
  unfold State.raiseCause
  split
  · rfl
  · dsimp only
    split
    · exact lineView_enterMode _ _
    · rfl

@[simp] theorem lineView_raiseIf (s : State) (b : Bool) (c : HaltCause) : (s.raiseIf b c).lineView = s.lineView := by
  unfold State.raiseIf
  split
  · exact lineView_raiseCause s c
  · rfl

@[simp] theorem lineView_trackFault (s : State) : (s.trackFault).lineView = s.lineView := lineView_raiseIf _ _ _

@[simp] theorem lineView_setOverflow (s : State) : (s.setOverflow).lineView = s.lineView := lineView_trackFault _

@[simp] theorem lineView_setPhantom (s : State) : (s.setPhantom).lineView = s.lineView := lineView_trackFault _

@[simp] theorem lineView_disown (s : State) : (s.disown).lineView = s.lineView := rfl

@[simp] theorem lineView_modeStage (s : State) : (s.modeStage).lineView = s.lineView := by
  unfold State.modeStage
  split
  · exact lineView_enterMode s _
  · split
    · exact lineView_enterMode s _
    · rfl

@[simp] theorem lineView_cutPulses (s : State) (p : Pulse → Bool) (b : Bool) : (s.cutPulses p b).lineView = s.lineView := by
  rw [uncredited_frame (cutPulses_ends s p b).rest]
  rfl

@[simp] theorem lineView_finishPulses (s : State) : (s.finishPulses).lineView = s.lineView := lineView_cutPulses s _ _

@[simp] theorem lineView_startPurge (s : State) (n : Nat) : (s.startPurge n).lineView = s.lineView := lineView_cutPulses s (fun _ => true) true

@[simp] theorem lineView_creditPurge (s : State) : (s.creditPurge).lineView = s.lineView := by
  unfold State.creditPurge
  split <;> rfl

@[simp] theorem lineView_endPurge (s : State) : (s.endPurge).lineView = s.lineView := by
  rw [endPurge_frame]
  rfl

@[simp] theorem lineView_admitBoard (s : State) (p : Pos) (o : Offer) (late : Bool) :
    (s.admitBoard p o late).lineView = s.lineView := by
  have slot : ∀ a : State, (a.bindSlot o).lineView = a.lineView := fun a => by unfold State.bindSlot; split <;> rfl
  have edges : ∀ (a : State) (n : BitVec 16), (a.scheduleEdges n p o).lineView = a.lineView := fun a n => by
    unfold State.scheduleEdges; split <;> rfl
  unfold State.admitBoard
  exact (edges _ _).trans (slot _)

@[simp] theorem lineView_handLeading (s : State) (p : Pos) : (s.handLeading p).lineView = s.lineView := by
  unfold State.handLeading
  split
  · exact lineView_admitBoard s p _ false
  · exact lineView_admitBoard s p _ true
  · rfl

@[simp] theorem lineView_appendAtBar (s : State) : (s.appendAtBar).lineView = s.lineView := by
  unfold State.appendAtBar
  split
  · split
    · exact lineView_endPurge s
    · rfl
  · rfl

@[simp] theorem lineView_clamp (s : State) (r : Record) (l : Nat) : (s.clamp r l).lineView = s.lineView := by
  unfold State.clamp
  split
  · rfl
  · exact lineView_cutPulses s _ true

@[simp] theorem lineView_takeTrail (s : State) (p : Pos) : (s.takeTrail p).lineView = s.lineView := by
  unfold State.takeTrail
  split
  · exact lineView_clamp _ _ _
  · rfl

@[simp] theorem lineView_handTrailing (s : State) : (s.handTrailing).lineView = s.lineView := by
  unfold State.handTrailing
  split <;> rfl

@[simp] theorem lineView_closeRecord (s : State) (p : Record → Bool) (r : Record) (o : CloseOutcome) (l : Nat) : (s.closeRecord p r o l).lineView = s.lineView := by
  have report : (s.reportClose r o l).lineView = s.lineView := by unfold State.reportClose; split <;> rfl
  exact (lineView_cutPulses (s.reportClose r o l) (fun u => u.ordinal == r.ordinal) false).trans report

@[simp] theorem lineView_closeLost (n : Nat) (s : State) : (s.closeLost n).lineView = s.lineView := by
  induction n generalizing s with
  | zero => rfl
  | succ k ih =>
    unfold State.closeLost
    split
    · exact (ih _).trans (lineView_closeRecord s _ _ _ _)
    · rfl

theorem lineView_raiseLost (s : State) : s.raiseLost.lineView = s.lineView := (lineView_raiseCause _ _).trans (lineView_modeStage s)

@[simp] theorem lineView_loseBoards (s : State) : (s.loseBoards).lineView = s.lineView := by
  unfold State.loseBoards
  split
  · exact (lineView_raiseLost _).trans (lineView_closeLost _ s)
  · rfl

@[simp] theorem lineView_loseWaiting (s : State) : (s.loseWaiting).lineView = s.lineView := by
  unfold State.loseWaiting
  split
  · exact ((lineView_raiseLost _).trans (lineView_closeLost _ _)).trans (lineView_closeRecord s _ _ _ _)
  · rfl

@[simp] theorem lineView_markZoneFault (s : State) (z : Zone) : (s.markZoneFault z).lineView = s.lineView := rfl

@[simp] theorem lineView_markInputFault (s : State) (k : Idx8) : (s.markInputFault k).lineView = s.lineView := by
  unfold State.markInputFault
  split
  · split <;> rfl
  · rfl

@[simp] theorem lineView_latchInput (s : State) (k : Idx8) : (s.latchInput k).lineView = s.lineView := by
  unfold State.latchInput
  split <;> rfl

@[simp] theorem lineView_testLimit (s : State) (k : Idx8) : (s.testLimit k).lineView = s.lineView := (lineView_raiseIf _ _ _).trans (lineView_latchInput s k)

@[simp] theorem lineView_setAuth (s : State) (b : Bool) : (s.setAuth b).lineView = s.lineView := rfl

@[simp] theorem lineView_rawEye (s : State) (e : Eye) (b : Bool) : (s.rawEye e b).lineView = s.lineView := by
  have same : ∀ q : Qualifier, (q.raw b s.track.pos).accepted = q.accepted := fun q => by
    unfold Qualifier.raw
    split <;> rfl
  cases e with
  | entry => rfl
  | exit =>
    unfold State.lineView
    exact congrArg (fun b => (s.gate.width, (s.outfeed.state, s.outfeed.stop, s.outfeed.available, s.outfeed.availableCount),
      (s.extr.horn, s.extr.hornCount, s.extr.beacon, s.extr.beaconCount), b)) (same s.track.exitEye)

@[simp] theorem lineView_holdValve (s : State) (k : Idx8) (u : Pulse) : (s.holdValve k u).lineView = s.lineView := by
  unfold State.holdValve
  split <;> rfl

@[simp] theorem lineView_endPulse (s : State) (k : Idx8) (u : Pulse) (n : Nat) (b : Bool) : (s.endPulse k u n b).lineView = s.lineView := by
  rfl

@[simp] theorem lineView_boundary (s : State) : (s.boundary).lineView = s.lineView := rfl

@[simp] theorem lineView_wakeOn (s : State) (b : Bool) : (s.wakeOn b).lineView = s.lineView := by
  unfold State.wakeOn
  split
  · exact lineView_enterMode s _
  · rfl

@[simp] theorem lineView_takeSetup (s : State) (c : Setup) : (s.takeSetup c).lineView = s.lineView := by
  unfold State.takeSetup
  dsimp only
  split <;> rfl

@[simp] theorem lineView_leaveHalt (s : State) : s.leaveHalt.lineView = s.lineView := by
  unfold State.leaveHalt
  split
  · exact lineView_enterMode s _
  · rfl


theorem lineView_raiseCause_of {s a : State} (h : a.lineView.2 = s.lineView.2) (c : HaltCause) : (a.raiseCause c).lineView.2 = s.lineView.2 :=
  (congrArg Prod.snd (lineView_raiseCause a c)).trans h

theorem lineView_faultWidth (s : State) : s.faultWidth.lineView.2 = s.lineView.2 := lineView_raiseCause_of (by rfl) _

theorem lineView_superviseLimit (s : State) : s.superviseLimit.lineView.2 = s.lineView.2 := by
  unfold State.superviseLimit
  split
  · exact lineView_faultWidth s
  · rfl

@[simp] theorem lineView_latchZones (s : State) : s.latchZones.lineView = s.lineView := by
  have zone : ∀ (a : State) (z : Zone), (a.latchZone z).lineView = a.lineView := fun a z => by
    unfold State.latchZone
    dsimp only
    split <;> rfl
  simp [State.latchZones, allZones, zone]

@[simp] theorem lineView_sampleAll (s : State) (i : Readings) : (s.sampleAll i).lineView = s.lineView := by
  obtain ⟨a, ha⟩ : ∃ a, (s.sampleSpeed.sampleInputs i.temps).latchZones = a := ⟨_, rfl⟩
  obtain ⟨b, hb⟩ : ∃ b, (a.sampleExtraction i).samplePumps i.chipRpm i.mainRpm = b := ⟨_, rfl⟩
  obtain ⟨x, hx⟩ : ∃ x, (b.sampleLevel i.level).samplePressure i.pressure = x := ⟨_, rfl⟩
  have whole : s.sampleAll i = { (x.sampleTank i.tankEmpty).sampleContact with
      pot := { (x.sampleTank i.tankEmpty).sampleContact.pot with feedTest := true } } := by
    rw [← hx, ← hb, ← ha]
    rfl
  have first : a.lineView = s.lineView := by
    have speed : s.sampleSpeed.track.exitEye = s.track.exitEye := by
      show (s.track.window s.ws.countsPerMetre).exitEye = _
      unfold Track.window
      split <;> rfl
    rw [← ha, lineView_latchZones]
    unfold State.lineView
    rw [show (s.sampleSpeed.sampleInputs i.temps).track.exitEye = s.sampleSpeed.track.exitEye from rfl, speed]
    rfl
  have second : b.lineView = a.lineView := by
    rw [← hb]
    rfl
  have third : x.lineView = b.lineView := by
    rw [← hx]
    unfold State.sampleLevel
    split <;> rfl
  have tank : (x.sampleTank i.tankEmpty).lineView = x.lineView := by cases i.tankEmpty <;> rfl
  have last : (s.sampleAll i).lineView = (x.sampleTank i.tankEmpty).lineView := by
    rw [whole]
    rfl
  rw [last, tank, third, second, first]

/-- The commands that move or fault the width drive, or touch the outfeed. -/
inductive LineChange (s : State) : Instr → State → Prop
  | drives (c) (u) (old : s.gate.width.state ≠ .idle ∨ motionDue s = true) (rest : u.lineView.2 = s.lineView.2) : LineChange s c u
  | counts (d) : LineChange s (.encoderCount d) (s.countEncoder d)
  | edge (a : State) (b : Bool) (h : a.lineView = s.lineViewAt b) : LineChange s (.eyeChangeAccepted .exit) a.outfeedEdge.testStop
  | passes (a : State) (b : Bool) (h : a.lineView = s.lineViewAt b) : LineChange s (.eyeChangeAccepted .exit) a
  | sensor (a : State) (h : a.lineView = s.lineView) : LineChange s .endSensorEvent a.acceptSensor
  | clears (ws) (a : State) (h : a.lineView = s.lineView) : LineChange s (.clear ws) a.releaseFaults.removeCauses.leaveHalt

theorem Accepts.line {s q u : State} {c : Instr} {e : Ending} (h : Accepts q c e u) (same : q.lineView = s.lineView) :
    u.lineView = s.lineView ∨ LineChange s c u := by
  cases h with
  | loadSetup => exact .inl ((lineView_takeSetup q _).trans same)
  | start => exact .inl ((lineView_enterMode _ _).trans same)
  | shutdown => exact .inl ((lineView_enterMode q _).trans same)
  | shutdownHalted => exact .inl ((lineView_enterMode q _).trans same)
  | stop => exact .inl ((lineView_raiseCause q _).trans same)
  | clear ws => exact .inr (.clears ws q same)
  | economy => exact .inl ((lineView_enterMode q _).trans same)
  | wake => exact .inl ((lineView_enterMode q _).trans same)
  | purgeFluxer => exact .inl ((lineView_startPurge q _).trans same)
  | _ => exact .inl same

theorem outward_idle {w : Width} {o : Bool} (h : w.outward = some o) : w.state ≠ .idle := by
  intro idle
  unfold Width.outward at h
  rw [idle] at h
  cases h

theorem limitDue_idle {s : State} (h : limitDue s = true) : s.gate.width.state ≠ .idle := by
  unfold limitDue at h
  split at h
  · next o => exact outward_idle o
  · next o => exact outward_idle o
  · cases h

theorem turnInward_idle {w : Width} (h : w.turnInward.state ≠ .idle) : w.state ≠ .idle := by
  intro idle
  refine h ?_
  unfold Width.turnInward
  rw [if_neg (by rw [idle]; decide)]
  exact idle

/-- An operation on the drive alone, which leaves an IDLE drive as it is. -/
theorem LineChange.width {s u : State} (c : Instr) (w : Width) (hw : u.lineView = (w, s.lineView.2)) (still : s.gate.width.state = .idle → w = s.gate.width) :
    u.lineView = s.lineView ∨ LineChange s c u := by
  by_cases idle : s.gate.width.state = .idle
  · exact .inl (by rw [hw, still idle]; rfl)
  · exact .inr (.drives c u (.inl idle) (by rw [hw]))

theorem Effect.line {s u : State} {c : Instr} {e : Ending} (h : Effect s c e u) : u.lineView = s.lineView ∨ LineChange s c u := by
  cases h with
  | encoderCount d => exact .inr (.counts d)
  | rawEye e b => exact .inl (lineView_rawEye s e b)
  | dropLate b => exact .inl (lineView_rawEye s .entry b)
  | dropLost b => exact .inl ((lineView_loseWaiting _).trans (lineView_rawEye s .exit b))
  | dropPast b => exact .inl ((lineView_loseBoards _).trans (lineView_rawEye s .exit b))
  | overflow => exact .inl (lineView_setOverflow _)
  | phantom => exact .inl (lineView_setPhantom _)
  | entryLeading p => exact .inl ((lineView_appendAtBar _).trans (lineView_handLeading _ p))
  | entryTrailing p => exact .inl ((lineView_handTrailing _).trans (lineView_takeTrail _ p))
  | exitMatched p r => exact .inr (.edge _ _ rfl)
  | exitPhantom p => exact .inr (.edge _ _ (lineView_setPhantom _))
  | exitClosed => exact .inr (.passes _ _ (lineView_closeRecord _ _ _ _ _))
  | exitUnowned => exact .inr (.passes _ _ rfl)
  | entryJam => exact .inl (lineView_raiseCause _ _)
  | boardLost => exact .inl (lineView_loseBoards s)
  | interval i ws =>
    have raises : ∀ a : State, a.intervalRaises.lineView = a.lineView := fun a => by simp [State.intervalRaises]
    exact .inl ((raises _).trans (lineView_sampleAll _ i))
  | inputFault k => exact .inl ((lineView_raiseIf _ _ _).trans (lineView_markInputFault s k))
  | inputRecovery k => exact .inl (lineView_testLimit _ k)
  | inputFillingEnd k => exact .inl ((lineView_testLimit _ k).trans (lineView_raiseIf _ _ _))
  | conveyorSpeed => exact .inl (lineView_raiseCause _ _)
  | levelFlagChange f => exact .inl (lineView_raiseIf _ _ _)
  | vapourHalt => exact .inl (lineView_raiseCause _ _)
  | modulationBoundary =>
    have last : ∀ a : State, a.consumeEdges.startPulses.lineView = a.lineView := fun _ => rfl
    exact .inl ((last _).trans ((lineView_creditPurge _).trans (lineView_finishPulses _)))
  | lanePulseEnd k v => exact .inl ((lineView_holdValve _ k v).trans (lineView_endPulse _ k v _ true))
  | purgeDurationComplete g => exact .inl (lineView_endPurge _)
  | widthMotionStart h => exact .inr (.drives _ _ (.inr h) (lineView_superviseLimit _))
  | homingComplete h => exact .inr (.drives _ _ (.inl (by rw [eq_of_beq h]; decide)) rfl)
  | homingTravelExceeded h =>
    refine .inr (.drives _ _ (.inl fun idle => ?_) (lineView_faultWidth s))
    unfold homingExceeded at h
    rw [idle] at h
    cases h
  | widthMoveComplete h =>
    exact .inr (.drives _ _ (.inl (by rw [eq_of_beq (Bool.and_eq_true_iff.mp h).1]; decide)) rfl)
  | widthLimitFault e h => exact .inr (.drives _ _ (.inl (outward_idle h)) (lineView_faultWidth _))
  | thermostatContactOpen => exact .inl (lineView_raiseCause _ _)
  | estopInputActive => exact .inl (lineView_raiseCause _ _)
  | upstreamAvailableChange b => exact .inl (lineView_wakeOn _ b)
  | endSensorEvent p => exact .inr (.sensor _ rfl)
  | idleTimerExpiry r => exact .inl (lineView_enterMode _ _)
  | warmupComplete => exact .inl (lineView_enterMode s _)
  | heatAuthInvalid v => exact .inl (lineView_raiseCause _ _)
  | widthStepperStep =>
    refine LineChange.width _ s.gate.width.step rfl fun idle => ?_
    unfold Width.step
    rw [idle]
  | homeSwitchFault h => exact .inr (.drives _ _ (.inl (turnInward_idle (limitDue_idle h))) (lineView_faultWidth _))
  | homeSwitchInactive =>
    refine LineChange.width _ s.gate.width.turnInward rfl fun idle => ?_
    unfold Width.turnInward
    rw [if_neg (by rw [idle]; decide)]
  | refused c code q rc f hp hq => exact .inl (by rw [hq.blocks.1]; rfl)
  | accepted c code q e u hp hq hr ha => exact ha.line (by rw [hq.blocks.1]; rfl)
  | alarmActivation k => exact .inl rfl
  | startGraceEnd x r => exact .inl (by cases x <;> rfl)
  | _ => exact .inl rfl

end Sys2Proof.Machine
end



section
/-! The line class, its phase and its target over the consequences of a step (R51 to R56). -/

namespace Sys2Proof.Machine

open Sys2Proof.Config

/-! ## What stands re-formed -/

theorem runDemand_congr {s t : State} (mode : t.modes.mode = s.modes.mode) (class_ : t.gate.lineClass.isSome = s.gate.lineClass.isSome)
    (stop : t.outfeed.stop = s.outfeed.stop) (width : t.gate.width = s.gate.width) (named : t.gate.namedClass = s.gate.namedClass) :
    runDemand t = runDemand s := by
  unfold runDemand namedSpeed
  rw [mode, class_, stop, width, named]

theorem stretchEmpty_congr {s t : State} (track : t.track = s.track) (setup : t.port.setup = s.port.setup) : stretchEmpty t = stretchEmpty s := by
  unfold stretchEmpty
  rw [SameGround.inWaveStretch (s := s) (t := t) ⟨by rw [track], setup⟩, track]

theorem namedWidth_congr {s t : State} (h : t.gate.namedClass = s.gate.namedClass) : namedWidth t = namedWidth s := by
  unfold namedWidth
  rw [h]

theorem potTarget_congr {s t : State} (mode : t.modes.mode = s.modes.mode) (named : t.gate.namedClass = s.gate.namedClass)
    (setup : t.port.setup = s.port.setup) : potTarget t = potTarget s := by
  unfold potTarget State.ws
  rw [mode, named, setup]

theorem widthMayMove_congr {s t : State} (kept : Kept s t) (mode : t.modes.mode = s.modes.mode) (outfeed : t.outfeed.state = s.outfeed.state) :
    widthMayMove t = widthMayMove s := by
  unfold widthMayMove
  rw [mode, kept.records_isEmpty, outfeed]

/-- The gate's own operations leave a re-formed state re-formed, where the named class stands. -/
theorem Reformed.congr {s t : State} (h : Reformed s) (rests : Rests t) (kept : Kept s t) (mode : t.modes.mode = s.modes.mode)
    (outfeed : t.outfeed = s.outfeed) (thermal : t.thermal = s.thermal) (pot : t.pot = s.pot) (track : t.track = s.track)
    (width : t.gate.width = s.gate.width) (named : t.gate.namedClass = s.gate.namedClass)
    (class_ : t.gate.lineClass.isSome = s.gate.lineClass.isSome) : Reformed t := by
  have setup := kept.keeps.portSetup
  have demand : runDemand t = runDemand s := runDemand_congr mode class_ (by rw [outfeed]) width named
  refine ⟨rests, ?_, ?_, ?_, ?_, ?_, ?_⟩
  · rw [reformOutfeed_congr kept mode outfeed, outfeed]
    exact h.outfeed
  · rw [thermal, potTarget_congr mode named setup]
    exact h.pot
  · have shape : ∀ v : State, v.reformWidth.gate.width =
        if widthMayMove v then v.gate.width.retarget (namedWidth v) else v.gate.width.halt := fun _ => rfl
    rw [shape, widthMayMove_congr kept mode (by rw [outfeed]), namedWidth_congr named, width, ← shape]
    exact h.width
  · rw [track, h.ref]
    unfold conveyorRef
    rw [pot, demand]
  · rw [pot, demand, stretchEmpty_congr track setup]
    exact h.held
  · intro w
    rw [pot]
    exact h.pumps w

theorem reformConveyor_ref (s : State) : s.reformConveyor.track.ref = conveyorRef s.reformConveyor := by
  obtain ⟨u, h⟩ := conveyor_parts s
  rw [h.ref.1]
  have demand : runDemand s.reformConveyor = runDemand u := h.demand.2.trans h.demand.1.symm
  have last := h.last_drop
  by_cases starts : dropStarts u = true
  · have zero : conveyorRef u = 0 := by
      unfold dropStarts conveyorStops at starts
      obtain ⟨⟨⟨-, zero⟩, -⟩, -⟩ : ((_ ∧ conveyorRef u = 0) ∧ u.pot.drop = .none) ∧ _ := by
        simpa [and_assoc] using starts
      exact zero
    rw [if_pos starts] at last
    rw [zero]
    unfold conveyorRef
    rw [last, if_neg (by decide)]
  · rw [if_neg starts] at last
    unfold conveyorRef
    rw [last, demand]

theorem reformConveyor_pumps (s : State) : PumpsFormed s.reformConveyor := by
  intro w
  unfold State.reformConveyor
  generalize s.followDrop.endDrop.reformRef = u
  cases w <;> simp [State.reformPumpRefs, Pot.pump, Pump.follow_ref, Pump.follow_target]

/-- Naming a class re-forms the pot target, the width drive and the conveyor (R52). -/
theorem reformed_nameClass {s : State} (rests : Rests s) (outfeed : s.reformOutfeed.outfeed = s.outfeed) : Reformed s.nameClass := by
  obtain ⟨y, hy⟩ : ∃ y, s.reformPotTarget.reformWidth = y := ⟨_, rfl⟩
  have whole : s.nameClass = y.reformConveyor := by rw [← hy]; rfl
  have conveyor : y.reformConveyor.thermal = y.thermal ∧ y.reformConveyor.gate = y.gate ∧ y.reformConveyor.modes = y.modes ∧
      y.reformConveyor.port = y.port ∧ y.reformConveyor.outfeed = y.outfeed := by
    have ref : ∀ u : State, u.reformRef.thermal = u.thermal ∧ u.reformRef.gate = u.gate ∧ u.reformRef.modes = u.modes ∧
        u.reformRef.port = u.port ∧ u.reformRef.outfeed = u.outfeed := fun u => ⟨rfl, rfl, rfl, rfl, rfl⟩
    exact ref y.followDrop.endDrop
  obtain ⟨thermalC, gateC, modesC, portC, outfeedC⟩ := conveyor
  obtain ⟨thermalY, modesY, portY, outfeedY, namedY, widthY⟩ : y.thermal = s.reformPotTarget.thermal ∧ y.modes = s.modes ∧ y.port = s.port ∧
      y.outfeed = s.outfeed ∧ y.gate.namedClass = s.gate.namedClass ∧ y.gate.width = s.reformWidth.gate.width := by
    rw [← hy]
    exact ⟨rfl, rfl, rfl, rfl, rfl, rfl⟩
  have kept : Kept s s.nameClass := kept_nameClass s
  have named : s.nameClass.gate.namedClass = s.gate.namedClass := by rw [whole, gateC, namedY]
  have mode : s.nameClass.modes.mode = s.modes.mode := by rw [whole, modesC, modesY]
  have same : s.nameClass.outfeed = s.outfeed := by rw [whole, outfeedC, outfeedY]
  refine ⟨((moves_nameClass s).calm rests).2, ?_, ?_, ?_, ?_, ?_, ?_⟩
  · rw [reformOutfeed_congr kept mode same, same]
    exact outfeed
  · have pot : s.nameClass.thermal.pot = (s.thermal.pot.retarget (potTarget s)).formSettled s.thermal.auth := by
      rw [whole, thermalC, thermalY]
      rfl
    have auth : s.nameClass.thermal.auth = s.thermal.auth := by
      rw [whole, thermalC, thermalY]
      rfl
    rw [potTarget_congr mode named (kept.keeps.portSetup), pot, auth]
    exact Loop.retarget_formSettled _ _ _
  · have shape : ∀ v : State, v.reformWidth.gate.width =
        if widthMayMove v then v.gate.width.retarget (namedWidth v) else v.gate.width.halt := fun _ => rfl
    have may : widthMayMove s.nameClass = widthMayMove s.reformWidth :=
      (widthMayMove_congr kept mode (by rw [same]) : widthMayMove s.nameClass = widthMayMove s)
    have wide : namedWidth s.nameClass = namedWidth s.reformWidth :=
      (namedWidth_congr named : namedWidth s.nameClass = namedWidth s)
    have width : s.nameClass.gate.width = s.reformWidth.gate.width := by rw [whole, gateC, widthY]
    rw [shape, may, wide, width, ← shape]
    exact reformWidth_reformWidth s
  · rw [whole]
    exact reformConveyor_ref y
  · rw [whole]
    exact reformConveyor_held y
  · rw [whole]
    exact reformConveyor_pumps y

/-! ## The class through the stages -/

/-- The line class, the phase and the target stand as their rules have it, and have come from the class `c` as R53 to R55 let them;
`early` says that the step began with phase NONE or DRAINING. -/
structure ClassStands (c : Option LineClass) (early : Prop) (x : State) : Prop where
  formed : ClassFormed x
  drained : early → x.gate.phase = .moving ∨ x.gate.phase = .settling → MachineEmpty x
  classless : c ≠ none → x.gate.lineClass = none → x.modes.mode ≠ .warmup
  changed : ∀ a ∈ c, ∀ d ∈ x.gate.lineClass, a ≠ d → x.gate.width.state = .idle ∧ x.gate.width.pos = d.width ∧
    (x.gate.phase = .none ∨ x.gate.phase = .draining → classStable x = true)

/-- A stage that leaves the mode, the class, its phase and target, and the stability. -/
structure ClassQuiet (s t : State) : Prop where
  kept : Kept s t
  width : s.gate.width.inMotion = false → t.gate.width = s.gate.width
  empty : t.outfeed.state = .empty ↔ s.outfeed.state = .empty
  mode : t.modes.mode = s.modes.mode
  lineClass : t.gate.lineClass = s.gate.lineClass
  phase : t.gate.phase = s.gate.phase
  target : t.gate.target = s.gate.target

theorem idle_still {w : Width} (h : w.state = .idle) : w.inMotion = false := by
  unfold Width.inMotion
  rw [h]

theorem ClassQuiet.idle {s t : State} (h : ClassQuiet s t) (idle : s.gate.width.state = .idle) : t.gate.width = s.gate.width :=
  h.width (idle_still idle)

theorem MachineEmpty.kept {s t : State} (h : MachineEmpty s) (kept : Kept s t) (outfeed : t.outfeed.state = .empty ↔ s.outfeed.state = .empty) :
    MachineEmpty t := by
  obtain ⟨records, empty⟩ := h
  refine ⟨?_, outfeed.mpr empty⟩
  have e := kept.records_isEmpty
  rw [records] at e
  exact List.isEmpty_iff.mp e

theorem ClassFormed.quiet {s t : State} (h : ClassFormed s) (q : ClassQuiet s t) : ClassFormed t := by
  obtain ⟨target, lineClass, draining, settling, off, modes⟩ := h
  refine ⟨?_, ?_, ?_, ?_, ?_, ?_⟩
  · rw [q.phase, q.target]; exact target
  · rw [q.phase, q.lineClass]; exact lineClass
  · rw [q.phase, q.target, q.lineClass]; exact draining
  · rw [q.phase, q.target]
    intro g
    obtain ⟨idle, wide⟩ := settling g
    rw [q.idle idle]
    exact ⟨idle, wide⟩
  · rw [q.mode, q.lineClass]; exact off
  · rw [q.mode, q.phase]; exact modes

theorem ClassStands.quiet {c : Option LineClass} {early : Prop} {s t : State} (h : ClassStands c early s) (q : ClassQuiet s t)
    (stable : c ≠ none → classStable s = true → classStable t = true) : ClassStands c early t := by
  refine ⟨h.formed.quiet q, ?_, ?_, ?_⟩
  · rw [q.phase]
    exact fun e g => (h.drained e g).kept q.kept q.empty
  · rw [q.lineClass, q.mode]
    exact h.classless
  · rw [q.lineClass, q.phase]
    intro a ha d hd ne
    obtain ⟨idle, pos, last⟩ := h.changed a ha d hd ne
    rw [q.idle idle]
    exact ⟨idle, pos, fun g => stable (by rintro rfl; cases ha) (last g)⟩

/-! ## The re-forming -/

theorem reform_class (s : State) : s.reform.gate.lineClass = s.modeStage.gate.lineClass ∧ s.reform.gate.phase = s.modeStage.gate.phase ∧
    s.reform.gate.target = s.modeStage.gate.target := by
  have inhibit : ∀ v : State, v.reformInhibit.gate = v.gate := fun v => by simp
  have rest : ∀ v : State, v.cutGrants.reformTargets.reformMotion.reformWaits.reformIdle.reformLine.gate.lineClass = v.gate.lineClass ∧
      v.cutGrants.reformTargets.reformMotion.reformWaits.reformIdle.reformLine.gate.phase = v.gate.phase ∧
      v.cutGrants.reformTargets.reformMotion.reformWaits.reformIdle.reformLine.gate.target = v.gate.target := fun v => ⟨rfl, rfl, rfl⟩
  have whole : s.reform = s.beforeInhibit.reformInhibit.cutGrants.reformTargets.reformMotion.reformWaits.reformIdle.reformLine := rfl
  have first : s.beforeInhibit.gate = s.modeStage.gate := rfl
  rw [whole, (rest _).1, (rest _).2.1, (rest _).2.2, inhibit, first]
  exact ⟨rfl, rfl, rfl⟩

theorem reform_quiet (s : State) (still : s.modeStage = s) : ClassQuiet s s.reform := by
  obtain ⟨lineClass, phase, target⟩ := reform_class s
  rw [still] at lineClass phase target
  refine ⟨kept_reform s, (follows_reform s).width, (follows_reform s).outfeed.empty_iff, ?_, lineClass, phase, target⟩
  rw [(mode_of_modes (reform_modes s)).1, still]

theorem Reformed.still {s : State} (h : Reformed s) : s.modeStage = s := modeStage_of_still h.rests.cooldown h.rests.economy

theorem ClassFormed.enter {s : State} (h : ClassFormed s) {m : Mode} (hm : m = .off ∨ m = .economy ∨ m = .cooldown) :
    ClassFormed (s.enterMode m) := by
  by_cases same : s.modes.mode = m
  · unfold State.enterMode
    rw [if_pos same]
    exact h
  · rw [enterMode_of_ne same]
    rcases hm with rfl | rfl | rfl
    · exact ⟨⟨fun _ => rfl, fun _ => rfl⟩, fun g => absurd rfl g, nofun, nofun, fun _ => rfl, fun _ => rfl⟩
    · exact ⟨⟨fun _ => rfl, fun _ => rfl⟩, fun g => absurd rfl g, nofun, nofun, nofun, fun _ => rfl⟩
    · exact ⟨⟨fun _ => rfl, fun _ => rfl⟩, fun g => absurd rfl g, nofun, nofun, nofun, fun _ => rfl⟩

/-- The line class is the one the step began with, or none. -/
def OldClass (c : Option LineClass) (x : State) : Prop := ∀ a ∈ c, ∀ d ∈ x.gate.lineClass, a = d

/-- While the class is the old one, or none, the entry to a mode without changeover keeps the rules. -/
theorem ClassStands.enter {c : Option LineClass} {early : Prop} {s : State} (h : ClassStands c early s) (old : OldClass c s) {m : Mode}
    (hm : m = .off ∨ m = .economy ∨ m = .cooldown) : ClassStands c early (s.enterMode m) ∧ OldClass c (s.enterMode m) := by
  have formed := h.formed.enter hm
  have mode := enterMode_mode s m
  have phase : (s.enterMode m).gate.phase = .none := formed.modes (by rw [mode]; exact hm)
  have class_ : ∀ d ∈ (s.enterMode m).gate.lineClass, d ∈ s.gate.lineClass := by
    unfold State.enterMode
    split
    · exact fun d hd => hd
    · rcases hm with rfl | rfl | rfl
      · exact fun d hd => by cases hd
      · exact fun d hd => hd
      · exact fun d hd => hd
  refine ⟨⟨formed, ?_, ?_, ?_⟩, fun a ha d hd => old a ha d (class_ d hd)⟩
  · rintro - g
    rw [phase] at g
    rcases g with g | g <;> cases g
  · intro _ _
    rw [mode]
    rcases hm with rfl | rfl | rfl <;> decide
  · exact fun a ha d hd ne => absurd (old a ha d (class_ d hd)) ne

theorem ClassStands.modeStage {c : Option LineClass} {early : Prop} {s : State} (h : ClassStands c early s) (old : OldClass c s) :
    ClassStands c early s.modeStage ∧ OldClass c s.modeStage := by
  rcases modeStage_cases s with e | ⟨-, -, e⟩ | ⟨-, -, -, e⟩ <;> rw [e]
  · exact ⟨h, old⟩
  · exact h.enter old (.inl rfl)
  · exact h.enter old (.inr (.inl rfl))

/-- The first re-forming of a step. -/
theorem ClassStands.reform_first {c : Option LineClass} {early : Prop} {s : State} (h : ClassStands c early s)
    (old : OldClass c s) : ClassStands c early s.reform := by
  obtain ⟨first, still⟩ := h.modeStage old
  rw [← reform_modeStage]
  have q := reform_quiet s.modeStage (modeStage_modeStage s)
  refine ⟨first.formed.quiet q, ?_, ?_, ?_⟩
  · rw [q.phase]
    exact fun e g => (first.drained e g).kept q.kept q.empty
  · rw [q.lineClass, q.mode]
    exact first.classless
  · rw [q.lineClass]
    exact fun a ha d hd ne => absurd (still a ha d hd) ne

/-- A later re-forming of a step. -/
theorem ClassStands.reform_again {c : Option LineClass} {early : Prop} {s : State} (h : ClassStands c early s)
    (formed : c ≠ none → Reformed s) : ClassStands c early s.reform := by
  by_cases none_ : c = none
  · subst none_
    exact h.reform_first fun a ha => by cases ha
  · have r := formed none_
    refine h.quiet (reform_quiet s r.still) fun _ stable => ?_
    have same := r.reform
    unfold classStable at *
    rw [same.speed, same.pot.2]
    exact stable

end Sys2Proof.Machine
end



section
/-! The changeover over the consequences of a step (R51 to R56). -/

namespace Sys2Proof.Machine

open Sys2Proof.Config

/-- The class stands by its rules, in a state that is re-formed where the step began with a line class. -/
structure ClassSat (c : Option LineClass) (early : Prop) (x : State) : Prop where
  stands : ClassStands c early x
  formed : c ≠ none → Reformed x

/-- An operation on the gate's own state, the docket unit or the notices. -/
structure GateOnly (s t : State) : Prop where
  moves : Moves s t
  mode : t.modes = s.modes
  outfeed : t.outfeed = s.outfeed
  thermal : t.thermal = s.thermal
  pot : t.pot = s.pot
  track : t.track = s.track
  width : t.gate.width = s.gate.width
  lineClass : t.gate.lineClass = s.gate.lineClass
  phase : t.gate.phase = s.gate.phase
  target : t.gate.target = s.gate.target

theorem Moves.kept {s t : State} (h : Moves s t) : Kept s t := h.lift Kept.refl Kept.trans Move.kept

theorem GateOnly.named {s t : State} (h : GateOnly s t) : t.gate.namedClass = s.gate.namedClass := by
  unfold Gate.namedClass
  rw [h.phase, h.target, h.lineClass]

theorem GateOnly.reformed {s t : State} (h : GateOnly s t) (r : Reformed s) : Reformed t :=
  r.congr (h.moves.calm r.rests).2 h.moves.kept (by rw [h.mode]) h.outfeed h.thermal h.pot h.track h.width h.named (by rw [h.lineClass])

theorem ClassSat.gateOnly {c : Option LineClass} {early : Prop} {s t : State} (h : ClassSat c early s) (g : GateOnly s t) :
    ClassSat c early t := by
  have quiet : ClassQuiet s t :=
    ⟨g.moves.kept, fun _ => g.width, by rw [g.outfeed], by rw [g.mode], g.lineClass, g.phase, g.target⟩
  refine ⟨h.stands.quiet quiet fun _ stable => ?_, fun ne => g.reformed (h.formed ne)⟩
  unfold classStable
  rw [g.track, g.thermal]
  exact stable

theorem gateOnly_reformDocket (s : State) : GateOnly s s.reformDocket :=
  ⟨moves_reformDocket s, by simp, by simp, by simp, by simp, by simp, by simp, by simp, by simp, by simp⟩

theorem gateOnly_takeHolds (s : State) : GateOnly s s.takeHolds :=
  ⟨(Move.holds s).one, rfl, rfl, rfl, rfl, rfl, rfl, rfl, rfl, rfl⟩

theorem gateOnly_gateTransition (s : State) : GateOnly s s.gateTransition := by
  have gate : s.gateTransition.gate.width = s.gate.width ∧ s.gateTransition.gate.lineClass = s.gate.lineClass ∧
      s.gateTransition.gate.phase = s.gate.phase ∧ s.gateTransition.gate.target = s.gate.target := by
    have opens : s.openGate.gate.width = s.gate.width ∧ s.openGate.gate.lineClass = s.gate.lineClass ∧
        s.openGate.gate.phase = s.gate.phase ∧ s.openGate.gate.target = s.gate.target := by
      unfold State.openGate
      split <;> exact ⟨rfl, rfl, rfl, rfl⟩
    unfold State.gateTransition
    split
    · split
      · exact opens
      · exact ⟨rfl, rfl, rfl, rfl⟩
    · split
      · exact ⟨rfl, rfl, rfl, rfl⟩
      · split <;> exact ⟨rfl, rfl, rfl, rfl⟩
    · split <;> exact ⟨rfl, rfl, rfl, rfl⟩
    · exact ⟨rfl, rfl, rfl, rfl⟩
  obtain ⟨width, lineClass, phase, target⟩ := gate
  exact ⟨(Move.transition s).one, by simp, by simp, by simp, by simp, by simp, width, lineClass, phase, target⟩

/-! ## The phases -/

/-- The state with a new phase, target and line class. -/
def State.rephase (s : State) (p : Phase) (t l : Option LineClass) : State :=
  { s with gate := { s.gate with phase := p, target := t, lineClass := l } }

theorem ClassSat.rephase {c : Option LineClass} {early : Prop} {s : State} {p : Phase} {t l : Option LineClass} (h : ClassSat c early s)
    (formed : ClassFormed (s.rephase p t l)) (drained : early → p = .moving ∨ p = .settling → MachineEmpty s)
    (classless : c ≠ none → l = none → s.modes.mode ≠ .warmup)
    (changed : ∀ a ∈ c, ∀ d ∈ l, a ≠ d → s.gate.width.state = .idle ∧ s.gate.width.pos = d.width ∧
      (p = .none ∨ p = .draining → classStable s = true))
    (named : (s.rephase p t l).gate.namedClass = s.gate.namedClass) (class_ : l.isSome = s.gate.lineClass.isSome) :
    ClassSat c early (s.rephase p t l) := by
  refine ⟨⟨formed, drained, classless, changed⟩, fun ne => ?_⟩
  have m : Moves s (s.rephase p t l) := (Move.phase s p t l).one
  have r := h.formed ne
  exact r.congr (m.calm r.rests).2 m.kept rfl rfl rfl rfl rfl rfl named class_

theorem mode_of_changesOver {s : State} (m : s.modes.mode.changesOver = true) :
    s.modes.mode ≠ .off ∧ ¬ (s.modes.mode = .off ∨ s.modes.mode = .economy ∨ s.modes.mode = .cooldown) := by
  refine ⟨?_, ?_⟩
  · intro e
    rw [e] at m
    cases m
  · rintro (e | e | e) <;> rw [e] at m <;> cases m

variable {c : Option LineClass} {early : Prop} {s : State}

theorem ClassSat.none_ (h : ClassSat c early s) (m : s.modes.mode.changesOver = true) (phase : s.gate.phase = .none) :
    ClassSat c early s.phaseNone := by
  obtain ⟨notOff, notIdle⟩ := mode_of_changesOver m
  unfold State.phaseNone
  split
  · next a n class_ _ =>
    split
    · exact h
    · next ne =>
      refine h.rephase (p := .draining) (t := some n) (l := s.gate.lineClass) ?_ ?_ h.stands.classless ?_ ?_ rfl
      · refine ⟨⟨nofun, nofun⟩, fun _ => ?_, fun _ => ?_, nofun, fun g => absurd g notOff,
          fun g => absurd g notIdle⟩
        · show s.gate.lineClass ≠ none
          rw [class_]
          simp
        · show some n ≠ s.gate.lineClass
          rw [class_]
          simpa using ne
      · rintro - (g | g) <;> cases g
      · intro a ha d hd ne
        obtain ⟨idle, pos, last⟩ := h.stands.changed a ha d hd ne
        exact ⟨idle, pos, fun _ => last (.inl phase)⟩
      · show s.gate.lineClass = s.gate.namedClass
        unfold Gate.namedClass
        rw [phase]
  · exact h

/-- The changeover ends without effect (R53). -/
theorem ClassSat.noChange (h : ClassSat c early s) (m : s.modes.mode.changesOver = true) (phase : s.gate.phase = .draining) :
    ClassSat c early { s with gate := s.gate.noChange } := by
  obtain ⟨notOff, notIdle⟩ := mode_of_changesOver m
  refine h.rephase (p := .none) (t := none) (l := s.gate.lineClass) ?_ ?_ h.stands.classless ?_ ?_ rfl
  · exact ⟨⟨fun _ => rfl, fun _ => rfl⟩, fun g => absurd rfl g, nofun, nofun, fun g => absurd g notOff,
      fun g => absurd g notIdle⟩
  · rintro - (g | g) <;> cases g
  · intro a ha d hd ne
    obtain ⟨idle, pos, last⟩ := h.stands.changed a ha d hd ne
    exact ⟨idle, pos, fun _ => last (.inr phase)⟩
  · show s.gate.lineClass = s.gate.namedClass
    unfold Gate.namedClass
    rw [phase]

/-- What naming a class leaves. -/
structure Named (y t : State) : Prop where
  kept : Kept y t
  modes : t.modes = y.modes
  outfeed : t.outfeed = y.outfeed
  width : y.gate.width.inMotion = false → t.gate.width = y.gate.width
  lineClass : t.gate.lineClass = y.gate.lineClass
  phase : t.gate.phase = y.gate.phase
  target : t.gate.target = y.gate.target

theorem named_nameClass (y : State) : Named y y.nameClass := by
  have conveyor : ∀ u : State, u.reformConveyor.gate = u.gate ∧ u.reformConveyor.modes = u.modes ∧ u.reformConveyor.outfeed = u.outfeed := fun u => by
    have ref : ∀ v : State, v.reformRef.gate = v.gate ∧ v.reformRef.modes = v.modes ∧ v.reformRef.outfeed = v.outfeed :=
      fun v => ⟨rfl, rfl, rfl⟩
    exact ref u.followDrop.endDrop
  obtain ⟨gate, modes, outfeed⟩ := conveyor y.reformPotTarget.reformWidth
  exact ⟨kept_nameClass y, modes, outfeed, (follows_nameClass y).width, by rw [State.nameClass, gate]; rfl, by rw [State.nameClass, gate]; rfl,
    by rw [State.nameClass, gate]; rfl⟩

/-- Naming a new class leaves the state re-formed. -/
theorem ClassSat.named (h : ClassSat c early s) (p : Phase) (t : Option LineClass) (ne : c ≠ none) :
    Reformed (s.rephase p t s.gate.lineClass).nameClass := by
  have r := h.formed ne
  have m : Moves s (s.rephase p t s.gate.lineClass) := (Move.phase s _ _ _).one
  exact reformed_nameClass (m.calm r.rests).2 ((reformOutfeed_congr m.kept rfl rfl).trans r.outfeed)

theorem drained_iff (s : State) : drained s = true ↔ MachineEmpty s := by simp [MachineEmpty, drained]

theorem ClassSat.draining (h : ClassSat c early s) (m : s.modes.mode.changesOver = true) (phase : s.gate.phase = .draining) :
    ClassSat c early s.phaseDraining := by
  obtain ⟨notOff, notIdle⟩ := mode_of_changesOver m
  have class_ := h.stands.formed.lineClass (by rw [phase]; decide)
  unfold State.phaseDraining
  split
  · exact h.noChange m phase
  · next n _ =>
    split
    · exact h.noChange m phase
    · next differs =>
      split
      · next empty =>
        obtain ⟨y, hy⟩ : ∃ y, s.rephase .moving (some n) s.gate.lineClass = y := ⟨_, rfl⟩
        have g : Named y y.nameClass := named_nameClass y
        have machine : MachineEmpty y.nameClass := by
          have old : MachineEmpty y := by rw [← hy]; exact (drained_iff s).mp empty
          exact old.kept g.kept (by rw [g.outfeed])
        have phase_ : y.nameClass.gate.phase = .moving := by rw [g.phase, ← hy]; rfl
        have target_ : y.nameClass.gate.target = some n := by rw [g.target, ← hy]; rfl
        have line_ : y.nameClass.gate.lineClass = s.gate.lineClass := by rw [g.lineClass, ← hy]; rfl
        have modes_ : y.nameClass.modes = s.modes := by rw [g.modes, ← hy]; rfl
        have whole : ClassSat c early y.nameClass := by
          refine ⟨⟨?_, fun _ _ => machine, ?_, ?_⟩, ?_⟩
          · refine ⟨?_, fun _ => by rw [line_]; exact class_, ?_, ?_, ?_, ?_⟩
            · rw [phase_, target_]
              exact ⟨nofun, nofun⟩
            · rw [phase_]
              exact nofun
            · rw [phase_]
              exact nofun
            · rw [modes_]
              exact fun g => absurd g notOff
            · rw [modes_]
              exact fun g => absurd g notIdle
          · rw [line_, modes_]
            exact h.stands.classless
          · rw [line_, phase_]
            intro a ha d hd ne
            obtain ⟨idle, pos, -⟩ := h.stands.changed a ha d hd ne
            have still : y.nameClass.gate.width = s.gate.width := by
              have first : y.gate.width = s.gate.width := by rw [← hy]; rfl
              rw [g.width (by rw [first]; exact idle_still idle), first]
            rw [still]
            exact ⟨idle, pos, by rintro (g | g) <;> cases g⟩
          · intro ne
            rw [← hy]
            exact h.named _ _ ne
        rw [← hy] at whole
        exact whole
      · refine h.rephase (p := s.gate.phase) (t := some n) (l := s.gate.lineClass) ?_ ?_ h.stands.classless ?_ ?_ rfl
        · refine ⟨?_, fun _ => class_, fun _ e => differs e.symm, ?_, fun g => absurd g notOff, fun g => absurd g notIdle⟩
          · show s.gate.phase = .none ↔ _
            rw [phase]
            exact ⟨nofun, nofun⟩
          · show s.gate.phase = .settling → _
            rw [phase]
            exact nofun
        · rw [phase]
          rintro - (g | g) <;> cases g
        · exact h.stands.changed
        · show Gate.namedClass { s.gate with phase := s.gate.phase, target := some n, lineClass := s.gate.lineClass } = s.gate.namedClass
          unfold Gate.namedClass
          dsimp only
          rw [phase]

/-- MOVING and SETTLING keep or take their target (R54, R55); read as MOVING, the state stands by its rules. -/
theorem ClassSat.retarget (h : ClassSat c early s) (m : s.modes.mode.changesOver = true)
    (phase : s.gate.phase = .moving ∨ s.gate.phase = .settling) :
    Named { s with gate := { s.gate with target := s.retargetClass.gate.target } } s.retargetClass ∧ s.retargetClass.gate.target ≠ none ∧
      ClassSat c early (s.retargetClass.rephase .moving s.retargetClass.gate.target s.retargetClass.gate.lineClass) := by
  obtain ⟨notOff, notIdle⟩ := mode_of_changesOver m
  have class_ := h.stands.formed.lineClass (by rcases phase with g | g <;> rw [g] <;> decide)
  have old : s.gate.target ≠ none := fun g => by
    have none_ := h.stands.formed.target.mpr g
    rcases phase with g | g <;> rw [none_] at g <;> cases g
  have named : ∀ (x : State) (t : Option LineClass), (x.gate.phase = .moving ∨ x.gate.phase = .settling) → t = x.gate.target →
      (x.rephase .moving t x.gate.lineClass).gate.namedClass = x.gate.namedClass := fun x t ph e => by
    show t = x.gate.namedClass
    unfold Gate.namedClass
    rcases ph with g | g <;> rw [g, e]
  have stands : ∀ t : State, Named { s with gate := { s.gate with target := t.gate.target } } t → t.gate.target ≠ none → (c ≠ none → Reformed t) →
      ClassSat c early (t.rephase .moving t.gate.target t.gate.lineClass) := fun t g some_ r => by
    have lineClass : t.gate.lineClass = s.gate.lineClass := g.lineClass
    have modes : t.modes = s.modes := g.modes
    have ph : t.gate.phase = s.gate.phase := g.phase
    have kept : Kept s t := (Kept.of_core rfl rfl : Kept s { s with gate := { s.gate with target := t.gate.target } }).trans g.kept
    refine ⟨⟨?_, fun e _ => ?_, ?_, ?_⟩, fun ne => ?_⟩
    · refine ⟨⟨nofun, fun e => absurd e some_⟩, fun _ => ?_, nofun, nofun, fun e => ?_, fun e => ?_⟩
      · show t.gate.lineClass ≠ none
        rw [lineClass]; exact class_
      · have e' : t.modes.mode = .off := e
        rw [modes] at e'
        exact absurd e' notOff
      · have e' : t.modes.mode = .off ∨ t.modes.mode = .economy ∨ t.modes.mode = .cooldown := e
        rw [modes] at e'
        exact absurd e' notIdle
    · have empty : t.outfeed.state = s.outfeed.state := by rw [g.outfeed]
      exact ((h.stands.drained e phase).kept kept (by rw [empty]) : MachineEmpty t)
    · show c ≠ none → t.gate.lineClass = none → t.modes.mode ≠ .warmup
      rw [lineClass, modes]
      exact h.stands.classless
    · show ∀ a ∈ c, ∀ d ∈ t.gate.lineClass, a ≠ d → t.gate.width.state = .idle ∧ t.gate.width.pos = d.width ∧ _
      rw [lineClass]
      intro a ha d hd ne
      obtain ⟨idle, pos, -⟩ := h.stands.changed a ha d hd ne
      have still : t.gate.width = s.gate.width := g.width (idle_still idle)
      rw [still]
      exact ⟨idle, pos, by rintro (g | g) <;> cases g⟩
    · have mv : Moves t (t.rephase .moving t.gate.target t.gate.lineClass) := (Move.phase t _ _ _).one
      have rt := r ne
      exact rt.congr (mv.calm rt.rests).2 mv.kept rfl rfl rfl rfl rfl rfl (named t _ (by rw [ph]; exact phase) rfl) rfl
  have same : Named { s with gate := { s.gate with target := s.gate.target } } s :=
    ⟨Kept.refl s, rfl, rfl, fun _ => rfl, rfl, rfl, rfl⟩
  unfold State.retargetClass
  split
  · exact ⟨same, old, stands s same old h.formed⟩
  · next n _ =>
    split
    · exact ⟨same, old, stands s same old h.formed⟩
    · obtain ⟨y, hy⟩ : ∃ y, s.rephase s.gate.phase (some n) s.gate.lineClass = y := ⟨_, rfl⟩
      have whole : ({ s with gate := { s.gate with target := some n } } : State).nameClass = y.nameClass := by rw [← hy]; rfl
      rw [whole]
      have g : Named y y.nameClass := named_nameClass y
      have target : y.nameClass.gate.target = some n := by rw [g.target, ← hy]; rfl
      have shape : ({ s with gate := { s.gate with target := y.nameClass.gate.target } } : State) = y := by rw [target, ← hy]; rfl
      have some_ : y.nameClass.gate.target ≠ none := by rw [target]; simp
      have reformed : c ≠ none → Reformed y.nameClass := fun ne => by
        rw [← hy]
        exact h.named _ _ ne
      have g' : Named { s with gate := { s.gate with target := y.nameClass.gate.target } } y.nameClass := by rw [shape]; exact g
      exact ⟨g', some_, stands _ g' some_ reformed⟩

theorem rephase_same {x : State} {p : Phase} (h : x.gate.phase = p) : x.rephase p x.gate.target x.gate.lineClass = x := by
  unfold State.rephase
  rw [← h]

theorem ClassSat.moving (h : ClassSat c early s) (m : s.modes.mode.changesOver = true) (phase : s.gate.phase = .moving) :
    ClassSat c early s.phaseMoving := by
  obtain ⟨g, some_, sat⟩ := h.retarget m (.inl phase)
  unfold State.phaseMoving
  dsimp only
  obtain ⟨x, hx⟩ : ∃ x, s.retargetClass = x := ⟨_, rfl⟩
  rw [hx] at g some_ sat ⊢
  have ph : x.gate.phase = .moving := g.phase.trans phase
  rw [rephase_same ph] at sat
  split
  · next t ht =>
    split
    · next arrived =>
      obtain ⟨idle, pos⟩ := Bool.and_eq_true_iff.mp arrived
      have formed := sat.stands.formed
      refine sat.rephase (p := .settling) (t := x.gate.target) (l := x.gate.lineClass) ?_ ?_ sat.stands.classless ?_ ?_ rfl
      · refine ⟨⟨nofun, fun e => absurd e some_⟩, fun _ => formed.lineClass (by rw [ph]; decide), nofun, fun _ => ?_, formed.off, fun e => ?_⟩
        · refine ⟨eq_of_beq idle, ?_⟩
          show x.gate.target.map (·.width) = some x.gate.width.pos
          rw [ht, eq_of_beq pos]
          rfl
        · have none_ := formed.modes e
          rw [ph] at none_
          cases none_
      · exact fun e _ => sat.stands.drained e (.inl ph)
      · intro a ha d hd ne
        obtain ⟨idle, pos, -⟩ := sat.stands.changed a ha d hd ne
        exact ⟨idle, pos, by rintro (g | g) <;> cases g⟩
      · show x.gate.target = x.gate.namedClass
        unfold Gate.namedClass
        rw [ph]
    · exact sat
  · exact sat

theorem ClassSat.settling (h : ClassSat c early s) (m : s.modes.mode.changesOver = true) (phase : s.gate.phase = .settling) :
    ClassSat c early s.phaseSettling := by
  obtain ⟨g, some_, sat⟩ := h.retarget m (.inr phase)
  obtain ⟨idle, -⟩ := h.stands.formed.settling phase
  unfold State.phaseSettling
  dsimp only
  obtain ⟨x, hx⟩ : ∃ x, s.retargetClass = x := ⟨_, rfl⟩
  rw [hx] at g some_ sat ⊢
  have ph : x.gate.phase = .settling := g.phase.trans phase
  have stood : x.gate.width.state = .idle := by rw [g.width (idle_still idle)]; exact idle
  have modes : x.modes = s.modes := g.modes
  obtain ⟨notOff, notIdle⟩ := mode_of_changesOver (s := x) (by rw [modes]; exact m)
  have class_ : x.gate.lineClass ≠ none := sat.stands.formed.lineClass nofun
  split
  · next t ht =>
    split
    · exact sat
    · next pos =>
      have here : x.gate.width.pos = t.width := by simpa using pos
      split
      · next stable =>
        have next_ := sat.rephase (p := .none) (t := none) (l := some t)
          ⟨⟨fun _ => rfl, fun _ => rfl⟩, fun e => absurd rfl e, nofun, nofun, fun e => absurd e notOff, fun e => absurd e notIdle⟩
          (by rintro - (e | e) <;> cases e) (fun _ e => by cases e)
          (fun a _ d hd _ => by
            have e : t = d := by simpa using hd
            rw [← e]
            exact ⟨stood, here, fun _ => stable⟩)
          (by
            show some t = x.gate.target
            exact ht.symm)
          (by
            show true = x.gate.lineClass.isSome
            exact (Option.isSome_iff_ne_none.mpr class_).symm)
        exact next_
      · have last := sat.rephase (p := .settling) (t := x.gate.target) (l := x.gate.lineClass)
          ⟨⟨nofun, fun e => absurd e some_⟩, fun _ => class_, nofun,
            fun _ => ⟨stood, by
              show x.gate.target.map (·.width) = some x.gate.width.pos
              rw [ht, here]
              rfl⟩, fun e => absurd e notOff, fun e => absurd e notIdle⟩
          (fun e _ => sat.stands.drained e (.inl rfl)) sat.stands.classless
          (fun a ha d hd ne => by
            obtain ⟨idle, pos, -⟩ := sat.stands.changed a ha d hd ne
            exact ⟨idle, pos, by rintro (g | g) <;> cases g⟩) rfl rfl
        have shape : (x.rephase .moving x.gate.target x.gate.lineClass).rephase .settling x.gate.target x.gate.lineClass = x :=
          rephase_same ph
        rw [shape] at last
        exact last
  · next none_ => exact absurd none_ some_

end Sys2Proof.Machine
end



section
/-! The class and its changeover over a whole step (R51 to R56). -/

namespace Sys2Proof.Machine

open Sys2Proof.Config

variable {c : Option LineClass} {early : Prop} {s : State}

theorem ClassSat.step (h : ClassSat c early s) : ClassSat c early s.phaseStep := by
  unfold State.phaseStep
  split
  · next m =>
    split
    · next p => exact h.none_ m p
    · next p => exact h.draining m p
    · next p => exact h.moving m p
    · next p => exact h.settling m p
  · exact h

theorem ClassSat.changeover (fuel : Nat) (h : ClassSat c early s) : ClassSat c early (s.changeover fuel) := by
  induction fuel generalizing s with
  | zero => exact h
  | succ k ih =>
    unfold State.changeover
    dsimp only
    split
    · exact h.step
    · exact ih h.step

/-- In WARMUP without a line class the first reported class becomes it, where the step began without one (R51). -/
theorem ClassSat.takeClass (h : ClassSat c early s) : ClassSat c early s.takeClass := by
  by_cases takes : s.modes.mode = .warmup ∧ s.gate.lineClass = none
  · have none_ : c = none := by
      by_contra ne
      exact h.stands.classless ne takes.2 takes.1
    subst none_
    have formed := h.stands.formed
    have phase : s.gate.phase = .none := by
      by_contra ne
      exact formed.lineClass ne takes.2
    have target := formed.target.mp phase
    refine ⟨⟨⟨formed.target, fun g => absurd phase g, ?_, ?_, ?_, formed.modes⟩, h.stands.drained, fun ne => absurd rfl ne, fun a ha => by cases ha⟩,
      fun ne => absurd rfl ne⟩
    · show s.gate.phase = .draining → _
      rw [phase]
      exact nofun
    · show s.gate.phase = .settling → _
      rw [phase]
      exact nofun
    · show s.modes.mode = .off → _
      rw [takes.1]
      exact nofun
  · have same : s.takeClass = s := by
      unfold State.takeClass
      rw [if_neg takes]
    rw [same]
    exact h

theorem ClassSat.gateEval (h : ClassSat c early s) : ClassSat c early s.gateEval :=
  (((h.gateOnly (gateOnly_reformDocket s)).takeClass.changeover 8).gateOnly (gateOnly_takeHolds _)).gateOnly (gateOnly_gateTransition _)

theorem ClassSat.gateStage (h : ClassSat c early s) : ClassSat c early s.gateStage := by
  rcases State.gateStage_cases s with e | e | e | e <;> rw [e]
  · exact h
  · exact h.gateEval
  · exact h.changeover 8
  · exact (h.changeover 8).gateEval

theorem ClassSat.reform (h : ClassSat c early s) : ClassSat c early s.reform :=
  ⟨h.stands.reform_again h.formed, fun _ => reformed_reform s⟩

theorem ClassSat.first (h : ClassStands c early s) (old : OldClass c s) : ClassSat c early s.reform :=
  ⟨h.reform_first old, fun _ => reformed_reform s⟩

theorem ClassSat.settles (h : ClassStands c early s) (old : OldClass c s) : ClassSat c early s.settle :=
  (ClassSat.first h old).gateStage.reform.gateStage.reform

theorem ClassSat.settlesEval (h : ClassStands c early s) (old : OldClass c s) : ClassSat c early s.settleEval :=
  (ClassSat.first h old).gateEval.reform.gateStage.reform.gateStage.reform

/-- The consequences of a step keep the rules of the class. -/
theorem ClassStands.ending (e : Ending) (h : ClassStands c early s) (old : OldClass c s) :
    ClassStands c early (e.of s) := by
  have same : ∀ x t : State, ClassStands c early x → (t.gate = x.gate ∧ t.modes = x.modes ∧ t.outfeed = x.outfeed ∧ t.track = x.track ∧
      t.thermal = x.thermal) → ClassStands c early t := fun x t hx ⟨gate, modes, outfeed, track, thermal⟩ => by
    obtain ⟨⟨target, lineClass, draining, settling, off, working⟩, drained, classless, changed⟩ := hx
    unfold MachineEmpty at drained
    unfold classStable at changed
    rw [← gate, ← modes] at *
    rw [← outfeed, ← track] at drained
    rw [← track, ← thermal] at changed
    exact ⟨⟨target, lineClass, draining, settling, off, working⟩, drained, classless, changed⟩
  induction e with
  | still => exact h
  | settled => exact (ClassSat.settles h old).stands
  | evaluated => exact (ClassSat.settlesEval h old).stands
  | interval =>
    have refresh : ∀ v : State, ClassStands c early v → ClassStands c early v.writeClock.refresh :=
      fun v hv => same v _ hv ⟨rfl, rfl, rfl, rfl, rfl⟩
    exact refresh _ (ClassSat.settlesEval h old).stands
  | answered e a ih =>
    have answer : ∀ v : State, ClassStands c early v → ClassStands c early (v.answer a) :=
      fun v hv => same v _ hv (by cases a <;> exact ⟨rfl, rfl, rfl, rfl, rfl⟩)
    exact answer _ ih

/-! ## Before the consequences -/

/-- What stands of the class before the consequences: the old class or none, and the old phase or NONE. -/
structure ClassBefore (s x : State) : Prop where
  formed : ClassFormed x
  phase : x.gate.phase = s.gate.phase ∨ x.gate.phase = .none
  classless : s.gate.lineClass ≠ none → x.gate.lineClass = none → x.modes.mode ≠ .warmup
  old : OldClass s.gate.lineClass x

/-- The step begins with phase NONE or DRAINING. -/
def EarlyPhase (s : State) : Prop := s.gate.phase = .none ∨ s.gate.phase = .draining

theorem ClassBefore.stands {s x : State} (h : ClassBefore s x) : ClassStands s.gate.lineClass (EarlyPhase s) x := by
  refine ⟨h.formed, fun early late => ?_, h.classless, fun a ha d hd ne => absurd (h.old a ha d hd) ne⟩
  rcases h.phase with e | e
  · rw [e] at late
    rcases early with e | e <;> rw [e] at late <;> rcases late with g | g <;> cases g
  · rw [e] at late
    rcases late with g | g <;> cases g

/-- The mode a command that leaves the class may enter. -/
def ModeBeside (s x : State) : Prop :=
  x.modes.mode = s.modes.mode ∨ x.modes.mode = .halted ∨ x.modes.mode = .production ∨ x.modes.mode = .warmup

theorem ModeBeside.formed {s x : State} (h : ModeBeside s x) (formed : ClassFormed s)
    (class_ : x.gate.lineClass = s.gate.lineClass ∧ x.gate.phase = s.gate.phase ∧ x.gate.target = s.gate.target)
    (width : s.gate.phase = .settling → x.gate.width = s.gate.width) : ClassFormed x := by
  obtain ⟨lineClass, phase, target⟩ := class_
  have rests : ∀ m, m = .off ∨ m = .economy ∨ m = .cooldown → x.modes.mode = m → s.modes.mode = m := fun m hm e => by
    rcases h with g | g | g | g
    · rw [← g]; exact e
    all_goals
      rw [g] at e
      rw [← e] at hm
      rcases hm with hm | hm | hm <;> cases hm
  refine ⟨?_, ?_, ?_, fun g => ?_, fun g => ?_, fun g => ?_⟩
  · rw [phase, target]; exact formed.target
  · rw [phase, lineClass]; exact formed.lineClass
  · rw [phase, target, lineClass]; exact formed.draining
  · rw [phase] at g
    rw [width g, target]
    exact formed.settling g
  · rw [lineClass]
    exact formed.off (rests _ (.inl rfl) g)
  · rw [phase]
    refine formed.modes ?_
    rcases g with g | g | g
    · exact .inl (rests _ (.inl rfl) g)
    · exact .inr (.inl (rests _ (.inr (.inl rfl)) g))
    · exact .inr (.inr (rests _ (.inr (.inr rfl)) g))

theorem ClassBefore.same {s x : State} (formed : ClassFormed s) (mode : ModeBeside s x)
    (class_ : x.gate.lineClass = s.gate.lineClass ∧ x.gate.phase = s.gate.phase ∧ x.gate.target = s.gate.target)
    (width : s.gate.phase = .settling → x.gate.width = s.gate.width) : ClassBefore s x :=
  ⟨mode.formed formed class_ width, .inl class_.2.1, fun ne g => absurd (class_.1.symm.trans g) ne,
    fun a ha d hd => by
      rw [class_.1] at hd
      exact Option.some.inj (ha.symm.trans hd)⟩

theorem ClassBefore.halting {s x u : State} (h : ClassBefore s x) (g : Halting x u) (width : u.gate.width = x.gate.width) : ClassBefore s u := by
  have mode : u.modes.mode = x.modes.mode ∨ u.modes.mode = .halted := g.mode.imp (fun m => m.1) fun m => m.2.1
  refine ⟨ModeBeside.formed (mode.imp id .inl) h.formed g.lineClass fun _ => width, ?_, ?_, ?_⟩
  · rw [g.lineClass.2.1]
    exact h.phase
  · rw [g.lineClass.1]
    intro ne class_
    rcases mode with e | e <;> rw [e]
    · exact h.classless ne class_
    · exact nofun
  · intro a ha d hd
    rw [g.lineClass.1] at hd
    exact h.old a ha d hd

theorem ClassBefore.enter {s x : State} (h : ClassBefore s x) {m : Mode} (hm : m = .off ∨ m = .economy ∨ m = .cooldown) :
    ClassBefore s (x.enterMode m) := by
  obtain ⟨stands, old⟩ := h.stands.enter h.old hm
  exact ⟨stands.formed, .inr (stands.formed.modes (by rw [enterMode_mode]; exact hm)), stands.classless, old⟩

theorem ClassBefore.stage {s x : State} (h : ClassBefore s x) : ClassBefore s x.modeStage := by
  rcases modeStage_cases x with e | ⟨-, -, e⟩ | ⟨-, -, -, e⟩ <;> rw [e]
  · exact h
  · exact h.enter (.inl rfl)
  · exact h.enter (.inr (.inl rfl))

theorem class_enterMode {a : State} {m : Mode} (hm : m = .halted ∨ m = .production ∨ m = .warmup) :
    (a.enterMode m).gate.lineClass = a.gate.lineClass ∧ (a.enterMode m).gate.phase = a.gate.phase ∧
      (a.enterMode m).gate.target = a.gate.target := by
  unfold State.enterMode
  split
  · exact ⟨rfl, rfl, rfl⟩
  · rcases hm with rfl | rfl | rfl <;> exact ⟨rfl, rfl, rfl⟩

theorem width_enterMode (a : State) (m : Mode) : (a.enterMode m).gate.width = a.gate.width := congrArg Prod.fst (lineView_enterMode a m)

/-- In SETTLING no command moves the width drive, which is IDLE at the width of the target. -/
theorem Effect.settledWidth {s u : State} {k : Instr} {e : Ending} (h : Effect s k e u) (formed : ClassFormed s)
    (phase : s.gate.phase = .settling) : u.gate.width = s.gate.width := by
  obtain ⟨idle, wide⟩ := formed.settling phase
  rcases h.line with same | change
  · exact congrArg Prod.fst same
  · cases change with
    | drives _ _ old =>
      rcases old with moves | due
      · exact absurd idle moves
      · exfalso
        have differs := (Bool.and_eq_true_iff.mp due).2
        have named : namedWidth s = some s.gate.width.pos := by
          unfold namedWidth Gate.namedClass
          rw [phase]
          exact wide
        unfold Width.begin at differs
        rw [idle, named] at differs
        simp at differs
    | counts d => simp
    | edge a b same => exact congrArg Prod.fst same
    | passes a b same => exact congrArg Prod.fst same
    | sensor a same =>
      have first : a.acceptSensor.gate = a.gate := by
        unfold State.acceptSensor State.outfeedSensor
        split <;> rfl
      rw [first]
      exact congrArg Prod.fst same
    | clears ws a same =>
      have width : a.gate.width = s.gate.width := congrArg Prod.fst same
      have left : a.releaseFaults.removeCauses.leaveHalt.gate.width = a.releaseFaults.removeCauses.gate.width := by
        unfold State.leaveHalt
        split
        · exact width_enterMode _ _
        · rfl
      have release : a.releaseFaults.gate.width = a.gate.width.atClear (a.pins.limitMin || a.pins.limitMax) := by
        unfold State.releaseFaults
        dsimp only
        split <;> rfl
      rw [left]
      show a.releaseFaults.gate.width = _
      rw [release, width]
      unfold Width.atClear
      rw [if_neg (by rw [idle]; simp)]

theorem ModeOp.classBefore {s u : State} {k : Instr} (h : ModeOp s k u) (formed : ClassFormed s)
    (width : s.gate.phase = .settling → u.gate.width = s.gate.width) : ClassBefore s u := by
  have base : ∀ a : State, a.modeView = s.modeView → (s.gate.phase = .settling → a.gate.width = s.gate.width) → ClassBefore s a :=
    fun a view still => by
      obtain ⟨mode, -, -, -, class_, -⟩ := modeView_parts view
      exact .same formed (.inl mode) class_ still
  have enters : ∀ (a : State) (m : Mode), a.modeView = s.modeView → (m = .halted ∨ m = .production ∨ m = .warmup) →
      (s.gate.phase = .settling → (a.enterMode m).gate.width = s.gate.width) → ClassBefore s (a.enterMode m) := fun a m view hm still => by
    obtain ⟨-, -, -, -, ⟨lineClass, phase, target⟩, -⟩ := modeView_parts view
    obtain ⟨x, y, z⟩ := class_enterMode (a := a) hm
    refine .same formed (.inr ?_) ⟨x.trans lineClass, y.trans phase, z.trans target⟩ still
    rw [enterMode_mode]
    exact hm
  cases h with
  | start ws a view old =>
    obtain ⟨mode, -, -, -, ⟨lineClass, phase, target⟩, -⟩ := modeView_parts view
    have none_ := formed.off old
    have no_phase := formed.modes (.inl old)
    obtain ⟨x, hx⟩ : ∃ x : State, { a with gate := { a.gate with lineClass := a.nextClass } } = x := ⟨_, rfl⟩
    obtain ⟨-, px, tx⟩ := class_enterMode (a := x) (m := .warmup) (.inr (.inr rfl))
    have phase_ : (x.enterMode .warmup).gate.phase = .none := by
      rw [px, ← hx]
      exact phase.trans no_phase
    have target_ : (x.enterMode .warmup).gate.target = none := by
      rw [tx, ← hx]
      exact target.trans (formed.target.mp no_phase)
    rw [hx]
    refine ⟨⟨by rw [phase_, target_]; exact ⟨fun _ => rfl, fun _ => rfl⟩, fun g => absurd phase_ g, ?_, ?_, ?_, fun _ => phase_⟩, .inr phase_, ?_, ?_⟩
    · rw [phase_]; exact nofun
    · rw [phase_]; exact nofun
    · rw [enterMode_mode]; exact nofun
    · exact fun ne => absurd none_ ne
    · intro d hd
      rw [none_] at hd
      cases hd
  | complete => exact enters s _ rfl (.inr (.inl rfl)) width
  | idles a view => exact (base a view (by rw [← width_enterMode a .economy]; exact width)).enter (.inr (.inl rfl))
  | economy ws a view => exact (base a view (by rw [← width_enterMode a .economy]; exact width)).enter (.inr (.inl rfl))
  | wakes _ a view => exact enters a _ view (.inr (.inr rfl)) width
  | cools ws a view => exact (base a view (by rw [← width_enterMode a .cooldown]; exact width)).enter (.inr (.inr rfl))
  | shuts ws a view => exact (base a view (by rw [← width_enterMode a .off]; exact width)).enter (.inl rfl)
  | clears ws a view =>
    have leave : ∀ x : State, (x.leaveHalt.gate.lineClass = x.gate.lineClass ∧ x.leaveHalt.gate.phase = x.gate.phase ∧
        x.leaveHalt.gate.target = x.gate.target) ∧ (x.leaveHalt.modes.mode = x.modes.mode ∨ x.leaveHalt.modes.mode = .warmup) := fun x => by
      unfold State.leaveHalt
      split
      · exact ⟨class_enterMode (.inr (.inr rfl)), .inr (enterMode_mode _ _)⟩
      · exact ⟨⟨rfl, rfl, rfl⟩, .inl rfl⟩
    obtain ⟨mode, -, -, -, ⟨lineClass, phase, target⟩, -⟩ := modeView_parts view
    obtain ⟨⟨x, y, z⟩, m⟩ := leave a.removeCauses
    exact .same formed (m.imp (fun g => g.trans mode) fun g => .inr (.inr g)) ⟨x.trans lineClass, y.trans phase, z.trans target⟩ width
  | loses _ a view =>
    have stage : a.modeStage.gate.width = a.gate.width := congrArg Prod.fst (lineView_modeStage a)
    have raise : a.raiseLost.gate.width = a.modeStage.gate.width := congrArg Prod.fst (lineView_raiseCause _ _)
    rw [raise, stage] at width
    exact (base a view width).stage.halting (.raise (.view rfl) _) raise
  | setup ws a d view =>
    have class_ : (a.takeSetup d).gate = a.gate ∧ (a.takeSetup d).modes.mode = a.modes.mode := by
      unfold State.takeSetup
      dsimp only
      split <;> exact ⟨rfl, rfl⟩
    obtain ⟨mode, -, -, -, triple, -⟩ := modeView_parts view
    exact .same formed (.inl (class_.2.trans mode)) (by rw [class_.1]; exact triple) width
  | runOnEnds n => exact .same formed (.inl rfl) ⟨rfl, rfl, rfl⟩ width
  | expires n => exact .same formed (.inl rfl) ⟨rfl, rfl, rfl⟩ width
  | alive v => exact .same formed (.inl rfl) ⟨rfl, rfl, rfl⟩ width

theorem Effect.classBefore {s u : State} {k : Instr} {e : Ending} (h : Effect s k e u) (formed : ClassFormed s) : ClassBefore s u := by
  have width := h.settledWidth formed
  rcases h.modeOp with raised | op
  · have halting := raised.halting
    exact .same formed (halting.mode.imp (fun m => m.1) fun m => .inl m.2.1) halting.lineClass width
  · exact op.classBefore formed width

end Sys2Proof.Machine
end



section
/-! The rules of the mode, its timers and the line class over every step (O8). -/

namespace Sys2Proof.Machine

open Sys2Proof.Config

theorem AfterReset.classless {s t : State} {port : Bool} (h : AfterReset s t port) :
    t.gate.lineClass = none ∧ t.gate.phase = .none ∧ t.gate.target = none := by
  obtain ⟨holds, gate⟩ := h.gate
  rw [gate]
  exact ⟨rfl, rfl, rfl⟩

theorem AfterReset.classStands {s t : State} {port : Bool} (h : AfterReset s t port) (early : Prop) : ClassStands none early t := by
  obtain ⟨lineClass, phase, target⟩ := h.classless
  refine ⟨⟨by rw [phase, target]; exact ⟨fun _ => rfl, fun _ => rfl⟩, fun g => absurd phase g, ?_, ?_, fun _ => lineClass, fun _ => phase⟩,
    fun _ g => ?_, fun g => absurd rfl g, fun a ha => by cases ha⟩
  · rw [phase]; exact nofun
  · rw [phase]; exact nofun
  · rw [phase] at g
    rcases g with g | g <;> cases g

theorem ClassStands.changeoverStep {s t : State} (h : ClassStands s.gate.lineClass (EarlyPhase s) t) : ChangeoverStep s t := by
  refine ⟨h.drained, fun _ phase => h.formed.settling phase, fun c hc d hd ne => ?_⟩
  obtain ⟨idle, pos, stable⟩ := h.changed c hc d hd ne
  refine ⟨pos, fun last => ?_⟩
  obtain ⟨speed, pot⟩ := Bool.and_eq_true_iff.mp (stable last)
  exact ⟨idle, speed, pot⟩

theorem step_class {s t : State} (h : step s = .next t) (hs : ClassFormed s) : ClassFormed t ∧ ChangeoverStep s t := by
  have formed : ∀ l, ClassFormed { s with pending := l } := fun _ => ⟨hs.1, hs.2, hs.3, hs.4, hs.5, hs.6⟩
  rcases step_cases h with ⟨c, l, run⟩ | rfl
  · rcases exec_reset_or_effect run with ⟨port, reset⟩ | ⟨e, u, effect, rfl⟩
    · obtain ⟨lineClass, phase, -⟩ := reset.classless
      refine ⟨(reset.classStands True).formed, ?_, ?_, ?_⟩
      · rw [phase]
        rintro - (g | g) <;> cases g
      · rw [phase]
        rintro - g
        cases g
      · rw [lineClass]
        rintro _ - _ hd
        cases hd
    · have before := effect.classBefore (formed l)
      have stands := before.stands.ending e before.old
      have stands' : ClassStands s.gate.lineClass (EarlyPhase s) (e.of u) := stands
      exact ⟨stands'.formed, stands'.changeoverStep⟩
  · have ticked : ∀ v : State, (v.gate = s.gate ∧ v.modes.mode = s.modes.mode) → ClassBefore s v := fun v ⟨gate, mode⟩ =>
      .same hs (.inl mode) (by rw [gate]; exact ⟨rfl, rfl, rfl⟩) fun _ => by rw [gate]
    have stands := (ticked _ ⟨rfl, rfl⟩ : ClassBefore s (s.advance 1)).stands
    exact ⟨stands.formed, stands.changeoverStep⟩

/-- Settles O8: each rule is kept by every command's effect, by the mode stage and by the changeover's stages, and the mode changes
by the transitions of R163. -/
theorem modeRulesAreKept : Obligations.ModeRulesAreKept := by
  unfold Obligations.ModeRulesAreKept
  refine ⟨fun s t h => ⟨haltRule.step h, fun fans => ?_, fun timers => ?_, step_modeStands h, step_class h⟩,
    fun c s t h hp hw => modeStep_of_exec h hp hw⟩
  · obtain ⟨fan, runOn⟩ := (FansFormed.iff s).mp fans
    have arms : ArmsFormed True False t := armsRule.step h ⟨fun _ => runOn, fun g => g.elim⟩
    exact (FansFormed.iff t).mpr ⟨step_fanCommand h fan, arms.runOn trivial⟩
  · have arms : ArmsFormed False True t := armsRule.step h ⟨fun g => g.elim, fun _ => timers.wakeArm⟩
    have idle : IdleFormed t := step_idleFormed h ((IdleFormed.iff s).mpr timers.idle)
    exact ⟨(IdleFormed.iff t).mp idle, arms.wakeArm trivial, supervisionRule.step h timers.supervision⟩

end Sys2Proof.Machine
end



section
/-! The annunciators, the outfeed's lines, the NOTICE line and the inhibit over every step (R72, R149, R155 to R158, R184). -/

namespace Sys2Proof.Machine

open Sys2Proof.Config

variable {s t : State}

theorem Undisturbed.annunciators (h : Undisturbed s t) (hs : AnnunciatorsFormed s) : AnnunciatorsFormed t := by
  have points : t.extr.points = s.extr.points := (congrArg Extr.points h.extr :)
  have horn : t.extr.horn = s.extr.horn := (congrArg Extr.horn h.extr :)
  have beacon : t.extr.beacon = s.extr.beacon := (congrArg Extr.beacon h.extr :)
  refine ⟨?_, ?_⟩
  · rw [horn, points]; exact hs.horn
  · rw [beacon, points]; exact hs.beacon

theorem Undisturbed.outfeedParts (h : Undisturbed s t) : t.outfeed.state = s.outfeed.state ∧ t.outfeed.stop = s.outfeed.stop ∧
    t.outfeed.available = s.outfeed.available ∧ t.outfeed.drive = s.outfeed.drive :=
  ⟨(congrArg Outfeed.state h.outfeed :), (congrArg Outfeed.stop h.outfeed :), (congrArg Outfeed.available h.outfeed :),
    (congrArg Outfeed.drive h.outfeed :)⟩

theorem Undisturbed.outfeedFormed (h : Undisturbed s t) (hs : OutfeedFormed s) : OutfeedFormed t := by
  obtain ⟨state, stop, available, drive⟩ := h.outfeedParts
  have ref : t.track.ref = s.track.ref := (congrArg Track.ref h.track :)
  refine ⟨?_, ?_, ?_⟩
  · rw [available, state, h.mode]; exact hs.available
  · rw [drive, state, h.mode, ref, h.exitEye]; exact hs.drive
  · rw [state, stop]; exact hs.stop

theorem Undisturbed.nextBoardHeld (h : Undisturbed s t) (hs : NextBoardHeld s) : NextBoardHeld t := by
  obtain ⟨state, stop, -, -⟩ := h.outfeedParts
  have pos : t.track.pos = s.track.pos := (congrArg Track.pos h.track :)
  intro occupied near
  rw [stop]
  refine hs (by rw [← state]; exact occupied) ?_
  unfold NextBoardNear State.ws at *
  rw [h.records, h.setup, pos] at near
  exact near

theorem Undisturbed.inhibitFormed (h : Undisturbed s t) (hs : InhibitFormed s) : InhibitFormed t := by
  have points : t.extr.points = s.extr.points := (congrArg Extr.points h.extr :)
  refine ⟨?_, ?_, ?_, ?_, ?_⟩
  · rw [h.flux, points]; exact hs.extraction
  · rw [h.flux, points]; exact hs.vapour
  · rw [h.flux]; exact hs.pressure
  · rw [h.flux]; exact hs.tank
  · rw [h.flux, h.mode]; exact hs.mode

theorem AfterReset.annunciators {port : Bool} (h : AfterReset s t port) : AnnunciatorsFormed t := by
  obtain ⟨-, horn, -, beacon, -⟩ := h.lines
  have normal : ∀ k, (t.extr.points.get k).ann = .normal := fun k => by rw [h.points]; rfl
  refine ⟨?_, ?_⟩
  · rw [horn]
    simp [normal]
  · rw [beacon]
    simp [normal]

theorem AfterReset.outfeedFormed {port : Bool} (h : AfterReset s t port) : OutfeedFormed t := by
  have off := h.mode
  have lines : t.outfeed.available = false ∧ t.outfeed.drive = false ∧ t.outfeed.stop = false := by
    rw [h.outfeed]
    exact ⟨rfl, rfl, rfl⟩
  obtain ⟨available, drive, stop⟩ := lines
  refine ⟨?_, ?_, fun _ => stop⟩
  · rw [available, off]
    simp
  · rw [drive, off]
    simp

theorem AfterReset.nextBoardHeld {port : Bool} (h : AfterReset s t port) : NextBoardHeld t := by
  rintro - ⟨-, r, hr, -⟩
  rw [h.records] at hr
  cases hr

theorem AfterReset.noticeLine {port : Bool} (h : AfterReset s t port) : NoticeLineFormed t := by
  obtain ⟨g, b, shape, -⟩ := h.notices
  have formed : NoticeLineFormed { t with port := resetNotices { Port.atReset with generation := g } b s.pins.estop } := by
    have enable : (resetNotices { Port.atReset with generation := g } b s.pins.estop).enable = 0 ∧
        (resetNotices { Port.atReset with generation := g } b s.pins.estop).line = false := by
      unfold resetNotices
      cases b <;> cases s.pins.estop <;> exact ⟨rfl, rfl⟩
    unfold NoticeLineFormed
    dsimp only
    rw [enable.1, enable.2]
    simp
  rw [← shape] at formed
  exact formed

theorem step_annunciators (h : step s = .next t) (hs : AnnunciatorsFormed s) : AnnunciatorsFormed t :=
  step_keeps_rule _ (fun _ => reform_annunciatorsFormed _) (fun _ _ _ reset => reset.annunciators) (fun _ _ same => same.annunciators) h hs

theorem step_outfeedFormed (h : step s = .next t) (hs : OutfeedFormed s) : OutfeedFormed t :=
  step_keeps_rule _ (fun _ => reform_outfeedFormed _) (fun _ _ _ reset => reset.outfeedFormed) (fun _ _ same => same.outfeedFormed) h hs

theorem step_nextBoardHeld (h : step s = .next t) (hs : NextBoardHeld s) : NextBoardHeld t :=
  step_keeps_rule _ (fun _ => reform_nextBoardHeld _) (fun _ _ _ reset => reset.nextBoardHeld) (fun _ _ same => same.nextBoardHeld) h hs

theorem step_noticeLine (h : step s = .next t) (hs : NoticeLineFormed s) : NoticeLineFormed t :=
  step_keeps_rule _ (fun _ => reform_noticeLineFormed _) (fun _ _ _ reset => reset.noticeLine) (fun _ _ same => same.line) h hs

theorem step_inhibitFormed (h : step s = .next t) (hs : InhibitFormed s) : InhibitFormed t :=
  step_keeps_rule _ (fun _ => reform_inhibitFormed _) (fun _ _ _ reset => reset.inhibit) (fun _ _ same => same.inhibitFormed) h hs

end Sys2Proof.Machine
end



section
/-! The severity of the alarm points over every step (Table 8-3, R147). -/

namespace Sys2Proof.Machine

open Sys2Proof.Config

/-- The severity of a point is NONE exactly while it is not active. -/
def Point.Severe (p : Point) : Prop := p.sev = .none ↔ p.ann = .normal ∨ p.ann = .clearedUnack

namespace Point.Severe

variable {p : Point}

theorem congr {q : Point} (h : p.Severe) (sev : q.sev = p.sev) (ann : q.ann = p.ann) : q.Severe := by
  unfold Point.Severe
  rw [sev, ann]
  exact h

theorem clear (p : Point) (now : Clock) : (p.clear now).Severe := by
  unfold Point.Severe Point.clear
  by_cases h : p.ann = .activeAck <;> simp [h]

theorem fanOff (h : p.Severe) (now : Clock) : (p.fanOff now).Severe := by
  unfold Point.fanOff
  split
  · exact .clear p now
  · exact h

theorem activate (p : Point) {sev : Severity} (hs : sev ≠ .none) (v : Word) (now : Clock) : (p.activate sev v now).Severe := by
  unfold Point.Severe Point.activate
  simp [hs]

theorem rise (p : Point) (now : Clock) : (p.rise now).Severe := by
  unfold Point.Severe Point.rise
  simp

theorem acknowledge (h : p.Severe) (now : Clock) : (p.acknowledge now).Severe := by
  unfold Point.acknowledge
  unfold Point.Severe at h ⊢
  cases ann : p.ann <;> simp_all

theorem sample (h : p.Severe) (j : Option Judgement) (b : Bool) : (p.sample j b).Severe := by
  unfold Point.sample
  cases j <;> exact h

end Point.Severe

variable {s t u : State}

theorem severityFormed_iff (s : State) : SeverityFormed s ↔ ∀ k, (s.extr.points.get k).Severe := Iff.rfl

theorem SeverityFormed.congr (h : SeverityFormed s) (points : t.extr.points = s.extr.points) : SeverityFormed t := by
  unfold SeverityFormed
  rw [points]
  exact h

theorem SeverityFormed.mapIdx (h : SeverityFormed s) {f : Idx8 → Point → Point} (points : t.extr.points = s.extr.points.mapIdx f)
    (each : ∀ k p, p.Severe → (f k p).Severe) : SeverityFormed t := by
  intro k
  rw [points, Tab8.get_mapIdx]
  exact each k _ (h k)

theorem SeverityFormed.changePoint (h : SeverityFormed s) (k : Idx8) (f : Point → Point) (each : ∀ p, (f p).Severe) :
    SeverityFormed (s.changePoint k f) := by
  intro j
  by_cases e : k = j
  · subst e
    show ((s.extr.points.set k (f (s.extr.points.get k))).get k).Severe
    rw [Tab8.get_set, if_pos rfl]
    exact each _
  · rw [(point_changePoint s f e).1]
    exact h j

theorem points_takeSetup (s : State) (c : Setup) : (s.takeSetup c).extr.points = s.extr.points.mapIdx fun _ p => p.atSetup := by
  unfold State.takeSetup
  dsimp only
  split <;> rfl

theorem points_sampleAll (s : State) (i : Readings) : ∃ f : Idx8 → Point → Point,
    (s.sampleAll i).extr.points = s.extr.points.mapIdx f ∧ ∀ k p, p.Severe → (f k p).Severe := by
  obtain ⟨a, ha⟩ : ∃ a, (s.sampleSpeed.sampleInputs i.temps).latchZones = a := ⟨_, rfl⟩
  obtain ⟨b, hb⟩ : ∃ b, a.sampleExtraction i = b := ⟨_, rfl⟩
  obtain ⟨x, hx⟩ : ∃ x, ((b.samplePumps i.chipRpm i.mainRpm).sampleLevel i.level).samplePressure i.pressure = x := ⟨_, rfl⟩
  have whole : s.sampleAll i = { (x.sampleTank i.tankEmpty).sampleContact with
      pot := { (x.sampleTank i.tankEmpty).sampleContact.pot with feedTest := true } } := by
    rw [← hx, ← hb, ← ha]
    rfl
  have first : a.extr = s.extr := by
    rw [← ha]
    simp
  have last : (s.sampleAll i).extr = b.extr := by
    rw [whole, ← hx]
    simp
  obtain ⟨j, judged⟩ : ∃ j : PointKind → Option Judgement,
      b.extr.points = a.extr.points.mapIdx fun k p => p.sample (j (pointKind k)) (pointKind k).escalates := by
    rw [← hb]
    exact ⟨_, rfl⟩
  exact ⟨_, by rw [last, judged, first], fun k p hp => hp.sample (j (pointKind k)) (pointKind k).escalates⟩

theorem Effect.severity {c : Instr} {e : Ending} (h : Effect s c e u) (hs : SeverityFormed s) : SeverityFormed u := by
  cases h with
  | interval i ws =>
    obtain ⟨f, points, each⟩ := points_sampleAll (s.toInterval.present i ws) i
    have raises : ∀ a : State, a.intervalRaises.extr = a.extr := fun a => by simp [State.intervalRaises]
    refine hs.mapIdx (f := f) ?_ each
    rw [raises, points]
    rfl
  | alarmActivation j =>
    refine hs.changePoint j _ fun p => .activate p ?_ _ _
    split <;> decide
  | alarmSeverityRise j => exact hs.changePoint j _ fun p => .rise p _
  | alarmEscalation j => exact hs.changePoint j _ fun p => .rise p _
  | alarmClear j => exact (hs.changePoint j _ fun p => .clear p s.clock).congr rfl
  | refused c code q rc f hp hq => exact hs.congr (by rw [hq.blocks.1])
  | accepted c code q e u hp hq hr acc =>
    have before : SeverityFormed q := hs.congr (by rw [hq.blocks.1])
    cases acc with
    | loadSetup ws => exact before.mapIdx (points_takeSetup q _) fun _ _ hp => hp
    | ackAlarms ws =>
      refine before.mapIdx (f := fun k p => if (argument1 q).getLsbD k.val then p.acknowledge q.clock else p) rfl fun k p hp => ?_
      split
      · exact hp.acknowledge _
      · exact hp
    | _ => exact before.congr (by simp)
  | _ => exact hs.congr (by simp)

theorem SeverityFormed.ending (e : Ending) (h : SeverityFormed u) : SeverityFormed (e.of u) := by
  rcases e.fanPoints u with same | ⟨-, -, cleared⟩
  · exact h.congr same
  · refine h.mapIdx cleared fun k p hp => ?_
    split
    · exact hp.fanOff _
    · exact hp

theorem step_severityFormed (h : step s = .next t) (hs : SeverityFormed s) : SeverityFormed t := by
  rcases step_cases h with ⟨c, l, run⟩ | rfl
  · rcases exec_reset_or_effect run with ⟨port, reset⟩ | ⟨e, u, effect, rfl⟩
    · intro k
      rw [reset.points]
      exact ⟨fun _ => .inl rfl, fun _ => rfl⟩
    · exact (effect.severity (s := { s with pending := l }) hs).ending e
  · exact hs

end Sys2Proof.Machine
end



section
/-! The transition counts of the output lines over every step (R44, R149, R156). -/

namespace Sys2Proof.Machine

open Sys2Proof.Config

theorem countChange_getLsbD {n : BitVec 8} {a : Bool} (h : n.getLsbD 0 = a) (b : Bool) : (countChange n a b).getLsbD 0 = b := by
  subst h
  have odd : ∀ m : BitVec 8, (m + 1).getLsbD 0 = !m.getLsbD 0 := by decide
  unfold countChange
  by_cases e : n.getLsbD 0 = b
  · rw [if_pos (by rw [e]; exact beq_self_eq_true b)]
    exact e
  · rw [if_neg (by simpa using e), odd]
    revert e
    generalize n.getLsbD 0 = x
    cases x <;> cases b <;> simp

/-- ENTRY_READY's count advances once where the line changes. -/
def ReadyTurn (s t : State) : Prop := t.gate.readyCount = countChange s.gate.readyCount s.gate.ready t.gate.ready

/-- BOARD_AVAILABLE_OUT, HORN and BEACON stand with their counts. -/
def LinesStand (s t : State) : Prop :=
  (t.outfeed.available = s.outfeed.available ∧ t.outfeed.availableCount = s.outfeed.availableCount) ∧
    (t.extr.horn = s.extr.horn ∧ t.extr.hornCount = s.extr.hornCount) ∧ t.extr.beacon = s.extr.beacon ∧ t.extr.beaconCount = s.extr.beaconCount

variable {s t u : State}

theorem ReadyTurn.same (h : t.gate.ready = s.gate.ready) (g : t.gate.readyCount = s.gate.readyCount) : ReadyTurn s t := by
  unfold ReadyTurn
  rw [h, g, countChange_same]

theorem ReadyTurn.enter (st : GateState) (h : t.gate.ready = (s.gate.enter st).ready) (g : t.gate.readyCount = (s.gate.enter st).readyCount) :
    ReadyTurn s t := by
  unfold ReadyTurn
  rw [h, g]
  rfl

theorem LinesStand.of_lineView (h : t.lineView.2 = s.lineView.2) : LinesStand s t :=
  ⟨⟨congrArg (fun v => v.1.2.2.1) h, congrArg (fun v => v.1.2.2.2) h⟩,
    ⟨congrArg (fun v => v.2.1.1) h, congrArg (fun v => v.2.1.2.1) h⟩, congrArg (fun v => v.2.1.2.2.1) h, congrArg (fun v => v.2.1.2.2.2) h⟩

theorem LinesStand.of_lineViewAt {b : Bool} (h : t.lineView = s.lineViewAt b) : LinesStand s t :=
  ⟨⟨congrArg (fun v => v.2.1.2.2.1) h, congrArg (fun v => v.2.1.2.2.2) h⟩,
    ⟨congrArg (fun v => v.2.2.1.1) h, congrArg (fun v => v.2.2.1.2.1) h⟩, congrArg (fun v => v.2.2.1.2.2.1) h,
    congrArg (fun v => v.2.2.1.2.2.2) h⟩

theorem readies_of_gateView (h : t.blockView = s.blockView) : t.gate.ready = s.gate.ready ∧ t.gate.readyCount = s.gate.readyCount :=
  ⟨congrArg (fun v => v.2.1.ready) h, congrArg (fun v => v.2.1.readyCount) h⟩

theorem ReadyTurn.congr {a : State} (h : a.blockView = s.blockView) (g : ReadyTurn a t) : ReadyTurn s t := by
  obtain ⟨ready, count⟩ := readies_of_gateView h
  unfold ReadyTurn at *
  rw [← ready, ← count]
  exact g

theorem readyTurn_handLeading (a : State) (p : Pos) : ReadyTurn a (a.handLeading p).appendAtBar := by
  obtain ⟨ready, count⟩ := readies_of_gateView (blockView_appendAtBar (a.handLeading p))
  have slot : ∀ (v : State) (o : Offer), (v.bindSlot o).gate = v.gate := fun v o => by unfold State.bindSlot; split <;> rfl
  have edges : ∀ (v : State) (n : BitVec 16) (o : Offer), (v.scheduleEdges n p o).gate = v.gate := fun v n o => by
    unfold State.scheduleEdges; split <;> rfl
  have boards : ∀ (o : Offer) (late : Bool), (a.admitBoard p o late).gate = a.gate.enter .receiving := fun o late =>
    by
      have outer : (a.admitBoard p o late).gate = (((a.append (newRecord a p o.origin (some o.binding) late)).bindSlot o).scheduleEdges
          (newRecord a p o.origin (some o.binding) late).ordinal p o).gate.enter .receiving := rfl
      rw [outer, edges, slot]
      rfl
  have gate : (a.handLeading p).gate = a.gate ∨ (a.handLeading p).gate = a.gate.enter .receiving := by
    unfold State.handLeading
    split
    · exact .inr (boards _ false)
    · exact .inr (boards _ true)
    · exact .inl rfl
  rcases gate with g | g
  · exact .same (ready.trans (by rw [g])) (count.trans (by rw [g]))
  · exact .enter .receiving (ready.trans (by rw [g])) (count.trans (by rw [g]))

theorem readyTurn_handTrailing (a : State) : ReadyTurn a a.handTrailing := by
  unfold State.handTrailing
  split
  · exact .enter .closed rfl rfl
  all_goals exact .same rfl rfl

theorem Effect.readyTurn {c : Instr} {e : Ending} (h : Effect s c e u) : ReadyTurn s u := by
  rcases h.view with same | change
  · obtain ⟨ready, count⟩ := readies_of_gateView same
    exact .same ready count
  · cases change with
    | counts d => exact .same (by simp) (by simp)
    | samples i ws =>
      obtain ⟨ready, count⟩ := readies_of_gateView (blockView_intervalRaises ((s.toInterval.present i ws).sampleAll i))
      exact .same (ready.trans (by simp)) (count.trans (by simp))
    | speedStable => exact .same rfl rfl
    | conveyorSpeed =>
      obtain ⟨ready, count⟩ := readies_of_gateView (blockView_raiseCause { s with track := { s.track with misses := 0 } } .conveyorSpeed)
      exact .same ready count
    | pumpStable w => exact .same rfl rfl
    | closes c a same => exact .congr same (.enter .closed rfl rfl)
    | leads a p same => exact .congr same (readyTurn_handLeading a p)
    | trails a same => exact .congr same (readyTurn_handTrailing a)

theorem LinesStand.refl (s : State) : LinesStand s s := ⟨⟨rfl, rfl⟩, ⟨rfl, rfl⟩, rfl, rfl⟩

theorem LinesStand.trans (h : LinesStand s t) (g : LinesStand t u) : LinesStand s u := by
  obtain ⟨⟨a, b⟩, ⟨c, d⟩, e, f⟩ := h
  obtain ⟨⟨a', b'⟩, ⟨c', d'⟩, e', f'⟩ := g
  exact ⟨⟨a'.trans a, b'.trans b⟩, ⟨c'.trans c, d'.trans d⟩, e'.trans e, f'.trans f⟩

theorem LinesStand.of_same (outfeed : t.outfeed = s.outfeed) (extr : t.extr = s.extr) : LinesStand s t := by
  unfold LinesStand
  rw [outfeed, extr]
  exact ⟨⟨rfl, rfl⟩, ⟨rfl, rfl⟩, rfl, rfl⟩

theorem linesStand_countEncoder (s : State) (d : Direction) : LinesStand s (s.countEncoder d) := by
  have tenth : ∀ (v : State) (f : Bool), LinesStand v (v.moveTenth f) := fun v f => by
    obtain ⟨x, hx⟩ : ∃ x : State, { v with track := { v.track with pos := if f then v.track.pos + 1 else v.track.pos - 1 } } = x := ⟨_, rfl⟩
    obtain ⟨y, hy⟩ : ∃ y : State, (if f then x.reformZones.reformPumpTargets.reformPumpRefs.waveEntries else
        x.reformZones.reformPumpTargets.reformPumpRefs) = y := ⟨_, rfl⟩
    have whole : v.moveTenth f = y.topside.testBackPressure.reformConveyor := by rw [← hy, ← hx]; rfl
    have first : LinesStand v y := by
      rw [← hy, ← hx]
      split <;> exact .of_same (by simp) (by simp)
    have last : LinesStand y.topside.testBackPressure y.topside.testBackPressure.reformConveyor := .of_same (by simp) (by simp)
    have middle : LinesStand y y.topside.testBackPressure := ⟨⟨rfl, rfl⟩, ⟨rfl, rfl⟩, rfl, rfl⟩
    rw [whole]
    exact (first.trans middle).trans last
  have tenths : ∀ (n : Nat) (v : State) (f : Bool), LinesStand v (State.moveTenths n v f) := fun n => by
    induction n with
    | zero => exact fun v _ => .refl v
    | succ k ih => exact fun v f => (tenth v f).trans (ih _ f)
  have bar : ∀ (v : State) (n : Nat) (p : Pos), LinesStand v (v.approachBar n p d) := fun v n p => by
    unfold State.approachBar
    split
    · exact .of_lineView (congrArg Prod.snd (lineView_endPurge v))
    · exact .refl v
  have start : ∀ (f : Nat) (n : Int), LinesStand s { s with track := { s.track with frac := f, net := n } } := fun _ _ => .of_same rfl rfl
  unfold State.countEncoder
  dsimp only
  exact ((start _ _).trans (tenths _ _ _)).trans (bar _ _ _)

theorem Effect.linesStand {c : Instr} {e : Ending} (h : Effect s c e u) : LinesStand s u := by
  rcases h.line with same | change
  · exact .of_lineView (congrArg Prod.snd same)
  · cases change with
    | drives _ _ _ rest => exact .of_lineView rest
    | counts d => exact linesStand_countEncoder s d
    | edge a b same =>
      have stand : LinesStand s a := .of_lineViewAt same
      exact stand
    | passes a b same => exact .of_lineViewAt same
    | sensor a same =>
      have sensor : LinesStand a a.acceptSensor := by
        unfold State.acceptSensor State.outfeedSensor
        split <;> exact ⟨⟨rfl, rfl⟩, ⟨rfl, rfl⟩, rfl, rfl⟩
      exact (LinesStand.of_lineView (congrArg Prod.snd same)).trans sensor
    | clears ws a same =>
      have release : LinesStand a a.releaseFaults := by
        unfold State.releaseFaults
        dsimp only
        split <;> exact ⟨⟨rfl, rfl⟩, ⟨rfl, rfl⟩, rfl, rfl⟩
      have causes : LinesStand a.releaseFaults a.releaseFaults.removeCauses := .of_same rfl rfl
      have leave : LinesStand a.releaseFaults.removeCauses a.releaseFaults.removeCauses.leaveHalt :=
        .of_lineView (congrArg Prod.snd (lineView_leaveHalt _))
      exact (((LinesStand.of_lineView (congrArg Prod.snd same)).trans release).trans causes).trans leave

/-! ## The consequences -/

/-- The counts of BOARD_AVAILABLE_OUT, HORN and BEACON advance once where their line changes. -/
structure LinesTurn (s t : State) : Prop where
  available : t.outfeed.availableCount = countChange s.outfeed.availableCount s.outfeed.available t.outfeed.available
  horn : t.extr.hornCount = countChange s.extr.hornCount s.extr.horn t.extr.horn
  beacon : t.extr.beaconCount = countChange s.extr.beaconCount s.extr.beacon t.extr.beacon

theorem LinesTurn.stand (h : LinesTurn s t) (g : LinesStand t u) : LinesTurn s u := by
  obtain ⟨⟨a, b⟩, ⟨c, d⟩, e, f⟩ := g
  refine ⟨?_, ?_, ?_⟩
  · rw [a, b]; exact h.available
  · rw [c, d]; exact h.horn
  · rw [e, f]; exact h.beacon

theorem LinesStand.turn (h : LinesStand s t) (g : LinesTurn t u) : LinesTurn s u := by
  obtain ⟨⟨a, b⟩, ⟨c, d⟩, e, f⟩ := h
  refine ⟨?_, ?_, ?_⟩
  · rw [← a, ← b]; exact g.available
  · rw [← c, ← d]; exact g.horn
  · rw [← e, ← f]; exact g.beacon

theorem LinesTurn.refl (s : State) : LinesTurn s s :=
  ⟨(countChange_same _ _).symm, (countChange_same _ _).symm, (countChange_same _ _).symm⟩

/-- The first re-forming moves each line at most once. -/
theorem reform_linesTurn (s : State) : LinesTurn s s.reform := by
  obtain ⟨x, hx, outfeed⟩ : ∃ x : State, x = s.modeStage.reformFans.reformHorn.reformGuards.reformTargets ∧ x.outfeed = s.outfeed :=
    ⟨_, rfl, by simp⟩
  have count : s.reform.outfeed.availableCount = x.reformOutfeed.outfeed.availableCount := by
    simp [State.reform, State.reformMotion, State.reformDrive, hx]
  have line : s.reform.outfeed.available = x.reformOutfeed.outfeed.available := by
    simp [State.reform, State.reformMotion, State.reformDrive, hx]
  have extr := reform_extr s
  have same : s.modeStage.reformFans.extr.horn = s.extr.horn ∧ s.modeStage.reformFans.extr.hornCount = s.extr.hornCount ∧
      s.modeStage.reformFans.extr.beacon = s.extr.beacon ∧ s.modeStage.reformFans.extr.beaconCount = s.extr.beaconCount := by
    have stage : s.modeStage.extr = s.extr := by simp
    have command : ∀ (y : Extr) (on : Bool) (now : Clock), (y.command on now).horn = y.horn ∧ (y.command on now).hornCount = y.hornCount ∧
        (y.command on now).beacon = y.beacon ∧ (y.command on now).beaconCount = y.beaconCount := fun y on now => by
      unfold Extr.command
      split <;> exact ⟨rfl, rfl, rfl, rfl⟩
    rw [← stage]
    exact command _ _ _
  obtain ⟨horn, hornCount, beacon, beaconCount⟩ := same
  refine ⟨?_, ?_, ?_⟩
  · rw [count, line, ← outfeed]
    rfl
  · rw [extr, ← horn, ← hornCount]
    rfl
  · rw [extr, ← beacon, ← beaconCount]
    rfl

/-- The lines stand as the next re-forming makes them. -/
structure LinesRest (s : State) : Prop where
  rests : Rests s
  outfeed : s.reformOutfeed.outfeed = s.outfeed
  horn : s.extr.horn = hornOn s.extr.points
  beacon : s.extr.beacon = beaconOn s.extr.points

theorem linesRest_reform (s : State) : LinesRest s.reform := by
  have formed := reformed_reform s
  have extr := reform_extr s
  exact ⟨formed.rests, formed.outfeed, by rw [extr]; rfl, by rw [extr]; rfl⟩

theorem LinesRest.reform (h : LinesRest s) : LinesStand s s.reform := by
  obtain ⟨x, y, z, p⟩ := reform_parts s
  obtain ⟨-, -, -, -, -, -, -, -, -, -, -, -, -, d, outfeedT⟩ := p.tail
  obtain ⟨-, -, -, -, outfeedM⟩ := p.middle
  obtain ⟨-, -, -, -, -, -, outfeedH⟩ := p.head
  obtain ⟨k1, -, -, -⟩ := p.kept
  have still := modeStage_of_still h.rests.cooldown h.rests.economy
  have first : x.modes.mode = s.modes.mode ∧ x.outfeed = s.outfeed := by
    rw [p.first]
    unfold State.beforeTargets State.beforeInhibit
    rw [still]
    exact ⟨by simp, by simp⟩
  have outfeed : s.reform.outfeed = { s.outfeed with drive := d } := by
    rw [outfeedT, outfeedM, outfeedH, reformOutfeed_congr k1 first.1 first.2, h.outfeed]
  have extr : s.reform.extr = s.reformHorn.extr := by
    rw [reform_extr, still, reformFans_of_rests h.rests]
  refine ⟨⟨by rw [outfeed], by rw [outfeed]⟩, ⟨?_, ?_⟩, ?_, ?_⟩ <;> rw [extr]
  · exact h.horn.symm
  · show countChange _ _ (hornOn s.extr.points) = _
    rw [← h.horn, countChange_same]
  · exact h.beacon.symm
  · show countChange _ _ (beaconOn s.extr.points) = _
    rw [← h.beacon, countChange_same]

/-- An operation that leaves outfeed, points and mode leaves the lines at rest. -/
theorem LinesRest.of_same (h : LinesRest s) (moves : Moves s t) (outfeed : t.outfeed = s.outfeed) (extr : t.extr = s.extr)
    (mode : t.modes.mode = s.modes.mode) : LinesRest t := by
  refine ⟨(moves.calm h.rests).2, ?_, by rw [extr]; exact h.horn, by rw [extr]; exact h.beacon⟩
  rw [reformOutfeed_congr moves.kept mode outfeed, outfeed]
  exact h.outfeed

theorem LinesRest.eval (h : LinesRest s) : LinesRest s.gateEval ∧ LinesStand s s.gateEval :=
  ⟨h.of_same (moves_gateEval s) (by simp) (by simp) (by simp), .of_same (by simp) (by simp)⟩

theorem LinesRest.stage (h : LinesRest s) : LinesRest s.gateStage ∧ LinesStand s s.gateStage :=
  ⟨h.of_same (moves_gateStage s) (by simp) (by simp) (by simp), .of_same (by simp) (by simp)⟩

theorem settle_stands_of_rest (h : LinesRest s) : LinesStand s s.settle := by
  have pass : ∀ {x : State}, LinesRest x → LinesRest x.pass ∧ LinesStand x x.pass := fun {x} hx => by
    obtain ⟨rest, stand⟩ := (linesRest_reform x).stage
    exact ⟨rest, hx.reform.trans stand⟩
  obtain ⟨r1, s1⟩ := pass h
  obtain ⟨r2, s2⟩ := pass r1
  exact (s1.trans s2).trans r2.reform

theorem settle_linesTurn (s : State) : LinesTurn s s.settle := by
  obtain ⟨rest, stand⟩ := (linesRest_reform s).stage
  obtain ⟨rest2, stand2⟩ := (linesRest_reform s.pass).stage
  have again : LinesStand s.pass s.pass.pass := rest.reform.trans stand2
  exact (reform_linesTurn s).stand ((stand.trans again).trans rest2.reform)

theorem settleEval_linesTurn (s : State) : LinesTurn s s.settleEval := by
  obtain ⟨rest, stand⟩ := (linesRest_reform s).eval
  exact (reform_linesTurn s).stand (stand.trans (settle_stands_of_rest rest))

theorem Ending.linesTurn (e : Ending) (u : State) : LinesTurn u (e.of u) := by
  induction e with
  | still => exact .refl u
  | settled => exact settle_linesTurn u
  | evaluated => exact settleEval_linesTurn u
  | interval =>
    have refresh : ∀ v : State, LinesTurn u v → LinesTurn u v.writeClock.refresh := fun v hv => hv.stand (.of_same rfl rfl)
    exact refresh _ (settleEval_linesTurn u)
  | answered e a ih => exact ih.stand (by cases a <;> exact .of_same rfl rfl)

/-! ## The low bit of the counts -/

/-- The low bit of ENTRY_READY's count is the line's level. -/
def ReadyBit (s : State) : Prop := s.gate.readyCount.getLsbD 0 = s.gate.ready

theorem ReadyBit.turn (h : ReadyBit s) (g : ReadyTurn s t) : ReadyBit t := by
  unfold ReadyBit
  rw [g]
  exact countChange_getLsbD h _

theorem readyTurn_gateTransition (s : State) : ReadyTurn s s.gateTransition := by
  have opens : ReadyTurn s s.openGate := by
    unfold State.openGate
    split
    · exact .enter .opened rfl rfl
    · exact .same rfl rfl
  unfold State.gateTransition
  split
  · split
    · exact opens
    · exact .same rfl rfl
  · split
    · exact .same rfl rfl
    · split
      · exact .enter .closed rfl rfl
      · exact .enter .late rfl rfl
  · split
    · exact .enter .closed rfl rfl
    · exact .same rfl rfl
  · exact .same rfl rfl

theorem readyTurn_turn (s : State) : ReadyTurn s s.takeHolds.gateTransition := readyTurn_gateTransition s.takeHolds

theorem GateAside.readies (h : GateAside s t) : t.gate.ready = s.gate.ready ∧ t.gate.readyCount = s.gate.readyCount :=
  ⟨(congrArg Gate.ready h.gate :), (congrArg Gate.readyCount h.gate :)⟩

theorem ReadyBit.settles (h : ReadyBit s) : ReadyBit s.settle ∧ ReadyBit s.settleEval := by
  obtain ⟨settle, -, eval⟩ := lift_gate (R := fun s t => ReadyBit s → ReadyBit t) (fun f g x => g (f x))
    (fun a x => x.turn (.same a.readies.1 a.readies.2)) (fun v x => x.turn (readyTurn_turn v)) s
  exact ⟨settle h, eval h⟩

theorem ReadyBit.ending (e : Ending) (h : ReadyBit u) : ReadyBit (e.of u) := by
  induction e with
  | still => exact h
  | settled => exact h.settles.1
  | evaluated => exact h.settles.2
  | interval =>
    have refresh : ∀ v : State, ReadyBit v → ReadyBit v.writeClock.refresh := fun _ hv => hv
    exact refresh _ h.settles.2
  | answered e a ih => exact ih.turn (by cases a <;> exact .same rfl rfl)

theorem CountsFormed.ready_iff (s : State) : CountsFormed s ↔ ReadyBit s ∧ s.outfeed.availableCount.getLsbD 0 = s.outfeed.available ∧
    s.extr.hornCount.getLsbD 0 = s.extr.horn ∧ s.extr.beaconCount.getLsbD 0 = s.extr.beacon :=
  ⟨fun ⟨a, b, c, d⟩ => ⟨a, b, c, d⟩, fun ⟨a, b, c, d⟩ => ⟨a, b, c, d⟩⟩

theorem CountsFormed.effects {c : Instr} {e : Ending} (h : CountsFormed s) (effect : Effect s c e u) : CountsFormed (e.of u) := by
  have ready : ReadyBit (e.of u) := ReadyBit.ending e (ReadyBit.turn h.ready effect.readyTurn)
  have lines := effect.linesStand.turn (e.linesTurn u)
  exact ⟨ready, by rw [lines.available]; exact countChange_getLsbD h.available _, by rw [lines.horn]; exact countChange_getLsbD h.horn _,
    by rw [lines.beacon]; exact countChange_getLsbD h.beacon _⟩

theorem step_countsFormed (h : step s = .next t) (hs : CountsFormed s) : CountsFormed t := by
  rcases step_cases h with ⟨c, l, run⟩ | rfl
  · rcases exec_reset_or_effect run with ⟨port, reset⟩ | ⟨e, u, effect, rfl⟩
    · obtain ⟨-, horn, hornCount, beacon, beaconCount⟩ := reset.lines
      obtain ⟨holds, gate⟩ := reset.gate
      have low : ∀ {n : BitVec 8} {b : Bool}, n = 0 → b = false → n.getLsbD 0 = b := fun {n b} hn hb => by rw [hn, hb]; decide
      exact ⟨by rw [gate]; exact low rfl rfl, by rw [reset.outfeed]; exact low rfl rfl, low hornCount horn, low beaconCount beacon⟩
    · exact CountsFormed.effects (s := { s with pending := l }) ⟨hs.1, hs.2, hs.3, hs.4⟩ effect
  · exact ⟨hs.1, hs.2, hs.3, hs.4⟩

end Sys2Proof.Machine
end



section
/-! The stop request over every command (R154, R157, R158). -/

namespace Sys2Proof.Machine

open Sys2Proof.Config

variable {s t u v : State}

/-! ## The consequences -/

theorem stopFormed_again (kept : Kept u v) (stop : v.outfeed.stop = stopFormed u v.outfeed.state) :
    stopFormed v v.outfeed.state = v.outfeed.stop := by
  obtain ⟨near, tail⟩ := kept.nearAndTail v.outfeed.state
  rw [stop]
  unfold stopFormed at *
  rw [near, tail, stop]
  cases v.outfeed.state != .empty <;> cases u.outfeed.stop <;> cases nextBoardNear u v.outfeed.state <;> simp

/-- What the consequences leave of the outfeed: the handshake's answer, and the stop request formed with it. -/
structure Answered (u t : State) : Prop where
  near : NextBoardNear t ↔ NextBoardNear u
  eye : t.track.exitEye.accepted = u.track.exitEye.accepted
  outfeed : ∃ p d, t.outfeed.state = handshake u.outfeed.state p d ∧ t.outfeed.stop = stopFormed u t.outfeed.state

theorem Answered.of_kept (kept : Kept u t) (p d : Bool) (state : t.outfeed.state = handshake u.outfeed.state p d)
    (stop : t.outfeed.stop = stopFormed u t.outfeed.state) : Answered u t :=
  ⟨kept.nextBoardNear, by rw [kept.keeps.trackExitEye], p, d, state, stop⟩

theorem answered_settle (u : State) : Answered u u.settle :=
  .of_kept (kept_settle u) _ _ (settle_outfeed u).1 (settle_outfeed u).2

theorem answered_settleEval (u : State) : Answered u u.settleEval := by
  obtain ⟨v, hv⟩ : ∃ v, u.reform.gateEval = v := ⟨_, rfl⟩
  have kept : Kept u v := hv ▸ (kept_reform u).trans (kept_gateEval _)
  have outfeed : v.outfeed = u.reform.outfeed := by rw [← hv]; simp
  obtain ⟨state, stop⟩ := reform_outfeed u
  rw [← outfeed] at state stop
  obtain ⟨last, request⟩ := settle_outfeed v
  have whole : u.settleEval = v.settle := by rw [← hv]; rfl
  have mode : v.settle.modes.mode = u.modeStage.modes.mode := by rw [← whole]; exact settleEval_mode u
  have same : v.settle.outfeed.state = v.outfeed.state := by
    rw [last, mode, kept.keeps.pins, state, handshake_idem]
  rw [whole]
  refine .of_kept (kept.trans (kept_settle v)) _ _ (same.trans state) ?_
  rw [request, same, stopFormed_again kept stop]
  exact stop

/-- No consequences follow. -/
def Ending.quiet (e : Ending) : Bool :=
  match e with
  | .still => true
  | .answered e _ => e.quiet
  | .settled => false
  | .evaluated => false
  | .interval => false

/-- The outfeed, the track and the setup alone decide what the consequences of a step have made of the stop request. -/
structure SameOutfeed (x y : State) : Prop where
  outfeed : y.outfeed = x.outfeed
  track : y.track = x.track
  setup : y.port.setup = x.port.setup

theorem SameOutfeed.near {x y : State} (h : SameOutfeed x y) : NextBoardNear y ↔ NextBoardNear x := by
  unfold NextBoardNear State.ws
  rw [h.track, h.setup]

theorem Answered.same {x y : State} (h : Answered u x) (g : SameOutfeed x y) : Answered u y :=
  ⟨g.near.trans h.near, by rw [g.track]; exact h.eye, by rw [g.outfeed]; exact h.outfeed⟩

theorem sameOutfeed_answer (x : State) (a : Answer) : SameOutfeed x (x.answer a) := by
  cases a <;> exact ⟨rfl, rfl, rfl⟩

theorem Ending.outfeed (e : Ending) (u : State) (h : e.quiet = false) : Answered u (e.of u) := by
  induction e with
  | still => cases h
  | settled => exact answered_settle u
  | evaluated => exact answered_settleEval u
  | interval =>
    have refresh : ∀ w : State, Answered u w → Answered u w.writeClock.refresh := fun w hw => hw.same ⟨rfl, rfl, rfl⟩
    exact refresh _ (answered_settleEval u)
  | answered e a ih => exact (ih h).same (sameOutfeed_answer _ a)

theorem Ending.outfeed_quiet (e : Ending) (u : State) (h : e.quiet = true) : SameOutfeed u (e.of u) := by
  induction e with
  | still => exact ⟨rfl, rfl, rfl⟩
  | settled => cases h
  | evaluated => cases h
  | interval => cases h
  | answered e a ih =>
    have g := sameOutfeed_answer (e.of u) a
    have first := ih h
    exact ⟨g.outfeed.trans first.outfeed, g.track.trans first.track, g.setup.trans first.setup⟩

theorem stopFormed_iff (u : State) (st : OutfeedState) : stopFormed u st = true ↔
    st ≠ .empty ∧ (u.outfeed.stop = true ∨ NextBoardNear u ∨ (st = .holding ∧ u.outfeed.state ≠ .holding ∧ u.track.exitEye.accepted = true)) := by
  unfold stopFormed nextBoardNear heldTail
  rw [← backPressure_iff]
  cases st <;> cases u.outfeed.state <;> cases u.outfeed.stop <;> cases backPressure u <;> cases u.track.exitEye.accepted <;> decide

theorem handshake_cases (st : OutfeedState) (p d : Bool) : handshake st p d = st ∨
    (st = .holding ∧ handshake st p d = .delivering) ∨ (st = .delivering ∧ handshake st p d = .holding) := by
  cases st <;> cases p <;> cases d <;> decide

/-! ## What a command does first -/

/-- The stop request that a command itself leaves, from `s` to `u`: it stands till EMPTY is entered, a held board's tail raises it, and
but for ENCODER_COUNT the two conditions alone do. -/
structure StopOp (c : Instr) (s u : State) : Prop where
  state : u.outfeed.state = s.outfeed.state ∨ (s.outfeed.state = .empty ∧ u.outfeed.state = .loading) ∨
    (u.outfeed.state = .holding ∧ (s.outfeed.state = .empty ∨ s.outfeed.state = .loading)) ∨
    ((s.outfeed.state = .holding ∨ s.outfeed.state = .delivering) ∧ (u.outfeed.state = .loading ∨ u.outfeed.state = .empty) ∧
      u.outfeed.stop = false) ∨ u.outfeed.state = .empty
  stands : s.outfeed.stop = true → u.outfeed.stop = true ∨ u.outfeed.state = .empty ∨
    (u.outfeed.state = .loading ∧ s.outfeed.state ≠ .loading)
  tail : u.outfeed.state = .holding → u.track.exitEye.accepted = true →
    s.outfeed.state ≠ .holding ∨ s.track.exitEye.accepted = false → u.outfeed.stop = true
  raised : (∀ d, c ≠ .encoderCount d) → s.outfeed.stop = false → u.outfeed.stop = true →
    NextBoardNear u ∨ (u.outfeed.state = .holding ∧ u.track.exitEye.accepted = true)

theorem handshake_loading {st : OutfeedState} {p d : Bool} (h : handshake st p d = .loading) : st = .loading := by
  cases st with
  | loading => rfl
  | empty => cases h
  | holding => cases p <;> cases d <;> cases h
  | delivering => cases p <;> cases d <;> cases h

theorem StopOp.step {c : Instr} (h : StopOp c s u) (a : Answered u t) : StopRequestStep c s t := by
  obtain ⟨p, d, state, stop⟩ := a.outfeed
  have formed : t.outfeed.stop = true ↔ t.outfeed.state ≠ .empty ∧ (u.outfeed.stop = true ∨ NextBoardNear u ∨
      (t.outfeed.state = .holding ∧ u.outfeed.state ≠ .holding ∧ u.track.exitEye.accepted = true)) := by
    rw [stop]
    exact stopFormed_iff u _
  refine ⟨fun raised => ?_, fun old new => ?_, fun holding eye old => ?_, fun hc old raised => ?_⟩
  · by_cases empty : t.outfeed.state = .empty
    · exact .inr (.inl empty)
    · rcases h.stands raised with g | g | ⟨g, ne⟩
      · exact .inl (formed.mpr ⟨empty, .inl g⟩)
      · rw [g] at state
        exact absurd state empty
      · rw [g] at state
        exact .inr (.inr ⟨state, ne⟩)
  · have here : u.outfeed.state = .loading := handshake_loading (state.symm.trans new)
    have lowered : u.outfeed.stop = false := by
      rcases h.state with g | ⟨g, -⟩ | ⟨g, -⟩ | ⟨-, -, g⟩ | g
      · rw [here] at g
        rcases old with e | e <;> rw [← g] at e <;> cases e
      · rcases old with e | e <;> rw [g] at e <;> cases e
      · rw [here] at g; cases g
      · exact g
      · rw [here] at g; cases g
    rw [formed, a.near, new, lowered]
    simp
  · rw [a.eye] at eye
    refine formed.mpr ⟨by rw [holding]; decide, ?_⟩
    by_cases g : u.outfeed.state = .holding
    · exact .inl (h.tail g eye old)
    · exact .inr (.inr ⟨holding, g, eye⟩)
  · obtain ⟨-, g⟩ := formed.mp raised
    rcases g with g | g | ⟨g, -, eye⟩
    · rcases h.raised hc old g with near | ⟨held, eye⟩
      · exact .inl (a.near.mpr near)
      · refine .inr ⟨?_, by rw [a.eye]; exact eye⟩
        rw [state, held]
        cases p <;> cases d <;> decide
    · exact .inl (a.near.mpr g)
    · exact .inr ⟨.inl g, by rw [a.eye]; exact eye⟩

/-- Where outfeed and exit eye stand, nothing happens to the stop request. -/
theorem StopRequestStep.of_same {c : Instr} (state : t.outfeed.state = s.outfeed.state) (stop : t.outfeed.stop = s.outfeed.stop)
    (eye : t.track.exitEye.accepted = s.track.exitEye.accepted) : StopRequestStep c s t := by
  refine ⟨fun g => .inl (by rw [stop]; exact g), fun old new => ?_, fun holding g old => ?_, fun _ old g => ?_⟩
  · rw [state] at new
    rcases old with e | e <;> rw [new] at e <;> cases e
  · rw [state] at holding
    rw [eye] at g
    rcases old with e | e
    · exact absurd holding e
    · rw [g] at e; cases e
  · rw [stop, old] at g
    cases g

/-! ## The commands -/

/-- Where outfeed and exit eye stand before the consequences, a stop request comes of these alone. -/
theorem StopOp.of_same {c : Instr} (state : u.outfeed.state = s.outfeed.state) (stop : u.outfeed.stop = s.outfeed.stop)
    (eye : u.track.exitEye.accepted = s.track.exitEye.accepted) : StopOp c s u := by
  refine ⟨.inl state, fun g => .inl (by rw [stop]; exact g), fun holding g old => ?_, fun _ old g => ?_⟩
  · rw [state] at holding
    rw [eye] at g
    rcases old with e | e
    · exact absurd holding e
    · rw [g] at e; cases e
  · rw [stop, old] at g
    cases g

theorem StopOp.of_lineView {c : Instr} (h : u.lineView.2 = s.lineView.2) : StopOp c s u :=
  .of_same (congrArg (fun v => v.1.1) h) (congrArg (fun v => v.1.2.1) h) (congrArg (fun v => v.2.2) h)

/-- The outfeed's answer to an exit-eye leading edge, with its test of the stop request (R154, R158). -/
theorem StopOp.edge {a : State} {c : Instr} (h : a.lineView = s.lineViewAt true) : StopOp c s a.outfeedEdge.testStop := by
  have state : a.outfeed.state = s.outfeed.state := congrArg (fun v => v.2.1.1) h
  have stop : a.outfeed.stop = s.outfeed.stop := congrArg (fun v => v.2.1.2.1) h
  have eye : a.track.exitEye.accepted = true := congrArg (fun v => v.2.2.2) h
  obtain ⟨u, hu⟩ : ∃ u, a.outfeedEdge.testStop = u := ⟨_, rfl⟩
  have last : u.outfeed.state = if s.outfeed.state = .empty then .loading else s.outfeed.state := by
    rw [← hu, ← state]; rfl
  have request : u.outfeed.stop = (s.outfeed.stop || nextBoardNear a u.outfeed.state || heldTail a u.outfeed.state) := by
    rw [← hu, ← stop]; rfl
  have near : NextBoardNear u ↔ NextBoardNear a := by
    rw [← hu]
    exact SameOutfeed.near (x := { a.outfeedEdge.testStop with outfeed := a.outfeed }) (y := a) ⟨rfl, rfl, rfl⟩ |>.symm
  have eye' : u.track.exitEye.accepted = true := by rw [← hu]; exact eye
  rw [hu]
  refine ⟨?_, fun g => .inl (by rw [request, g]; rfl), fun holding _ _ => ?_, fun _ old raised => ?_⟩
  · rw [last]
    by_cases e : s.outfeed.state = .empty
    · rw [if_pos e]; exact .inr (.inl ⟨e, rfl⟩)
    · rw [if_neg e]; exact .inl rfl
  · rw [request, holding]
    simp [heldTail, eye]
  · rw [request, old] at raised
    rcases Bool.or_eq_true_iff.mp raised with g | g
    · have come : nextBoardNear a u.outfeed.state = true := by simpa using g
      exact .inl (near.mpr ((backPressure_iff a).mp (Bool.and_eq_true_iff.mp come).2))
    · exact .inr ⟨eq_of_beq (Bool.and_eq_true_iff.mp g).1, eye'⟩

/-- A board whose tail leaves the exit eye raises no stop request. -/
theorem StopOp.passes {a : State} {c : Instr} (h : a.lineView = s.lineViewAt false) : StopOp c s a := by
  have state : a.outfeed.state = s.outfeed.state := congrArg (fun v => v.2.1.1) h
  have stop : a.outfeed.stop = s.outfeed.stop := congrArg (fun v => v.2.1.2.1) h
  have clear : a.track.exitEye.accepted = false := congrArg (fun v => v.2.2.2) h
  refine ⟨.inl state, fun g => .inl (by rw [stop]; exact g), fun _ g => ?_, fun _ old g => ?_⟩
  · rw [clear] at g; cases g
  · rw [stop, old] at g; cases g

theorem exitEye_stopStep (h : exec (.eyeChangeAccepted .exit) s = .next t) : StopRequestStep (.eyeChangeAccepted .exit) s t := by
  have shape : t = match eyeDue s .exit with | some p => s.acceptEye .exit p | none => s := (Host.Outcome.next.inj h).symm
  cases due : eyeDue s .exit with
  | none =>
    rw [due] at shape
    rw [shape]
    exact .of_same rfl rfl rfl
  | some p =>
    rw [due] at shape
    rw [shape]
    dsimp only
    cases eye : s.track.exitEye.accepted with
    | false =>
      rw [acceptEye_exitLeading eye]
      have start : (s.accepted .exit).lineView = s.lineViewAt true := by
        have toggled : (s.accepted .exit).lineView = s.lineViewAt (!s.track.exitEye.accepted) := rfl
        rw [toggled, eye]
        rfl
      unfold State.exitLeading
      refine StopOp.step (u := State.testStop (State.outfeedEdge _)) (.edge ?_) (answered_settle _)
      split
      · split
        · exact start
        · exact (lineView_setPhantom _).trans start
      · exact (lineView_setPhantom _).trans start
    | true =>
      rw [acceptEye_exitTrailing eye]
      have start : (s.accepted .exit).lineView = s.lineViewAt false := by
        have toggled : (s.accepted .exit).lineView = s.lineViewAt (!s.track.exitEye.accepted) := rfl
        rw [toggled, eye]
        rfl
      unfold State.exitTrailing
      refine StopOp.step (.passes ?_) (answered_settle _)
      split
      · exact (lineView_closeRecord _ _ _ _ _).trans start
      · exact start

/-- The outfeed's answer to an end sensor event (R154, R158). -/
theorem StopOp.sensor {a : State} {c : Instr} (h : a.lineView = s.lineView) : StopOp c s a.acceptSensor := by
  have state : a.outfeed.state = s.outfeed.state := congrArg (fun v => v.2.1.1) h
  have stop : a.outfeed.stop = s.outfeed.stop := congrArg (fun v => v.2.1.2.1) h
  have eye : a.track.exitEye.accepted = s.track.exitEye.accepted := congrArg (fun v => v.2.2.2) h
  obtain ⟨x, hx⟩ : ∃ x : State, { a with outfeed := { a.outfeed with sensor := a.outfeed.sensor.accept } } = x := ⟨_, rfl⟩
  have whole : ∃ b, a.acceptSensor = x.outfeedSensor b := by rw [← hx]; exact ⟨_, rfl⟩
  obtain ⟨b, whole⟩ := whole
  have sx : x.outfeed.state = s.outfeed.state := by rw [← hx]; exact state
  have px : x.outfeed.stop = s.outfeed.stop := by rw [← hx]; exact stop
  have ex : x.track.exitEye.accepted = s.track.exitEye.accepted := by rw [← hx]; exact eye
  have arrives : (x.outfeed.state = .empty ∨ x.outfeed.state = .loading) →
      StopOp c s ({ x with outfeed := { x.outfeed with state := .holding } } : State).testStop := fun old => by
    obtain ⟨y, hy⟩ : ∃ y : State, { x with outfeed := { x.outfeed with state := .holding } } = y := ⟨_, rfl⟩
    have near : NextBoardNear y.testStop ↔ NextBoardNear y := Iff.rfl
    have held : y.testStop.outfeed.state = .holding := by rw [← hy]; rfl
    have stops : y.testStop.outfeed.stop = (s.outfeed.stop || nextBoardNear y .holding || heldTail y .holding) := by
      rw [← px, ← hy]; rfl
    rw [hy]
    refine ⟨.inr (.inr (.inl ⟨held, by rw [← sx]; exact old⟩)), fun g => .inl (by rw [stops, g]; rfl), fun _ g _ => ?_, fun _ low g => ?_⟩
    · have accepted : y.track.exitEye.accepted = true := g
      rw [stops]
      simp [heldTail, accepted]
    · rw [stops, low] at g
      rcases Bool.or_eq_true_iff.mp g with g | g
      · have come : nextBoardNear y .holding = true := by simpa using g
        exact .inl (near.mpr ((backPressure_iff y).mp (Bool.and_eq_true_iff.mp come).2))
      · exact .inr ⟨held, (Bool.and_eq_true_iff.mp g).2⟩
  have leaves : (x.outfeed.state = .holding ∨ x.outfeed.state = .delivering) → StopOp c s x.enterEmpty := fun old => by
    have low : x.enterEmpty.outfeed.stop = false := rfl
    have next_ : x.enterEmpty.outfeed.state = .loading ∨ x.enterEmpty.outfeed.state = .empty := by
      have shape : x.enterEmpty.outfeed.state = if x.track.exitEye.accepted then .loading else .empty := rfl
      rw [shape]
      cases x.track.exitEye.accepted
      · exact .inr rfl
      · exact .inl rfl
    rw [sx] at old
    refine ⟨.inr (.inr (.inr (.inl ⟨old, next_, low⟩))), fun _ => .inr ?_, fun g => ?_, fun _ _ g => ?_⟩
    · rcases next_ with g | g
      · exact .inr ⟨g, by rintro e; rcases old with o | o <;> rw [o] at e <;> cases e⟩
      · exact .inl g
    · rcases next_ with e | e <;> rw [e] at g <;> cases g
    · rw [low] at g; cases g
  rw [whole]
  unfold State.outfeedSensor
  split
  · next _ e => exact arrives (.inl e)
  · next _ e => exact arrives (.inr e)
  · next _ e => exact leaves (.inl e)
  · next _ e => exact leaves (.inr e)
  · exact .of_same sx px ex

/-- CLEAR lets a stalled LOADING outfeed enter EMPTY (R161). -/
theorem StopOp.clears {a : State} {c : Instr} (h : a.lineView = s.lineView) : StopOp c s a.releaseFaults.removeCauses.leaveHalt := by
  have last : a.releaseFaults.removeCauses.leaveHalt.lineView = a.releaseFaults.lineView := lineView_leaveHalt _
  obtain ⟨x, hx⟩ : ∃ x, a.releaseFaults = x := ⟨_, rfl⟩
  obtain ⟨y, hy⟩ : ∃ y, a.releaseFaults.removeCauses.leaveHalt = y := ⟨_, rfl⟩
  rw [hy, hx] at last
  rw [hy]
  have release : x.lineView.2 = a.lineView.2 ∨ (x.outfeed.state = .empty ∧ x.outfeed.stop = false) := by
    rw [← hx]
    unfold State.releaseFaults
    dsimp only
    split
    · next stalled_ =>
      refine .inr ⟨?_, rfl⟩
      obtain ⟨first, -⟩ := Bool.and_eq_true_iff.mp stalled_
      obtain ⟨-, eye⟩ := Bool.and_eq_true_iff.mp first
      exact if_neg (by simpa using eye)
    · exact .inl rfl
  rcases release with g | ⟨empty, low⟩
  · exact .of_lineView ((congrArg Prod.snd last).trans (g.trans (congrArg Prod.snd h)))
  · have state : y.outfeed.state = .empty := (congrArg (fun v => v.2.1.1) last).trans empty
    have stop : y.outfeed.stop = false := (congrArg (fun v => v.2.1.2.1) last).trans low
    refine ⟨.inr (.inr (.inr (.inr state))), fun _ => .inr (.inl state), fun g => ?_, fun _ _ g => ?_⟩
    · rw [state] at g; cases g
    · rw [stop] at g; cases g

/-- An encoder count may raise the stop request, and leaves outfeed state and exit eye. -/
structure StopGrows (s t : State) : Prop where
  state : t.outfeed.state = s.outfeed.state
  eye : t.track.exitEye.accepted = s.track.exitEye.accepted
  stop : s.outfeed.stop = true → t.outfeed.stop = true

theorem StopGrows.trans (h : StopGrows s t) (g : StopGrows t u) : StopGrows s u :=
  ⟨g.state.trans h.state, g.eye.trans h.eye, fun x => g.stop (h.stop x)⟩

theorem StopGrows.of_kept (kept : Kept s t) (outfeed : t.outfeed = s.outfeed) : StopGrows s t :=
  ⟨by rw [outfeed], by rw [kept.keeps.trackExitEye], by rw [outfeed]; exact id⟩

theorem stopGrows_countEncoder (s : State) (d : Direction) : StopGrows s (s.countEncoder d) := by
  have tenth : ∀ (v : State) (f : Bool), StopGrows v (v.moveTenth f) := fun v f => by
    obtain ⟨x, hx⟩ : ∃ x : State, { v with track := { v.track with pos := if f then v.track.pos + 1 else v.track.pos - 1 } } = x := ⟨_, rfl⟩
    obtain ⟨y, hy⟩ : ∃ y, x.reformZones.reformPumpTargets.reformPumpRefs = y := ⟨_, rfl⟩
    obtain ⟨z, hz⟩ : ∃ z : State, (if f then y.waveEntries else y) = z := ⟨_, rfl⟩
    have whole : v.moveTenth f = z.topside.testBackPressure.reformConveyor := by rw [← hz, ← hy, ← hx]; rfl
    have first : StopGrows v x := by rw [← hx]; exact ⟨rfl, rfl, id⟩
    have pumps : StopGrows x y := by
      rw [← hy]
      exact .of_kept (((kept_reformZones x).trans (kept_reformPumpTargets _)).trans (kept_reformPumpRefs _)) rfl
    have waves : StopGrows y z := by
      rw [← hz]
      split
      · exact ⟨rfl, rfl, id⟩
      · exact ⟨rfl, rfl, id⟩
    have tests : StopGrows z z.topside.testBackPressure := ⟨rfl, rfl, fun g => by
      show (z.outfeed.stop || _) = true
      rw [g]
      rfl⟩
    have last : StopGrows z.topside.testBackPressure z.topside.testBackPressure.reformConveyor := .of_kept (kept_reformConveyor _) (by simp)
    rw [whole]
    exact (((first.trans pumps).trans waves).trans tests).trans last
  have tenths : ∀ (n : Nat) (v : State) (f : Bool), StopGrows v (State.moveTenths n v f) := fun n => by
    induction n with
    | zero => exact fun v _ => ⟨rfl, rfl, id⟩
    | succ k ih => exact fun v f => (tenth v f).trans (ih _ f)
  have bar : ∀ (v : State) (n : Nat) (p : Pos), StopGrows v (v.approachBar n p d) := fun v n p => by
    obtain ⟨-, track, -, -, -⟩ := approachBar_frame v n p d
    have lines : (v.approachBar n p d).lineView = v.lineView := by
      unfold State.approachBar
      split
      · exact lineView_endPurge v
      · rfl
    exact ⟨congrArg (fun w => w.2.1.1) lines, by rw [track], fun g => (congrArg (fun w => w.2.1.2.1) lines).trans g⟩
  have start : ∀ (f : Nat) (n : Int), StopGrows s { s with track := { s.track with frac := f, net := n } } := fun _ _ => ⟨rfl, rfl, id⟩
  unfold State.countEncoder
  dsimp only
  exact ((start _ _).trans (tenths _ _ _)).trans (bar _ _ _)

theorem StopOp.counts (s : State) (d : Direction) : StopOp (.encoderCount d) s (s.countEncoder d) := by
  obtain ⟨state, eye, stop⟩ := stopGrows_countEncoder s d
  refine ⟨.inl state, fun g => .inl (stop g), fun holding g old => ?_, fun hc => absurd rfl (hc d)⟩
  rw [state] at holding
  rw [eye] at g
  rcases old with e | e
  · exact absurd holding e
  · rw [g] at e; cases e

/-- A command without consequences leaves the outfeed and the exit eye. -/
theorem Effect.quiet_lines {c : Instr} {e : Ending} (h : Effect s c e u) (q : e.quiet = true) : u.lineView.2 = s.lineView.2 := by
  have special : ((∃ d, c = .encoderCount d) ∨ c = .eyeChangeAccepted .exit ∨ c = .endSensorEvent ∨ ∃ ws, c = .clear ws) →
      u.lineView.2 = s.lineView.2 := fun hc => by
    cases h with
    | nothing => rfl
    | refused c code q rc f hp hq => rw [hq.blocks.1]; rfl
    | overrun => rfl
    | accepted c code q e u hp hq hr ha =>
      cases ha with
      | clear => cases q
      | _ => rcases hc with ⟨d, h⟩ | h | h | ⟨ws, h⟩ <;> cases h
    | encoderCount => cases q
    | exitMatched => cases q
    | exitPhantom => cases q
    | exitClosed => cases q
    | exitUnowned => cases q
    | endSensorEvent => cases q
    | _ => rcases hc with ⟨d, h⟩ | h | h | ⟨ws, h⟩ <;> cases h
  rcases h.line with same | change
  · exact congrArg Prod.snd same
  · cases change with
    | drives _ _ _ rest => exact rest
    | counts d => exact special (.inl ⟨d, rfl⟩)
    | edge => exact special (.inr (.inl rfl))
    | passes => exact special (.inr (.inl rfl))
    | sensor => exact special (.inr (.inr (.inl rfl)))
    | clears ws => exact special (.inr (.inr (.inr ⟨ws, rfl⟩)))

theorem stopStep_of_exec {c : Instr} (h : exec c s = .next t) (hp : c ≠ .portReset) (hw : ∀ ws, c ≠ .powerOnReset ws) :
    StopRequestStep c s t := by
  by_cases exit_ : c = .eyeChangeAccepted .exit
  · subst exit_
    exact exitEye_stopStep h
  · obtain ⟨e, u, effect, rfl⟩ := effect_of_exec h hp hw
    cases q : e.quiet with
    | true =>
      have same := e.outfeed_quiet u q
      have lines := effect.quiet_lines q
      exact .of_same (by rw [same.outfeed]; exact congrArg (fun v => v.1.1) lines) (by rw [same.outfeed]; exact congrArg (fun v => v.1.2.1) lines)
        (by rw [same.track]; exact congrArg (fun v => v.2.2) lines)
    | false =>
      refine StopOp.step ?_ (e.outfeed u q)
      rcases effect.line with same | change
      · exact .of_lineView (congrArg Prod.snd same)
      · cases change with
        | drives _ _ _ rest => exact .of_lineView rest
        | counts d => exact .counts s d
        | edge => exact absurd rfl exit_
        | passes => exact absurd rfl exit_
        | sensor a same => exact .sensor same
        | clears ws a same => exact .clears same

end Sys2Proof.Machine
end



section
/-! The hold set and what a further re-forming leaves of it (R41, Table 3-2). -/

namespace Sys2Proof.Machine

open Sys2Proof.Config

variable {s t u : State}

/-- Nothing that a hold reason looks at differs. -/
structure SameHolds (s t : State) : Prop where
  kept : Kept s t
  mode : t.modes.mode = s.modes.mode
  gate : t.gate.state = s.gate.state
  phase : t.gate.phase = s.gate.phase
  lineClass : t.gate.lineClass = s.gate.lineClass
  docket : t.docket = s.docket
  flux : t.flux = s.flux
  points : t.extr.points = s.extr.points
  settled : t.thermal.pot.settled = s.thermal.pot.settled
  outfeed : t.outfeed.state = s.outfeed.state

theorem SameHolds.refl (s : State) : SameHolds s s := ⟨.refl s, rfl, rfl, rfl, rfl, rfl, rfl, rfl, rfl, rfl⟩

theorem SameHolds.trans (h : SameHolds s t) (g : SameHolds t u) : SameHolds s u :=
  ⟨h.kept.trans g.kept, g.mode.trans h.mode, g.gate.trans h.gate, g.phase.trans h.phase, g.lineClass.trans h.lineClass,
    g.docket.trans h.docket, g.flux.trans h.flux, g.points.trans h.points, g.settled.trans h.settled, g.outfeed.trans h.outfeed⟩

theorem SameHolds.next (h : SameHolds s t) : t.nextBoard = s.nextBoard := nextBoard_congr h.gate h.docket

theorem Kept.spacing (h : Kept s t) : spacingHold t = spacingHold s := by
  have last : t.track.records.getLast?.map Record.place = s.track.records.getLast?.map Record.place := by
    rw [← List.getLast?_map, ← List.getLast?_map, h.places]
  have entering : ∀ l : Option Record, (∃ r ∈ l, r.stage = .entering) ↔ ∃ x ∈ l.map Record.place, x.2.2.2.2.2 = .entering := fun l => by
    cases l <;> simp [Record.place]
  rw [Bool.eq_iff_iff, spacingHold_iff, spacingHold_iff, entering, entering, last]
  unfold State.ws
  rw [h.keeps.trackEntryEye, h.keeps.trackLastTrail, h.keeps.trackPos, h.keeps.portSetup]

/-- Nothing that a hold reason looks at differs, the docket unit's own findings apart. -/
structure NearHolds (s t : State) : Prop where
  kept : Kept s t
  mode : t.modes.mode = s.modes.mode
  phase : t.gate.phase = s.gate.phase
  lineClass : t.gate.lineClass = s.gate.lineClass
  next : t.nextBoard = s.nextBoard
  flux : t.flux = s.flux
  points : t.extr.points = s.extr.points
  settled : t.thermal.pot.settled = s.thermal.pot.settled
  outfeed : t.outfeed.state = s.outfeed.state

/-- The reasons that the docket unit reports (R26). -/
def docketReason (r : HoldReason) : Bool := r == .noDocket || r == .recipe || r == .noSlot

theorem NearHolds.stands (h : NearHolds s t) {r : HoldReason} (hr : docketReason r = false) : holdStands t r = holdStands s r := by
  have keeps := h.kept.keeps
  have length : t.track.records.length = s.track.records.length := by
    have e := congrArg List.length h.kept.places
    simpa using e
  cases r with
  | modeHold => unfold holdStands; rw [h.mode]
  | listFull => unfold holdStands; rw [length]
  | noDocket => cases hr
  | recipe => cases hr
  | noSlot => cases hr
  | changeover =>
    unfold holdStands changeoverHold State.nextClass
    rw [h.phase, h.lineClass, h.next]
  | flux =>
    unfold holdStands nextSprays
    rw [h.flux, h.next]
  | edgeRoom =>
    unfold holdStands edgeRoomHold
    rw [h.flux, h.next]
  | x2Extraction => unfold holdStands x2Hold; rw [h.points]
  | pot => unfold holdStands; rw [h.settled, keeps.potLevelGood]
  | zoneFault =>
    unfold holdStands zoneFaultHold Thermal.zoneFaulted State.ws
    rw [h.next, keeps.thermalInputs, keeps.thermalLatches, keeps.portSetup]
  | hostLost => unfold holdStands; rw [keeps.portHostLost]
  | outfeed => unfold holdStands outfeedHold; rw [h.outfeed, keeps.pins]
  | spacing => exact h.kept.spacing

theorem docketReason_quiet {r : HoldReason} (hr : docketReason r = true) (h : docketReports s = false) : holdStands s r = false := by
  cases r with
  | noDocket => unfold holdStands; rw [h]; rfl
  | recipe => unfold holdStands; rw [h]; rfl
  | noSlot => unfold holdStands; rw [h]; rfl
  | _ => cases hr

theorem SameHolds.near (h : SameHolds s t) : NearHolds s t :=
  ⟨h.kept, h.mode, h.phase, h.lineClass, h.next, h.flux, h.points, h.settled, h.outfeed⟩

theorem SameHolds.stands (h : SameHolds s t) (r : HoldReason) : holdStands t r = holdStands s r := by
  cases hr : docketReason r with
  | false => exact h.near.stands hr
  | true =>
    have reports : docketReports t = docketReports s := by
      unfold docketReports
      rw [h.gate]
    cases r with
    | noDocket => unfold holdStands; rw [reports, h.docket]
    | recipe => unfold holdStands; rw [reports, h.docket]
    | noSlot => unfold holdStands; rw [reports, h.docket]
    | _ => cases hr

theorem SameHolds.holds (h : SameHolds s t) : formHolds t = formHolds s :=
  List.filter_congr fun r _ => h.stands r

/-! ## What stands at the next re-forming -/

/-- A further re-forming finds the modes, the fans, the inhibit, the outfeed and the pot loop as it would make them. -/
structure HoldsRest (s : State) : Prop where
  rests : Rests s
  outfeed : s.reformOutfeed.outfeed = s.outfeed
  pot : (s.thermal.pot.retarget (potTarget s)).formSettled s.thermal.auth = s.thermal.pot

theorem Reformed.holdsRest (h : Reformed s) : HoldsRest s := ⟨h.rests, h.outfeed, h.pot⟩

theorem holdsRest_reform (s : State) : HoldsRest s.reform := (reformed_reform s).holdsRest

/-- An operation that leaves the outfeed, the pot loop, the mode and the named class. -/
theorem HoldsRest.of_same (h : HoldsRest s) (moves : Moves s t) (mode : t.modes = s.modes) (outfeed : t.outfeed = s.outfeed)
    (thermal : t.thermal = s.thermal) (named : t.gate.namedClass = s.gate.namedClass) : HoldsRest t := by
  have kept := moves.kept
  refine ⟨(moves.calm h.rests).2, ?_, ?_⟩
  · rw [reformOutfeed_congr kept (by rw [mode]) outfeed, outfeed]
    exact h.outfeed
  · rw [thermal, potTarget_congr (by rw [mode]) named kept.keeps.portSetup]
    exact h.pot

/-- The pot loop after a re-forming of a state that rests. -/
theorem HoldsRest.settled (h : HoldsRest s) : s.reform.thermal.pot.settled = s.thermal.pot.settled := by
  obtain ⟨x, y, z, p⟩ := reform_parts s
  obtain ⟨-, -, -, -, -, thermalT, -, -, -, -, -, -, -, -, -⟩ := p.tail
  obtain ⟨thermalM, -, -, -, -⟩ := p.middle
  obtain ⟨thermalH, -, -, -, -, -, -⟩ := p.head
  obtain ⟨w, hw⟩ : ∃ w, s.reformHorn.cutGrants = w := ⟨_, rfl⟩
  have before : s.beforeTargets = w := by
    have horn : Rests s.reformHorn := (Move.horn s).rests h.rests
    rw [← hw]
    unfold State.beforeTargets State.beforeInhibit
    rw [modeStage_of_still h.rests.cooldown h.rests.economy, reformFans_of_rests h.rests, reformInhibit_of_rests horn]
  have shape : x = w.reformTargets := by rw [p.first, before]
  have modes : w.reformZones.reformPumpTargets.modes.mode = s.modes.mode := by rw [← hw]; rfl
  have gate : w.reformZones.reformPumpTargets.gate = s.gate := by rw [← hw]; rfl
  have port : w.reformZones.reformPumpTargets.port.setup = s.port.setup := by rw [← hw]; rfl
  have target := potTarget_congr modes (by rw [gate]) port
  have auth : w.thermal.auth = s.thermal.auth := by rw [← hw]; rfl
  have aimW : w.thermal.pot.aim = s.thermal.pot.aim := by rw [← hw]; exact Loop.cutIf_aim _ _
  have formed : s.reform.thermal.pot = (w.thermal.pot.retarget (potTarget s)).formSettled s.thermal.auth := by
    rw [thermalT, thermalM, thermalH, shape, ← target, ← auth]
    rfl
  have aim := Loop.aim_formed aimW (potTarget s) s.thermal.auth
  rw [← formed, h.pot] at aim
  exact congrArg (fun a : Int × Bool × Nat => a.2.1) aim

/-- A state that rests keeps its outfeed state over a re-forming. -/
theorem reform_outfeedState (rests : Rests s) (same : s.reformOutfeed.outfeed = s.outfeed) : s.reform.outfeed.state = s.outfeed.state := by
  have still := modeStage_of_still rests.cooldown rests.economy
  obtain ⟨x, y, z, p⟩ := reform_parts s
  obtain ⟨-, -, -, -, -, -, -, -, -, -, -, -, -, d, outfeedT⟩ := p.tail
  obtain ⟨-, -, -, -, outfeedM⟩ := p.middle
  obtain ⟨-, -, -, -, -, -, outfeedH⟩ := p.head
  obtain ⟨k1, -, -, -⟩ := p.kept
  have first : x.modes.mode = s.modes.mode ∧ x.outfeed = s.outfeed := by
    rw [p.first]
    unfold State.beforeTargets State.beforeInhibit
    rw [still]
    exact ⟨by simp, by simp⟩
  rw [outfeedT, outfeedM, outfeedH, reformOutfeed_congr k1 first.1 first.2, same]

theorem HoldsRest.reform (h : HoldsRest s) : SameHolds s s.reform := by
  have calm := ((moves_reform s).calm h.rests).1
  have still := modeStage_of_still h.rests.cooldown h.rests.economy
  obtain ⟨lineClass, phase, -⟩ := reform_class s
  rw [still] at lineClass phase
  obtain ⟨-, docket, state⟩ := reform_aside s
  exact ⟨kept_reform s, (mode_of_modes calm.modes).1, state, phase, lineClass, docket, calm.flux, calm.points, h.settled,
    reform_outfeedState h.rests h.outfeed⟩

/-! ## The changeover and the evaluation -/

/-- A new phase, target and class that name the same class. -/
theorem HoldsRest.rephase (h : HoldsRest s) (p : Phase) (t l : Option LineClass)
    (named : (s.rephase p t l).gate.namedClass = s.gate.namedClass) : HoldsRest (s.rephase p t l) :=
  h.of_same (Move.phase s p t l).one rfl rfl rfl named

theorem HoldsRest.name (h : HoldsRest s) (p : Phase) (t l : Option LineClass) : HoldsRest (s.rephase p t l).nameClass := by
  have m : Moves s (s.rephase p t l) := (Move.phase s p t l).one
  exact (reformed_nameClass (m.calm h.rests).2 ((reformOutfeed_congr m.kept rfl rfl).trans h.outfeed)).holdsRest

theorem HoldsRest.retarget (h : HoldsRest s) : HoldsRest s.retargetClass := by
  unfold State.retargetClass
  split
  · exact h
  · next n _ =>
    split
    · exact h
    · exact h.name s.gate.phase (some n) s.gate.lineClass

theorem phase_retargetClass (s : State) : s.retargetClass.gate.phase = s.gate.phase ∧ s.retargetClass.gate.lineClass = s.gate.lineClass := by
  unfold State.retargetClass
  split
  · exact ⟨rfl, rfl⟩
  · split
    · exact ⟨rfl, rfl⟩
    · next n _ _ =>
      have g := named_nameClass { s with gate := { s.gate with target := some n } }
      exact ⟨g.phase, g.lineClass⟩

theorem HoldsRest.step (h : HoldsRest s) : HoldsRest s.phaseStep := by
  unfold State.phaseStep
  split
  · split
    · next phase =>
      unfold State.phaseNone
      split
      · next _ n _ _ =>
        split
        · exact h
        · refine h.rephase .draining (some n) s.gate.lineClass ?_
          show s.gate.lineClass = s.gate.namedClass
          unfold Gate.namedClass
          rw [phase]
      · exact h
    · next phase =>
      have same : ∀ (p : Phase) (t : Option LineClass), p = .none ∨ p = .draining → HoldsRest (s.rephase p t s.gate.lineClass) := fun p t hp => by
        refine h.rephase p t s.gate.lineClass ?_
        have named : s.gate.namedClass = s.gate.lineClass := by unfold Gate.namedClass; rw [phase]
        rw [named]
        rcases hp with rfl | rfl <;> rfl
      unfold State.phaseDraining
      split
      · exact same .none none (.inl rfl)
      · next n _ =>
        split
        · exact same .none none (.inl rfl)
        · split
          · exact h.name .moving (some n) s.gate.lineClass
          · have kept := same s.gate.phase (some n) (.inr phase)
            exact kept
    · next phase =>
      have first := h.retarget
      obtain ⟨ph, -⟩ := phase_retargetClass s
      unfold State.phaseMoving
      dsimp only
      obtain ⟨x, hx⟩ : ∃ x, s.retargetClass = x := ⟨_, rfl⟩
      rw [hx] at first ph ⊢
      split
      · split
        · refine first.rephase .settling x.gate.target x.gate.lineClass ?_
          show x.gate.target = x.gate.namedClass
          unfold Gate.namedClass
          rw [ph, phase]
        · exact first
      · exact first
    · next phase =>
      have first := h.retarget
      obtain ⟨ph, -⟩ := phase_retargetClass s
      unfold State.phaseSettling
      dsimp only
      obtain ⟨x, hx⟩ : ∃ x, s.retargetClass = x := ⟨_, rfl⟩
      rw [hx] at first ph ⊢
      have named : x.gate.namedClass = x.gate.target := by unfold Gate.namedClass; rw [ph, phase]
      split
      · next t ht =>
        split
        · exact first.rephase .moving x.gate.target x.gate.lineClass named.symm
        · split
          · refine first.rephase .none none (some t) ?_
            rw [named, ht]
            rfl
          · exact first
      · exact first
  · exact h

theorem HoldsRest.changeover (fuel : Nat) (h : HoldsRest s) : HoldsRest (s.changeover fuel) := by
  induction fuel generalizing s with
  | zero => exact h
  | succ k ih =>
    unfold State.changeover
    dsimp only
    split
    · exact h.step
    · exact ih h.step

/-- In WARMUP a class is taken up that names a new one (R51). -/
def TakesClass (s : State) : Prop :=
  s.modes.mode = .warmup ∧ s.gate.lineClass = none ∧ s.nextClass ≠ none ∧ (s.gate.phase = .none ∨ s.gate.phase = .draining)

theorem HoldsRest.take (h : HoldsRest s) (takes : ¬ TakesClass s) : HoldsRest s.takeClass := by
  refine h.of_same (Move.phase s s.gate.phase s.gate.target _).one rfl rfl rfl ?_
  unfold State.takeClass
  by_cases acts : s.modes.mode = .warmup ∧ s.gate.lineClass = none
  · rw [if_pos acts]
    unfold Gate.namedClass
    dsimp only
    cases phase : s.gate.phase with
    | moving => rfl
    | settling => rfl
    | _ =>
      dsimp only
      rw [acts.2]
      by_contra ne
      refine takes ⟨acts.1, acts.2, ne, ?_⟩
      rw [phase]
      simp
  · rw [if_neg acts]

theorem HoldsRest.docket (h : HoldsRest s) : HoldsRest s.reformDocket :=
  h.of_same (moves_reformDocket s) (by simp) (by simp) (by simp) (by simp)

theorem HoldsRest.evalView (h : HoldsRest s) (takes : ¬ TakesClass s.reformDocket) : HoldsRest s.evalView :=
  (h.docket.take takes).changeover 8

theorem HoldsRest.turn (h : HoldsRest s) : HoldsRest s.takeHolds.gateTransition := by
  have g := gateOnly_gateTransition s.takeHolds
  have k := gateOnly_takeHolds s
  exact (h.of_same k.moves k.mode k.outfeed k.thermal k.named).of_same g.moves g.mode g.outfeed g.thermal g.named

end Sys2Proof.Machine
end



section
/-! The hold set after an evaluation (R41, R43 to R47): it is that of the state which the evaluation leaves, and a gate that has turned
stands. -/

namespace Sys2Proof.Machine

open Sys2Proof.Config

variable {s t u w : State}

/-! ## The gate's transition -/

/-- The hold set formed, and the gate opened on the offer `o`. -/
def State.openedOn (w : State) (o : Offer) : State :=
  { w.takeHolds with gate := w.takeHolds.gate.enter .opened, docket := { w.takeHolds.docket with offer := some o } }

/-- What the gate does after its hold set has been formed in `w` (R44, R45, R47). -/
inductive Turn (w : State) : State → Prop
  | stays (closed : w.gate.state = .closed → formHolds w = [] → w.makeOffer = none)
      (opened : w.gate.state = .opened → formHolds w = []) (late : w.gate.state = .late → w.modes.mode.endsLate = false) :
      Turn w w.takeHolds
  | opens (o : Offer) (closed : w.gate.state = .closed) (free : formHolds w = []) (offers : w.makeOffer = some o) : Turn w (w.openedOn o)
  | lates (opened : w.gate.state = .opened) (held : formHolds w ≠ []) (runs : w.modes.mode.endsLate = false) :
      Turn w w.takeHolds.lateGate
  | closes (fixed : (w.gate.state = .opened ∧ formHolds w ≠ []) ∨ w.gate.state = .late) (ends : w.modes.mode.endsLate = true) :
      Turn w w.takeHolds.closeGate

theorem turn_gateTransition (w : State) : Turn w w.takeHolds.gateTransition := by
  have mode : w.takeHolds.modes.mode = w.modes.mode := rfl
  have empty : w.takeHolds.gate.holds.isEmpty = true ↔ formHolds w = [] := List.isEmpty_iff
  have offer : w.takeHolds.makeOffer = w.makeOffer := rfl
  unfold State.gateTransition
  split
  · next g =>
    have closed : w.gate.state = .closed := g
    split
    · next free =>
      unfold State.openGate
      split
      · next o ho => exact .opens o closed (empty.mp free) (offer.symm.trans ho)
      · next none_ => exact .stays (fun _ _ => offer.symm.trans none_) (fun x => by rw [closed] at x; cases x) fun x => by rw [closed] at x; cases x
    · next held =>
      exact .stays (fun _ x => absurd (empty.mpr x) held) (fun x => by rw [closed] at x; cases x) fun x => by rw [closed] at x; cases x
  · next g =>
    have opened : w.gate.state = .opened := g
    split
    · next free => exact .stays (fun x => by rw [opened] at x; cases x) (fun _ => empty.mp free) fun x => by rw [opened] at x; cases x
    · next held =>
      have some_ : formHolds w ≠ [] := fun x => held (empty.mpr x)
      rw [mode]
      cases ends : w.modes.mode.endsLate with
      | true => rw [if_pos rfl]; exact .closes (.inl ⟨opened, some_⟩) ends
      | false => rw [if_neg (by simp)]; exact .lates opened some_ ends
  · next g =>
    have late : w.gate.state = .late := g
    rw [mode]
    cases ends : w.modes.mode.endsLate with
    | true => rw [if_pos rfl]; exact .closes (.inr late) ends
    | false => rw [if_neg (by simp)]; exact .stays (fun x => by rw [late] at x; cases x) (fun x => by rw [late] at x; cases x) fun _ => ends
  · next g =>
    have receiving : w.gate.state = .receiving := g
    exact .stays (fun x => by rw [receiving] at x; cases x) (fun x => by rw [receiving] at x; cases x) fun x => by rw [receiving] at x; cases x

theorem holds_gateTransition (w : State) : w.takeHolds.gateTransition.gate.holds = formHolds w := by
  have turn := turn_gateTransition w
  generalize w.takeHolds.gateTransition = t at turn
  cases turn with
  | stays => rfl
  | opens => rfl
  | lates => rfl
  | closes => rfl

/-- A free gate stands in PRODUCTION with no phase of a changeover. -/
theorem free_production (h : formHolds s = []) : s.modes.mode = .production ∧ s.gate.phase = .none := by
  have out : ∀ r, holdStands s r ≠ true := fun r c => by
    have mem := (mem_formHolds s r).mpr c
    rw [h] at mem
    cases mem
  refine ⟨?_, ?_⟩
  · by_contra ne
    exact out .modeHold (by simpa [holdStands] using ne)
  · by_contra ne
    refine out .changeover ?_
    have c : (s.gate.phase != Phase.none) = true := by simpa using ne
    unfold holdStands changeoverHold
    rw [c]
    rfl

theorem sameHolds_takeHolds (w : State) : SameHolds w w.takeHolds :=
  ⟨(gateOnly_takeHolds w).moves.kept, rfl, rfl, rfl, rfl, rfl, rfl, rfl, rfl, rfl⟩

/-- An open gate that goes to LATE, or a closed one that opens, looks at the same board. -/
theorem nearHolds_lateGate (w : State) (opened : w.gate.state = .opened) : NearHolds w w.takeHolds.lateGate := by
  refine ⟨?_, rfl, rfl, rfl, ?_, rfl, rfl, rfl, rfl⟩
  · have k := kept_gateTransition w.takeHolds
    exact (gateOnly_takeHolds w).moves.kept.trans (.of_core rfl rfl)
  · unfold State.nextBoard
    rw [opened]
    rfl

theorem nearHolds_openGate (w : State) (found : Found w) (closed : w.gate.state = .closed) {o : Offer} (offers : w.makeOffer = some o) :
    NearHolds w (w.openedOn o) := by
  refine ⟨?_, rfl, rfl, rfl, ?_, rfl, rfl, rfl, rfl⟩
  · exact (gateOnly_takeHolds w).moves.kept.trans (.of_core rfl rfl)
  · obtain ⟨b, next, recipe, skip⟩ := found.makeOffer offers
    have before : w.nextBoard = some b := by
      unfold State.nextBoard
      rw [closed]
      exact next
    rw [before]
    show some { recipe := o.recipe, skipFlux := o.skipFlux } = some b
    rw [← recipe, ← skip]

/-- The docket unit reports nothing before and after: the hold set is the same. -/
theorem NearHolds.holds (h : NearHolds s t) (before : docketReports s = false ∨ formHolds s = []) (after : docketReports t = false) :
    formHolds t = formHolds s := by
  refine List.filter_congr fun r _ => ?_
  cases hr : docketReason r with
  | false => exact h.stands hr
  | true =>
    rw [docketReason_quiet hr after]
    rcases before with quiet | free
    · exact (docketReason_quiet hr quiet).symm
    · cases c : holdStands s r with
      | false => rfl
      | true =>
        have mem := (mem_formHolds s r).mpr c
        rw [free] at mem
        cases mem

/-- But where the gate closes, the hold set formed is that of the state after the transition. -/
theorem Turn.formed (h : Turn w t) (found : w.gate.state = .closed → Found w)
    (runs : w.gate.state = .opened ∨ w.gate.state = .late → w.modes.mode.endsLate = false) : formHolds t = formHolds w := by
  cases h with
  | stays => exact (sameHolds_takeHolds w).holds
  | opens o closed free offers =>
    exact (nearHolds_openGate w (found closed) closed offers).holds (.inr free) rfl
  | lates opened =>
    exact (nearHolds_lateGate w opened).holds (.inl (by unfold docketReports; rw [opened]; rfl)) rfl
  | closes fixed ends =>
    have no := runs (fixed.imp And.left id)
    rw [ends] at no
    cases no

/-! ## The evaluation -/

/-- The hold set is that of the state, the outfeed unit has nothing to report, and a further re-forming leaves what a reason looks at. -/
structure Evaluated (s : State) : Prop where
  rest : HoldsRest s
  holds : s.gate.holds = formHolds s
  told : outfeedReports s = false

theorem mode_evalView (s : State) : s.evalView.modes = s.modes := by simp [State.evalView, State.takeClass]

theorem evaluated_gateEval (h : HoldsRest s) (takes : ¬ TakesClass s.reformDocket)
    (runs : s.gate.state = .opened ∨ s.gate.state = .late → s.modes.mode.endsLate = false) : Evaluated s.gateEval := by
  have rest := (h.evalView takes).turn
  have told := outfeedReports_gateEval s
  have state : s.evalView.gate.state = s.gate.state := (gateAside_scan s).gate.state
  have mode := mode_evalView s
  have found := @evalView_found s
  rw [gateEval_eq] at told ⊢
  obtain ⟨w, hw⟩ : ∃ w, s.evalView = w := ⟨_, rfl⟩
  rw [hw] at rest told state mode found ⊢
  have formed := (turn_gateTransition w).formed (fun c => by
    have closed := state.symm.trans c
    exact found (by rw [closed]; decide) (by rw [closed]; decide)) fun x => by rw [mode]; rw [state] at x; exact runs x
  exact ⟨rest, by rw [holds_gateTransition, formed], told⟩

theorem Turn.notClosing (h : Turn w t) (g : t.gate.state = .opened ∨ t.gate.state = .late) : t.modes.mode.endsLate = false := by
  cases h with
  | stays closed opened late =>
    rcases g with g | g
    · have mode := (free_production (opened g)).1
      show w.modes.mode.endsLate = false
      rw [mode]
      rfl
    · exact late g
  | opens o closed free offers =>
    have mode := (free_production free).1
    show w.modes.mode.endsLate = false
    rw [mode]
    rfl
  | lates opened held runs => exact runs
  | closes => rcases g with g | g <;> cases g

/-- After an evaluation no gate is about to close for the mode (R47). -/
theorem notClosing_gateEval (s : State) (g : s.gateEval.gate.state = .opened ∨ s.gateEval.gate.state = .late) :
    s.gateEval.modes.mode.endsLate = false :=
  (turn_gateTransition s.evalView).notClosing g

theorem Evaluated.reform (h : Evaluated s) : Evaluated s.reform := by
  obtain ⟨rest, holds, told⟩ := h
  have same := rest.reform
  have gate := gateStands_reform s
  have kept : s.reform.gate.holds = s.gate.holds ∧ s.reform.gate.told = s.gate.told := by rw [gate]; exact ⟨rfl, rfl⟩
  refine ⟨holdsRest_reform s, by rw [kept.1, same.holds, holds], ?_⟩
  unfold outfeedReports at told ⊢
  rw [kept.2, same.outfeed]
  exact told

end Sys2Proof.Machine
end



section
/-! After a step's consequences the hold set is that of the state (R41, section 3.6). -/

namespace Sys2Proof.Machine

open Sys2Proof.Config

variable {s t u w : State}

/-! ## The changeover where no line class has been taken -/

/-- What a stage or more of the changeover leave, where they leave no line class: none was taken before, a phase that has ended was
DRAINING or none, and DRAINING goes on undrained. -/
structure Classless (s t : State) : Prop where
  lineClass : s.gate.lineClass = none
  ended : t.gate.phase = .none → s.gate.phase = .none ∨ s.gate.phase = .draining
  drains : t.gate.phase = .draining → s.gate.phase = .draining ∧ drained s = false

theorem classless_phaseStep (m : s.modes.mode.changesOver = true) (h : s.phaseStep.gate.lineClass = none) : Classless s s.phaseStep := by
  revert h
  unfold State.phaseStep
  rw [if_pos m]
  split
  · next phase =>
    unfold State.phaseNone
    split
    · next c n hc hn =>
      split <;> exact fun h => by rw [hc] at h; cases h
    · exact fun h => ⟨h, fun _ => .inl phase, fun x => by rw [phase] at x; cases x⟩
  · next phase =>
    unfold State.phaseDraining
    split
    · exact fun h => ⟨h, fun _ => .inr phase, nofun⟩
    · next n _ =>
      split
      · exact fun h => ⟨h, fun _ => .inr phase, nofun⟩
      · split
        · have named := named_nameClass { s with gate := { s.gate with phase := .moving, target := some n } }
          exact fun h =>
            ⟨named.lineClass.symm.trans h, (fun x => by rw [named.phase] at x; cases x), fun x => by rw [named.phase] at x; cases x⟩
        · next d => exact fun h => ⟨h, fun _ => .inr phase, fun _ => ⟨phase, by simpa using d⟩⟩
  · next phase =>
    obtain ⟨ph, cl⟩ := phase_retargetClass s
    unfold State.phaseMoving
    dsimp only
    obtain ⟨x, hx⟩ : ∃ x, s.retargetClass = x := ⟨_, rfl⟩
    rw [hx] at ph cl ⊢
    have stands : x.gate.lineClass = none → Classless s x := fun c =>
      ⟨cl.symm.trans c, (fun y => by rw [ph, phase] at y; cases y), fun y => by rw [ph, phase] at y; cases y⟩
    split
    · split
      · exact fun h => ⟨cl.symm.trans h, nofun, nofun⟩
      · exact stands
    · exact stands
  · next phase =>
    obtain ⟨ph, cl⟩ := phase_retargetClass s
    unfold State.phaseSettling
    dsimp only
    obtain ⟨x, hx⟩ : ∃ x, s.retargetClass = x := ⟨_, rfl⟩
    rw [hx] at ph cl ⊢
    have stands : x.gate.lineClass = none → Classless s x := fun c =>
      ⟨cl.symm.trans c, (fun y => by rw [ph, phase] at y; cases y), fun y => by rw [ph, phase] at y; cases y⟩
    split
    · split
      · exact fun h => ⟨cl.symm.trans h, nofun, nofun⟩
      · split
        · exact nofun
        · exact stands
    · exact stands

theorem classless_changeover (k : Nat) (m : s.modes.mode.changesOver = true) (h : (s.changeover (k + 1)).gate.lineClass = none) :
    Classless s (s.changeover (k + 1)) := by
  induction k generalizing s with
  | zero =>
    unfold State.changeover at h ⊢
    dsimp only at h ⊢
    have one : ∀ v : State, v.changeover 0 = v := fun _ => rfl
    rw [one, ite_self] at h ⊢
    exact classless_phaseStep m h
  | succ k ih =>
    unfold State.changeover at h ⊢
    dsimp only at h ⊢
    split at h
    · next e => rw [if_pos e]; exact classless_phaseStep m h
    · next ne =>
      rw [if_neg ne]
      have mode : s.phaseStep.modes.mode.changesOver = true := by simpa using m
      have rest := ih mode h
      have first := classless_phaseStep m rest.lineClass
      refine ⟨first.lineClass, fun x => ?_, fun x => ?_⟩
      · rcases rest.ended x with e | e
        · exact first.ended e
        · exact .inr (first.drains e).1
      · obtain ⟨e, -⟩ := rest.drains x
        exact absurd (e.trans (first.drains e).1.symm) ne

end Sys2Proof.Machine
end



section
/-! After a step's consequences the hold set is that of the state (R41, R43, section 3.6). -/

namespace Sys2Proof.Machine

open Sys2Proof.Config

variable {s t u v w x : State}

/-! ## The gate's part in a step -/

/-- The changeover is evaluated where a condition that ends its phase holds. -/
def Phased (x v : State) : Prop :=
  (phaseDue x = true ∧ v = x.changeover 8) ∨ (phaseDue x = false ∧ v = x)

/-- No reason's truth has changed, and the mode does not end LATE. -/
def Unmoved (v : State) : Prop :=
  formHolds v = v.gate.holds ∧ lateEnds v = false

theorem gateStage_shape (x : State) : (outfeedReports x = true ∧ x.gateStage = x.gateEval) ∨
    (outfeedReports x = false ∧ ∃ v, Phased x v ∧ ((¬ Unmoved v ∧ x.gateStage = v.gateEval) ∨ (Unmoved v ∧ x.gateStage = v))) := by
  unfold State.gateStage
  cases reports : outfeedReports x with
  | true => exact .inl ⟨rfl, if_pos rfl⟩
  | false =>
    rw [if_neg (by simp)]
    have follow : ∀ v : State, (¬ Unmoved v ∧ (if formHolds v = v.gate.holds ∧ lateEnds v = false then v else v.gateEval) = v.gateEval) ∨
        (Unmoved v ∧ (if formHolds v = v.gate.holds ∧ lateEnds v = false then v else v.gateEval) = v) := fun v => by
      by_cases h : Unmoved v
      · exact .inr ⟨h, if_pos h⟩
      · exact .inl ⟨h, if_neg h⟩
    unfold State.gateFollow
    cases due : phaseDue x with
    | true => exact .inr ⟨rfl, x.changeover 8, .inl ⟨due, rfl⟩, follow _⟩
    | false => exact .inr ⟨rfl, x, .inr ⟨due, rfl⟩, follow x⟩

theorem Phased.reached (h : Phased x v) : v = x ∨ v = x.changeover 8 := by
  rcases h with ⟨-, rfl⟩ | ⟨-, rfl⟩
  · exact .inr rfl
  · exact .inl rfl

/-- What the changeover leaves of the gate, the modes and the docket. -/
structure PhaseOnly (x v : State) : Prop where
  aside : Aside x v
  gate : GateStands x v
  docket : v.docket = x.docket
  modes : v.modes = x.modes
  outfeed : v.outfeed = x.outfeed
  moves : Moves x v

theorem phaseOnly_changeover (x : State) : PhaseOnly x (x.changeover 8) :=
  ⟨aside_changeover 8 x, gateStands_changeover 8 x, by simp, by simp, by simp, moves_changeover 8 x⟩

theorem phaseOnly_of_reached (h : v = x ∨ v = x.changeover 8) : PhaseOnly x v := by
  rcases h with rfl | rfl
  · exact ⟨.of_same rfl rfl rfl, .of_same rfl, rfl, rfl, rfl, .refl _⟩
  · exact phaseOnly_changeover x

theorem PhaseOnly.told (h : PhaseOnly x v) : outfeedReports v = outfeedReports x := by
  unfold outfeedReports
  rw [h.outfeed, h.gate]

/-! ## No class is taken up a second time -/

theorem reformDocket_offering (h : s.gate.state = .opened ∨ s.gate.state = .late) : s.reformDocket = s := by
  unfold State.reformDocket
  rcases h with g | g <;> rw [g]

theorem nextBoard_offering (h : s.gate.state = .opened ∨ s.gate.state = .late) (none_ : s.docket.offer = none) : s.nextBoard = none := by
  unfold State.nextBoard
  rcases h with g | g <;> rw [g, none_] <;> rfl

theorem offering_nextBoard (h : s.gate.state = .opened ∨ s.gate.state = .late) (none_ : s.nextBoard = none) : s.docket.offer = none := by
  unfold State.nextBoard at none_
  rcases h with g | g <;> rw [g] at none_ <;> exact Option.map_eq_none_iff.mp none_

/-- An evaluation in WARMUP that leaves no line class has found no next board (R51). -/
theorem classless_gateEval (warm : v.modes.mode = .warmup) (none_ : v.gateEval.gate.lineClass = none) : v.reformDocket.nextBoard = none := by
  have mode : v.reformDocket.modes.mode = .warmup := by simpa using warm
  have gate : v.gateEval.gate.lineClass = v.evalView.gate.lineClass :=
    ((gateOnly_gateTransition v.evalView.takeHolds).lineClass).trans (gateOnly_takeHolds v.evalView).lineClass
  have over_ : v.reformDocket.takeClass.modes.mode.changesOver = true := by
    show v.reformDocket.modes.mode.changesOver = true
    rw [mode]
    rfl
  have taken := (classless_changeover 7 over_ (gate.symm.trans none_)).lineClass
  unfold State.takeClass at taken
  dsimp only at taken
  split at taken
  · exact Option.map_eq_none_iff.mp taken
  · next no => exact absurd ⟨mode, taken⟩ no

/-- After such an evaluation a further scan finds none (R26, R51). -/
theorem classless_again (warm : v.modes.mode = .warmup) (none_ : v.gateEval.gate.lineClass = none) (aside : Aside v.gateEval u)
    (docket : u.docket = v.gateEval.docket) (state : u.gate.state = v.gateEval.gate.state) : u.reformDocket.nextBoard = none := by
  have before := classless_gateEval warm none_
  by_cases hg : NoOffering v
  · obtain ⟨same, found, findings⟩ := gateEval_warm warm hg
    rw [(found.of_aside aside (by rw [docket])).fixed, nextBoard_congr (t := u) (s := v.reformDocket) ?_ (docket.trans findings)]
    · exact before
    · rw [state, same]
      simp
  · have offering : v.gate.state = .opened ∨ v.gate.state = .late := by
      unfold NoOffering at hg
      by_contra c
      push Not at c
      exact hg c
    have gone : v.docket.offer = none := by
      rw [reformDocket_offering offering] at before
      exact offering_nextBoard offering before
    have scan := gateAside_scan v
    have view : v.evalView.gate.state = v.gate.state := scan.gate.state
    have offer : v.evalView.docket.offer = none := scan.offer.trans gone
    have mode : v.evalView.modes.mode = .warmup := by rw [mode_evalView]; exact warm
    have turn := turn_gateTransition v.evalView
    rw [← gateEval_eq] at turn
    generalize v.gateEval = y at turn docket state
    have kept : (y.gate.state = .opened ∨ y.gate.state = .late) ∧ y.docket.offer = none := by
      cases turn with
      | stays => exact ⟨by rw [← view] at offering; exact offering, offer⟩
      | opens o closed =>
        rw [← view, closed] at offering
        rcases offering with c | c <;> cases c
      | lates => exact ⟨.inr rfl, offer⟩
      | closes fixed ends =>
        rw [mode] at ends
        cases ends
    obtain ⟨open_, bare⟩ := kept
    have standing : u.gate.state = .opened ∨ u.gate.state = .late := by rw [state]; exact open_
    rw [reformDocket_offering standing]
    exact nextBoard_offering standing (by rw [docket]; exact bare)

/-! ## The second evaluation -/

/-- An evaluation from here leaves the hold set formed: it takes no class and closes no gate. -/
structure Unclassed (v : State) : Prop where
  takes : ¬ TakesClass v.reformDocket
  runs : v.gate.state = .opened ∨ v.gate.state = .late → v.modes.mode.endsLate = false

theorem lineClass_of_changeover (warm : x.modes.mode = .warmup) (h : v = x ∨ v = x.changeover 8) (none_ : v.gate.lineClass = none) :
    x.gate.lineClass = none := by
  rcases h with rfl | rfl
  · exact none_
  · exact (classless_changeover 7 (by rw [warm]; rfl) none_).lineClass

/-- After an evaluation and a re-forming, whatever phase follows (R43, R51). -/
theorem unclassed_after_gateEval (rests : Rests s) (h : v = s.gateEval.reform ∨ v = s.gateEval.reform.changeover 8) : Unclassed v := by
  have closing := notClosing_gateEval s
  have classless := fun warm none_ u => @classless_again u s warm none_
  obtain ⟨calm0, rests1⟩ := (moves_gateEval s).calm rests
  have mode0 := (mode_of_modes calm0.modes).1
  obtain ⟨y, hy⟩ : ∃ y, s.gateEval = y := ⟨_, rfl⟩
  rw [hy] at h closing classless rests1 mode0
  have mode1 := (mode_of_modes ((moves_reform y).calm rests1).1.modes).1
  obtain ⟨aside, docket, state⟩ := reform_aside y
  obtain ⟨lineClass, -, -⟩ := reform_class y
  rw [modeStage_of_still rests1.cooldown rests1.economy] at lineClass
  have only := phaseOnly_of_reached h
  have mode2 : v.modes.mode = y.modes.mode := (congrArg Modes.mode only.modes).trans mode1
  have state2 : v.gate.state = y.gate.state := only.gate.state.trans state
  refine ⟨fun takes => ?_, fun g => ?_⟩
  · obtain ⟨warm, none_, next, -⟩ := takes
    have warm2 : v.modes.mode = .warmup := by simpa using warm
    have none2 : v.gate.lineClass = none := by simpa using none_
    have none1 := lineClass_of_changeover ((congrArg Modes.mode only.modes).symm.trans warm2) h none2
    have none0 : y.gate.lineClass = none := lineClass.symm.trans none1
    have bare := classless (mode0.symm.trans (mode2.symm.trans warm2)) none0 v (aside.trans only.aside) (only.docket.trans docket) state2
    exact next (by unfold State.nextClass; rw [bare]; rfl)
  · rw [mode2]
    rw [state2] at g
    exact closing g

theorem phaseDue_changesOver (h : phaseDue s = true) : s.modes.mode.changesOver = true := by
  unfold phaseDue at h
  exact (Bool.and_eq_true_iff.mp h).1

theorem phaseDue_phase (h : phaseDue s = true) : s.gate.phase ≠ .none ∧ (s.gate.phase = .draining → drained s = true) := by
  unfold phaseDue at h
  obtain ⟨-, h⟩ := Bool.and_eq_true_iff.mp h
  refine ⟨fun c => ?_, fun c => ?_⟩ <;> rw [c] at h
  · cases h
  · exact h

theorem phaseDue_of_drained (m : s.modes.mode.changesOver = true) (p : s.gate.phase = .draining) (d : drained s = true) : phaseDue s = true := by
  unfold phaseDue
  rw [m, p]
  exact d

/-- Where the first part has left the gate, an evaluation that follows the second changeover. -/
theorem unclassed_after_phase (first : Phased s v) (same : SameHolds v x) (due : phaseDue x = true) : Unclassed (x.changeover 8) := by
  have runs := phaseDue_changesOver due
  have modes : (x.changeover 8).modes = x.modes := (phaseOnly_changeover x).modes
  have drains : drained x = drained v := by
    unfold drained
    rw [same.outfeed, same.kept.records_isEmpty]
  refine ⟨fun takes => ?_, fun _ => ?_⟩
  · obtain ⟨warm, none_, -, ends⟩ := takes
    have none2 : (x.changeover 8).gate.lineClass = none := by simpa using none_
    have last := classless_changeover 7 runs none2
    obtain ⟨phased, emptied⟩ := phaseDue_phase due
    have ends2 : (x.changeover 8).gate.phase = .none ∨ (x.changeover 8).gate.phase = .draining := by simpa using ends
    have draining : x.gate.phase = .draining := by
      rcases ends2 with e | e
      · exact (last.ended e).resolve_left phased
      · exact (last.drains e).1
    have empty : drained v = true := drains.symm.trans (emptied draining)
    have phaseV : v.gate.phase = .draining := same.phase.symm.trans draining
    have runsV : v.modes.mode.changesOver = true := by rw [← same.mode]; exact runs
    rcases first with ⟨due0, rfl⟩ | ⟨still, rfl⟩
    · have noneV : (s.changeover 8).gate.lineClass = none := same.lineClass.symm.trans last.lineClass
      obtain ⟨phase0, wet⟩ := (classless_changeover 7 (phaseDue_changesOver due0) noneV).drains phaseV
      have dry := (phaseDue_phase due0).2 phase0
      rw [wet] at dry
      cases dry
    · rw [phaseDue_of_drained runsV phaseV empty] at still
      cases still
  · rw [modes]
    revert runs
    cases x.modes.mode <;> simp [Mode.changesOver, Mode.endsLate]

/-! ## The consequences -/

theorem HoldsRest.reached (h : HoldsRest x) (r : v = x ∨ v = x.changeover 8) : HoldsRest v := by
  rcases r with rfl | rfl
  · exact h
  · exact h.changeover 8

theorem evaluated_stage (rest : HoldsRest x) (unclassed : ∀ v, v = x ∨ v = x.changeover 8 → Unclassed v) : Evaluated x.gateStage := by
  have eval : ∀ v, v = x ∨ v = x.changeover 8 → Evaluated v.gateEval := fun v r =>
    evaluated_gateEval (rest.reached r) (unclassed v r).takes (unclassed v r).runs
  rcases gateStage_shape x with ⟨-, e⟩ | ⟨quiet, v, phased, ⟨-, e⟩ | ⟨⟨holds, -⟩, e⟩⟩ <;> rw [e]
  · exact eval x (.inl rfl)
  · exact eval v phased.reached
  · have only := phaseOnly_of_reached phased.reached
    exact ⟨rest.reached phased.reached, holds.symm, only.told.trans quiet⟩

/-- The second gate stage after one that has not evaluated. -/
theorem evaluated_second (rest : HoldsRest s) (phased : Phased s v) (quiet : outfeedReports s = false) (unmoved : Unmoved v) :
    Evaluated v.reform.gateStage := by
  have restV := rest.reached phased.reached
  have only := phaseOnly_of_reached phased.reached
  have same := restV.reform
  have formed := (Evaluated.mk restV unmoved.1.symm (only.told.trans quiet)).reform
  obtain ⟨x, hx⟩ : ∃ x, v.reform = x := ⟨_, rfl⟩
  rw [hx] at same formed ⊢
  have ends : lateEnds x = false := by
    have e : lateEnds x = lateEnds v := by unfold lateEnds; rw [same.gate, same.mode]
    exact e.trans unmoved.2
  rcases gateStage_shape x with ⟨reports, -⟩ | ⟨-, w, phasedW, ⟨moved, e⟩ | ⟨⟨holds, -⟩, e⟩⟩
  · rw [formed.told] at reports
    cases reports
  · rw [e]
    rcases phasedW with ⟨due, rfl⟩ | ⟨-, rfl⟩
    · have unclassed := unclassed_after_phase phased same due
      exact evaluated_gateEval (formed.rest.changeover 8) unclassed.takes unclassed.runs
    · exact absurd ⟨formed.holds.symm, ends⟩ moved
  · rw [e]
    have onlyW := phaseOnly_of_reached phasedW.reached
    exact ⟨formed.rest.reached phasedW.reached, holds.symm, onlyW.told.trans formed.told⟩

theorem evaluated_settle (u : State) : Evaluated u.settle := by
  have rest : HoldsRest u.reform := holdsRest_reform u
  obtain ⟨s, hs⟩ : ∃ s, u.reform = s := ⟨_, rfl⟩
  have e : u.settle = s.gateStage.reform.gateStage.reform := by rw [← hs]; rfl
  rw [e]
  rw [hs] at rest
  refine Evaluated.reform ?_
  have second : ∀ v : State, Rests v → Evaluated v.gateEval.reform.gateStage := fun v r =>
    evaluated_stage (holdsRest_reform _) fun _ h => unclassed_after_gateEval r h
  rcases gateStage_shape s with ⟨-, e⟩ | ⟨quiet, v, phased, ⟨-, e⟩ | ⟨unmoved, e⟩⟩ <;> rw [e]
  · exact second s rest.rests
  · exact second v (rest.reached phased.reached).rests
  · exact evaluated_second rest phased quiet unmoved

end Sys2Proof.Machine
end



section
/-! ENTRY_READY turns at most once in a step's consequences; the rules of the output lines over every step (R44, R149, R156). -/

namespace Sys2Proof.Machine

open Sys2Proof.Config

variable {s t u v w x : State}

/-! ## A gate that has turned -/

/-- The gate stands as the rest of a step's consequences leaves it, but that LATE may close. -/
structure Spent (s : State) : Prop where
  rests : Rests s
  gate : s.gate.state = .receiving ∨ (s.gate.state = .closed ∧ s.modes.mode ≠ .production) ∨
    (s.gate.state = .late ∧ s.gate.ready = false) ∨ (s.gate.state = .opened ∧ Evaluated s ∧ formHolds s = [])

/-- ENTRY_READY's count stands, or has advanced by one to a gate that has turned. -/
def TurnsOnce (s t : State) : Prop :=
  t.gate.readyCount = s.gate.readyCount ∨ (t.gate.readyCount = s.gate.readyCount + 1 ∧ Spent t)

/-- The gate keeps its state and line, and the mode stays. -/
structure GateRests (s t : State) : Prop where
  moves : Moves s t
  state : t.gate.state = s.gate.state
  ready : t.gate.ready = s.gate.ready
  count : t.gate.readyCount = s.gate.readyCount
  mode : t.modes.mode = s.modes.mode

theorem gateRests_of_stands (moves : Moves s t) (gate : GateStands s t) (rests : Rests s) : GateRests s t :=
  ⟨moves, gate.state, (congrArg Gate.ready gate :), (congrArg Gate.readyCount gate :), (mode_of_modes (moves.calm rests).1.modes).1⟩

theorem Spent.stands (h : Spent s) (g : GateRests s t) (opened : s.gate.state = .opened → Evaluated t ∧ formHolds t = []) : Spent t := by
  obtain ⟨moves, state, ready, -, mode⟩ := g
  refine ⟨(moves.calm h.rests).2, ?_⟩
  rw [state, mode, ready]
  rcases h.gate with a | a | a | ⟨a, -⟩
  · exact .inl a
  · exact .inr (.inl a)
  · exact .inr (.inr (.inl a))
  · exact .inr (.inr (.inr ⟨a, opened a⟩))

theorem Spent.opened (h : Spent s) (g : s.gate.state = .opened) : Evaluated s ∧ formHolds s = [] := by
  rcases h.gate with a | ⟨a, -⟩ | ⟨a, -⟩ | ⟨-, a⟩
  · rw [g] at a; cases a
  · rw [g] at a; cases a
  · rw [g] at a; cases a
  · exact a

theorem gateRests_reform (h : Rests s) : GateRests s s.reform := gateRests_of_stands (moves_reform s) (gateStands_reform s) h

theorem Spent.reform (h : Spent s) : Spent s.reform :=
  h.stands (gateRests_reform h.rests) fun g => by
    obtain ⟨formed, free⟩ := h.opened g
    exact ⟨formed.reform, formed.rest.reform.holds.trans free⟩

/-! ## The evaluation -/

theorem holds_of_mode (h : s.modes.mode ≠ .production) : formHolds s ≠ [] :=
  fun free => h (free_production free).1

theorem not_production_of_endsLate (h : s.modes.mode.endsLate = true) : s.modes.mode ≠ .production := fun c => by
  rw [c] at h
  cases h

/-- A transition forms the hold set and no more, or leaves a gate that has turned. -/
theorem Turn.spent (h : Turn w t) (found : w.gate.state = .closed → Found w) (rests : Rests t)
    (rest : w.modes.mode = .production → HoldsRest t) (told : outfeedReports t = false) : t = w.takeHolds ∨ Spent t := by
  have formed := h.formed found
  cases h with
  | stays => exact .inl rfl
  | opens o closed free offers =>
    have same := formed fun g => by rw [closed] at g; rcases g with c | c <;> cases c
    have holds : (w.openedOn o).gate.holds = formHolds w := rfl
    exact .inr ⟨rests, .inr (.inr (.inr ⟨rfl, ⟨rest (free_production free).1, by rw [holds, same], told⟩, same.trans free⟩))⟩
  | lates => exact .inr ⟨rests, .inr (.inr (.inl ⟨rfl, rfl⟩))⟩
  | closes fixed ends => exact .inr ⟨rests, .inr (.inl ⟨rfl, not_production_of_endsLate ends⟩)⟩

/-- A gate that has turned and is not open keeps its line. -/
theorem Turn.again (h : Turn w t) (rests : Rests t) (gate : w.gate.state = .receiving ∨ (w.gate.state = .closed ∧ w.modes.mode ≠ .production) ∨
    (w.gate.state = .late ∧ w.gate.ready = false)) : t.gate.readyCount = w.gate.readyCount ∧ Spent t := by
  cases h with
  | stays =>
    refine ⟨rfl, rests, ?_⟩
    rcases gate with g | g | g
    · exact .inl g
    · exact .inr (.inl g)
    · exact .inr (.inr (.inl g))
  | opens o closed free =>
    have mode := (free_production free).1
    rcases gate with g | ⟨-, g⟩ | ⟨g, -⟩
    · rw [closed] at g; cases g
    · exact absurd mode g
    · rw [closed] at g; cases g
  | lates opened =>
    rcases gate with g | ⟨g, -⟩ | ⟨g, -⟩ <;> rw [opened] at g <;> cases g
  | closes fixed ends =>
    refine ⟨?_, rests, .inr (.inl ⟨rfl, not_production_of_endsLate ends⟩)⟩
    have low : w.gate.ready = false := by
      rcases gate with g | ⟨g, -⟩ | ⟨-, g⟩
      · rcases fixed with ⟨f, -⟩ | f <;> rw [f] at g <;> cases g
      · rcases fixed with ⟨f, -⟩ | f <;> rw [f] at g <;> cases g
      · exact g
    have e : w.takeHolds.closeGate.gate.readyCount = countChange w.gate.readyCount w.gate.ready false := rfl
    rw [e, low, countChange_same]

theorem gateRests_evalView (rests : Rests s) : GateRests s s.evalView :=
  gateRests_of_stands (((moves_reformDocket s).then (.phase _ _ _ _)).trans (moves_changeover 8 _)) (gateAside_scan s).gate rests

theorem rests_turn (rests : Rests w) : Rests w.takeHolds.gateTransition :=
  ((gateOnly_gateTransition _).moves.calm ((gateOnly_takeHolds w).moves.calm rests).2).2

theorem ReadyTurn.once (h : ReadyTurn s t) : t.gate.readyCount = s.gate.readyCount ∨ t.gate.readyCount = s.gate.readyCount + 1 := by
  rw [h]
  unfold countChange
  split
  · exact .inl rfl
  · exact .inr rfl

/-- An evaluation leaves the gate as it was, or one that has turned. -/
theorem spent_gateEval (h : HoldsRest s) :
    (s.gateEval.gate.state = s.gate.state ∧ s.gateEval.gate.readyCount = s.gate.readyCount) ∨ Spent s.gateEval := by
  have told := outfeedReports_gateEval s
  have view := gateRests_evalView h.rests
  have found := @evalView_found s
  have rest : s.evalView.modes.mode = .production → HoldsRest s.evalView := fun m => h.evalView fun c => by
    obtain ⟨warm, -⟩ := c
    rw [view.mode] at m
    have warm2 : s.modes.mode = .warmup := by simpa using warm
    rw [m] at warm2
    cases warm2
  rw [gateEval_eq] at told ⊢
  obtain ⟨w, hw⟩ : ∃ w, s.evalView = w := ⟨_, rfl⟩
  rw [hw] at told view found rest ⊢
  rw [← view.count, ← view.state]
  have turned := (turn_gateTransition w).spent (fun c => by
    have closed := view.state.symm.trans c
    exact found (by rw [closed]; decide) (by rw [closed]; decide)) (rests_turn (view.moves.calm h.rests).2) (fun m => (rest m).turn) told
  exact turned.imp (fun same => by rw [same]; exact ⟨rfl, rfl⟩) id

theorem readyTurn_gateEval (s : State) : ReadyTurn s s.gateEval := by
  have aside := (gateAside_scan s).readies
  have turn := readyTurn_turn s.evalView
  unfold ReadyTurn at turn ⊢
  rw [gateEval_eq, ← aside.1, ← aside.2]
  exact turn

theorem turnsOnce_gateEval (h : HoldsRest s) : TurnsOnce s s.gateEval := by
  rcases spent_gateEval h with ⟨-, same⟩ | spent
  · exact .inl same
  · exact (readyTurn_gateEval s).once.imp id fun e => ⟨e, spent⟩

theorem Spent.eval (h : Spent s) (g : s.gate.state ≠ .opened) : s.gateEval.gate.readyCount = s.gate.readyCount ∧ Spent s.gateEval := by
  have view := gateRests_evalView h.rests
  rw [gateEval_eq]
  obtain ⟨w, hw⟩ : ∃ w, s.evalView = w := ⟨_, rfl⟩
  rw [hw] at view ⊢
  rw [← view.count]
  refine (turn_gateTransition w).again (rests_turn (view.moves.calm h.rests).2) ?_
  rw [view.state, view.mode, view.ready]
  rcases h.gate with a | a | a | ⟨a, -⟩
  · exact .inl a
  · exact .inr (.inl a)
  · exact .inr (.inr a)
  · exact absurd a g

/-! ## The gate's part and the consequences -/

theorem gateRests_reached (rests : Rests x) (r : v = x ∨ v = x.changeover 8) : GateRests x v :=
  gateRests_of_stands (phaseOnly_of_reached r).moves (phaseOnly_of_reached r).gate rests

theorem turnsOnce_stage (h : HoldsRest s) : TurnsOnce s s.gateStage := by
  have eval : ∀ v, v = s ∨ v = s.changeover 8 → TurnsOnce s v.gateEval := fun v r => by
    unfold TurnsOnce
    rw [← (gateRests_reached h.rests r).count]
    exact turnsOnce_gateEval (h.reached r)
  rcases gateStage_shape s with ⟨-, e⟩ | ⟨-, v, phased, ⟨-, e⟩ | ⟨-, e⟩⟩ <;> rw [e]
  · exact eval s (.inl rfl)
  · exact eval v phased.reached
  · exact .inl (gateRests_reached h.rests phased.reached).count

/-- An open gate that has turned stands. -/
theorem Spent.stage_opened (h : Spent s) (g : s.gate.state = .opened) : s.gateStage = s := by
  obtain ⟨formed, free⟩ := h.opened g
  have phase := (free_production free).2
  rcases gateStage_shape s with ⟨reports, -⟩ | ⟨-, v, ⟨due, -⟩ | ⟨-, rfl⟩, ⟨moved, -⟩ | ⟨-, e⟩⟩
  · rw [formed.told] at reports; cases reports
  · exact absurd phase (phaseDue_phase due).1
  · exact absurd phase (phaseDue_phase due).1
  · refine absurd ⟨formed.holds.symm, ?_⟩ moved
    unfold lateEnds
    rw [g]
    rfl
  · exact e

theorem Spent.stage (h : Spent s) : s.gateStage.gate.readyCount = s.gate.readyCount ∧ Spent s.gateStage := by
  by_cases g : s.gate.state = .opened
  · rw [h.stage_opened g]
    exact ⟨rfl, h⟩
  · have moved : ∀ v, v = s ∨ v = s.changeover 8 → GateRests s v ∧ Spent v := fun v r => by
      have rests := gateRests_reached h.rests r
      exact ⟨rests, h.stands rests fun c => absurd c g⟩
    have eval : ∀ v, v = s ∨ v = s.changeover 8 → v.gateEval.gate.readyCount = s.gate.readyCount ∧ Spent v.gateEval := fun v r => by
      obtain ⟨rests, spent⟩ := moved v r
      rw [← rests.count]
      exact spent.eval (by rw [rests.state]; exact g)
    rcases gateStage_shape s with ⟨-, e⟩ | ⟨-, v, phased, ⟨-, e⟩ | ⟨-, e⟩⟩ <;> rw [e]
    · exact eval s (.inl rfl)
    · exact eval v phased.reached
    · obtain ⟨rests, spent⟩ := moved v phased.reached
      exact ⟨rests.count, spent⟩

theorem TurnsOnce.pass (h : TurnsOnce s t.reform) : TurnsOnce s t.reform.gateStage := by
  rcases h with e | ⟨e, spent⟩
  · have next := turnsOnce_stage (holdsRest_reform t)
    unfold TurnsOnce at next ⊢
    rw [← e]
    exact next
  · obtain ⟨same, again⟩ := spent.stage
    exact .inr ⟨same.trans e, again⟩

theorem TurnsOnce.reform (h : TurnsOnce s t) : TurnsOnce s t.reform := by
  have same : t.reform.gate.readyCount = t.gate.readyCount := (congrArg Gate.readyCount (gateStands_reform t) :)
  exact h.imp same.trans fun ⟨e, spent⟩ => ⟨same.trans e, spent.reform⟩

theorem TurnsOnce.settle (h : TurnsOnce s t) : TurnsOnce s t.settle :=
  h.reform.pass.reform.pass.reform

theorem Ending.turnsOnce (e : Ending) (u : State) :
    (e.of u).gate.readyCount = u.gate.readyCount ∨ (e.of u).gate.readyCount = u.gate.readyCount + 1 := by
  have start : TurnsOnce u u.reform := TurnsOnce.reform (.inl rfl)
  have drop : ∀ {t : State}, TurnsOnce u t → t.gate.readyCount = u.gate.readyCount ∨ t.gate.readyCount = u.gate.readyCount + 1 := fun h =>
    h.imp id And.left
  have settled : TurnsOnce u u.settle := start.pass.reform.pass.reform
  have evaluated : TurnsOnce u u.settleEval := by
    have first := turnsOnce_gateEval (holdsRest_reform u)
    have same : u.reform.gate.readyCount = u.gate.readyCount := (congrArg Gate.readyCount (gateStands_reform u) :)
    unfold TurnsOnce at first
    rw [same] at first
    exact TurnsOnce.settle (s := u) first
  induction e with
  | still => exact .inl rfl
  | settled => exact drop settled
  | evaluated => exact drop evaluated
  | interval =>
    have refresh : ∀ v : State, v.writeClock.refresh.gate = v.gate := fun _ => rfl
    have gate : (Ending.interval.of u).gate = u.settleEval.gate := refresh _
    rw [gate]
    exact drop evaluated
  | answered e a ih =>
    have gate : ((Ending.answered e a).of u).gate = (e.of u).gate := by cases a <;> rfl
    rw [gate]
    exact ih

/-! ## The statement -/

theorem countChange_eq (n : BitVec 8) (a b : Bool) : countChange n a b = if b = a then n else n + 1 := by
  unfold countChange
  cases a <;> cases b <;> rfl

theorem countStep_refl (s : State) : CountStep s s :=
  ⟨by simp, by rw [if_pos rfl], by rw [if_pos rfl], by rw [if_pos rfl]⟩

theorem Effect.countStep {c : Instr} {e : Ending} (h : Effect s c e u) : CountStep s (e.of u) := by
  have lines := h.linesStand.turn (e.linesTurn u)
  refine ⟨?_, ?_, ?_, ?_⟩
  · have first := h.readyTurn.once
    have rest := e.turnsOnce u
    generalize (e.of u).gate.readyCount = a at rest ⊢
    generalize u.gate.readyCount = b at first rest
    generalize s.gate.readyCount = d at first ⊢
    rcases first with rfl | rfl <;> rcases rest with rfl | rfl <;> bv_omega
  · rw [lines.available, countChange_eq]
  · rw [lines.horn, countChange_eq]
  · rw [lines.beacon, countChange_eq]

/-- The command is one of the two resets. -/
def IsReset (c : Instr) : Prop :=
  c = .portReset ∨ ∃ ws, c = .powerOnReset ws

/-- No event of the part is a reset. -/
theorem not_reset_of_due {s : State} {c : Instr} (h : dueNow s = some c) : ¬ IsReset c := by
  obtain ⟨d, found, rfl⟩ := Option.map_eq_some_iff.mp h
  have mem := List.mem_of_find?_eq_some found
  have post : ∀ d ∈ duePost s, ¬ IsReset d.2 := fun d hd => by
    unfold duePost at hd
    split at hd
    · next code _ =>
      rw [List.mem_singleton.mp hd]
      unfold waitingRequest IsReset
      dsimp only
      split <;> simp
    · cases hd
  have track : ∀ d ∈ dueTrack s, ¬ IsReset d.2 := by simp [dueTrack, IsReset]
  have thermal : ∀ d ∈ dueThermal s, ¬ IsReset d.2 := by simp [dueThermal, IsReset, allIdx8, allZones]
  have pot : ∀ d ∈ duePot s, ¬ IsReset d.2 := by simp [duePot, IsReset]
  have alarms : ∀ d ∈ dueAlarms s, ¬ IsReset d.2 := by simp [dueAlarms, IsReset, allIdx8]
  have width : ∀ d ∈ dueWidth s, ¬ IsReset d.2 := by simp [dueWidth, IsReset]
  have lines : ∀ d ∈ dueLines s, ¬ IsReset d.2 := by simp [dueLines, IsReset]
  have flux : ∀ d ∈ dueFlux s, ¬ IsReset d.2 := by simp [dueFlux, IsReset, allIdx8]
  have boundaries : ∀ d ∈ dueBoundaries s, ¬ IsReset d.2 := by simp [dueBoundaries, IsReset, allIdx8]
  simp only [List.mem_append] at mem
  rcases mem with (((((((m | m) | m) | m) | m) | m) | m) | m) | m
  · exact post d m
  · exact track d m
  · exact thermal d m
  · exact pot d m
  · exact alarms d m
  · exact width d m
  · exact lines d m
  · exact flux d m
  · exact boundaries d m

theorem step_countStep (h : step s = .next t) (port : ∀ l, s.pending ≠ .portReset :: l) (power : ∀ l ws, s.pending ≠ .powerOnReset ws :: l) :
    CountStep s t := by
  have command : ∀ {c : Instr} {v : State}, exec c v = .next t → ¬ IsReset c → CountStep v t := fun run no => by
    obtain ⟨e, u, effect, rfl⟩ := effect_of_exec run (fun c => no (.inl c)) fun ws c => no (.inr ⟨ws, c⟩)
    exact effect.countStep
  cases queue : s.pending with
  | cons c l =>
    unfold step at h
    rw [queue] at h
    have first := command h fun r => by
      rcases r with rfl | ⟨ws, rfl⟩
      · exact port l queue
      · exact power l ws queue
    exact ⟨first.ready, first.available, first.horn, first.beacon⟩
  | nil =>
    rcases step_empty queue h with ⟨c, due, run⟩ | ⟨-, rfl⟩
    · exact command run (not_reset_of_due due)
    · have stands := countStep_refl s
      exact ⟨stands.ready, stands.available, stands.horn, stands.beacon⟩

/-- Settles O10: each rule over a command's effect, the re-forming that follows it and a millisecond. -/
theorem lineRulesAreKept : Obligations.LineRulesAreKept := by
  refine ⟨fun s t h => ⟨step_annunciators h, step_outfeedFormed h, step_nextBoardHeld h, step_noticeLine h, step_inhibitFormed h,
    step_severityFormed h, step_countsFormed h, fun resets => step_countStep h (fun l => (resets l).1) fun l => (resets l).2⟩,
    fun c s t h hp hw _ _ => stopStep_of_exec h hp hw⟩

end Sys2Proof.Machine
end



section
/-! What a command's effect does to the gate's state and its offer (R33, R44 to R47). -/

namespace Sys2Proof.Machine

open Sys2Proof.Config

variable {s t u : State}

theorem offer_closeLost (n : Nat) (s : State) : (s.closeLost n).docket.offer = s.docket.offer := by
  induction n generalizing s with
  | zero => rfl
  | succ n ih =>
    unfold State.closeLost
    split
    · exact (ih _).trans (offer_closeRecord s _ _ _ _)
    · rfl

theorem offer_raiseLost (s : State) : s.raiseLost.docket.offer = s.docket.offer := by simp [State.raiseLost]

theorem offer_loseBoards (s : State) : s.loseBoards.docket.offer = s.docket.offer := by
  unfold State.loseBoards
  split
  · exact (offer_raiseLost _).trans (offer_closeLost _ s)
  · rfl

theorem offer_loseWaiting (s : State) : s.loseWaiting.docket.offer = s.docket.offer := by
  unfold State.loseWaiting
  split
  · exact ((offer_raiseLost _).trans (offer_closeLost _ _)).trans (offer_closeRecord s _ _ _ _)
  · rfl

theorem Accepts.offer {q u : State} {c : Instr} {e : Ending} (h : Accepts q c e u) : u.docket.offer = q.docket.offer := by
  cases h with
  | _ => simp

/-! ## The gate at a command -/

/-- The gate's own part: all but the width drive, the class and the changeover, and UPSTREAM_AVAILABLE's count. -/
def State.gateCore (s : State) : Gate := s.gateView.1

/-- What a command's effect does to the gate and its offer. -/
inductive GateOp (s : State) (e : Ending) (u : State) : Prop
  | keeps (gate : u.gateCore = s.gateCore) (offer : u.docket.offer = s.docket.offer)
  | closes (late : s.gate.state = .late) (gate : ∃ a : State, a.gateCore = s.gateCore ∧ u.gate = a.gate.enter .closed)
      (offer : u.docket.offer = none) (ending : e = .evaluated)
  | admits (fixed : s.gate.state = .opened ∨ s.gate.state = .late)
      (gate : ∃ a : State, a.gateCore = s.gateCore ∧ u.gate = a.gate.enter .receiving) (offer : u.docket.offer = none)
      (ending : e = .evaluated)
  | passes (receiving : s.gate.state = .receiving) (gate : ∃ a : State, a.gateCore = s.gateCore ∧ u.gate = a.gate.enter .closed)
      (offer : u.docket.offer = s.docket.offer) (ending : e = .evaluated)

theorem gateCore_of_blockView (h : u.blockView = s.blockView) : u.gateCore = s.gateCore :=
  congrArg (fun v => v.2.1) h

theorem gateCore_of_gate (h : u.gate = s.gate) : u.gateCore = s.gateCore := by
  unfold State.gateCore State.gateView
  rw [h]

theorem gateCore_fields (h : u.gateCore = s.gateCore) : u.gate.state = s.gate.state ∧ u.gate.holds = s.gate.holds ∧
    u.gate.lateLimit = s.gate.lateLimit ∧ u.gate.lateWaits = s.gate.lateWaits ∧ u.gate.ready = s.gate.ready ∧ u.gate.told = s.gate.told :=
  ⟨(congrArg Gate.state h :), (congrArg Gate.holds h :), (congrArg Gate.lateLimit h :), (congrArg Gate.lateWaits h :),
    (congrArg Gate.ready h :), (congrArg Gate.told h :)⟩

theorem state_of_gateCore (h : u.gateCore = s.gateCore) : u.gate.state = s.gate.state := (gateCore_fields h).1

theorem gate_admitBoard (a : State) (p : Pos) (o : Offer) (late : Bool) :
    (a.admitBoard p o late).gate = a.gate.enter .receiving ∧ (a.admitBoard p o late).docket.offer = none := by
  have slot : ∀ (v : State), (v.bindSlot o).gate = v.gate ∧ (v.bindSlot o).docket.offer = none := fun v => by
    unfold State.bindSlot; split <;> exact ⟨by simp, by simp⟩
  have edges : ∀ (v : State) (n : BitVec 16), (v.scheduleEdges n p o).gate = v.gate ∧ (v.scheduleEdges n p o).docket = v.docket := fun v n => by
    unfold State.scheduleEdges; split <;> exact ⟨rfl, rfl⟩
  obtain ⟨r, hr⟩ : ∃ r, newRecord a p o.origin (some o.binding) late = r := ⟨_, rfl⟩
  have gate : (a.admitBoard p o late).gate = (((a.append r).bindSlot o).scheduleEdges r.ordinal p o).gate.enter .receiving := by
    rw [← hr]; rfl
  have docket : (a.admitBoard p o late).docket = (((a.append r).bindSlot o).scheduleEdges r.ordinal p o).docket := by
    rw [← hr]; rfl
  obtain ⟨gate1, offer1⟩ := slot (a.append r)
  obtain ⟨gate2, docket2⟩ := edges ((a.append r).bindSlot o) r.ordinal
  exact ⟨by rw [gate, gate2, gate1]; rfl, by rw [docket, docket2, offer1]⟩

variable {a : State}

theorem gateOp_closes (same : a.blockView = s.blockView) (late : s.gate.state = .late) : GateOp s .evaluated a.closeGate :=
  .closes late ⟨a, gateCore_of_blockView same, rfl⟩ rfl rfl

theorem gateOp_leads (same : a.blockView = s.blockView) (offer : a.docket.offer = s.docket.offer) (p : Pos) :
    GateOp s .evaluated (a.handLeading p).appendAtBar := by
  have bar := gateCore_of_blockView (blockView_appendAtBar (a.handLeading p))
  have gate : (a.handLeading p).appendAtBar.gate = (a.handLeading p).gate := by simp
  have docket : (a.handLeading p).appendAtBar.docket.offer = (a.handLeading p).docket.offer := by simp
  have core := gateCore_of_blockView same
  have state := state_of_gateCore core
  have turned : ((a.handLeading p).gate = a.gate ∧ (a.handLeading p).docket.offer = a.docket.offer) ∨
      ((a.gate.state = .opened ∨ a.gate.state = .late) ∧ (a.handLeading p).gate = a.gate.enter .receiving ∧
        (a.handLeading p).docket.offer = none) := by
    unfold State.handLeading
    split
    · next o g _ => exact .inr ⟨.inl g, gate_admitBoard a p o false⟩
    · next o g _ => exact .inr ⟨.inr g, gate_admitBoard a p o true⟩
    · exact .inl ⟨rfl, rfl⟩
  rcases turned with ⟨g, o⟩ | ⟨fixed, g, o⟩
  · refine .keeps (bar.trans (Eq.trans ?_ core)) (docket.trans (o.trans offer))
    exact gateCore_of_gate g
  · exact .admits (by rw [← state]; exact fixed) ⟨a, core, gate.trans g⟩ (docket.trans o) rfl

theorem gateOp_trails (same : a.blockView = s.blockView) (offer : a.handTrailing.docket.offer = s.docket.offer) :
    GateOp s .evaluated a.handTrailing := by
  have core := gateCore_of_blockView same
  have state := state_of_gateCore core
  revert offer
  unfold State.handTrailing
  split
  · next g => exact fun offer => .passes (by rw [← state]; exact g) ⟨a, core, rfl⟩ offer rfl
  all_goals exact fun offer => .keeps core offer

/-- But for the commands that close the gate or take a board in, the offer stays. -/
theorem Effect.offerStays {c : Instr} {e : Ending} (h : Effect s c e u) : u.docket.offer = s.docket.offer ∨ GateOp s e u := by
  cases h with
  | dropLate b h hl => exact .inr (gateOp_closes (blockView_rawEye s .entry b) hl)
  | lateLimit h => exact .inr (gateOp_closes rfl (eq_of_beq (Bool.and_eq_true_iff.mp h).1))
  | entryLeading p => exact .inr (gateOp_leads (s := s) (a := { s with track := s.track.setEye .entry (s.track.eye .entry).accept }) rfl rfl p)
  | refused c code q rc f hp hq => exact .inl (by rw [hq.blocks.1])
  | accepted c code q e u hp hq hr ha => exact .inl (ha.offer.trans (by rw [hq.blocks.1]))
  | dropLost b => exact .inl ((offer_loseWaiting _).trans (by simp))
  | dropPast b => exact .inl ((offer_loseBoards _).trans (by simp))
  | exitClosed => exact .inl (offer_closeRecord _ _ _ _ _)
  | boardLost => exact .inl (offer_loseBoards s)
  | _ => exact .inl (by simp)

theorem Effect.gateOp {c : Instr} {e : Ending} (h : Effect s c e u) : GateOp s e u := by
  rcases h.offerStays with offer | op
  · rcases h.view with same | change
    · exact .keeps (gateCore_of_blockView same) offer
    · cases change with
      | counts d => exact .keeps (by simp [State.gateCore, State.gateView]) offer
      | samples i ws =>
        refine .keeps ((gateCore_of_blockView (blockView_intervalRaises ((s.toInterval.present i ws).sampleAll i))).trans ?_) offer
        simp [State.gateCore, State.gateView]
      | speedStable => exact .keeps rfl offer
      | conveyorSpeed =>
        have raised := gateCore_of_blockView (blockView_raiseCause { s with track := { s.track with misses := 0 } } .conveyorSpeed)
        exact .keeps raised offer
      | pumpStable => exact .keeps rfl offer
      | closes c a same late => exact gateOp_closes same late
      | leads a p same before => exact gateOp_leads same before p
      | trails a same => exact gateOp_trails same offer
  · exact op

end Sys2Proof.Machine
end



section
/-! The gate's form, its hold set and its outfeed report over every step (R33, R41, R44 to R47, R160). -/

namespace Sys2Proof.Machine

open Sys2Proof.Config

variable {s t u v w : State}

/-! ## Rules over the consequences -/

/-- What lies between the evaluations of a step's consequences. -/
structure Between (s t : State) : Prop where
  moves : Moves s t
  aside : Aside s t
  gate : GateAside s t

theorem between_reform (s : State) : Between s s.reform := ⟨moves_reform s, aside_reform s, gateAside_reform s⟩

theorem between_changeover (k : Nat) (s : State) : Between s (s.changeover k) :=
  ⟨moves_changeover k s, aside_changeover k s, gateAside_changeover k s⟩

theorem Between.docket (h : Between s t) : t.docket = s.docket := by
  rw [h.aside.docket, h.gate.offer]

theorem Between.state (h : Between s t) : t.gate.state = s.gate.state := h.gate.gate.state

theorem Between.found (h : Between s t) (f : Found s) : Found t := f.of_aside h.aside h.gate.offer

theorem Between.production (h : Between s t) (m : t.modes.mode = .production) : s.modes.mode = .production :=
  h.moves.running (by decide) (by decide) m

/-- What the changeover and an evaluation keep, the gate's part in a step keeps. -/
theorem stage_lift {P : State → Prop} (changeover : ∀ s : State, P s → P (s.changeover 8)) (eval : ∀ s : State, P s → P s.gateEval) {s : State}
    (h : P s) : P s.gateStage := by
  rcases State.gateStage_cases s with e | e | e | e <;> rw [e]
  · exact h
  · exact eval s h
  · exact changeover s h
  · exact eval _ (changeover s h)

/-- With the re-forming, the consequences of a step keep it. -/
theorem lift_evals {P : State → Prop} (reform : ∀ s : State, P s → P s.reform) (changeover : ∀ s : State, P s → P (s.changeover 8))
    (eval : ∀ s : State, P s → P s.gateEval) {s : State} (h : P s) : P s.settle ∧ P s.settleEval := by
  have pass : ∀ x : State, P x → P x.pass := fun x p => stage_lift changeover eval (reform x p)
  have settle : ∀ x : State, P x → P x.settle := fun x p => reform _ (pass _ (pass x p))
  exact ⟨settle s h, settle _ (eval _ (reform s h))⟩

theorem stage_between {P : State → Prop} (between : ∀ {s t}, Between s t → P s → P t) (eval : ∀ {s}, P s → P s.gateEval) {s : State}
    (h : P s) : P s.gateStage :=
  stage_lift (fun s => between (between_changeover 8 s)) (fun _ => eval) h

/-- What evaluations and the stages between them keep, the consequences of a step keep. -/
theorem lift_between {P : State → Prop} (between : ∀ {s t}, Between s t → P s → P t) (eval : ∀ {s}, P s → P s.gateEval) {s : State}
    (h : P s) : P s.settle ∧ P s.settleEval :=
  lift_evals (fun s => between (between_reform s)) (fun s => between (between_changeover 8 s)) (fun _ => eval) h

/-- With the status refresh and the answer, the end of a command keeps it. -/
theorem Ending.lift {P : State → Prop} (settles : ∀ {s}, P s → P s.settle ∧ P s.settleEval) (refresh : ∀ {s}, P s → P s.writeClock.refresh)
    (answer : ∀ {s} (a : Answer), P s → P (s.answer a)) (e : Ending) (h : P u) : P (e.of u) := by
  induction e with
  | still => exact h
  | settled => exact (settles h).1
  | evaluated => exact (settles h).2
  | interval => exact refresh (settles h).2
  | answered e a ih => exact answer a ih

theorem answer_rest (s : State) (a : Answer) : (s.answer a).gate = s.gate ∧ (s.answer a).docket = s.docket ∧ (s.answer a).modes = s.modes ∧
    (s.answer a).track = s.track ∧ (s.answer a).mem = s.mem ∧ (s.answer a).port.setup = s.port.setup ∧ (s.answer a).outfeed = s.outfeed := by
  cases a <;> exact ⟨rfl, rfl, rfl, rfl, rfl, rfl, rfl⟩

/-! ## The gate's form (R33, R44, R45, R47) -/

theorem GateFormed.congr (h : GateFormed s) (gate : t.gate = s.gate) (docket : t.docket = s.docket) : GateFormed t := by
  obtain ⟨ready, holds, late, offer⟩ := h
  exact ⟨by rw [gate]; exact ready, by rw [gate]; exact holds, by rw [gate]; exact late, by rw [gate, docket]; exact offer⟩

theorem GateFormed.op {e : Ending} (h : GateFormed s) (op : GateOp s e u) : GateFormed u := by
  obtain ⟨ready, holds, late, offer⟩ := h
  cases op with
  | keeps gate same =>
    obtain ⟨state, hold, limit, -, line, -⟩ := gateCore_fields gate
    exact ⟨by rw [line, state]; exact ready, by rw [state, hold]; exact holds, by rw [limit, state]; exact late, by rw [same, state]; exact offer⟩
  | closes _ gate bare =>
    obtain ⟨a, -, gate⟩ := gate
    refine ⟨?_, ?_, ?_, ?_⟩ <;> rw [gate] <;> simp [Gate.enter, bare]
  | admits _ gate bare =>
    obtain ⟨a, -, gate⟩ := gate
    refine ⟨?_, ?_, ?_, ?_⟩ <;> rw [gate] <;> simp [Gate.enter, bare]
  | passes receiving gate same =>
    obtain ⟨a, -, gate⟩ := gate
    have bare : u.docket.offer = none := by
      rw [same]
      by_contra c
      rw [receiving] at offer
      rcases offer.mp c with x | x <;> cases x
    refine ⟨?_, ?_, ?_, ?_⟩ <;> rw [gate] <;> simp [Gate.enter, bare]

theorem GateFormed.ending (e : Ending) (h : GateFormed u) : GateFormed (e.of u) :=
  e.lift (fun {s} p => ⟨(gateFormed_lift s).1 p, (gateFormed_lift s).2.2 p⟩) (fun p => p.congr rfl rfl)
    (fun a p => p.congr (answer_rest _ a).1 (answer_rest _ a).2.1) h

theorem AfterReset.gateFormed {port : Bool} (h : AfterReset s t port) : GateFormed t := by
  obtain ⟨holds, gate⟩ := h.gate
  obtain ⟨e, docket⟩ := h.docket
  refine ⟨?_, ?_, ?_, ?_⟩ <;> rw [gate] <;> simp [Gate.atReset, docket, Docket.atReset]

theorem step_gateFormed (h : step s = .next t) (hs : GateFormed s) : GateFormed t := by
  rcases step_cases h with ⟨c, l, run⟩ | rfl
  · rcases exec_reset_or_effect run with ⟨port, reset⟩ | ⟨e, u, effect, rfl⟩
    · exact reset.gateFormed
    · have formed : GateFormed { s with pending := l } := hs.congr rfl rfl
      exact (formed.op effect.gateOp).ending e
  · exact hs.congr rfl rfl

/-! ## The hold set (R41, Table 3-2) -/

theorem settle_holdsFormed (u : State) : HoldsFormed u.settle :=
  holdsFormed_of fun r => by rw [(evaluated_settle u).holds, mem_formHolds]

theorem Undisturbed.nextBoard (h : Undisturbed s t) : t.nextBoard = s.nextBoard :=
  nextBoard_congr (congrArg Gate.state h.gate :) h.docket

theorem Undisturbed.holdsFormed (h : Undisturbed s t) (hs : HoldsFormed s) : HoldsFormed t := by
  have next := h.nextBoard
  have holds : t.gate.holds = s.gate.holds := (congrArg Gate.holds h.gate :)
  have state : t.gate.state = s.gate.state := (congrArg Gate.state h.gate :)
  have phase : t.gate.phase = s.gate.phase := (congrArg Gate.phase h.gate :)
  have lineClass : t.gate.lineClass = s.gate.lineClass := (congrArg Gate.lineClass h.gate :)
  have mode : t.modes.mode = s.modes.mode := (congrArg Modes.mode h.modes :)
  have records : t.track.records = s.track.records := (congrArg Track.records h.track :)
  have trail : t.track.lastTrail = s.track.lastTrail := (congrArg Track.lastTrail h.track :)
  have pos : t.track.pos = s.track.pos := (congrArg Track.pos h.track :)
  have points : t.extr.points = s.extr.points := (congrArg Extr.points h.extr :)
  have pot : t.thermal.pot = s.thermal.pot := (congrArg Thermal.pot h.thermal :)
  have inputs : t.thermal.inputs = s.thermal.inputs := (congrArg Thermal.inputs h.thermal :)
  have latches : t.thermal.latches = s.thermal.latches := (congrArg Thermal.latches h.thermal :)
  have outfeed : t.outfeed.state = s.outfeed.state := (congrArg Outfeed.state h.outfeed :)
  have ws : t.ws = s.ws := by unfold State.ws; rw [h.setup]
  refine ⟨?_, ?_, ?_, ?_, ?_, ?_, ?_, ?_, ?_, ?_, ?_, ?_, ?_, ?_⟩
  · rw [holds, mode]; exact hs.modeHold
  · rw [holds, records]; exact hs.listFull
  · rw [holds, h.docket, state]; exact hs.noDocket
  · rw [holds, h.docket, state]; exact hs.recipe
  · rw [holds, h.docket, state]; exact hs.noSlot
  · rw [holds, phase, lineClass, next]; exact hs.changeover
  · rw [holds, h.flux, next]; exact hs.flux
  · rw [holds, h.flux, next]; exact hs.edgeRoom
  · rw [holds, points]; exact hs.x2Extraction
  · rw [holds, pot, h.levelGood]; exact hs.pot
  · rw [holds, next, inputs, latches, ws]; exact hs.zoneFault
  · rw [holds, h.hostLost]; exact hs.hostLost
  · rw [holds, outfeed, h.downstream]; exact hs.outfeed
  · rw [holds, h.entryEye, records, trail, pos, ws]; exact hs.spacing

theorem step_holdsFormed (h : step s = .next t) (hs : HoldsFormed s) : HoldsFormed t :=
  step_keeps_rule _ settle_holdsFormed (fun _ _ _ reset => reset.holds) (fun _ _ same => same.holdsFormed) h hs

theorem step_outfeedTold (h : step s = .next t) (hs : OutfeedTold s) : OutfeedTold t := by
  refine step_keeps_rule _ (fun u => ?_) (fun _ t _ reset => ?_) (fun _ _ same told => ?_) h hs
  · have told := (evaluated_settle u).told
    unfold outfeedReports at told
    exact (by simpa using told : _ = _).symm
  · obtain ⟨holds, gate⟩ := reset.gate
    unfold OutfeedTold
    rw [gate]
  · have outfeed : _ = _ := (congrArg Outfeed.state same.outfeed :)
    have gate : _ = _ := (congrArg Gate.told same.gate :)
    exact (gate.trans told).trans outfeed.symm

end Sys2Proof.Machine
end



section
/-! The closed gate, the offer, the late limit and the hold notice over every step (R33, R41, R44, R45). -/

namespace Sys2Proof.Machine

open Sys2Proof.Config

variable {s t u v w : State}

/-! ## A closed gate has a hold reason (R44) -/

/-- With no hold reason the findings give an offer. -/
theorem makeOffer_of_free (found : Found w) (closed : w.gate.state = .closed) (free : formHolds w = []) : w.makeOffer ≠ none := by
  have out : ∀ r, holdStands w r = false := fun r => by
    cases c : holdStands w r with
    | false => rfl
    | true =>
      have mem := (mem_formHolds w r).mpr c
      rw [free] at mem
      cases mem
  have reports : docketReports w = true := by unfold docketReports; rw [closed]; rfl
  have noDocket : w.docket.noDocket = false := by simpa [holdStands, reports] using out .noDocket
  have recipe : w.docket.recipeHold = false := by simpa [holdStands, reports] using out .recipe
  have noSlot : w.docket.noSlot = false := by simpa [holdStands, reports] using out .noSlot
  unfold State.makeOffer
  cases source : w.docket.source with
  | docket =>
    have loaded : w.loaded = true := by
      by_contra c
      have bare := found.unloaded source (by simpa using c)
      rw [bare] at noDocket
      cases noDocket
    rcases (found.scanned source loaded).found with ⟨-, e⟩ | ⟨n, -, verdict, e⟩
    · rw [e] at noDocket
      cases noDocket
    · have candidate : w.docket.candidate = some n := by rw [e]; rfl
      have next : w.docket.next = (verdictAt w n).board (slotSkipFlux w.mem n) := by rw [e]; rfl
      have hold : w.docket.recipeHold = decide (verdictAt w n = .editing) := by rw [e]; rfl
      rw [recipe] at hold
      rw [next, candidate]
      cases v : verdictAt w n with
      | bad => exact absurd v verdict
      | editing => rw [v] at hold; cases hold
      | ready r => simp [Verdict.board]
  | standing k =>
    have e := found.standing k source
    obtain ⟨slot, hs⟩ : ∃ slot, standingSlot w = slot := ⟨_, rfl⟩
    obtain ⟨board, hb⟩ : ∃ board, (judgeRecipe w.mem w.port.setup k.val).board false = board := ⟨_, rfl⟩
    have loaded : w.docket.noDocket = !w.loaded := by rw [e]; rfl
    have next : w.docket.next = if w.loaded then (judgeRecipe w.mem w.port.setup k.val).board false else none := by rw [e]; rfl
    have hold : w.docket.recipeHold = ((judgeRecipe w.mem w.port.setup k.val).board false).isNone := by rw [e]; rfl
    have free : w.docket.noSlot = (standingSlot w).isNone := by rw [e]; rfl
    rw [noDocket] at loaded
    rw [recipe, hb] at hold
    rw [noSlot, hs] at free
    rw [hb, if_pos (by simpa using loaded.symm)] at next
    rw [next, hs]
    cases board with
    | none => cases hold
    | some b =>
      cases slot with
      | none => cases free
      | some n => simp

theorem Turn.closedHeld (h : Turn w t) (found : w.gate.state = .closed → Found w) : ClosedHeld t := by
  intro closed
  have holds : t.gate.holds = formHolds w := by
    cases h with
    | stays => rfl
    | opens => rfl
    | lates => rfl
    | closes => rfl
  rw [holds]
  intro free
  cases h with
  | stays none_ => exact makeOffer_of_free (found closed) closed free (none_ closed free)
  | opens => cases closed
  | lates => cases closed
  | closes fixed ends => exact not_production_of_endsLate ends (free_production free).1

theorem closedHeld_gateEval (s : State) : ClosedHeld s.gateEval := by
  rw [gateEval_eq]
  refine (turn_gateTransition s.evalView).closedHeld fun closed => ?_
  have state : s.gate.state = .closed := (gateAside_scan s).gate.state.symm.trans closed
  exact evalView_found (by rw [state]; decide) (by rw [state]; decide)

theorem closedHeld_of_gate (h : ClosedHeld s) (state : t.gate.state = s.gate.state) (holds : t.gate.holds = s.gate.holds) : ClosedHeld t := by
  unfold ClosedHeld
  rw [state, holds]
  exact h

theorem closedHeld_settles (h : ClosedHeld s) : ClosedHeld s.settle ∧ ClosedHeld s.settleEval :=
  lift_between (P := ClosedHeld) (fun b x => closedHeld_of_gate x b.state (congrArg Gate.holds b.gate.gate :)) (fun _ => closedHeld_gateEval _) h

theorem Effect.closedHeld {c : Instr} {e : Ending} (h : Effect s c e u) (hs : ClosedHeld s) : ClosedHeld (e.of u) := by
  have evaluated : e = .evaluated → ClosedHeld (e.of u) := fun he => by
    rw [he]
    exact (closedHeld_settles (closedHeld_gateEval u.reform)).1
  cases h.gateOp with
  | keeps gate =>
    obtain ⟨state, holds, -⟩ := gateCore_fields gate
    exact e.lift (P := ClosedHeld) closedHeld_settles (fun x => closedHeld_of_gate x rfl rfl)
      (fun a x => closedHeld_of_gate x (by rw [(answer_rest _ a).1]) (by rw [(answer_rest _ a).1])) (closedHeld_of_gate hs state holds)
  | closes _ _ _ he => exact evaluated he
  | admits _ _ _ he => exact evaluated he
  | passes _ _ _ he => exact evaluated he

theorem step_closedHeld (h : step s = .next t) (hs : ClosedHeld s) : ClosedHeld t := by
  rcases step_cases h with ⟨c, l, run⟩ | rfl
  · rcases exec_reset_or_effect run with ⟨port, reset⟩ | ⟨e, u, effect, rfl⟩
    · have off : t.modes.mode = .off := by rw [reset.modes]
      exact fun _ bare => by
        have mem := reset.holds.modeHold.mpr (by rw [off]; decide)
        rw [bare] at mem
        cases mem
    · have held : ClosedHeld { s with pending := l } := closedHeld_of_gate hs rfl rfl
      exact effect.closedHeld held
  · exact closedHeld_of_gate hs rfl rfl

/-! ## The late limit (R45) -/

/-- A LATE gate has its limit 50.0 mm ahead of P. -/
def LimitAhead (s : State) : Prop :=
  s.gate.state = .late → s.gate.lateLimit = some (s.track.pos + 500)

theorem limitAhead_of_same (h : LimitAhead s) (state : t.gate.state = s.gate.state) (limit : t.gate.lateLimit = s.gate.lateLimit)
    (pos : t.track.pos = s.track.pos) : LimitAhead t := by
  unfold LimitAhead
  rw [state, limit, pos]
  exact h

theorem Between.limitAhead (b : Between s t) (h : LimitAhead s) : LimitAhead t :=
  limitAhead_of_same h b.state (congrArg Gate.lateLimit b.gate.gate :) (pos_of_kept b.gate.kept)

theorem Turn.limitAhead (h : Turn w t) (hw : LimitAhead w) : LimitAhead t := by
  cases h with
  | stays => exact hw
  | opens => exact nofun
  | lates => exact fun _ => rfl
  | closes => exact nofun

theorem limitAhead_gateEval (h : LimitAhead s) : LimitAhead s.gateEval := by
  have scan := gateAside_scan s
  rw [gateEval_eq]
  exact (turn_gateTransition s.evalView).limitAhead
    (limitAhead_of_same h scan.gate.state (congrArg Gate.lateLimit scan.gate :) (pos_of_kept scan.kept))

/-- A command makes no gate open or LATE by itself. -/
theorem GateOp.enters {e : Ending} (h : GateOp s e u) :
    (u.gate.state = .opened → s.gate.state = .opened) ∧ (u.gate.state = .late → s.gate.state = .late) := by
  cases h with
  | keeps gate =>
    rw [state_of_gateCore gate]
    exact ⟨id, id⟩
  | closes _ gate =>
    obtain ⟨a, -, gate⟩ := gate
    rw [gate]
    exact ⟨nofun, nofun⟩
  | admits _ gate =>
    obtain ⟨a, -, gate⟩ := gate
    rw [gate]
    exact ⟨nofun, nofun⟩
  | passes _ gate =>
    obtain ⟨a, -, gate⟩ := gate
    rw [gate]
    exact ⟨nofun, nofun⟩

theorem Effect.limitAhead {c : Instr} {e : Ending} (h : Effect s c e u) (hs : s.gate.state ≠ .late) : LimitAhead (e.of u) :=
  e.lift (P := LimitAhead) (lift_between Between.limitAhead limitAhead_gateEval) (fun x => limitAhead_of_same x rfl rfl rfl)
    (fun a x => limitAhead_of_same x (by rw [(answer_rest _ a).1]) (by rw [(answer_rest _ a).1]) (by rw [(answer_rest _ a).2.2.2.1]))
    fun late => absurd (h.gateOp.enters.2 late) hs

/-! ## The standing offer (R33) -/

/-- The offer of a gate that is open or LATE is `o`; and a gate that has closed for the mode does not open again. -/
structure OfferStands (o : Option Offer) (s : State) : Prop where
  offer : s.gate.state = .opened ∨ s.gate.state = .late → s.docket.offer = o
  closed : s.gate.state = .closed → s.modes.mode ≠ .production

variable {o : Option Offer}

theorem offerStands_of_same (h : OfferStands o s) (state : t.gate.state = s.gate.state) (offer : t.docket.offer = s.docket.offer)
    (mode : t.modes.mode = .production → s.modes.mode = .production) : OfferStands o t :=
  ⟨by rw [state, offer]; exact h.offer, by rw [state]; exact fun c m => h.closed c (mode m)⟩

theorem Turn.offerStands (h : Turn w t) (hw : OfferStands o w) : OfferStands o t := by
  cases h with
  | stays => exact ⟨hw.offer, hw.closed⟩
  | opens x closed free => exact absurd (free_production free).1 (hw.closed closed)
  | lates opened => exact ⟨fun _ => hw.offer (.inl opened), nofun⟩
  | closes fixed ends => exact ⟨fun g => (by rcases g with g | g <;> cases g), fun _ => not_production_of_endsLate ends⟩

theorem offerStands_gateEval (h : OfferStands o s) : OfferStands o s.gateEval := by
  have scan := gateAside_scan s
  have mode := mode_evalView s
  rw [gateEval_eq]
  exact (turn_gateTransition s.evalView).offerStands
    (offerStands_of_same h scan.gate.state scan.offer fun m => (congrArg Modes.mode mode).symm.trans m)

theorem Effect.offerStands {c : Instr} {e : Ending} (h : Effect s c e u) (hs : s.gate.state = .opened) : OfferStands s.docket.offer (e.of u) := by
  refine e.lift (P := OfferStands s.docket.offer)
    (lift_between (fun b x => offerStands_of_same x b.state b.gate.offer b.production) offerStands_gateEval)
    (fun x => offerStands_of_same x rfl rfl id) (fun a x => ?_) ?_
  · obtain ⟨gate, docket, modes, -⟩ := answer_rest _ a
    exact offerStands_of_same x (by rw [gate]) (by rw [docket]) (by rw [modes]; exact id)
  · cases h.gateOp with
    | keeps gate offer =>
      have state := (state_of_gateCore gate).trans hs
      exact ⟨fun _ => offer, fun c => by rw [state] at c; cases c⟩
    | closes late => rw [hs] at late; cases late
    | admits _ gate =>
      obtain ⟨a, -, gate⟩ := gate
      have state : u.gate.state = .receiving := by rw [gate]; rfl
      exact ⟨fun g => (by rw [state] at g; rcases g with g | g <;> cases g), fun g => by rw [state] at g; cases g⟩
    | passes receiving => rw [hs] at receiving; cases receiving

/-! ## The hold notice (R41) -/

/-- Where the hold set has changed, the notice is pending; it is not taken away. -/
structure HoldsTold (s t : State) : Prop where
  kept : Pending s .holdChanged → Pending t .holdChanged
  changed : t.gate.holds ≠ s.gate.holds → Pending t .holdChanged

theorem HoldsTold.trans (h : HoldsTold s t) (g : HoldsTold t u) : HoldsTold s u := by
  refine ⟨g.kept ∘ h.kept, fun ne => ?_⟩
  by_cases same : u.gate.holds = t.gate.holds
  · exact g.kept (h.changed (by rw [← same]; exact ne))
  · exact g.changed same

theorem holdsTold_of_same (notes : Notes s t) (holds : t.gate.holds = s.gate.holds) : HoldsTold s t :=
  ⟨notes.kept _, fun ne => absurd holds ne⟩

theorem pending_takeHolds (w : State) : Pending w.takeHolds .holdChanged ↔ Pending w .holdChanged ∨ formHolds w ≠ w.gate.holds := by
  unfold State.takeHolds Port.notifyIf
  by_cases same : formHolds w = w.gate.holds
  · rw [if_neg (by simp [same])]
    exact ⟨.inl, fun h => h.elim id fun ne => absurd same ne⟩
  · rw [if_pos (by simpa using same)]
    exact ⟨fun _ => .inr same, fun _ => notify_pending _ _⟩

theorem Turn.port (h : Turn w t) : t.port = w.takeHolds.port := by
  cases h with
  | stays => rfl
  | opens => rfl
  | lates => rfl
  | closes => rfl

theorem holdsTold_turn (w : State) : HoldsTold w w.takeHolds.gateTransition := by
  have holds := holds_gateTransition w
  have port := (turn_gateTransition w).port
  have pending : Pending w.takeHolds.gateTransition .holdChanged ↔ Pending w.takeHolds .holdChanged := by unfold Pending; rw [port]
  refine ⟨fun h => pending.mpr ((pending_takeHolds w).mpr (.inl h)), fun ne => pending.mpr ((pending_takeHolds w).mpr (.inr ?_))⟩
  rw [← holds]
  exact ne

theorem Between.holdsTold (b : Between s t) : HoldsTold s t := holdsTold_of_same b.moves.notes (congrArg Gate.holds b.gate.gate :)

theorem holdsTold_gateEval (s : State) : HoldsTold s s.gateEval := by
  have scan := gateAside_scan s
  have moves : Moves s s.evalView := ((moves_reformDocket s).then (.phase _ _ _ _)).trans (moves_changeover 8 _)
  exact (holdsTold_of_same moves.notes (congrArg Gate.holds scan.gate :)).trans (holdsTold_turn _)

theorem Ending.holdsTold (e : Ending) (u : State) : HoldsTold u (e.of u) :=
  e.lift (P := HoldsTold u) (lift_between (fun b x => x.trans b.holdsTold) fun x => x.trans (holdsTold_gateEval _))
    (fun x => x.trans (holdsTold_of_same (notes_refresh _) rfl))
    (fun a x => x.trans (by cases a <;> exact holdsTold_of_same ((portNotes_notify _ _).trans (.of_eq rfl rfl)) rfl))
    (holdsTold_of_same (.refl u) rfl)

theorem Effect.holds {c : Instr} {e : Ending} (h : Effect s c e u) : u.gate.holds = s.gate.holds := by
  have entered : ∀ g : GateState, (∃ a : State, a.gateCore = s.gateCore ∧ u.gate = a.gate.enter g) → u.gate.holds = s.gate.holds := fun g h => by
    obtain ⟨a, core, gate⟩ := h
    rw [gate]
    exact (gateCore_fields core).2.1
  cases h.gateOp with
  | keeps gate => exact (gateCore_fields gate).2.1
  | closes _ gate => exact entered _ gate
  | admits _ gate => exact entered _ gate
  | passes _ gate => exact entered _ gate

/-- A command that changes the hold set leaves the notice pending. -/
theorem Effect.holdsTold {c : Instr} {e : Ending} (h : Effect s c e u) (ne : (e.of u).gate.holds ≠ s.gate.holds) : Pending (e.of u) .holdChanged :=
  (e.holdsTold u).changed (by rw [h.holds]; exact ne)

theorem pending_rejectSlots (s : State) (ns : List SlotIx) (r : RejectReason) :
    Pending (s.rejectSlots ns r) .holdChanged ↔ Pending s .holdChanged := by
  unfold State.rejectSlots
  induction ns generalizing s with
  | nil => exact Iff.rfl
  | cons n ns ih =>
    rw [List.foldl_cons]
    refine (ih _).trans ?_
    unfold Pending State.rejectSlot Port.notify
    simp [Notice.bit, Notice.mask]

theorem pending_slotScan (fuel : Nat) (s : State) : Pending (s.slotScan fuel) .holdChanged ↔ Pending s .holdChanged := by
  induction fuel generalizing s with
  | zero => exact Iff.rfl
  | succ k ih =>
    unfold State.slotScan
    dsimp only
    split
    · exact pending_rejectSlots s _ _
    · next n others he =>
      have both := (pending_rejectSlots (s.rejectSlots ((postedSlots s).filter fun n =>
        isStale s.docket.expected (slotSequence s.mem n)) .stale) others .duplicate).trans (pending_rejectSlots s _ _)
      generalize (s.rejectSlots ((postedSlots s).filter fun n => isStale s.docket.expected (slotSequence s.mem n)) .stale).rejectSlots others
        .duplicate = y at both ⊢
      have one : ∀ e, Pending ((y.rejectSlot n .badRecipe).setExpected e) .holdChanged ↔ Pending y .holdChanged := fun e =>
        pending_rejectSlots y [n] .badRecipe
      split
      · exact ((ih _).trans (one _)).trans both
      · exact both
      · exact both

/-- The scan's rejections leave the hold notice. -/
theorem pending_reformDocket (s : State) : Pending s.reformDocket .holdChanged ↔ Pending s .holdChanged :=
  reformDocket_cases (R := fun t => Pending t .holdChanged ↔ Pending s .holdChanged) Iff.rfl (fun _ => pending_slotScan 65 s)
    fun _ _ _ _ _ => Iff.rfl

/-- An evaluation sets the notice exactly where it changes the hold set. -/
theorem pending_gateEval (s : State) :
    Pending s.gateEval .holdChanged ↔ Pending s .holdChanged ∨ s.gateEval.gate.holds ≠ s.gate.holds := by
  have scan := gateAside_scan s
  have view : s.evalView.port = s.reformDocket.port := by simp [State.evalView, State.takeClass]
  have before : Pending s.evalView .holdChanged ↔ Pending s .holdChanged := by
    rw [← pending_reformDocket s]
    unfold Pending
    rw [view]
  have holds : s.evalView.gate.holds = s.gate.holds := (congrArg Gate.holds scan.gate :)
  have port := (turn_gateTransition s.evalView).port
  have pending : Pending s.gateEval .holdChanged ↔ Pending s.evalView.takeHolds .holdChanged := by
    rw [gateEval_eq]
    unfold Pending
    rw [port]
  rw [pending, pending_takeHolds, before, gateEval_eq, holds_gateTransition, holds]

end Sys2Proof.Machine
end



section
/-! The offer as it is fixed (R33), and the slots that an outfeed report leaves scanned (R22 to R26, R160). -/

namespace Sys2Proof.Machine

open Sys2Proof.Config

variable {s t u v w : State} {o : Offer}

/-! ## The offer at the entry to OPEN (R33) -/

theorem slotState_posted {m : Memory} {n : SlotIx} (h : slotState m n = .posted) : m.read (slotAt n) = 1 := by
  unfold slotState at h
  dsimp only at h
  split at h
  · assumption
  · split at h
    · cases h
    · split at h
      · cases h
      · split at h <;> cases h

theorem recipeState_ready {m : Memory} {k : Nat} (h : recipeState m k = .ready) : m.read (recipeAt k) = 2 := by
  unfold recipeState at h
  dsimp only at h
  split at h
  · cases h
  · split at h
    · assumption
    · cases h

theorem judgeRecipe_of_ready {m : Memory} {st : Option Setup} {k : Nat} {r : Recipe} (range : k ≤ 15) (ready : m.read (recipeAt k) = 2)
    (recipe : r = readRecipe m k) (passes : r.passes st = true) : judgeRecipe m st k = .ready r := by
  have state : recipeState m k = .ready := by unfold recipeState; rw [ready]; rfl
  unfold judgeRecipe
  rw [if_neg (by omega), state, ← recipe]
  exact if_pos passes

theorem mem_allSlots : ∀ n : SlotIx, n ∈ allSlots := by decide

theorem offerTaken_of_makeOffer (found : Found w) (bare : w.docket.offer = none) (offers : w.makeOffer = some o) : OfferTaken w o := by
  obtain ⟨b, next, recipe, skip⟩ := found.makeOffer offers
  have recipes : ∀ {k : Nat}, judgeRecipe w.mem w.port.setup k = .ready b.recipe → k ≤ 15 ∧ w.mem.read (recipeAt k) = 2 ∧
      o.recipe = readRecipe w.mem k ∧ o.recipe.passes w.port.setup = true := fun j => by
    obtain ⟨range, ready, read, passes⟩ := judgeRecipe_ready j
    exact ⟨range, recipeState_ready ready, by rw [← recipe]; exact read, by rw [← recipe]; exact passes⟩
  obtain ⟨-, ⟨n, source, candidate, list, verdict, -⟩ | ⟨k, source, verdict, -⟩⟩ := found.next next
  · have shape : some o = some { slot := n, origin := .docket, sequence := slotSequence w.mem n, recipeIndex := slotRecipe w.mem n
                                 skipFlux := slotSkipFlux w.mem n, expectedLength := slotLength w.mem n, lengthTol := slotTol w.mem n
                                 recipe := b.recipe } := by
      rw [← offers]
      unfold State.makeOffer
      rw [source, next, candidate]
      rfl
    obtain rfl := Option.some.inj shape
    have mem : n ∈ slotsAtE w := by rw [list]; exact List.mem_singleton_self n
    obtain ⟨⟨posted, unheld⟩, sequence⟩ := (mem_slotsAtE w n).mp mem
    exact ⟨fun _ => ⟨rfl, candidate, slotState_posted posted, sequence, rfl, rfl, rfl, rfl, rfl⟩,
      fun k c => by (rw [source] at c; cases c), unheld, recipes verdict⟩
  · obtain ⟨n, free, shape⟩ : ∃ n, standingSlot w = some n ∧ o =
        { slot := n, origin := .standing, sequence := 0, recipeIndex := BitVec.ofNat 16 k.val
          skipFlux := false, expectedLength := 0, lengthTol := 0, recipe := b.recipe } := by
      unfold State.makeOffer at offers
      rw [source, next] at offers
      obtain ⟨n, hn, rfl⟩ := Option.map_eq_some_iff.mp offers
      exact ⟨n, hn, rfl⟩
    subst shape
    have index : (BitVec.ofNat 16 k.val).toNat = k.val := by
      have := k.isLt
      rw [BitVec.toNat_ofNat]
      omega
    unfold standingSlot at free
    obtain ⟨takes, a, c, list, before⟩ := List.find?_eq_some_iff_append.mp free
    have slot : slotState w.mem n = .free ∧ n ∉ w.docket.held := by simpa [bare] using takes
    refine ⟨fun c => by (rw [source] at c; cases c), fun j hj => ?_, slot.2, ?_⟩
    · obtain rfl := Source.standing.inj (source.symm.trans hj)
      refine ⟨rfl, rfl, rfl, rfl, slot.1, fun x hx => ?_⟩
      have every : x ∈ a ++ n :: c := by rw [← list]; exact mem_allSlots x
      have sorted : (a ++ n :: c).Pairwise (· < ·) := by rw [← list]; exact allSlots_sorted
      have first : x ∈ a := by
        rcases List.mem_append.mp every with m | m
        · exact m
        · rcases List.mem_cons.mp m with rfl | m
          · exact absurd hx (lt_irrefl x)
          · obtain ⟨-, tail, -⟩ := List.pairwise_append.mp sorted
            exact absurd hx (lt_asymm ((List.pairwise_cons.mp tail).1 x m))
      have out := before x first
      by_contra held
      push Not at held
      simp [held.1, held.2, bare] at out
    · show (BitVec.ofNat 16 k.val).toNat ≤ 15 ∧ _
      rw [index]
      exact recipes verdict

/-- The offer as taken looks at the docket, the setup, the slots and the recipe table alone. -/
theorem OfferTaken.congr (h : OfferTaken s o) (held : t.docket.held = s.docket.held) (source : t.docket.source = s.docket.source)
    (candidate : t.docket.candidate = s.docket.candidate) (expected : t.docket.expected = s.docket.expected)
    (setup : t.port.setup = s.port.setup) (read : ∀ a, 0x360 ≤ a → t.mem.read a = s.mem.read a) : OfferTaken t o := by
  have word : ∀ n k, t.mem.read (slotAt n + k) = s.mem.read (slotAt n + k) := fun n k => read _ (by have := slotAt_bounds n; omega)
  have state : ∀ n, slotState t.mem n = slotState s.mem n := fun n => slotState_congr (word n 0)
  have first : t.mem.read (slotAt o.slot) = s.mem.read (slotAt o.slot) := word o.slot 0
  obtain ⟨docket, standing, unheld, range, ready, recipe, passes⟩ := h
  refine ⟨?_, ?_, by rw [held]; exact unheld, ?_⟩
  · rw [source, candidate, expected, first, word, word, word, word, word]
    exact docket
  · rw [source, state]
    intro k hk
    obtain ⟨origin, index, skip, length, free, lower⟩ := standing k hk
    exact ⟨origin, index, skip, length, free, fun n hn => by rw [state, held]; exact lower n hn⟩
  · have judged := judgeRecipe_of_ready range ready recipe passes
    have again : judgeRecipe t.mem t.port.setup o.recipeIndex.toNat = .ready o.recipe := by
      rw [setup, judgeRecipe_congr (fun a ha _ => read a ha)]
      exact judged
    obtain ⟨r, state, rd, ps⟩ := judgeRecipe_ready again
    exact ⟨r, recipeState_ready state, rd, ps⟩

/-- An open gate has its offer as taken from source, slot and recipe; where none is fixed there is none. -/
structure OfferRight (s : State) : Prop where
  formed : GateFormed s
  taken : s.gate.state = .opened → ∃ o, s.docket.offer = some o ∧ OfferTaken s o

theorem read_of_aside (h : Aside s t) (a : Nat) (ha : 0x360 ≤ a) : t.mem.read a = s.mem.read a := h.mem a (by omega) (by omega)

theorem Between.offerRight (b : Between s t) (h : OfferRight s) : OfferRight t := by
  refine ⟨h.formed.of_gateAside b.gate, fun g => ?_⟩
  obtain ⟨o, offer, taken⟩ := h.taken (b.state.symm.trans g)
  have docket := b.docket
  exact ⟨o, by rw [docket]; exact offer, taken.congr (by rw [docket]) (by rw [docket]) (by rw [docket]) (by rw [docket]) b.aside.setup
    (read_of_aside b.aside)⟩

theorem Turn.offerRight (h : Turn w t) (found : w.gate.state = .closed → Found w) (hw : OfferRight w) :
    t.gate.state = .opened → ∃ o, t.docket.offer = some o ∧ OfferTaken t o := by
  cases h with
  | stays =>
    intro g
    obtain ⟨o, offer, taken⟩ := hw.taken g
    exact ⟨o, offer, taken.congr rfl rfl rfl rfl (by simp [State.takeHolds]) fun _ _ => rfl⟩
  | opens o closed free offers =>
    have bare : w.docket.offer = none := by
      by_contra c
      have fixed := hw.formed.offer.mp c
      rw [closed] at fixed
      rcases fixed with x | x <;> cases x
    exact fun _ => ⟨o, rfl, (offerTaken_of_makeOffer (found closed) bare offers).congr rfl rfl rfl rfl
      (by show w.takeHolds.port.setup = w.port.setup; simp [State.takeHolds]) fun _ _ => rfl⟩
  | lates => exact nofun
  | closes => exact nofun

theorem offerRight_gateEval (h : OfferRight s) : OfferRight s.gateEval := by
  have scan := gateAside_scan s
  have view : OfferRight s.evalView := by
    refine ⟨h.formed.of_gateAside scan, fun g => ?_⟩
    have opened : s.gate.state = .opened := scan.gate.state.symm.trans g
    have aside := aside_evalView s
    rw [reformDocket_offering (.inl opened)] at aside
    obtain ⟨o, offer, taken⟩ := h.taken opened
    have kept : s.evalView.docket.offer = s.docket.offer := scan.offer
    have docket : s.evalView.docket = s.docket := by rw [aside.docket, kept]
    exact ⟨o, by rw [docket]; exact offer, taken.congr (by rw [docket]) (by rw [docket]) (by rw [docket]) (by rw [docket]) aside.setup
      (read_of_aside aside)⟩
  refine ⟨(gateFormed_lift s).2.1 h.formed, ?_⟩
  rw [gateEval_eq]
  refine (turn_gateTransition s.evalView).offerRight (fun closed => ?_) view
  have state : s.gate.state = .closed := scan.gate.state.symm.trans closed
  exact evalView_found (by rw [state]; decide) (by rw [state]; decide)

/-- The status refresh writes neither slots nor recipes. -/
theorem read_refresh (v : State) (a : Nat) (ha : 0x360 ≤ a) : v.writeClock.refresh.mem.read a = v.mem.read a := by
  have block := statusBlock_length v.writeClock
  have clock : (twoWords v.clock.toNat).length = 2 := twoWords_length _
  have last : v.writeClock.refresh.mem.read a = v.writeClock.mem.read a :=
    Memory.read_writeBlock_of_outside (.inr (by rw [block]; exact ha))
  have first : v.writeClock.mem.read a = v.mem.read a :=
    Memory.read_writeBlock_of_outside (.inr (by rw [clock]; unfold clockAt; omega))
  exact last.trans first

theorem Effect.offerRight {c : Instr} {e : Ending} (h : Effect s c e u) (formed : GateFormed s) (hs : s.gate.state ≠ .opened) :
    OfferRight (e.of u) := by
  refine e.lift (P := OfferRight) (lift_between Between.offerRight offerRight_gateEval) (fun {v} x => ?_) (fun {v} a x => ?_) ?_
  · refine ⟨x.formed.congr rfl rfl, fun g => ?_⟩
    obtain ⟨o, offer, taken⟩ := x.taken g
    exact ⟨o, offer, taken.congr rfl rfl rfl rfl rfl (read_refresh v)⟩
  · obtain ⟨gate, docket, -, -, mem, setup, -⟩ := answer_rest v a
    refine ⟨x.formed.congr gate docket, fun g => ?_⟩
    rw [gate] at g
    obtain ⟨o, offer, taken⟩ := x.taken g
    exact ⟨o, by rw [docket]; exact offer, taken.congr (by rw [docket]) (by rw [docket]) (by rw [docket]) (by rw [docket]) setup
      fun _ _ => by rw [mem]⟩
  · exact ⟨formed.op h.gateOp, fun g => absurd (h.gateOp.enters.1 g) hs⟩

/-! ## The slots scanned after an outfeed report (R160) -/

/-- Where no offer is fixed the findings are formed; where one is, the mode does not end it. -/
structure ScanStands (s : State) : Prop where
  rests : Rests s
  found : NoOffering s → Found s
  runs : ¬ NoOffering s → s.modes.mode.endsLate = false

theorem noOffering_of_state (h : t.gate.state = s.gate.state) : NoOffering t ↔ NoOffering s := by
  unfold NoOffering
  rw [h]

theorem Between.mode (b : Between s t) (rests : Rests s) : t.modes.mode = s.modes.mode := (mode_of_modes (b.moves.calm rests).1.modes).1

theorem Between.scanStands (b : Between s t) (h : ScanStands s) : ScanStands t := by
  have same := noOffering_of_state b.state
  exact ⟨(b.moves.calm h.rests).2, fun no => b.found (h.found (same.mp no)), fun no => by
    rw [b.mode h.rests]
    exact h.runs fun c => no (same.mpr c)⟩

theorem Turn.scanStands (h : Turn w t) (rests : Rests t) (found : NoOffering w → Found w) (runs : ¬ NoOffering w → w.modes.mode.endsLate = false) :
    ScanStands t := by
  cases h with
  | stays => exact ⟨rests, fun no => (found no).of_docket rfl rfl (by simp [State.takeHolds]), runs⟩
  | opens o closed free =>
    refine ⟨rests, fun no => absurd rfl no.1, fun _ => ?_⟩
    have mode : (w.openedOn o).modes.mode = .production := (free_production free).1
    rw [mode]
    rfl
  | lates opened held late => exact ⟨rests, fun no => absurd rfl no.2, fun _ => late⟩
  | closes fixed ends =>
    have no : ¬ NoOffering w := fun c => fixed.elim (fun f => c.1 f.1) c.2
    rw [runs no] at ends
    cases ends

/-- An evaluation forms the findings where no offer is fixed. -/
theorem scanStands_of_eval (rests : Rests s) (runs : ¬ NoOffering s → s.modes.mode.endsLate = false) : ScanStands s.gateEval := by
  have state : s.evalView.gate.state = s.gate.state := (gateAside_scan s).gate.state
  have mode := mode_evalView s
  have after := (moves_gateEval s).calm rests
  have same := noOffering_of_state state
  rw [gateEval_eq] at after ⊢
  refine (turn_gateTransition s.evalView).scanStands after.2 (fun no => ?_) fun no => ?_
  · obtain ⟨opened, late⟩ := same.mp no
    exact evalView_found opened late
  · rw [mode]
    exact runs fun c => no (same.mpr c)

theorem ScanStands.eval (h : ScanStands s) : ScanStands s.gateEval := scanStands_of_eval h.rests h.runs

theorem ScanStands.settle (h : ScanStands s) : ScanStands s.settle := (lift_between Between.scanStands ScanStands.eval h).1

theorem scanned_of_found (found : Found s) (source : s.docket.source = .docket) (loaded : s.loaded = true) : Scanned s := by
  obtain ⟨-, -, behind, list⟩ := found.scanned source loaded
  have waits : ∀ {n}, slotState s.mem n = .posted → n ∉ s.docket.held → s.mem.read (slotAt n + 1) = s.docket.expected → n ∈ slotsAtE s :=
    fun {n} p h e => (mem_slotsAtE s n).mpr ⟨⟨p, h⟩, e⟩
  refine ⟨fun n p h => ?_, fun n p h e => ?_, ?_⟩
  · by_contra c
    push Not at c
    have mem : n ∈ slotsBehind s := (mem_slotsBehind s n).mpr ⟨⟨p, h⟩, by have := c.1; omega, c.2⟩
    rw [behind] at mem
    cases mem
  · rcases list with ⟨none_, -⟩ | ⟨m, one, -, docket⟩
    · have mem := waits p h e
      rw [none_] at mem
      cases mem
    · have mem := waits p h e
      rw [one] at mem
      obtain rfl := List.mem_singleton.mp mem
      rw [docket]
      rfl
  · rcases list with ⟨-, docket⟩ | ⟨m, -, -, docket⟩ <;> rw [docket]
    · exact ⟨fun _ => rfl, fun _ => rfl⟩
    · exact ⟨nofun, nofun⟩

theorem GateOp.told {e : Ending} (h : GateOp s e u) : u.gate.told = s.gate.told := by
  have entered : ∀ g : GateState, (∃ a : State, a.gateCore = s.gateCore ∧ u.gate = a.gate.enter g) → u.gate.told = s.gate.told := fun g h => by
    obtain ⟨a, core, gate⟩ := h
    rw [gate]
    exact (gateCore_fields core).2.2.2.2.2
  cases h with
  | keeps gate => exact (gateCore_fields gate).2.2.2.2.2
  | closes _ gate => exact entered _ gate
  | admits _ gate => exact entered _ gate
  | passes _ gate => exact entered _ gate

theorem GateOp.noOffering {e : Ending} (h : GateOp s e u) (hs : NoOffering s) : NoOffering u :=
  ⟨fun c => hs.1 (h.enters.1 c), fun c => hs.2 (h.enters.2 c)⟩

/-- Where the outfeed unit has nothing to report, the outfeed stays over the rest of a step's consequences. -/
theorem outfeed_settle_quiet (u : State) : u.settle.outfeed.state = u.reform.outfeed.state := by
  have rest : ∀ {x : State}, LinesRest x → x.gateStage.reform.outfeed.state = x.outfeed.state ∧ LinesRest x.gateStage.reform := fun {x} h => by
    have stage := h.stage.1
    have same : x.gateStage.outfeed = x.outfeed := by simp
    exact ⟨(reform_outfeedState stage.rests stage.outfeed).trans (by rw [same]), linesRest_reform _⟩
  obtain ⟨first, again⟩ := rest (linesRest_reform u)
  exact (rest again).1.trans first

/-- R160 over the consequences: the outfeed state that the gate was told of stands, or the slots are scanned. -/
theorem scanStands_settle {k : OutfeedState} (told : u.gate.told = k) (no : NoOffering u) : u.settle.outfeed.state = k ∨ ScanStands u.settle := by
  have quiet := outfeed_settle_quiet u
  have gate := gateStands_reform u
  have rests := (holdsRest_reform u).rests
  have offering : NoOffering u.reform := no.reform
  have e : u.settle = u.reform.gateStage.reform.gateStage.reform := rfl
  obtain ⟨x, hx⟩ : ∃ x, u.reform = x := ⟨_, rfl⟩
  rw [hx] at quiet gate rests offering e
  have toldX : x.gate.told = k := (congrArg Gate.told gate :).trans told
  cases reports : outfeedReports x with
  | false =>
    unfold outfeedReports at reports
    have same : x.outfeed.state = x.gate.told := by simpa using reports
    exact .inl (quiet.trans (same.trans toldX))
  | true =>
    have evaluated : x.gateStage = x.gateEval := by
      unfold State.gateStage
      exact if_pos reports
    have first := scanStands_of_eval rests fun c => absurd offering c
    rw [e, evaluated]
    exact .inr ((between_reform _).scanStands (stage_between Between.scanStands ScanStands.eval ((between_reform _).scanStands first)))

theorem scanStands_settleEval (no : NoOffering u) : ScanStands u.settleEval :=
  (scanStands_of_eval (holdsRest_reform u).rests fun c => absurd no.reform c).settle

theorem Scanned.congr (h : Scanned s) (docket : t.docket = s.docket) (read : ∀ n k, t.mem.read (slotAt n + k) = s.mem.read (slotAt n + k)) :
    Scanned t := by
  have state : ∀ n, slotState t.mem n = slotState s.mem n := fun n => slotState_congr (read n 0)
  obtain ⟨stale, chosen, noDocket⟩ := h
  exact ⟨fun n => by rw [state, docket, read]; exact stale n, fun n => by rw [state, docket, read]; exact chosen n, by rw [docket]; exact noDocket⟩

/-- What a gate without an offer finds in the DOCKET source with a setup. -/
def ReportsScanned (s : State) : Prop :=
  NoOffering s → s.docket.source = .docket → s.loaded = true → Scanned s

theorem ScanStands.reports (h : ScanStands s) : ReportsScanned s := fun no source loaded => scanned_of_found (h.found no) source loaded

theorem Ending.scanned {k : OutfeedState} (e : Ending) (told : u.gate.told = k) (no : NoOffering u)
    (silent : e.silent = true → u.outfeed.state = k) : (e.of u).outfeed.state = k ∨ ReportsScanned (e.of u) := by
  induction e with
  | still => exact .inl (silent rfl)
  | settled => exact (scanStands_settle told no).imp id ScanStands.reports
  | evaluated => exact .inr (scanStands_settleEval no).reports
  | interval =>
    have refresh : ∀ v : State, ReportsScanned v → ReportsScanned v.writeClock.refresh := fun v h no source loaded =>
      (h no source loaded).congr rfl fun n k => read_refresh v _ (by have := slotAt_bounds n; omega)
    exact .inr (refresh _ (scanStands_settleEval no).reports)
  | answered e a ih =>
    obtain ⟨gate, docket, -, -, mem, setup, outfeed⟩ := answer_rest (e.of u) a
    have rest : ((Ending.answered e a).of u) = (e.of u).answer a := rfl
    rw [rest, outfeed]
    refine (ih silent).imp id fun h no source loaded => ?_
    have before : NoOffering (e.of u) := by unfold NoOffering at *; rw [gate] at no; exact no
    rw [docket] at source
    have load : (e.of u).loaded = true := by unfold State.loaded at *; rw [setup] at loaded; exact loaded
    exact (h before source load).congr docket fun n k => by rw [mem]

/-- R160 at a command. -/
theorem Effect.scanned {c : Instr} {e : Ending} (h : Effect s c e u) (told : OutfeedTold s) (no : NoOffering s)
    (ne : (e.of u).outfeed.state ≠ s.outfeed.state) : ReportsScanned (e.of u) := by
  have op := h.gateOp
  refine (e.scanned (op.told.trans told) (op.noOffering no) fun silent => ?_).resolve_left ne
  exact (congrArg Outfeed.state (h.undisturbed silent).outfeed :)

end Sys2Proof.Machine
end



section
/-! The waits of R16 and R47 over every step. -/

namespace Sys2Proof.Machine

open Sys2Proof.Config

variable {s t u v w x y : State}

/-! ## The waits re-formed -/

theorem toBlocked_iff (q : Qualifier) (p : Pos) : p ∈ q.toBlocked ↔ q.accepted = false ∧ p ∈ q.pendingAt := by
  unfold Qualifier.toBlocked
  cases q.accepted <;> simp

theorem entryDefers_iff (s : State) (l : Pos) :
    entryDefers s l = true ↔ s.track.entryEye.accepted = false ∧ ∃ p ∈ s.track.entryEye.pendingAt, atOrAfter p l = false := by
  unfold entryDefers
  rw [Option.any_eq_true]
  refine ⟨fun ⟨p, hp, hl⟩ => ?_, fun ⟨ha, p, hp, hl⟩ => ⟨p, (toBlocked_iff _ p).mpr ⟨ha, hp⟩, by simpa using hl⟩⟩
  obtain ⟨ha, hp⟩ := (toBlocked_iff _ p).mp hp
  exact ⟨ha, p, hp, by simpa using hl⟩

theorem exitDefers_iff (s : State) (r : Record) :
    exitDefers s r = true ↔ s.track.exitEye.accepted = false ∧ ∃ p ∈ s.track.exitEye.pendingAt, InExitWindow s r p := by
  have window : ∀ p, inExitWindow s r p = true ↔ InExitWindow s r p := fun p => Bool.and_eq_true_iff
  unfold exitDefers
  rw [Option.any_eq_true]
  refine ⟨fun ⟨p, hp, hl⟩ => ?_, fun ⟨ha, p, hp, hl⟩ => ⟨p, (toBlocked_iff _ p).mpr ⟨ha, hp⟩, (window p).mpr hl⟩⟩
  obtain ⟨ha, hp⟩ := (toBlocked_iff _ p).mp hp
  exact ⟨ha, p, hp, (window p).mp hl⟩

theorem lateWaiting_iff (s : State) : lateWaiting s = true ↔ s.gate.state = .late ∧
    ∃ l ∈ s.gate.lateLimit, (s.gate.lateWaits = true ∨ atOrAfter s.track.pos l = true) ∧ entryDefers s l = true := by
  unfold lateWaiting
  rw [Bool.and_eq_true, Option.any_eq_true, beq_iff_eq]
  simp only [Bool.and_eq_true, Bool.or_eq_true]
  exact Iff.rfl

theorem lostWaiting_iff (s : State) : lostWaiting s = true ↔ ∃ r, (s.track.records.find? fun q => q.stage != .exiting) = some r ∧
    (s.track.lostWaits = true ∨ PastExit s r) ∧ exitDefers s r = true := by
  unfold lostWaiting
  rw [Option.any_eq_true]
  simp only [Bool.and_eq_true, Bool.or_eq_true]
  exact Iff.rfl

/-- The waits as re-formed are those of the rule. -/
theorem waitsFormed_reformWaits (s : State) : WaitsFormed s.reformWaits := by
  have defers : ∀ l, entryDefers s.reformWaits l = entryDefers s l := fun _ => rfl
  refine ⟨fun h => ?_, fun late clear l hl p hp limit before => ?_, fun h => ?_, fun clear r hr p hp past window => ?_⟩
  · obtain ⟨late, l, hl, -, defers⟩ := (lateWaiting_iff s).mp h
    obtain ⟨clear, p, hp, before⟩ := (entryDefers_iff s l).mp defers
    exact ⟨late, clear, l, hl, p, hp, before⟩
  · exact (lateWaiting_iff s).mpr ⟨late, l, hl, .inr limit, (entryDefers_iff s l).mpr ⟨clear, p, hp, before⟩⟩
  · obtain ⟨r, hr, -, defers⟩ := (lostWaiting_iff s).mp h
    obtain ⟨clear, p, hp, window⟩ := (exitDefers_iff s r).mp defers
    exact ⟨clear, r, hr, p, hp, window⟩
  · exact (lostWaiting_iff s).mpr ⟨r, hr, .inr past, (exitDefers_iff s r).mpr ⟨clear, p, hp, window⟩⟩

/-- What the waits are formed of. -/
def State.waitView (s : State) : GateState × Option Pos × Bool × Track × Option Setup :=
  (s.gate.state, s.gate.lateLimit, s.gate.lateWaits, { s.track with overflow := false, phantom := false }, s.port.setup)

theorem waitView_parts (h : t.waitView = s.waitView) : t.gate.state = s.gate.state ∧ t.gate.lateLimit = s.gate.lateLimit ∧
    t.gate.lateWaits = s.gate.lateWaits ∧ t.track.pos = s.track.pos ∧ t.track.entryEye = s.track.entryEye ∧
    t.track.exitEye = s.track.exitEye ∧ t.track.lostWaits = s.track.lostWaits ∧ t.track.records = s.track.records ∧ t.ws = s.ws := by
  unfold State.ws
  unfold State.waitView at h
  simp only [Prod.mk.injEq] at h
  obtain ⟨state, limit, waits, track, setup⟩ := h
  exact ⟨state, limit, waits, (congrArg Track.pos track :), (congrArg Track.entryEye track :), (congrArg Track.exitEye track :),
    (congrArg Track.lostWaits track :), (congrArg Track.records track :), by rw [setup]⟩

theorem WaitsFormed.congr (h : WaitsFormed s) (same : t.waitView = s.waitView) : WaitsFormed t := by
  obtain ⟨state, limit, waits, pos, entry, exit_, lost, records, ws⟩ := waitView_parts same
  have window : ∀ r p, InExitWindow t r p ↔ InExitWindow s r p := fun r p => by unfold InExitWindow; rw [ws]
  have past : ∀ r, PastExit t r ↔ PastExit s r := fun r => by unfold PastExit; rw [ws, pos]
  refine ⟨?_, ?_, ?_, ?_⟩
  · rw [waits, state, entry, limit]; exact h.late
  · rw [state, entry, limit, pos, waits]; exact h.reached
  · rw [lost, exit_, records]
    intro hl
    obtain ⟨clear, r, hr, p, hp, win⟩ := h.lost hl
    exact ⟨clear, r, hr, p, hp, (window r p).mpr win⟩
  · rw [exit_, records, lost]
    exact fun clear r hr p hp ht win => h.passed clear r hr p hp ((past r).mp ht) ((window r p).mp win)

theorem waitsFormed_reform (s : State) : WaitsFormed s.reform := by
  obtain ⟨z, hz⟩ : ∃ z, s.modeStage.reformFans.reformHorn.reformGuards.reformTargets.reformMotion = z := ⟨_, rfl⟩
  have e : s.reform = z.reformWaits.reformIdle.reformLine := by rw [← hz]; rfl
  rw [e]
  exact (waitsFormed_reformWaits z).congr rfl

theorem waitsFormed_settle (u : State) : WaitsFormed u.settle := waitsFormed_reform _

/-! ## A raw change of an eye (R4) -/

theorem not_atOrAfter_of_strictlyAfter {a b : Pos} (h : strictlyAfter a b = true) : atOrAfter b a = false := by
  unfold strictlyAfter at h
  obtain ⟨later, ne⟩ := Bool.and_eq_true_iff.mp h
  unfold atOrAfter at later ⊢
  have ne : a ≠ b := by simpa using ne
  have later : (a - b).toNat < 2 ^ 31 := of_decide_eq_true later
  refine decide_eq_false ?_
  bv_omega

/-- A raw change starts no wait; where it drops the change that was waited for, the wait has ended before. -/
theorem WaitsFormed.rawEye (h : WaitsFormed s) (e : Eye) (b : Bool)
    (entry : e = .entry → b = s.track.entryEye.accepted → s.gate.lateWaits = false)
    (exit_ : e = .exit → b = s.track.exitEye.accepted → s.track.lostWaits = false) : WaitsFormed (s.rawEye e b) := by
  have same : ∀ p, (some p : Option Pos) = some p := fun _ => rfl
  cases e with
  | entry =>
    have eye : (s.rawEye .entry b).track.entryEye = s.track.entryEye.raw b s.track.pos := rfl
    refine ⟨fun waits => ?_, fun late clear l hl p hp limit before => ?_, h.lost, h.passed⟩
    · have waits : s.gate.lateWaits = true := waits
      obtain ⟨late, clear, l, hl, p, hp, before⟩ := h.late waits
      have starts : b ≠ s.track.entryEye.accepted := fun c => by
        rw [entry rfl c] at waits
        cases waits
      refine ⟨late, ?_, l, hl, p, ?_, before⟩ <;> rw [eye, raw_eq]
      · exact clear
      · rw [if_neg starts, Option.mem_def.mp hp]
        rfl
    · rw [eye, raw_eq] at clear hp
      dsimp only at clear hp
      split at hp
      · cases hp
      · cases pending : s.track.entryEye.pendingAt with
        | none =>
          rw [pending] at hp
          obtain rfl : s.track.pos = p := Option.some.inj hp
          have limit : atOrAfter s.track.pos l = true := limit
          rw [limit] at before
          cases before
        | some q =>
          rw [pending] at hp
          obtain rfl : q = p := Option.some.inj hp
          exact h.reached late clear l hl q pending limit before
  | exit =>
    have eye : (s.rawEye .exit b).track.exitEye = s.track.exitEye.raw b s.track.pos := rfl
    refine ⟨h.late, h.reached, fun waits => ?_, fun clear r hr p hp past window => ?_⟩
    · have waits : s.track.lostWaits = true := waits
      obtain ⟨clear, r, hr, p, hp, window⟩ := h.lost waits
      have starts : b ≠ s.track.exitEye.accepted := fun c => by
        rw [exit_ rfl c] at waits
        cases waits
      refine ⟨?_, r, hr, p, ?_, window⟩ <;> rw [eye, raw_eq]
      · exact clear
      · rw [if_neg starts, Option.mem_def.mp hp]
        rfl
    · rw [eye, raw_eq] at clear hp
      dsimp only at clear hp
      split at hp
      · cases hp
      · cases pending : s.track.exitEye.pendingAt with
        | none =>
          rw [pending] at hp
          obtain rfl : s.track.pos = p := Option.some.inj hp
          have past : strictlyAfter s.track.pos (r.lead + tenths s.ws.exitX + tenths s.ws.exitTol) = true := past
          have inside : atOrAfter (r.lead + tenths s.ws.exitX + tenths s.ws.exitTol) s.track.pos = true := window.2
          rw [not_atOrAfter_of_strictlyAfter past] at inside
          cases inside
        | some q =>
          rw [pending] at hp
          obtain rfl : q = p := Option.some.inj hp
          exact h.passed clear r hr q pending past window

theorem exec_eyeRawChange (e : Eye) (b : Bool) (s : State) : exec (.eyeRawChange e b) s = execEyeRawChange e b s := by rfl

theorem rawChange_waits {e : Eye} {b : Bool} (h : exec (.eyeRawChange e b) s = .next t) (hs : WaitsFormed s) : WaitsFormed t := by
  rw [exec_eyeRawChange] at h
  unfold execEyeRawChange at h
  obtain rfl := Host.Outcome.next.inj h
  have pending : e = .entry → b = s.track.entryEye.accepted → s.gate.lateWaits = true → dropsPending s e b = true := fun he hb waits => by
    obtain ⟨-, -, -, -, p, hp, -⟩ := hs.late waits
    subst he
    refine (dropsPending_iff s .entry b).mpr ⟨fun c => ?_, hb⟩
    have hp : s.track.entryEye.pendingAt = some p := hp
    have c : s.track.entryEye.pendingAt = none := c
    rw [c] at hp
    cases hp
  have candidate : s.track.lostWaits = true → (exitCandidate s.track.records).isSome = true := fun waits => by
    obtain ⟨-, r, hr, -⟩ := hs.lost waits
    have found : exitCandidate s.track.records = some r := hr
    rw [found]
    rfl
  have pendingX : e = .exit → b = s.track.exitEye.accepted → s.track.lostWaits = true → dropsPending s e b = true := fun he hb waits => by
    obtain ⟨-, -, -, p, hp, -⟩ := hs.lost waits
    subst he
    refine (dropsPending_iff s .exit b).mpr ⟨fun c => ?_, hb⟩
    have hp : s.track.exitEye.pendingAt = some p := hp
    have c : s.track.exitEye.pendingAt = none := c
    rw [c] at hp
    cases hp
  by_cases drops : dropsPending s e b = true
  · rw [if_pos drops]
    unfold State.afterDrop
    cases e with
    | entry =>
      dsimp only
      split
      · exact waitsFormed_settle _
      · next no =>
        refine hs.rawEye .entry b (fun _ _ => ?_) nofun
        cases waits : s.gate.lateWaits with
        | false => rfl
        | true =>
          obtain ⟨late, -⟩ := hs.late waits
          have gate : (s.rawEye .entry b).gate = s.gate := rfl
          rw [gate, late, waits] at no
          exact absurd rfl no
    | exit =>
      dsimp only
      split
      · exact waitsFormed_settle _
      · next no =>
        split
        · exact waitsFormed_settle _
        · refine hs.rawEye .exit b nofun fun _ _ => ?_
          cases waits : s.track.lostWaits with
          | false => rfl
          | true =>
            have lost : (s.rawEye .exit b).track.lostWaits = s.track.lostWaits := rfl
            have records : (s.rawEye .exit b).track.records = s.track.records := rfl
            rw [lost, records, waits, candidate waits] at no
            exact absurd rfl no
  · rw [if_neg drops]
    refine hs.rawEye e b (fun he hb => ?_) fun he hb => ?_
    · by_contra c
      exact drops (pending he hb (by simpa using c))
    · by_contra c
      exact drops (pendingX he hb (by simpa using c))

/-! ## The other commands -/

theorem taken_waitView {q : State} {code : Word} {ws : List HostWrite} (h : Taken s code ws q) : q.waitView = s.waitView := by
  rw [h.blocks.1]
  obtain ⟨-, -, h⟩ | ⟨-, h⟩ := h <;> rw [h] <;> rfl

/-- A command without consequences leaves what the waits are formed of, a raw change of an eye apart. -/
theorem Effect.waitView {c : Instr} {e : Ending} (h : Effect s c e u) (he : e.silent = true) :
    u.waitView = s.waitView ∨ ∃ eye b, c = .eyeRawChange eye b := by
  cases h with
  | nothing => exact .inl rfl
  | rawEye e b => exact .inr ⟨e, b, rfl⟩
  | heaterOutputSwitch => exact .inl rfl
  | feederShotStart => exact .inl rfl
  | feederShotComplete => exact .inl rfl
  | feederSettlingComplete r =>
    refine .inl ?_
    unfold State.waitView State.reformLine Port.notifyIf
    split <;> rfl
  | shotHistoryExpiry => exact .inl rfl
  | widthLimitSeen => exact .inl rfl
  | estopInputRelease => exact .inl rfl
  | endSensorRawChange => exact .inl rfl
  | startGraceEnd => exact .inl rfl
  | overrun => exact .inl rfl
  | refused _ code q _ _ hc hq => exact .inl (taken_waitView hq)
  | accepted _ code q _ _ hc hq hr ha =>
    cases ha with
    | sourceStands => exact .inl (taken_waitView hq)
    | clearTrackFlags =>
      have taken := taken_waitView hq
      exact .inl taken
    | _ => cases he
  | requestOverrun code =>
    refine .inl ?_
    unfold State.waitView Port.post
    split <;> rfl
  | noticeRead => exact .inl rfl
  | noticeWrite v => exact .inl rfl
  | noticeEnWrite v => exact .inl rfl
  | posRead x => exact .inl rfl
  | widthStepperStep => exact .inl rfl
  | homeSwitchInactive => exact .inl rfl
  | _ => cases he

theorem waitView_answer (s : State) (a : Answer) : (s.answer a).waitView = s.waitView := by
  cases a <;> rfl

theorem Ending.waitsFormed (e : Ending) (h : e.silent = true → WaitsFormed u) : WaitsFormed (e.of u) := by
  induction e with
  | still => exact h rfl
  | settled => exact waitsFormed_settle u
  | evaluated => exact waitsFormed_settle _
  | interval =>
    have refresh : ∀ v : State, WaitsFormed v → WaitsFormed v.writeClock.refresh := fun v hv => hv.congr rfl
    exact refresh _ (waitsFormed_settle _)
  | answered e a ih => exact (ih h).congr (waitView_answer _ a)

theorem AfterReset.waitsFormed {port : Bool} (h : AfterReset s t port) : WaitsFormed t := by
  obtain ⟨holds, gate⟩ := h.gate
  have records : t.track.records = [] := by rw [h.track]; rfl
  have lost : t.track.lostWaits = false := by rw [h.track]; rfl
  have waits : t.gate.lateWaits = false := by rw [gate]; rfl
  have closed : t.gate.state = .closed := by rw [gate]; rfl
  refine ⟨fun c => ?_, fun c => ?_, fun c => ?_, fun _ r c => ?_⟩
  · rw [waits] at c; cases c
  · rw [closed] at c; cases c
  · rw [lost] at c; cases c
  · rw [records] at c; cases c

theorem exec_waitsFormed {c : Instr} (h : exec c s = .next t) (hs : WaitsFormed s) : WaitsFormed t := by
  rcases exec_reset_or_effect h with ⟨port, reset⟩ | ⟨e, u, effect, rfl⟩
  · exact reset.waitsFormed
  · by_cases raw : ∃ eye b, c = .eyeRawChange eye b
    · obtain ⟨eye, b, rfl⟩ := raw
      exact rawChange_waits h hs
    · exact e.waitsFormed fun silent => hs.congr ((effect.waitView silent).resolve_right raw)

end Sys2Proof.Machine
end



section
/-! A wait goes on over every step (R16, R47). -/

namespace Sys2Proof.Machine

open Sys2Proof.Config

variable {s t u v w x y : State}

/-! ## No command but the re-forming ends the wait of R16 -/

theorem lostWaits_cutPulses (s : State) (p : Pulse → Bool) (b : Bool) : (s.cutPulses p b).track.lostWaits = s.track.lostWaits := by
  rw [uncredited_frame (cutPulses_ends s p b).rest]

theorem lostWaits_creditPurge (s : State) : s.creditPurge.track.lostWaits = s.track.lostWaits := by
  unfold State.creditPurge
  split <;> rfl

theorem lostWaits_closeRecord (s : State) (p : Record → Bool) (r : Record) (o : CloseOutcome) (l : Nat) :
    (s.closeRecord p r o l).track.lostWaits = s.track.lostWaits := by
  have report : (s.reportClose r o l).track.lostWaits = s.track.lostWaits := by unfold State.reportClose; split <;> rfl
  exact (lostWaits_cutPulses (s.reportClose r o l) (fun u => u.ordinal == r.ordinal) false).trans report

theorem lostWaits_closeLost (n : Nat) (s : State) : (s.closeLost n).track.lostWaits = s.track.lostWaits := by
  induction n generalizing s with
  | zero => rfl
  | succ k ih =>
    unfold State.closeLost
    split
    · exact (ih _).trans (lostWaits_closeRecord s _ _ _ _)
    · rfl

theorem lostWaits_raiseLost (s : State) : s.raiseLost.track.lostWaits = s.track.lostWaits := by simp [State.raiseLost]

theorem lostWaits_loseBoards (s : State) : s.loseBoards.track.lostWaits = s.track.lostWaits := by
  unfold State.loseBoards
  split
  · exact (lostWaits_raiseLost _).trans (lostWaits_closeLost _ s)
  · rfl

theorem lostWaits_loseWaiting (s : State) : s.loseWaiting.track.lostWaits = s.track.lostWaits := by
  unfold State.loseWaiting
  split
  · exact ((lostWaits_raiseLost _).trans (lostWaits_closeLost _ _)).trans (lostWaits_closeRecord s _ _ _ _)
  · rfl

theorem lostWaits_trackFault (s : State) : s.trackFault.track.lostWaits = s.track.lostWaits := by simp [State.trackFault]

theorem lostWaits_handLeading (s : State) (p : Pos) : (s.handLeading p).track.lostWaits = s.track.lostWaits := by
  have slot : ∀ (a : State) (o : Offer), (a.bindSlot o).track.lostWaits = a.track.lostWaits := fun a o => by unfold State.bindSlot; split <;> rfl
  have edges : ∀ (a : State) (n : BitVec 16) (o : Offer), (a.scheduleEdges n p o).track.lostWaits = a.track.lostWaits := fun a n o => by
    unfold State.scheduleEdges; split <;> rfl
  unfold State.handLeading
  split
  · exact (edges _ _ _).trans (slot _ _)
  · exact (edges _ _ _).trans (slot _ _)
  · rfl

theorem lostWaits_clamp (s : State) (r : Record) (l : Nat) : (s.clamp r l).track.lostWaits = s.track.lostWaits := by
  unfold State.clamp
  split
  · rfl
  · exact lostWaits_cutPulses s _ true

theorem lostWaits_takeTrail (s : State) (p : Pos) : (s.takeTrail p).track.lostWaits = s.track.lostWaits := by
  unfold State.takeTrail
  split
  · exact lostWaits_clamp _ _ _
  · rfl

theorem lostWaits_handTrailing (s : State) : s.handTrailing.track.lostWaits = s.track.lostWaits := by
  unfold State.handTrailing
  split <;> rfl

theorem lostWaits_setEye (t : Track) (e : Eye) (q : Qualifier) : (t.setEye e q).lostWaits = t.lostWaits := by cases e <;> rfl

theorem lostWaits_markInputFault (s : State) (k : Idx8) : (s.markInputFault k).track.lostWaits = s.track.lostWaits := by
  unfold State.markInputFault
  split
  · split <;> rfl
  · rfl

theorem lostWaits_refer (t : Track) (r : Nat) : (t.refer r).lostWaits = t.lostWaits := by
  unfold Track.refer
  split <;> rfl

theorem lostWaits_window (t : Track) (c : Nat) : (t.window c).lostWaits = t.lostWaits := by
  unfold Track.window
  split <;> rfl

theorem lostWaits_latchZones (s : State) : s.latchZones.track.lostWaits = s.track.lostWaits := by
  have zone : ∀ (v : State) (z : Zone), (v.latchZone z).track.lostWaits = v.track.lostWaits := fun v z => by
    unfold State.latchZone
    dsimp only
    split <;> rfl
  simp [State.latchZones, allZones, zone]

theorem lostWaits_sampleAll (s : State) (i : Readings) : (s.sampleAll i).track.lostWaits = s.track.lostWaits := by
  have contact : ∀ a : State, a.sampleContact.track.lostWaits = a.track.lostWaits := fun _ => rfl
  have tank : ∀ (a : State) (b : Bool), (a.sampleTank b).track = a.track := fun a b => by simp
  have level : ∀ (a : State) (r : Option Int), (a.sampleLevel r).track = a.track := fun a r => by simp
  have gases : ∀ a : State, (a.sampleExtraction i).track = a.track := fun _ => rfl
  have window : (s.sampleSpeed.sampleInputs i.temps).track.lostWaits = s.track.lostWaits := lostWaits_window _ _
  obtain ⟨x, hx⟩ : ∃ x, (s.sampleSpeed.sampleInputs i.temps).latchZones.sampleExtraction i = x := ⟨_, rfl⟩
  have first : x.track.lostWaits = s.track.lostWaits := by rw [← hx, gases, lostWaits_latchZones, window]
  obtain ⟨y, hy⟩ : ∃ y, (x.samplePumps i.chipRpm i.mainRpm).sampleLevel i.level = y := ⟨_, rfl⟩
  have second : y.track = x.track := by rw [← hy]; exact level _ _
  have whole : (s.sampleAll i).track = ((y.samplePressure i.pressure).sampleTank i.tankEmpty).sampleContact.track := by
    rw [← hy, ← hx]
    rfl
  rw [whole, contact, tank]
  exact (congrArg Track.lostWaits second).trans first

theorem lostWaits_countEncoder (s : State) (d : Direction) : (s.countEncoder d).track.lostWaits = s.track.lostWaits := by
  have conveyor : ∀ v : State, v.reformConveyor.track.lostWaits = v.track.lostWaits := fun v => lostWaits_refer _ _
  have tenth : ∀ (v : State) (f : Bool), (v.moveTenth f).track.lostWaits = v.track.lostWaits := fun v f => by
    cases f <;> exact conveyor _
  have tenths : ∀ (n : Nat) (v : State) (f : Bool), (State.moveTenths n v f).track.lostWaits = v.track.lostWaits := fun n => by
    induction n with
    | zero => exact fun _ _ => rfl
    | succ k ih => exact fun v f => (ih _ f).trans (tenth v f)
  have bar : ∀ (v : State) (n : Nat) (p : Pos), (v.approachBar n p d).track.lostWaits = v.track.lostWaits := fun v n p => by
    unfold State.approachBar
    split
    · simp
    · rfl
  unfold State.countEncoder
  dsimp only
  exact (bar _ _ _).trans (tenths _ _ _)

theorem Effect.lostWaits {c : Instr} {e : Ending} (h : Effect s c e u) : u.track.lostWaits = s.track.lostWaits := by
  cases h with
  | encoderCount d => exact lostWaits_countEncoder s d
  | dropLost b => exact lostWaits_loseWaiting _
  | dropPast b => exact lostWaits_loseBoards _
  | boardLost => exact lostWaits_loseBoards s
  | exitClosed => exact (lostWaits_closeRecord _ _ _ _ _).trans (lostWaits_setEye _ _ _)
  | overflow => exact (lostWaits_trackFault _).trans (lostWaits_setEye _ _ _)
  | phantom => exact (lostWaits_trackFault _).trans (lostWaits_setEye _ _ _)
  | exitPhantom => exact (lostWaits_trackFault _).trans (lostWaits_setEye _ _ _)
  | entryLeading p =>
    have bar : ∀ v : State, v.appendAtBar.track.lostWaits = v.track.lostWaits := fun v => by simp
    exact (bar _).trans ((lostWaits_handLeading _ p).trans (lostWaits_setEye _ _ _))
  | entryTrailing p => exact (lostWaits_handTrailing _).trans ((lostWaits_takeTrail _ p).trans (lostWaits_setEye _ _ _))
  | inputFault k => exact Eq.trans (by simp) (lostWaits_markInputFault s k)
  | refused c code q rc f hp hq => exact ((congrArg (fun v => v.2.2.2.1.lostWaits) (taken_waitView hq)) :)
  | accepted c code q e u hp hq hr ha =>
    have before : q.track.lostWaits = s.track.lostWaits := (congrArg (fun v => v.2.2.2.1.lostWaits) (taken_waitView hq) :)
    refine Eq.trans ?_ before
    cases ha with
    | purgeFluxer => exact lostWaits_cutPulses q _ _
    | ackAlarms => rfl
    | loadSetup =>
      unfold State.takeSetup
      dsimp only
      split <;> rfl
    | _ => simp
  | modulationBoundary => exact (lostWaits_creditPurge _).trans (lostWaits_cutPulses _ _ _)
  | rawEye e b => exact lostWaits_setEye _ _ _
  | dropLate b => exact lostWaits_setEye _ _ _
  | lanePulseEnd k v =>
    have held : ∀ (a : State) (p : Pulse), (a.holdValve k p).track = a.track := fun a p => by simp
    exact (congrArg Track.lostWaits (held _ _)).trans rfl
  | interval i ws =>
    have raises : ∀ a : State, a.intervalRaises.track = a.track := fun a => by simp
    exact (congrArg Track.lostWaits (raises _)).trans (lostWaits_sampleAll _ i)
  | exitMatched => exact lostWaits_setEye _ _ _
  | exitUnowned => exact lostWaits_setEye _ _ _
  | entryJam => exact Eq.trans (by simp) (show s.markJam.track.lostWaits = s.track.lostWaits from rfl)
  | heaterPeriodBoundary => rfl
  | alarmActivation k => rfl
  | alarmSeverityRise k => rfl
  | alarmEscalation k => rfl
  | alarmClear k => rfl
  | _ => simp

end Sys2Proof.Machine
end



section
/-! The rules of the gate over every step (R33, R41 to R47, R160). -/

namespace Sys2Proof.Machine

open Sys2Proof.Config

variable {s t u v w x y : State}

/-! ## The state whose waits are re-formed -/

/-- The state in which a re-forming takes the waits. -/
def State.beforeWaits (s : State) : State :=
  s.modeStage.reformFans.reformHorn.reformGuards.reformTargets.reformMotion

theorem reform_beforeWaits (s : State) : s.reform = s.beforeWaits.reformWaits.reformIdle.reformLine := rfl

theorem gate_reform_waits (s : State) : s.reform.gate.lateWaits = lateWaiting s.beforeWaits ∧ s.reform.track.lostWaits = lostWaiting s.beforeWaits := by
  rw [reform_beforeWaits]
  exact ⟨rfl, rfl⟩

theorem waits_enterMode (s : State) (m : Mode) : (s.enterMode m).gate.lateWaits = s.gate.lateWaits ∧
    (s.enterMode m).gate.lateLimit = s.gate.lateLimit ∧ (s.enterMode m).gate.state = s.gate.state := by
  unfold State.enterMode Gate.atMode
  split
  · exact ⟨rfl, rfl, rfl⟩
  · cases m <;> exact ⟨rfl, rfl, rfl⟩

theorem waits_modeStage (s : State) : s.modeStage.gate.lateWaits = s.gate.lateWaits ∧
    s.modeStage.gate.lateLimit = s.gate.lateLimit ∧ s.modeStage.gate.state = s.gate.state := by
  unfold State.modeStage
  split
  · exact waits_enterMode s _
  · split
    · exact waits_enterMode s _
    · exact ⟨rfl, rfl, rfl⟩

theorem waits_beforeWaits (s : State) : s.beforeWaits.gate.lateWaits = s.gate.lateWaits ∧ s.beforeWaits.gate.lateLimit = s.gate.lateLimit ∧
    s.beforeWaits.gate.state = s.gate.state ∧ s.beforeWaits.track.lostWaits = s.track.lostWaits := by
  obtain ⟨waits, limit, state⟩ := waits_modeStage s
  have gate : ∀ v : State, v.reformTargets.reformMotion.gate.lateWaits = v.gate.lateWaits ∧
      v.reformTargets.reformMotion.gate.lateLimit = v.gate.lateLimit ∧ v.reformTargets.reformMotion.gate.state = v.gate.state := fun v => ⟨rfl, rfl, rfl⟩
  have guards : s.modeStage.reformFans.reformHorn.reformGuards.gate = s.modeStage.gate := by simp [State.reformGuards]
  have lost : ∀ v : State, v.reformTargets.reformMotion.track.lostWaits = v.track.lostWaits := fun v => lostWaits_refer _ _
  have inhibit : ∀ v : State, v.reformGuards.track.lostWaits = v.track.lostWaits := fun v => by
    unfold State.reformGuards
    have cut : v.reformInhibit.cutGrants.track = v.reformInhibit.track := by simp
    rw [cut]
    unfold State.reformInhibit
    split
    · have purge : ∀ a : State, a.endPurge.track.lostWaits = a.track.lostWaits := fun a => by rw [endPurge_frame]
      exact (purge _).trans (lostWaits_cutPulses v _ _)
    · rfl
  have first : s.modeStage.reformFans.reformHorn.track = s.track := by simp
  obtain ⟨x, hx⟩ : ∃ x, s.modeStage.reformFans.reformHorn.reformGuards = x := ⟨_, rfl⟩
  have trackX : x.track.lostWaits = s.track.lostWaits := by rw [← hx, inhibit, first]
  rw [hx] at guards
  have whole : s.beforeWaits = x.reformTargets.reformMotion := by rw [← hx]; rfl
  obtain ⟨a, b, c⟩ := gate x
  rw [whole]
  exact ⟨by rw [a, guards, waits], by rw [b, guards, limit], by rw [c, guards, state], by rw [lost, trackX]⟩

theorem kept_beforeWaits (s : State) : Kept s s.beforeWaits := by
  have moves : Moves s s.beforeWaits := by
    have first := (moves_beforeTargets s).trans ((((Moves.refl s.beforeTargets).then (.zones _)).then (.pumpTargets _)).then (.potTarget _))
    exact (((first.then (.outfeed _)).then (.width _)).trans (moves_reformConveyor _)).then (.drive _)
  exact moves.kept

/-! ## A wait goes on (R16, R47) -/

theorem lateWaits_changeover (k : Nat) (s : State) : (s.changeover k).gate.lateWaits = s.gate.lateWaits :=
  (classMoves_changeover k s).lift (R := fun s t => t.gate.lateWaits = s.gate.lateWaits) (fun _ => rfl) (fun h g => g.trans h)
    (fun _ _ _ _ => rfl) fun _ => rfl

/-- The wait of R47 for the change `q` at the limit `l`, or its end by the mode. -/
structure LateGoesOn (q : Qualifier) (l : Pos) (s : State) : Prop where
  eye : s.track.entryEye = q
  gate : (s.gate.state = .late ∧ s.gate.lateLimit = some l ∧ s.gate.lateWaits = true) ∨
    (s.gate.state = .closed ∧ s.modes.mode ≠ .production)

variable {q : Qualifier} {l : Pos}

theorem LateGoesOn.reform (h : LateGoesOn q l s) (clear : q.accepted = false) (pending : ∃ p ∈ q.pendingAt, atOrAfter p l = false) :
    LateGoesOn q l s.reform := by
  obtain ⟨waits, limit, state, -⟩ := waits_beforeWaits s
  have kept := kept_beforeWaits s
  have b := between_reform s
  refine ⟨b.gate.kept.keeps.trackEntryEye.trans h.eye, ?_⟩
  rcases h.gate with ⟨late, hl, on⟩ | ⟨closed, off⟩
  · refine .inl ⟨b.state.trans late, (congrArg Gate.lateLimit b.gate.gate :).trans hl, ?_⟩
    have eye : s.beforeWaits.track.entryEye = q := kept.keeps.trackEntryEye.trans h.eye
    rw [(gate_reform_waits s).1]
    refine (lateWaiting_iff _).mpr ⟨state.trans late, l, limit.trans hl, .inl (waits.trans on), (entryDefers_iff _ l).mpr ?_⟩
    rw [eye]
    exact ⟨clear, pending⟩
  · exact .inr ⟨b.state.trans closed, fun m => off (b.production m)⟩

theorem LateGoesOn.changeover (k : Nat) (h : LateGoesOn q l s) : LateGoesOn q l (s.changeover k) := by
  have b := between_changeover k s
  refine ⟨b.gate.kept.keeps.trackEntryEye.trans h.eye, ?_⟩
  rcases h.gate with ⟨late, hl, on⟩ | ⟨closed, off⟩
  · exact .inl ⟨b.state.trans late, (congrArg Gate.lateLimit b.gate.gate :).trans hl, (lateWaits_changeover k s).trans on⟩
  · exact .inr ⟨b.state.trans closed, fun m => off (b.production m)⟩

theorem Turn.lateGoesOn (h : Turn w t) (hw : LateGoesOn q l w) : LateGoesOn q l t := by
  obtain ⟨eye, gate⟩ := hw
  cases h with
  | stays => exact ⟨eye, gate⟩
  | opens o closed free =>
    rcases gate with ⟨late, -⟩ | ⟨-, off⟩
    · rw [closed] at late; cases late
    · exact absurd (free_production free).1 off
  | lates opened =>
    rcases gate with ⟨late, -⟩ | ⟨closed, -⟩
    · rw [opened] at late; cases late
    · rw [opened] at closed; cases closed
  | closes fixed ends => exact ⟨eye, .inr ⟨rfl, not_production_of_endsLate ends⟩⟩

theorem LateGoesOn.eval (h : LateGoesOn q l s) : LateGoesOn q l s.gateEval := by
  have scan : LateGoesOn q l s.reformDocket.takeClass := by
    have gate : s.reformDocket.gate = s.gate := by simp
    have track : s.reformDocket.track = s.track := by simp
    have modes : s.reformDocket.modes = s.modes := by simp
    refine ⟨(congrArg Track.entryEye track).trans h.eye, ?_⟩
    show (s.reformDocket.gate.state = _ ∧ s.reformDocket.gate.lateLimit = _ ∧ s.reformDocket.gate.lateWaits = _) ∨
      (s.reformDocket.gate.state = _ ∧ s.reformDocket.modes.mode ≠ _)
    rw [gate, modes]
    exact h.gate
  exact (turn_gateTransition s.evalView).lateGoesOn (scan.changeover 8)

theorem Ending.lateGoesOn (e : Ending) (clear : q.accepted = false) (pending : ∃ p ∈ q.pendingAt, atOrAfter p l = false)
    (h : LateGoesOn q l u) : LateGoesOn q l (e.of u) := by
  refine e.lift (P := LateGoesOn q l) (lift_evals (fun _ x => x.reform clear pending) (fun _ x => x.changeover 8) fun _ x => x.eval)
    (fun x => ⟨x.eye, x.gate⟩) (fun a x => ?_) h
  obtain ⟨gate, -, modes, track, -⟩ := answer_rest _ a
  exact ⟨by rw [track]; exact x.eye, by rw [gate, modes]; exact x.gate⟩

/-! ## A gate without an offer does not come to LATE in one step -/

/-- The gate is not LATE, and an open one has turned. -/
structure Unlate (s : State) : Prop where
  late : s.gate.state ≠ .late
  opened : s.gate.state = .opened → Spent s

theorem NoOffering.unlate (h : NoOffering s) : Unlate s := ⟨h.2, fun g => absurd g h.1⟩

theorem Unlate.reform (h : Unlate s) : Unlate s.reform := by
  have state := (between_reform s).state
  exact ⟨by rw [state]; exact h.late, fun g => (h.opened (state.symm.trans g)).reform⟩

theorem Turn.not_late (h : Turn w t) (hw : NoOffering w) : t.gate.state ≠ .late := by
  cases h with
  | stays => exact hw.2
  | opens => exact nofun
  | lates opened => exact absurd opened hw.1
  | closes => exact nofun

theorem unlate_gateEval (rest : HoldsRest s) (h : NoOffering s) : Unlate s.gateEval := by
  have state : s.evalView.gate.state = s.gate.state := (gateAside_scan s).gate.state
  refine ⟨(turn_gateTransition s.evalView).not_late ((noOffering_of_state state).mpr h), fun g => ?_⟩
  rcases spent_gateEval rest with ⟨same, -⟩ | spent
  · exact absurd (same.symm.trans g) h.1
  · exact spent

theorem Unlate.stage (rest : HoldsRest s) (h : Unlate s) : Unlate s.gateStage := by
  by_cases g : s.gate.state = .opened
  · rw [(h.opened g).stage_opened g]
    exact h
  · have no : NoOffering s := ⟨g, h.late⟩
    have reached : ∀ v, v = s ∨ v = s.changeover 8 → NoOffering v ∧ Unlate v.gateEval := fun v r => by
      have noV := (noOffering_of_state (phaseOnly_of_reached r).gate.state).mpr no
      exact ⟨noV, unlate_gateEval (rest.reached r) noV⟩
    rcases gateStage_shape s with ⟨-, e⟩ | ⟨-, v, phased, ⟨-, e⟩ | ⟨-, e⟩⟩ <;> rw [e]
    · exact (reached s (.inl rfl)).2
    · exact (reached v phased.reached).2
    · exact (reached v phased.reached).1.unlate

theorem Unlate.settle (h : Unlate s) : Unlate s.settle :=
  Unlate.reform (Unlate.stage (holdsRest_reform _) (Unlate.reform (Unlate.stage (holdsRest_reform s) h.reform)))

/-- From a gate without an offer the consequences do not come to LATE. -/
theorem Ending.not_late (e : Ending) (h : NoOffering u) : (e.of u).gate.state ≠ .late := by
  have evaluated : u.settleEval.gate.state ≠ .late := (unlate_gateEval (holdsRest_reform u) h.reform).settle.late
  induction e with
  | still => exact h.2
  | settled => exact h.unlate.settle.late
  | evaluated => exact evaluated
  | interval => exact evaluated
  | answered e a ih =>
    have gate : ((Ending.answered e a).of u).gate = (e.of u).gate := (answer_rest _ a).1
    rw [gate]
    exact ih

/-! ## The wait of R16 -/

/-- The candidate's exit change defers its close. -/
def ExitDeferred (s : State) : Prop :=
  ∃ r, (s.track.records.find? fun q => q.stage != .exiting) = some r ∧ exitDefers s r = true

theorem find_of_places {rs qs : List Record} (h : qs.map Record.place = rs.map Record.place) {r : Record}
    (hr : (rs.find? fun q => q.stage != .exiting) = some r) :
    ∃ x, (qs.find? fun q => q.stage != .exiting) = some x ∧ x.place = r.place := by
  have through : ∀ l : List Record, ((l.find? fun q => q.stage != .exiting).map Record.place) =
      (l.map Record.place).find? fun p => p.2.2.2.2.2 != .exiting := fun l => by
    rw [List.find?_map]
    rfl
  have e := through qs
  rw [h, ← through rs, hr] at e
  obtain ⟨x, hx, place⟩ := Option.map_eq_some_iff.mp e
  exact ⟨x, hx, place⟩

theorem ExitDeferred.congr (h : ExitDeferred s) (places : t.track.records.map Record.place = s.track.records.map Record.place)
    (eye : t.track.exitEye = s.track.exitEye) (setup : t.port.setup = s.port.setup) : ExitDeferred t := by
  obtain ⟨r, hr, defers⟩ := h
  obtain ⟨x, hx, place⟩ := find_of_places places hr
  obtain ⟨-, lead, -⟩ := place_fields place
  obtain ⟨clear, p, hp, window⟩ := (exitDefers_iff s r).mp defers
  refine ⟨x, hx, (exitDefers_iff t x).mpr ?_⟩
  rw [eye]
  refine ⟨clear, p, hp, ?_⟩
  unfold InExitWindow State.ws at window ⊢
  rw [lead, setup]
  exact window

theorem ExitDeferred.kept (h : ExitDeferred s) (k : Kept s t) : ExitDeferred t := h.congr k.places k.keeps.trackExitEye k.keeps.portSetup

/-- The wait of R16 stands, with its change. -/
structure LostGoesOn (s : State) : Prop where
  waits : s.track.lostWaits = true
  defers : ExitDeferred s

theorem LostGoesOn.reform (h : LostGoesOn s) : LostGoesOn s.reform := by
  obtain ⟨r, hr, defers⟩ := h.defers.kept (kept_beforeWaits s)
  refine ⟨?_, h.defers.kept (kept_reform s)⟩
  rw [(gate_reform_waits s).2]
  exact (lostWaiting_iff _).mpr ⟨r, hr, .inl ((waits_beforeWaits s).2.2.2.trans h.waits), defers⟩

theorem Ending.lostGoesOn (e : Ending) (h : LostGoesOn u) : LostGoesOn (e.of u) := by
  have changeover : ∀ v : State, (v.changeover 8).track.lostWaits = v.track.lostWaits := fun v =>
    (classMoves_changeover 8 v).lift (R := fun s t => t.track.lostWaits = s.track.lostWaits) (fun _ => rfl) (fun h g => g.trans h)
      (fun _ _ _ _ => rfl) fun _ => lostWaits_refer _ _
  have eval : ∀ v : State, v.gateEval.track.lostWaits = v.track.lostWaits := fun v => by
    have turn : v.gateEval.track = v.evalView.track := by rw [gateEval_eq]; simp
    have scan : v.reformDocket.takeClass.track = v.track := by simp [State.takeClass]
    rw [turn]
    exact (changeover _).trans (by rw [scan])
  refine e.lift (P := LostGoesOn) (lift_evals (fun _ x => x.reform)
    (fun v x => ⟨(changeover v).trans x.waits, x.defers.kept (kept_changeover 8 v)⟩)
    fun v x => ⟨(eval v).trans x.waits, x.defers.kept (moves_gateEval v).kept⟩) (fun x => ⟨x.waits, x.defers.congr rfl rfl rfl⟩) (fun a x => ?_) h
  obtain ⟨-, -, -, track, -, setup, -⟩ := answer_rest _ a
  exact ⟨by rw [track]; exact x.waits, x.defers.congr (by rw [track]) (by rw [track]) setup⟩

end Sys2Proof.Machine
end



section
/-! The statement of the gate's rules over every step (O9). -/

namespace Sys2Proof.Machine

open Sys2Proof.Config

variable {s t u : State}

/-- What the end of a command leaves of eyes, places and setup. -/
structure TrackStands (s t : State) : Prop where
  entry : t.track.entryEye = s.track.entryEye
  exit_ : t.track.exitEye = s.track.exitEye
  places : t.track.records.map Record.place = s.track.records.map Record.place
  setup : t.port.setup = s.port.setup

theorem TrackStands.trans {u : State} (h : TrackStands s t) (g : TrackStands t u) : TrackStands s u :=
  ⟨g.entry.trans h.entry, g.exit_.trans h.exit_, g.places.trans h.places, g.setup.trans h.setup⟩

theorem Kept.trackStands (h : Kept s t) : TrackStands s t :=
  ⟨h.keeps.trackEntryEye, h.keeps.trackExitEye, h.places, h.keeps.portSetup⟩

theorem Ending.trackStands (e : Ending) (u : State) : TrackStands u (e.of u) := by
  refine e.lift (P := TrackStands u) (fun {s} x => ⟨x.trans (kept_settle s).trackStands, x.trans (kept_settleEval s).trackStands⟩)
    (fun x => x.trans ⟨rfl, rfl, rfl, rfl⟩) (fun {s} a x => x.trans ?_) (Kept.refl u).trackStands
  obtain ⟨-, -, -, track, -, setup, -⟩ := answer_rest s a
  exact ⟨by rw [track], by rw [track], by rw [track], setup⟩

theorem Effect.waitsStep {c : Instr} {e : Ending} (h : Effect s c e u) (hs : WaitsFormed s) : WaitsStep s (e.of u) := by
  have stands := e.trackStands u
  refine ⟨fun waits late limit eye => ?_, fun waits eye setup places => ?_⟩
  · obtain ⟨-, clear, l, hl, p, hp, before⟩ := hs.late waits
    have same : u.track.entryEye = s.track.entryEye := stands.entry.symm.trans eye
    have away : NoOffering u → (e.of u).gate.lateWaits = true := fun no => absurd late (e.not_late no)
    have entered : ∀ g : GateState, g ≠ .opened → g ≠ .late → (∃ a : State, a.gateCore = s.gateCore ∧ u.gate = a.gate.enter g) →
        NoOffering u := fun g ho hn h => by
      obtain ⟨a, -, gate⟩ := h
      have state : u.gate.state = g := by rw [gate]; rfl
      exact ⟨by rw [state]; exact ho, by rw [state]; exact hn⟩
    cases h.gateOp with
    | keeps gate =>
      obtain ⟨state, -, limitU, waitsU, -⟩ := gateCore_fields gate
      obtain ⟨lateS, -⟩ := hs.late waits
      have on : LateGoesOn s.track.entryEye l u := ⟨same, .inl ⟨state.trans lateS, limitU.trans hl, waitsU.trans waits⟩⟩
      rcases (e.lateGoesOn clear ⟨p, hp, before⟩ on).gate with ⟨-, -, on⟩ | ⟨closed, -⟩
      · exact on
      · rw [late] at closed; cases closed
    | closes _ gate => exact away (entered .closed (by decide) (by decide) gate)
    | admits _ gate => exact away (entered .receiving (by decide) (by decide) gate)
    | passes _ gate => exact away (entered .closed (by decide) (by decide) gate)
  · obtain ⟨clear, r, hr, p, hp, window⟩ := hs.lost waits
    have deferred : ExitDeferred s := ⟨r, hr, (exitDefers_iff s r).mpr ⟨clear, p, hp, window⟩⟩
    have before : ExitDeferred u := deferred.congr (stands.places.symm.trans places) (stands.exit_.symm.trans eye) (stands.setup.symm.trans setup)
    exact (e.lostGoesOn ⟨h.lostWaits.trans waits, before⟩).waits

theorem AfterReset.waitsStep {port : Bool} (h : AfterReset s t port) (hs : WaitsFormed s) : WaitsStep s t := by
  obtain ⟨holds, gate⟩ := h.gate
  refine ⟨fun _ late => ?_, fun waits _ _ places => ?_⟩
  · rw [gate] at late; cases late
  · have records : t.track.records = [] := by rw [h.track]; rfl
    obtain ⟨-, r, hr, -⟩ := hs.lost waits
    rw [records] at places
    rw [List.map_eq_nil_iff.mp places.symm] at hr
    cases hr

theorem step_waits (h : step s = .next t) (hs : WaitsFormed s) : WaitsFormed t ∧ WaitsStep s t := by
  rcases step_cases h with ⟨c, l, run⟩ | rfl
  · have formed : WaitsFormed { s with pending := l } := hs.congr rfl
    refine ⟨exec_waitsFormed run formed, ?_⟩
    rcases exec_reset_or_effect run with ⟨port, reset⟩ | ⟨e, u, effect, rfl⟩
    · have waits := reset.waitsStep formed
      exact ⟨waits.late, waits.lost⟩
    · have waits := effect.waitsStep formed
      exact ⟨waits.late, waits.lost⟩
  · exact ⟨hs.congr rfl, ⟨fun on _ _ _ => on, fun on _ _ _ => on⟩⟩

/-- A gate that opens has its offer as taken (R33). -/
theorem step_offerTaken (h : step s = .next t) (formed : GateFormed s) (shut : s.gate.state ≠ .opened) (opened : t.gate.state = .opened) :
    ∃ o, t.docket.offer = some o ∧ OfferTaken t o := by
  rcases step_cases h with ⟨c, l, run⟩ | rfl
  · have formed : GateFormed { s with pending := l } := formed.congr rfl rfl
    rcases exec_reset_or_effect run with ⟨port, reset⟩ | ⟨e, u, effect, rfl⟩
    · obtain ⟨holds, gate⟩ := reset.gate
      rw [gate] at opened
      cases opened
    · exact (effect.offerRight formed shut).taken opened
  · exact absurd opened shut

/-- A gate that goes to LATE has its limit 50.0 mm ahead of P (R45). -/
theorem step_limitAhead (h : step s = .next t) (hs : s.gate.state ≠ .late) : LimitAhead t := by
  rcases step_cases h with ⟨c, l, run⟩ | rfl
  · rcases exec_reset_or_effect run with ⟨port, reset⟩ | ⟨e, u, effect, rfl⟩
    · obtain ⟨holds, gate⟩ := reset.gate
      exact fun late => by rw [gate] at late; cases late
    · exact effect.limitAhead hs
  · exact fun late => absurd late hs

/-- From OPEN to OPEN or LATE the offer stays (R33). -/
theorem step_offerStands (h : step s = .next t) (hs : s.gate.state = .opened) (ht : t.gate.state = .opened ∨ t.gate.state = .late) :
    t.docket.offer = s.docket.offer := by
  rcases step_cases h with ⟨c, l, run⟩ | rfl
  · rcases exec_reset_or_effect run with ⟨port, reset⟩ | ⟨e, u, effect, rfl⟩
    · obtain ⟨holds, gate⟩ := reset.gate
      rw [gate] at ht
      rcases ht with g | g <;> cases g
    · exact (effect.offerStands hs).offer ht
  · rfl

theorem noOffering_of_shut (h : s.gate.state = .closed ∨ s.gate.state = .receiving) : NoOffering s := by
  unfold NoOffering
  rcases h with g | g <;> rw [g] <;> exact ⟨nofun, nofun⟩

/-- Settles O9: each rule over a command's effect and the consequences, which leave the hold set that of the state they end in. -/
theorem gateRuleIsKept : Obligations.GateRuleIsKept := by
  refine ⟨fun s t h => ⟨step_gateFormed h, step_holdsFormed h, step_closedHeld h, step_waits h, step_outfeedTold h, step_offerTaken h,
    step_limitAhead h, step_offerStands h⟩, fun c s t h hp hw => ?_, pending_gateEval⟩
  obtain ⟨e, u, effect, rfl⟩ := effect_of_exec h hp hw
  exact ⟨effect.holdsTold, fun told ne shut shutT => effect.scanned told (noOffering_of_shut shut) ne (noOffering_of_shut shutT)⟩

end Sys2Proof.Machine
end



section
/-! The windows of the measured speeds through the consequences of a step (R7, R8, R127, R128). -/

namespace Sys2Proof.Machine

open Sys2Proof.Config

/-! ## A window stands, or starts afresh with its reference -/

/-- The speed window through the consequences: it stands, or its reference has moved and it starts afresh (R7, R8). -/
def SpeedTurn (s t : State) : Prop :=
  (t.track.refMoved = s.track.refMoved ∧ t.track.ref = s.track.ref ∧ t.track.speedStable = s.track.speedStable ∧
      t.track.passes = s.track.passes ∧ t.track.misses = s.track.misses) ∨
    (t.track.refMoved = true ∧ t.track.speedStable = false ∧ t.track.passes = 0 ∧ t.track.misses = 0)

/-- A pump's window through the consequences (R127, R128). -/
def PumpTurn (p q : Pump) : Prop :=
  (q.refMoved = p.refMoved ∧ q.ref = p.ref ∧ q.stable = p.stable ∧ q.count = p.count) ∨
    (q.refMoved = true ∧ q.stable = false ∧ q.count = 0)

/-- Both kinds of windows. -/
structure WindowsTurn (s t : State) : Prop where
  speed : SpeedTurn s t
  pump : ∀ w, PumpTurn (s.pot.pump w) (t.pot.pump w)

theorem PumpTurn.refl (p : Pump) : PumpTurn p p := .inl ⟨rfl, rfl, rfl, rfl⟩

theorem PumpTurn.trans {p q r : Pump} (h : PumpTurn p q) (g : PumpTurn q r) : PumpTurn p r := by
  rcases g with ⟨moved, ref, stable, count⟩ | fresh
  · unfold PumpTurn
    rw [moved, ref, stable, count]
    exact h
  · exact .inr fresh

theorem pumpTurn_follow (p : Pump) (d : Drop) : PumpTurn p (p.follow d) := by
  unfold Pump.follow Pump.refer
  generalize (if d = .held then 0 else p.target) = r
  split
  · exact .refl p
  · exact .inr ⟨rfl, rfl, rfl⟩

namespace WindowsTurn

variable {s t u : State}

theorem trans (h : WindowsTurn s t) (g : WindowsTurn t u) : WindowsTurn s u := by
  refine ⟨?_, fun w => (h.pump w).trans (g.pump w)⟩
  rcases g.speed with ⟨moved, ref, stable, passes, misses⟩ | fresh
  · unfold SpeedTurn
    rw [moved, ref, stable, passes, misses]
    exact h.speed
  · exact .inr fresh

theorem beside (h : Beside s t) : WindowsTurn s t :=
  ⟨.inl ⟨h.moved.1, h.ref, h.speed⟩, fun w => .inl ⟨h.moved.2 w, h.pump w⟩⟩

theorem pumpRefs (s : State) : WindowsTurn s s.reformPumpRefs :=
  ⟨.inl ⟨rfl, rfl, rfl, rfl, rfl⟩, fun w => by cases w <;> exact pumpTurn_follow _ _⟩

theorem conveyor (s : State) : WindowsTurn s s.reformConveyor := by
  have drop : ∀ (x : State) (d : Drop), WindowsTurn x { x with pot := { x.pot with drop := d } } := fun x d =>
    ⟨.inl ⟨rfl, rfl, rfl, rfl, rfl⟩, fun w => by cases w <;> exact .refl _⟩
  have ref : ∀ x : State, WindowsTurn x x.reformRef := fun x => by
    refine ⟨?_, fun w => by cases w <;> exact .refl _⟩
    unfold SpeedTurn State.reformRef Track.refer
    dsimp only
    split
    · exact .inl ⟨rfl, rfl, rfl, rfl, rfl⟩
    · exact .inr ⟨rfl, rfl, rfl, rfl⟩
  have follow : WindowsTurn s s.followDrop := (drop s _).trans (pumpRefs _)
  exact ((follow.trans (drop _ _)).trans (ref _)).trans (pumpRefs _)

theorem settles (s : State) : WindowsTurn s s.settle ∧ WindowsTurn s s.settleEval :=
  lift_conveyor (R := WindowsTurn) trans beside conveyor s

end WindowsTurn

/-! ## A reference of 0 in a mode without motion -/

/-- The modes in which the line neither conveys nor waves stand (Table 6-3). -/
def AtRest (s : State) : Prop :=
  s.modes.mode = .off ∨ s.modes.mode = .economy ∨ s.modes.mode = .halted

/-- The reference is 0 and the note of a change is as given. -/
def StandsStill (m : Bool) (s : State) : Prop :=
  s.track.ref = 0 ∧ s.track.refMoved = m

/-- A pump's reference is 0 and the note of a change is as given. -/
def PumpStandsStill (m : Bool) (p : Pump) : Prop :=
  p.ref = 0 ∧ p.refMoved = m

theorem AtRest.demand {s : State} (h : AtRest s) : runDemand s = 0 := by
  have stands : s.modes.mode.conveys = false := by rcases h with e | e | e <;> rw [e] <;> rfl
  simp [runDemand, stands]

theorem AtRest.pumpTarget {s : State} (h : AtRest s) (w : Wave) : pumpTarget s w = 0 := by
  unfold Machine.pumpTarget
  rcases h with e | e | e <;> rw [e]

theorem AtRest.of_mode {s t : State} (h : AtRest s) (mode : t.modes.mode = s.modes.mode) : AtRest t := by
  unfold AtRest
  rw [mode]
  exact h

theorem AtRest.follows {s t : State} (h : AtRest s) (follows : Follows s t) : AtRest t := by
  rcases follows.mode with e | ⟨e, -⟩ | ⟨e, -⟩
  · exact h.of_mode e
  · rcases h with g | g | g <;> rw [e] at g <;> cases g
  · rcases h with g | g | g <;> rw [e] at g <;> cases g

theorem Beside.standsStill {s t : State} {m : Bool} (h : Beside s t) (g : StandsStill m s) : StandsStill m t :=
  ⟨h.ref.trans g.1, h.moved.1.trans g.2⟩

theorem Beside.pumpStandsStill {s t : State} {m : Bool} {w : Wave} (h : Beside s t) (g : PumpStandsStill m (s.pot.pump w)) :
    PumpStandsStill m (t.pot.pump w) :=
  ⟨(h.pump w).1.trans g.1, (h.moved.2 w).trans g.2⟩

/-- A pump with target 0 keeps its reference of 0 whatever the drop does (R127). -/
theorem pumpStandsStill_follow {p : Pump} {m : Bool} (h : PumpStandsStill m p) (target : p.target = 0) (d : Drop) :
    p.follow d = p := by
  unfold Pump.follow Pump.refer
  rw [target, ite_self, if_pos h.1]

/-- The conveyor re-formed at rest: the reference stays 0 (R5). -/
theorem AtRest.conveyor {s : State} {m : Bool} (h : AtRest s) (g : StandsStill m s) : StandsStill m s.reformConveyor := by
  obtain ⟨u, parts⟩ := conveyor_parts s
  have zero : conveyorRef u = 0 := by
    unfold conveyorRef
    rw [parts.demand.1, h.demand, ite_self]
  have track : s.reformConveyor.track = { u.track with records := u.track.records.map (stopMarks u) } := by
    rw [parts.last]
    change (({ u.track with records := u.track.records.map (stopMarks u) } : Track).refer (conveyorRef u)) = _
    unfold Track.refer
    rw [zero, if_pos (by rw [parts.ref.2]; exact g.1)]
  unfold StandsStill
  rw [track, parts.ref.2]
  exact g

/-- The conveyor re-formed with a pump at target 0 and reference 0: the pump stands (R127). -/
theorem pump_conveyor_still {s : State} {m : Bool} {w : Wave} (g : PumpStandsStill m (s.pot.pump w)) (target : (s.pot.pump w).target = 0) :
    s.reformConveyor.pot.pump w = s.pot.pump w := by
  have twice : ∃ d e, s.reformConveyor.pot.pump w = ((s.pot.pump w).follow d).follow e := by cases w <;> exact ⟨_, _, rfl⟩
  obtain ⟨d, e, h⟩ := twice
  rw [h, pumpStandsStill_follow g target, pumpStandsStill_follow g target]

/-- What stands at rest through the consequences: the reference of 0, and a pump of target and reference 0. -/
structure StaysStill (s t : State) : Prop where
  rest : AtRest t
  speed : ∀ m, StandsStill m s → StandsStill m t
  pump : ∀ w m, PumpStandsStill m (s.pot.pump w) → (s.pot.pump w).target = 0 →
    PumpStandsStill m (t.pot.pump w) ∧ (t.pot.pump w).target = 0

namespace StaysStill

variable {s t u : State}

theorem refl (h : AtRest s) : StaysStill s s := ⟨h, fun _ => id, fun _ _ g e => ⟨g, e⟩⟩

theorem trans (h : StaysStill s t) (g : StaysStill t u) : StaysStill s u :=
  ⟨g.rest, fun m => g.speed m ∘ h.speed m, fun w m p e => g.pump w m (h.pump w m p e).1 (h.pump w m p e).2⟩

theorem beside (rest : AtRest t) (h : Beside s t) (target : ∀ w, (t.pot.pump w).target = (s.pot.pump w).target) : StaysStill s t :=
  ⟨rest, fun _ => h.standsStill, fun w _ p e => ⟨h.pumpStandsStill p, (target w).trans e⟩⟩

theorem conveyor (h : AtRest s) : StaysStill s s.reformConveyor := by
  refine ⟨h.of_mode (by simp), fun _ => h.conveyor, fun w m p e => ?_⟩
  rw [pump_conveyor_still p e]
  exact ⟨p, e⟩

/-- A re-forming sets every pump's target to 0 first (R126), so that the pump's own target before it does not count. -/
theorem reform (h : AtRest s) : AtRest s.reform ∧ (∀ m, StandsStill m s → StandsStill m s.reform) ∧
    ∀ w m, PumpStandsStill m (s.pot.pump w) → PumpStandsStill m (s.reform.pot.pump w) ∧ (s.reform.pot.pump w).target = 0 := by
  obtain ⟨x, hx⟩ : ∃ x, s.beforeTargets.reformTargets.reformOutfeed.reformWidth = x := ⟨_, rfl⟩
  have first : Beside s x := hx ▸ .before s
  have mode : x.modes.mode = s.modeStage.modes.mode := by rw [← hx]; simp [State.beforeTargets, State.beforeInhibit]
  have rest : AtRest x := (h.follows (follows_modeStage s)).of_mode mode
  have old : AtRest s.beforeTargets := rest.of_mode (by rw [← hx]; simp)
  have target : ∀ w, (x.pot.pump w).target = 0 := fun w => by
    have e : (x.pot.pump w).target = pumpTarget s.beforeTargets.reformZones w := by rw [← hx]; cases w <;> rfl
    rw [e, (old.of_mode (t := s.beforeTargets.reformZones) rfl).pumpTarget]
  have e : s.reform = x.reformConveyor.reformDrive.reformWaits.reformIdle.reformLine := by
    rw [reform_eq, ← hx]; rfl
  have last : StaysStill x s.reform := by
    rw [e]
    exact (conveyor rest).trans (beside ((conveyor rest).rest.of_mode rfl) (.after _) fun _ => rfl)
  exact ⟨last.rest, fun m => last.speed m ∘ first.standsStill, fun w m p => last.pump w m (first.pumpStandsStill p) (target w)⟩

theorem changeover (h : AtRest s) (n : Nat) : StaysStill s (s.changeover n) := by
  refine (classMoves_changeover n s).lift (R := fun s t => AtRest s → StaysStill s t) (fun _ => refl)
    (fun f g r => (f r).trans (g (f r).rest)) (fun x p t l r => beside (r.of_mode rfl) (.of_same (.of_core rfl rfl) rfl rfl rfl rfl) fun _ => rfl)
    (fun x r => ?_) h
  have side : Beside x x.reformPotTarget.reformWidth := .of_same ((kept_reformPotTarget x).trans (kept_reformWidth _)) rfl rfl rfl rfl
  have first : StaysStill x x.reformPotTarget.reformWidth := beside (r.of_mode rfl) side fun _ => rfl
  exact first.trans (conveyor first.rest)

theorem gateEval (h : AtRest s) : StaysStill s s.gateEval := by
  have scan : Beside s s.reformDocket.takeClass :=
    (Beside.of_same (kept_reformDocket s) (by simp) (by simp) (by simp) (by simp)).trans (.of_same (kept_takeClass _) rfl rfl rfl rfl)
  have turn : ∀ x : State, Beside x x.takeHolds.gateTransition := fun x =>
    (Beside.of_same (kept_takeHolds x) rfl rfl rfl rfl).trans
      (.of_same (kept_gateTransition _) (by simp) (by simp) (by simp) (by simp))
  have first : StaysStill s s.reformDocket.takeClass := beside (h.of_mode (by simp)) scan fun w => by cases w <;> simp [Pot.pump]
  have change := changeover first.rest 8
  have last : StaysStill (s.reformDocket.takeClass.changeover 8) s.gateEval :=
    beside (change.rest.of_mode (by simp [State.gateEval])) (turn _) fun w => by cases w <;> simp [State.gateEval, Pot.pump]
  exact (first.trans change).trans last

/-- What stands at rest through an evaluation and all consequences (R5, R127). -/
theorem settleEval (h : AtRest s) : (∀ m, StandsStill m s → StandsStill m s.settleEval) ∧
    ∀ w m, PumpStandsStill m (s.pot.pump w) → PumpStandsStill m (s.settleEval.pot.pump w) := by
  obtain ⟨rest, speed, pump⟩ := reform h
  have again : ∀ {x : State}, StaysStill s.reform x → StaysStill s.reform x.reform := fun g => by
    obtain ⟨r, a, b⟩ := reform g.rest
    exact g.trans ⟨r, a, fun w m p _ => b w m p⟩
  have rest' := (lift_evals (P := StaysStill s.reform) (fun _ => again) (fun _ g => g.trans (changeover g.rest 8))
    (fun _ g => g.trans (gateEval g.rest)) (gateEval rest)).1
  exact ⟨fun m => rest'.speed m ∘ speed m, fun w m p => (rest'.pump w m (pump w m p).1 (pump w m p).2).1⟩

end StaysStill

end Sys2Proof.Machine
end



section
/-! The samples of a status interval end, block by block (R76, R80 to R82, R100, R111, R117, R133, R141). -/

namespace Sys2Proof.Machine

open Sys2Proof.Config

/-! ## The temperature inputs (R80 to R82) -/

theorem ringTakes_push (l : List Int) (v : Int) : RingTakes l (ringPush l v) v := by
  unfold RingTakes ringPush
  refine ⟨fun h => ?_, fun h => ?_⟩
  · rw [show l.length + 1 - 4 = 0 by omega, List.drop_zero]
  · rw [h, List.drop_append_of_le_length (by omega), List.drop_one]

theorem goodSample_eq_some (reading : Option Int) (v : Int) : goodSample reading = some v ↔ reading = some v ∧ -500 ≤ v ∧ v ≤ 6000 := by
  unfold goodSample
  cases reading with
  | none => simp
  | some x =>
    dsimp only
    split <;> grind

theorem goodSample_eq_none (reading : Option Int) : goodSample reading = none ↔ ∀ v, reading = some v → v < -500 ∨ 6000 < v := by
  rw [Option.eq_none_iff_forall_ne_some]
  refine ⟨fun h v e => ?_, fun h v e => ?_⟩
  · have := mt (goodSample_eq_some reading v).mpr (h v)
    by_contra range
    exact this ⟨e, by omega⟩
  · obtain ⟨e, low, high⟩ := (goodSample_eq_some reading v).mp e
    have := h v e
    omega

/-- An input's sample is that of R80 to R82. -/
theorem inputSampled_sample (i : Input) (reading : Option Int) : InputSampled i (i.sample reading) reading where
  good v e low high := by
    have good := (goodSample_eq_some reading v).mpr ⟨e, low, high⟩
    have push := ringTakes_push i.ring v
    unfold Input.sample
    rw [good]
    cases h : i.state <;> exact ⟨push, rfl⟩
  bad h := by
    have bad := (goodSample_eq_none reading).mpr h
    unfold Input.sample
    rw [bad]
    cases h : i.state <;> rfl

theorem state_sample (i : Input) (reading : Option Int) : (i.sample reading).state = i.state := by
  unfold Input.sample
  split <;> rfl

theorem pvFormed (i : Input) : PvFormed i := by
  unfold PvFormed Input.pv
  cases i.state <;> simp +contextual

/-! ## The zone latches (R100, R111) -/

theorem getLsbD_deviates (r : Record) (y z : Zone) : (r.deviates y).zoneMask.getLsbD z.val = true ↔
    r.zoneMask.getLsbD z.val = true ∨ z = y := by
  have hz := z.isLt
  have e : (r.deviates y).zoneMask = r.zoneMask ||| bitMask y.val := rfl
  rw [e, BitVec.getLsbD_or, getLsbD_bitMask _ _ (show y.val < 16 by omega), Bool.or_eq_true, decide_eq_true_eq, Fin.val_inj]

/-- What the limit tests of a list of zones leave of a record: its place and samples stand, a mark comes with each zone whose
limit is reached first now (R111). -/
structure Latches (s : State) (zs : List Zone) (r q : Record) : Prop where
  place : q.place = r.place
  samples : q.minSpeed = r.minSpeed ∧ q.minRpm = r.minRpm
  marks : ∀ z : Zone, q.zoneMask.getLsbD z.val = true ↔ r.zoneMask.getLsbD z.val = true ∨
    (z ∈ zs ∧ s.thermal.zoneFaulted z = false ∧ overZoneLimit s z = true ∧ zoneOverlap s z r = true ∧ r.zone z ≠ 0)

/-- What the limit tests of a list of zones leave of the state. -/
structure LatchesTake (s t : State) (zs : List Zone) : Prop where
  frame : t = { s with
    track := { s.track with records := t.track.records }, thermal := { s.thermal with latches := t.thermal.latches } }
  latches : ∀ z, t.thermal.latches.get z = (s.thermal.latches.get z || (decide (z ∈ zs) && overZoneLimit s z))
  records : ∃ f : Record → Record, t.track.records = s.track.records.map f ∧ ∀ r, Latches s zs r (f r)

theorem latchesTake_latchZone (s : State) (z : Zone) : LatchesTake s (s.latchZone z) [z] := by
  have latch : ∀ y, (s.thermal.latches.set z (s.thermal.latches.get z || overZoneLimit s z)).get y =
      (s.thermal.latches.get y || (decide (y ∈ [z]) && overZoneLimit s y)) := fun y => by
    rw [Tab6.get_set]
    by_cases h : y = z <;> simp [h]
  unfold State.latchZone
  dsimp only
  split
  · next first =>
    rw [Bool.and_eq_true, Bool.not_eq_true'] at first
    refine ⟨rfl, latch, _, rfl, fun r => ?_⟩
    by_cases needs : (zoneOverlap s z r && r.zone z != 0) = true
    · rw [if_pos needs]
      rw [Bool.and_eq_true, bne_iff_ne] at needs
      refine ⟨rfl, ⟨rfl, rfl⟩, fun y => ?_⟩
      rw [getLsbD_deviates, List.mem_singleton]
      refine or_congr_right ⟨fun h => ?_, And.left⟩
      subst h
      exact ⟨rfl, first.1, first.2, needs⟩
    · rw [if_neg needs]
      rw [Bool.and_eq_true, bne_iff_ne] at needs
      refine ⟨rfl, ⟨rfl, rfl⟩, fun y => ⟨.inl, fun h => h.elim id fun ⟨e, _, _, over_⟩ => ?_⟩⟩
      rw [List.mem_singleton] at e
      subst e
      exact absurd over_ needs
  · next first =>
    refine ⟨rfl, latch, id, (List.map_id _).symm, fun r => ⟨rfl, ⟨rfl, rfl⟩, fun y => ⟨.inl, fun h => h.elim id ?_⟩⟩⟩
    rintro ⟨e, sound, limit, -⟩
    rw [List.mem_singleton] at e
    subst e
    exact absurd (by rw [sound, limit]; rfl) first

/-- The zones are tested one after another, each once, so that each finds its latch as it stood. -/
theorem latchesTake_foldl (zs : List Zone) (once : zs.Nodup) (s : State) : LatchesTake s (zs.foldl State.latchZone s) zs := by
  induction zs generalizing s with
  | nil => exact ⟨rfl, fun z => by simp, id, (List.map_id _).symm, fun r => ⟨rfl, ⟨rfl, rfl⟩, fun z => by simp⟩⟩
  | cons y zs ih =>
    obtain ⟨fresh, once'⟩ := List.nodup_cons.mp once
    obtain ⟨frame1, latches1, f1, map1, records1⟩ := latchesTake_latchZone s y
    obtain ⟨u, hu⟩ : ∃ u, s.latchZone y = u := ⟨_, rfl⟩
    rw [hu] at frame1 latches1 map1
    obtain ⟨frame2, latches2, f2, map2, records2⟩ := ih once' u
    rw [List.foldl_cons, hu]
    obtain ⟨t, ht⟩ : ∃ t, zs.foldl State.latchZone u = t := ⟨_, rfl⟩
    rw [ht] at frame2 latches2 map2 ⊢
    have inputs : u.thermal.inputs = s.thermal.inputs := by rw [frame1]
    have ground : SameGround s u := ⟨by rw [frame1], by rw [frame1]⟩
    have limit : ∀ z, overZoneLimit u z = overZoneLimit s z := fun z => by
      unfold overZoneLimit Thermal.zonePV State.loaded
      rw [inputs, ground.ws, ground.setup]
    have faulted : ∀ z ∈ zs, u.thermal.zoneFaulted z = s.thermal.zoneFaulted z := fun z hz => by
      have other : z ≠ y := fun e => fresh (e ▸ hz)
      unfold Thermal.zoneFaulted
      rw [inputs, latches1]
      simp [other]
    have needs : ∀ z r, zoneOverlap u z (f1 r) = zoneOverlap s z r ∧ (f1 r).zone z = r.zone z := fun z r => by
      have place := (records1 r).place
      refine ⟨?_, by unfold Record.zone; rw [recipe_of_place place]⟩
      unfold zoneOverlap
      rw [isIntruder_of_place place, overStretch_of_place place, ground.overStretch, ground.ws]
    refine ⟨?_, fun z => ?_, f2 ∘ f1, by rw [map2, map1, List.map_map], fun r => ?_⟩
    · rw [frame2, frame1]
    · rw [latches2, latches1, limit, Bool.or_assoc, ← Bool.and_or_distrib_right]
      simp [List.mem_cons]
    · obtain ⟨place1, ⟨speed1, rpm1⟩, marks1⟩ := records1 r
      obtain ⟨place2, ⟨speed2, rpm2⟩, marks2⟩ := records2 (f1 r)
      refine ⟨place2.trans place1, ⟨speed2.trans speed1, rpm2.trans rpm1⟩, fun z => ?_⟩
      have later : z ∈ zs ∧ u.thermal.zoneFaulted z = false ∧ overZoneLimit u z = true ∧ zoneOverlap u z (f1 r) = true ∧ (f1 r).zone z ≠ 0 ↔
          z ∈ zs ∧ s.thermal.zoneFaulted z = false ∧ overZoneLimit s z = true ∧ zoneOverlap s z r = true ∧ r.zone z ≠ 0 := by
        rw [limit, (needs z r).1, (needs z r).2]
        exact and_congr_right fun hz => by rw [faulted z hz]
      change (f2 (f1 r)).zoneMask.getLsbD z.val = true ↔ _
      rw [marks2, marks1, later, List.mem_singleton, List.mem_cons, or_and_right, or_assoc]

theorem latchesTake_latchZones (s : State) : LatchesTake s s.latchZones allZones :=
  latchesTake_foldl allZones (by decide) s

end Sys2Proof.Machine
end



section
/-! The readings of a status interval end and the records' samples (R76, R117, R128, R133, R141). -/

namespace Sys2Proof.Machine

open Sys2Proof.Config

/-! ## The speed and pump windows (R6 to R8, R128) -/

theorem speedPasses_iff (m : Int) (r : Nat) : speedPasses m r = true ↔ (m - r).natAbs * 50 ≤ r := by
  simp [speedPasses]

theorem speedDeviates_iff (m : Int) (r : Nat) : speedDeviates m r = true ↔ r ≠ 0 ∧ r < (m - r).natAbs * 10 := by
  simp [speedDeviates]

/-- What the end of the speed window leaves (R6 to R8). -/
structure WindowEnds (t u : Track) (c : Nat) : Prop where
  rest : u = { t with
    net := 0, shortWindow := false, refMoved := false, measured := u.measured, speedStable := u.speedStable, passes := u.passes
    misses := u.misses }
  measured : u.measured = if t.shortWindow then t.measured else (240000 * t.net).tdiv c
  short : t.shortWindow = true → u.speedStable = t.speedStable ∧ u.passes = t.passes ∧ u.misses = t.misses
  stable : t.shortWindow = false → (u.speedStable = true ↔ t.speedStable = true ∧ (u.measured - t.ref).natAbs * 50 ≤ t.ref)
  passes : t.shortWindow = false →
    u.passes = if (u.measured - t.ref).natAbs * 50 ≤ t.ref ∧ t.refMoved = false then t.passes + 1 else 0
  misses : t.shortWindow = false →
    u.misses = if (t.ref ≠ 0 ∧ t.ref < (u.measured - t.ref).natAbs * 10) ∧ t.refMoved = false then t.misses + 1 else 0

theorem windowEnds (t : Track) (c : Nat) : WindowEnds t (t.window c) c := by
  unfold Track.window
  cases h : t.shortWindow with
  | true =>
    have long : t.shortWindow ≠ false := by rw [h]; decide
    exact ⟨rfl, by simp [h], fun _ => ⟨rfl, rfl, rfl⟩, (absurd · long), (absurd · long), (absurd · long)⟩
  | false =>
    refine ⟨rfl, by simp [measuredSpeed, h], fun e => absurd (h.symm.trans e) (by decide), fun _ => ?_, fun _ => ?_, fun _ => ?_⟩
    · simp [speedPasses_iff]
    · simp only [Bool.false_eq_true, if_false, Bool.and_eq_true, speedPasses_iff, Bool.not_eq_true']
    · simp only [Bool.false_eq_true, if_false, Bool.and_eq_true, speedDeviates_iff, Bool.not_eq_true']

/-- What the end of a pump's window leaves (R127, R128). -/
structure PumpEnds (p q : Pump) (rpm tol : Nat) (b : Bool) : Prop where
  moved : q.refMoved = false
  ref : q.ref = p.ref
  measured : q.measured = if b then p.measured else min rpm 1500
  short : b = true → q.stable = p.stable ∧ q.count = p.count
  stable : b = false → (q.stable = true ↔ p.stable = true ∧ ((q.measured : Int) - p.ref).natAbs * 100 ≤ tol * p.ref)
  count : b = false →
    q.count = if ((q.measured : Int) - p.ref).natAbs * 100 ≤ tol * p.ref ∧ p.refMoved = false then p.count + 1 else 0

theorem pumpEnds (p : Pump) (rpm tol : Nat) (b : Bool) : PumpEnds p (p.sample rpm tol b) rpm tol b := by
  unfold Pump.sample
  cases b with
  | true => exact ⟨rfl, rfl, rfl, fun _ => ⟨rfl, rfl⟩, nofun, nofun⟩
  | false =>
    have test : p.passes (min rpm 1500) tol = true ↔ (((min rpm 1500 : Nat) : Int) - p.ref).natAbs * 100 ≤ tol * p.ref :=
      decide_eq_true_iff
    dsimp only
    by_cases h : p.passes (min rpm 1500) tol = true
    · rw [if_neg (by decide), if_pos h]
      rw [test] at h
      refine ⟨rfl, rfl, rfl, nofun, fun _ => ⟨fun e => ⟨e, h⟩, And.left⟩, fun _ => ?_⟩
      dsimp only
      rw [if_congr (and_iff_right h) rfl rfl]
      cases p.refMoved <;> rfl
    · rw [if_neg (by decide), if_neg h]
      rw [test] at h
      exact ⟨rfl, rfl, rfl, nofun, fun _ => ⟨nofun, fun e => absurd e.2 h⟩, fun _ => (if_neg fun e => h e.1).symm⟩

/-! ## The level sample (R117, R118, R125) -/

theorem goodLevel_eq_some {reading : Option Int} {v : Int} (e : reading = some v) (low : 0 ≤ v) (high : v ≤ 1000) :
    goodLevel reading = some v := by
  rw [e]
  exact if_pos ⟨low, high⟩

theorem goodLevel_eq_none {reading : Option Int} (h : ∀ v, reading = some v → v < 0 ∨ 1000 < v) : goodLevel reading = none := by
  cases reading with
  | none => rfl
  | some v => exact if_neg fun ⟨low, high⟩ => by have := h v rfl; omega

theorem judge_eq (l : Level) (b : Bool) : l.judge b = { l with count := if b = l.set then 0 else l.count + 1 } := by
  simp [Level.judge]

/-- What a level sample leaves of the pot unit and the port. -/
structure LevelFrame (s t : State) : Prop where
  state : t = { s with pot := t.pot, port := t.port }
  pot : t.pot = { s.pot with
    levelGood := t.pot.levelGood, levelRun := t.pot.levelRun, level := t.pot.level, high := t.pot.high, low := t.pot.low
    lowlow := t.pot.lowlow, feeder := t.pot.feeder }
  port : t.port = s.port ∨ t.port = s.port.notify .potEvent

theorem levelFrame (s : State) (r : Option Int) : LevelFrame s (s.sampleLevel r) := by
  unfold State.sampleLevel
  split
  · dsimp only
    cases s.port.setup <;> exact ⟨rfl, rfl, .inl rfl⟩
  · exact ⟨rfl, rfl, .inl rfl⟩
  · exact ⟨rfl, rfl, .inr rfl⟩
  · exact ⟨rfl, rfl, .inl rfl⟩

theorem levelSampled (s : State) (r : Option Int) : LevelSampled s (s.sampleLevel r) r where
  good v e low high := by
    have good := goodLevel_eq_some e low high
    unfold State.sampleLevel
    rw [good]
    cases level : s.pot.levelGood with
    | true =>
      dsimp only
      cases setup : s.port.setup with
      | none => exact ⟨level, rfl, nofun, fun _ loaded => by simp [State.loaded, setup] at loaded⟩
      | some c =>
        have ws : s.ws = c := by rw [State.ws, setup]; rfl
        rw [ws]
        exact ⟨level, rfl, nofun, fun _ _ => ⟨judge_eq _ _, judge_eq _ _, judge_eq _ _⟩⟩
    | false => exact ⟨level, rfl, fun _ => rfl, nofun⟩
  bad h := by
    have bad := goodLevel_eq_none h
    unfold State.sampleLevel
    rw [bad]
    cases level : s.pot.levelGood with
    | true =>
      refine ⟨rfl, rfl, rfl, fun _ => ⟨?_, rfl, rfl, rfl, fun n feeds => ?_⟩⟩
      · exact notify_pending _ _
      · rcases feeds with e | e <;> exact (congrArg Feeder.atLevelFault e :)
    | false => exact ⟨level, rfl, rfl, nofun⟩
  flags := by
    unfold State.sampleLevel
    split
    · dsimp only
      cases s.port.setup <;> exact ⟨rfl, rfl, rfl⟩
    · exact ⟨rfl, rfl, rfl⟩
    · exact ⟨rfl, rfl, rfl⟩
    · exact ⟨rfl, rfl, rfl⟩

/-! ## The pressure and tank samples (R70, R76) -/

theorem pressureInBand_iff (c : Setup) (r : Option Int) : pressureInBand c r = true ↔
    ∃ v, r = some v ∧ 0 ≤ v ∧ v ≤ 1000 ∧ (c.pressureLow : Int) ≤ v ∧ v ≤ c.pressureHigh := by
  unfold pressureInBand
  cases r <;> simp

theorem modulating_iff (s : State) : s.modulating = true ↔
    s.flux.purge ≠ none ∨ ((∃ k, s.flux.duties.get k ≠ 0) ∧ s.track.ref ≠ 0) := by
  unfold State.modulating
  simp [Option.isSome_iff_ne_none, Tab8.toList, Fin.exists_fin_succ, Tab8.get]

/-! ## The extraction samples (R139 to R146, R151) -/

/-- A point is judged as R139 to R146 say. -/
theorem judgement_iff (t : State) (k : Idx8) (w a c : Bool) :
    judgement t.extr t.port.setup (pointKind k) = some ⟨w, a, c⟩ ↔ Judges t k w a c := by
  have loaded : ∀ f : Setup → Option Judgement, t.port.setup.bind f = some ⟨w, a, c⟩ ↔ t.loaded = true ∧ f t.ws = some ⟨w, a, c⟩ := fun f => by
    unfold State.loaded State.ws
    cases t.port.setup <;> simp
  have each : ∀ x y z : Bool, (some (⟨x, y, z⟩ : Judgement) = some ⟨w, a, c⟩) ↔ w = x ∧ a = y ∧ c = z := fun x y z => by
    rw [Option.some.injEq, Judgement.mk.injEq, eq_comm, @eq_comm _ y, @eq_comm _ z]
  have sensor : ∀ good : Bool, (some (⟨false, !good, good⟩ : Judgement) = some ⟨w, a, c⟩) ↔ w = false ∧ a = !good ∧ c = !a := fun good => by
    rw [each]
    refine and_congr_right fun _ => and_congr_right fun e => ?_
    rw [e, Bool.not_not]
  have mapped : ∀ (o : Option Nat) (f : Nat → Judgement), o.map f = some ⟨w, a, c⟩ ↔
      ∃ p, o = some p ∧ w = (f p).warn ∧ a = (f p).alarm ∧ c = (f p).clear := fun o f => by
    rw [Option.map_eq_some_iff]
    exact exists_congr fun p => and_congr_right fun _ => by rw [← each, Option.some.injEq]
  match k with
  | 0 => simp [judgement, pointKind, Judges, loaded, mapped, Extr.spinning, Extr.grace, Extr.duct, judgeFlow, and_assoc]
  | 1 => simp [judgement, pointKind, Judges, loaded, mapped, Extr.spinning, Extr.grace, Extr.duct, judgeFlow, and_assoc]
  | 2 => simp [judgement, pointKind, Judges, Extr.spinning, Extr.grace, Extr.feedback, each, and_assoc]
  | 3 => simp [judgement, pointKind, Judges, Extr.spinning, Extr.grace, Extr.feedback, each, and_assoc]
  | 4 => simp [judgement, pointKind, Judges, loaded, mapped, judgeFilter]
  | 5 => exact (sensor _).trans (by simp [Judges, Extr.sensorsGood, Bool.or_assoc])
  | 6 => exact (sensor _).trans (by simp [Judges, Extr.sensorsGood])
  | 7 => simp [judgement, pointKind, Judges, loaded, mapped, judgeVapour]

/-- A point's sample is that of its judgement (R141, R145, R146). -/
theorem pointSampled_sample (t : State) (k : Idx8) (p : Point) :
    PointSampled t k p (p.sample (judgement t.extr t.port.setup (pointKind k)) (pointKind k).escalates) := by
  have esc : (if p.active && p.sev == .warning && (pointKind k).escalates then p.escCount + 1 else p.escCount) =
      if (p.ann = .activeUnack ∨ p.ann = .activeAck) ∧ p.sev = .warning ∧ (k = 0 ∨ k = 1 ∨ k = 7) then p.escCount + 1 else p.escCount := by
    simp only [Bool.and_eq_true, Point.active_iff, beq_iff_eq, escalates_iff, and_assoc]
  cases h : judgement t.extr t.port.setup (pointKind k) with
  | none =>
    refine ⟨fun w a c judged => ?_, fun _ => ⟨rfl, rfl, rfl⟩, esc, rfl, rfl, rfl, rfl, rfl⟩
    rw [(judgement_iff t k w a c).mpr judged] at h
    cases h
  | some g =>
    refine ⟨fun w a c judged => ?_, fun none_ => absurd ((judgement_iff t k _ _ _).mp h) (none_ _ _ _), esc, rfl, rfl, rfl, rfl, rfl⟩
    rw [(judgement_iff t k w a c).mpr judged] at h
    cases h
    refine ⟨rfl, rfl, ?_⟩
    simp only [Point.sample, countIf, Bool.and_eq_true, Point.active_iff]
    simp only [and_comm]

end Sys2Proof.Machine
end



section
/-! The samples of a status interval end, taken together (log entry 7). -/

namespace Sys2Proof.Machine

open Sys2Proof.Config

variable {s l v x a : State} {i : Readings}

/-- The states through the samples: the latches of the zones, the level and the tank; `a` is the state after them all. -/
structure SampleStages (s : State) (i : Readings) (l v x a : State) : Prop where
  latched : l = (s.sampleSpeed.sampleInputs i.temps).latchZones
  levelled : v = ((l.sampleExtraction i).samplePumps i.chipRpm i.mainRpm).sampleLevel i.level
  tanked : x = (v.samplePressure i.pressure).sampleTank i.tankEmpty
  whole : a = { x.sampleContact with pot := { x.pot with feedTest := true } }

theorem sampleStages (s : State) (i : Readings) : ∃ l v x, SampleStages s i l v x (s.sampleAll i) :=
  ⟨_, _, _, rfl, rfl, rfl, rfl⟩

/-- A port to which notices have been told, and nothing else. -/
structure Told (p q : Port) : Prop where
  frame : q = { p with notices := q.notices, marks := q.marks, line := q.line }
  notes : PortNotes p q

theorem Told.refl (p : Port) : Told p p := ⟨rfl, .refl p⟩

theorem Told.trans {p q r : Port} (h : Told p q) (g : Told q r) : Told p r := by
  refine ⟨?_, h.notes.trans g.notes⟩
  rw [g.frame, h.frame]

theorem told_notify (p : Port) (n : Notice) : Told p (p.notify n) := ⟨rfl, portNotes_notify p n⟩

theorem told_of_cases {p q : Port} {n : Notice} (h : q = p ∨ q = p.notify n) : Told p q := by
  rcases h with e | e <;> rw [e]
  · exact .refl p
  · exact told_notify p n

/-- What a tank sample leaves (R70). -/
structure TankFrame (s t : State) (b : Bool) : Prop where
  state : t = { s with flux := t.flux, mem := t.mem, port := t.port }
  flux : t.flux = { s.flux with tankEmpty := b, counter := t.flux.counter, remainder := t.flux.remainder, low := t.flux.low }
  counter : b = true → t.flux.counter = 0
  port : Told s.port t.port
  mem : MirrorOnly s.mem t.mem

theorem tankFrame (s : State) (b : Bool) : TankFrame s (s.sampleTank b) b := by
  cases b with
  | false => exact ⟨rfl, rfl, nofun, .refl _, .refl _⟩
  | true =>
    refine ⟨rfl, rfl, fun _ => rfl, ?_, ?_⟩
    · exact told_of_cases (Port.notifyIf_cases _ _ _).symm
    · exact (mirrorOnly_setTank s 0 0).trans (mirrorOnly_writeBlock _ 0)

namespace SampleStages

/-- The latches leave all but the records and the latches themselves (R100). -/
theorem latches (h : SampleStages s i l v x a) : LatchesTake (s.sampleSpeed.sampleInputs i.temps) l allZones :=
  h.latched ▸ latchesTake_latchZones _

theorem latch_frame (h : SampleStages s i l v x a) : l = { s with
    track := { s.track.window s.ws.countsPerMetre with records := l.track.records }
    thermal := { s.thermal with
      inputs := s.thermal.inputs.mapIdx fun k p => p.sample (i.temps.get k), latches := l.thermal.latches } } :=
  h.latches.frame

theorem level_frame (h : SampleStages s i l v x a) : v = { l with
    extr := (l.sampleExtraction i).extr, pot := v.pot, port := v.port } := by
  have frame := (levelFrame ((l.sampleExtraction i).samplePumps i.chipRpm i.mainRpm) i.level).state
  rw [← h.levelled] at frame
  exact frame

theorem tank_frame (h : SampleStages s i l v x a) : x = { v with flux := x.flux, mem := x.mem, port := x.port } := by
  have frame := (tankFrame (v.samplePressure i.pressure) i.tankEmpty).state
  rw [← h.tanked] at frame
  exact frame

/-- What no sample touches, and the blocks that take samples. -/
theorem frame (h : SampleStages s i l v x a) : a = { s with
    track := { s.track.window s.ws.countsPerMetre with records := a.track.records }
    thermal := { s.thermal with
      inputs := s.thermal.inputs.mapIdx fun k p => p.sample (i.temps.get k), latches := l.thermal.latches }
    extr := (s.sampleExtraction i).extr, pot := a.pot, flux := a.flux, mem := a.mem, port := a.port } := by
  have latch := h.latch_frame
  have level := h.level_frame
  have tank := h.tank_frame
  have extr : (l.sampleExtraction i).extr = (s.sampleExtraction i).extr := by rw [latch]; rfl
  rw [extr] at level
  have whole := h.whole
  obtain ⟨m, hm⟩ : ∃ m, l.thermal.latches = m := ⟨_, rfl⟩
  rw [hm] at latch ⊢
  obtain ⟨rs, hrs⟩ : ∃ rs, l.track.records = rs := ⟨_, rfl⟩
  rw [hrs] at latch
  rw [whole, tank, level, latch]
  rfl

theorem level_port (h : SampleStages s i l v x a) : Told s.port v.port := by
  have level := (levelFrame ((l.sampleExtraction i).samplePumps i.chipRpm i.mainRpm) i.level).port
  rw [← h.levelled] at level
  have first : l.port = s.port := by rw [h.latch_frame]
  exact told_of_cases (first ▸ level)

theorem tank_port (h : SampleStages s i l v x a) : Told v.port x.port ∧ a.port = x.port := by
  have tank := (tankFrame (v.samplePressure i.pressure) i.tankEmpty).port
  rw [← h.tanked] at tank
  exact ⟨tank, by rw [h.whole]; rfl⟩

theorem port (h : SampleStages s i l v x a) : Told s.port a.port := by
  rw [h.tank_port.2]
  exact h.level_port.trans h.tank_port.1

theorem setups (h : SampleStages s i l v x a) : v.port.setup = s.port.setup ∧ x.port.setup = s.port.setup := by
  have level : v.port.setup = s.port.setup := (congrArg Port.setup h.level_port.frame :)
  exact ⟨level, (congrArg Port.setup h.tank_port.1.frame :).trans level⟩

theorem track (h : SampleStages s i l v x a) : l.track = { s.track.window s.ws.countsPerMetre with records := l.track.records } ∧
    v.track = l.track ∧ x.track = l.track := by
  have level : v.track = l.track := by rw [h.level_frame]
  exact ⟨by rw [h.latch_frame], level, by rw [h.tank_frame]; exact level⟩

/-- The state that takes the contact samples has the ground of the first. -/
theorem ground (h : SampleStages s i l v x a) : SameGround s x := by
  refine ⟨?_, h.setups.2⟩
  rw [h.track.2.2, h.track.1]
  exact (congrArg Track.pos (windowEnds s.track s.ws.countsPerMetre).rest :)

/-- The pot unit through the samples: the pumps' windows and the level. -/
theorem pot (h : SampleStages s i l v x a) : ∃ y : State, v = y.sampleLevel i.level ∧ y.port = s.port ∧ y.pot = { s.pot with
      chip := s.pot.chip.sample i.chipRpm s.ws.pumpTol s.pot.shortWindow
      main := s.pot.main.sample i.mainRpm s.ws.pumpTol s.pot.shortWindow
      shortWindow := false } ∧ a.pot = { v.pot with feedTest := true } ∧ x.pot = v.pot := by
  have tank : x.pot = v.pot := by rw [h.tank_frame]
  refine ⟨_, h.levelled, ?_, ?_, ?_, tank⟩
  · rw [h.latch_frame]; rfl
  · rw [h.latch_frame]; rfl
  · rw [h.whole, ← tank]

/-- The flux unit through the samples (R70, R76). -/
theorem flux (h : SampleStages s i l v x a) : a.flux.pressureInBand = pressureInBand s.ws i.pressure ∧
    a.flux.pressureCount = (if !pressureInBand s.ws i.pressure && s.modulating then s.flux.pressureCount + 1 else 0) ∧
    a.flux.tankEmpty = i.tankEmpty ∧ (i.tankEmpty = true → a.flux.counter = 0) := by
  have tank := tankFrame (v.samplePressure i.pressure) i.tankEmpty
  rw [← h.tanked] at tank
  have last : a.flux = x.flux := by rw [h.whole]; rfl
  have flux : v.flux = s.flux := by rw [h.level_frame, h.latch_frame]
  have ref : v.track.ref = s.track.ref := by
    rw [h.track.2.1, h.track.1]
    exact (congrArg Track.ref (windowEnds s.track s.ws.countsPerMetre).rest :)
  have ws : v.ws = s.ws := by rw [State.ws, h.setups.1]; rfl
  have modulates : v.modulating = s.modulating := by unfold State.modulating; rw [flux, ref]
  have band : x.flux.pressureInBand = pressureInBand v.ws i.pressure := (congrArg Flux.pressureInBand tank.flux :)
  have count : x.flux.pressureCount = (if !pressureInBand v.ws i.pressure && v.modulating then v.flux.pressureCount + 1 else 0) :=
    (congrArg Flux.pressureCount tank.flux :)
  rw [last, ← ws, ← modulates, ← flux]
  exact ⟨band, count, (congrArg Flux.tankEmpty tank.flux :), tank.counter⟩

theorem mem (h : SampleStages s i l v x a) : MirrorOnly s.mem a.mem := by
  have tank := (tankFrame (v.samplePressure i.pressure) i.tankEmpty).mem
  rw [← h.tanked] at tank
  have first : v.mem = s.mem := by rw [h.level_frame, h.latch_frame]
  have last : a.mem = x.mem := by rw [h.whole]; rfl
  rw [last, ← first]
  exact tank

theorem mem_allZones (z : Zone) : z ∈ allZones := by revert z; decide

/-- The latches through the samples (R100). -/
theorem latch (h : SampleStages s i l v x a) (z : Zone) : a.thermal.latches.get z =
    (s.thermal.latches.get z || overZoneLimit (s.sampleSpeed.sampleInputs i.temps) z) := by
  have last : a.thermal.latches = l.thermal.latches := by rw [h.frame]
  rw [last, h.latches.latches z, decide_eq_true (mem_allZones z), Bool.true_and]
  rfl

/-- The contact sample of one record, taken in `x` (R133). -/
def contact (x : State) (r : Record) : Record :=
  if !r.isIntruder && r.rpm .main != 0 && waveOverlap x .main r then
    { r with minSpeed := minSample r.minSpeed x.track.measured.toNat, minRpm := minSample r.minRpm x.pot.main.measured }
  else r

theorem contact_rest (x : State) (r : Record) : (contact x r).place = r.place ∧ (contact x r).zoneMask = r.zoneMask := by
  unfold contact
  split <;> exact ⟨rfl, rfl⟩

theorem contacts_iff (x : State) (r : Record) : (!r.isIntruder && r.rpm .main != 0 && waveOverlap x .main r) = true ↔
    r.origin ≠ .intruder ∧ r.rpm .main ≠ 0 ∧ Over x r (x.ws.waveStart .main) (x.ws.waveEnd .main) := by
  rw [Bool.and_eq_true, Bool.and_eq_true, Bool.not_eq_true', bne_iff_ne, ← Bool.not_eq_true, Record.isIntruder_iff, waveOverlap,
    overStretch_iff, and_assoc]

/-- The samples of a record (R111, R133). -/
theorem records (h : SampleStages s i l v x a) : ∃ f : Record → Record, a.track.records = s.track.records.map f ∧
    ∀ r, (f r).place = r.place ∧ RecordSampled s a r (f r) := by
  obtain ⟨f, map, latches⟩ := h.latches.records
  obtain ⟨b, hb⟩ : ∃ b, s.sampleSpeed.sampleInputs i.temps = b := ⟨_, rfl⟩
  have first : b.track.records = s.track.records := by
    rw [← hb]
    exact (congrArg Track.records (windowEnds s.track s.ws.countsPerMetre).rest :)
  have ground : SameGround s b := by
    rw [← hb]
    exact ⟨(congrArg Track.pos (windowEnds s.track s.ws.countsPerMetre).rest :), rfl⟩
  have state : ∀ z, (b.thermal.inputs.get (zoneInput z)).state = (s.thermal.inputs.get (zoneInput z)).state := fun z => by
    rw [← hb]
    exact (congrArg Input.state (Tab8.get_mapIdx _ _ _)).trans (state_sample _ _)
  have old : b.thermal.latches = s.thermal.latches := by rw [← hb]; rfl
  have latched := h.latch
  rw [hb] at map latches latched
  have speed : a.track.measured = x.track.measured := by rw [h.whole]; rfl
  have rpm : a.pot.main.measured = x.pot.main.measured := by rw [h.whole]
  have last : a.track.records = x.track.records.map (contact x) := by rw [h.whole]; rfl
  refine ⟨contact x ∘ f, by rw [last, h.track.2.2, map, first, List.map_map], fun r => ?_⟩
  obtain ⟨place, ⟨minSpeed, minRpm⟩, marks⟩ := latches r
  have rpm' : (f r).rpm .main = r.rpm .main := by unfold Record.rpm; rw [recipe_of_place place]
  have origin : (f r).origin = r.origin := (congrArg (·.2.1) place :)
  have touches : (!(f r).isIntruder && (f r).rpm .main != 0 && waveOverlap x .main (f r)) = true ↔
      r.origin ≠ .intruder ∧ r.rpm .main ≠ 0 ∧ Over s r (s.ws.waveStart .main) (s.ws.waveEnd .main) := by
    rw [contacts_iff, origin, rpm', h.ground.ws, ← overStretch_iff, ← overStretch_iff, overStretch_of_place place, h.ground.overStretch]
  refine ⟨(contact_rest x (f r)).1.trans place, fun bound main over_ => ?_, fun out => ?_, fun z => ?_⟩
  · change (contact x (f r)).minSpeed = _ ∧ (contact x (f r)).minRpm = _
    rw [contact, if_pos (touches.mpr ⟨bound, main, over_⟩), speed, rpm, ← minSpeed, ← minRpm]
    exact ⟨rfl, rfl⟩
  · change (contact x (f r)).minSpeed = _ ∧ (contact x (f r)).minRpm = _
    rw [contact, if_neg fun e => by
      obtain ⟨bound, main, over_⟩ := touches.mp e
      exact out.elim bound fun o => o.elim main fun o => o over_]
    exact ⟨minSpeed, minRpm⟩
  · change (contact x (f r)).zoneMask.getLsbD z.val = true ↔ _
    rw [(contact_rest x (f r)).2, marks, latched, zoneOverlap_iff, ground.ws, ← overStretch_iff, ground.overStretch, overStretch_iff,
      Thermal.zoneFaulted, state, old]
    refine or_congr_right ?_
    cases s.thermal.latches.get z <;> simp [mem_allZones, and_assoc]

end SampleStages

end Sys2Proof.Machine
end



section
/-! The raises of a status interval end, its refresh, and the whole of it: O30. -/

namespace Sys2Proof.Machine

open Sys2Proof.Config

/-! ## The raises (R83, R99, R119, R171) -/

/-- What raises of halt causes leave of the state, `a` before and `u` after. -/
structure Raising (a u : State) : Prop where
  kept : Kept (a.causesOf u) u
  raises : Raises a u
  notes : PortNotes a.port u.port
  track : u.track = a.track
  pump : ∀ w, u.pot.pump w = a.pot.pump w
  flux : u.flux = a.flux
  mem : u.mem = a.mem
  extr : u.extr = a.extr
  fans : FansFormed a → FansFormed u
  feeder : a.pot.feeder = .idle → u.pot.feeder = .idle

theorem Raising.refl (a : State) : Raising a a :=
  ⟨.refl a, .refl a, .refl _, rfl, fun _ => rfl, rfl, rfl, rfl, id, id⟩

theorem Raising.trans {a b u : State} (h : Raising a b) (g : Raising b u) : Raising a u where
  kept := (h.kept.causes u).trans g.kept
  raises := h.raises.trans g.raises
  notes := h.notes.trans g.notes
  track := g.track.trans h.track
  pump w := (g.pump w).trans (h.pump w)
  flux := g.flux.trans h.flux
  mem := g.mem.trans h.mem
  extr := g.extr.trans h.extr
  fans := g.fans ∘ h.fans
  feeder := g.feeder ∘ h.feeder

theorem fansFormed_halted {a : State} (h : FansFormed a) (runs : a.modes.mode.runs = true) : FansFormed (a.enterMode .halted) := by
  have off : a.modes.mode ≠ .off := fun e => by rw [e] at runs; cases runs
  have old : a.modes.mode ≠ .halted := fun e => by rw [e] at runs; cases runs
  have fan : a.extr.fan = true := h.fan.mpr (.inl off)
  unfold State.enterMode
  rw [if_neg old]
  exact ⟨⟨fun _ => .inl nofun, fun _ => fan⟩, fun e => absurd rfl e⟩

theorem raising_raiseIf (a : State) (b : Bool) (c : HaltCause) : Raising a (a.raiseIf b c) := by
  have view := blockView_raiseIf a b c
  refine ⟨kept_raiseIf a b c, raises_raiseIf a b c, notes_raiseIf a b c, by simp, fun w => ?_, by simp, by simp, by simp, fun fans => ?_, fun idle => ?_⟩
  · cases w with
    | chip => exact (congrArg (·.1.2.2.1) view :)
    | main => exact (congrArg (·.1.2.2.2) view :)
  · unfold State.raiseIf State.raiseCause
    dsimp only
    split
    · split
      · exact fans
      · split
        · next runs => exact fansFormed_halted (fans.of_eq rfl rfl rfl) runs
        · exact fans.of_eq rfl rfl rfl
    · exact fans
  · have enter : ∀ x : State, x.pot.feeder = .idle → (x.enterMode .halted).pot.feeder = .idle := fun x e => by
      unfold State.enterMode
      split
      · exact e
      · exact (congrArg (Feeder.atMode · .halted) e :)
    unfold State.raiseIf State.raiseCause
    dsimp only
    split
    · split
      · exact idle
      · split
        · exact enter _ idle
        · exact idle
    · exact idle

theorem mem_joinCause (b : Bool) (c x : HaltCause) (l : List HaltCause) : x ∈ joinCause b c l ↔ x ∈ l ∨ (x = c ∧ b = true) := by
  unfold joinCause
  split
  · next h => simp [h.1]
  · next h =>
    refine ⟨.inl, fun g => g.elim id fun ⟨e, t⟩ => ?_⟩
    rw [e]
    by_contra out
    exact h ⟨t, out⟩

theorem raising_intervalRaises (a : State) : Raising a a.intervalRaises := by
  unfold State.intervalRaises
  exact (((raising_raiseIf a _ _).trans (raising_raiseIf _ _ _)).trans (raising_raiseIf _ _ _)).trans (raising_raiseIf _ _ _)

/-- The causes that are raised at an interval end (R83, R99, R119, R171). -/
theorem intervalRaises_causes (a : State) (c : HaltCause) : c ∈ a.intervalRaises.modes.causes ↔
    c ∈ a.modes.causes ∨ (c = .estop ∧ a.pins.estop = true) ∨ (c = .potOvertemp ∧ overtemp a = true) ∨
      (c = .potSensor ∧ (a.thermal.inputs.get 6).state = .faulted) ∨ (c = .potLevel ∧ a.pot.lowlow.set = true) := by
  obtain ⟨p, hp⟩ : ∃ p, a.raiseIf a.pins.estop .estop = p := ⟨_, rfl⟩
  obtain ⟨q, hq⟩ : ∃ q, p.raiseIf ((p.thermal.inputs.get potInput).state == .faulted) .potSensor = q := ⟨_, rfl⟩
  obtain ⟨r, hr⟩ : ∃ r, q.raiseIf (overtemp q) .potOvertemp = r := ⟨_, rfl⟩
  have first : Raising a p := hp ▸ raising_raiseIf _ _ _
  have second : Raising a q := first.trans (hq ▸ raising_raiseIf _ _ _)
  have third : Raising a r := second.trans (hr ▸ raising_raiseIf _ _ _)
  have inputs : p.thermal.inputs = a.thermal.inputs := first.kept.keeps.thermalInputs
  have hot : overtemp q = overtemp a := by
    have setup : q.port.setup = a.port.setup := second.kept.keeps.portSetup
    have pins : q.pins = a.pins := second.kept.keeps.pins
    have inputs : q.thermal.inputs = a.thermal.inputs := second.kept.keeps.thermalInputs
    rw [Bool.eq_iff_iff, overtemp_iff, overtemp_iff, pins, State.loaded, State.loaded, State.ws, State.ws, setup, Thermal.potPV,
      Thermal.potPV, inputs]
  have low : r.pot.lowlow = a.pot.lowlow := third.kept.keeps.potLowlow
  have e : a.intervalRaises = r.raiseIf r.pot.lowlow.set .potLevel := by rw [← hr, ← hq, ← hp]; rfl
  rw [e, raiseIf_causes, mem_joinCause, low, ← hr, raiseIf_causes, mem_joinCause, hot, ← hq, raiseIf_causes, mem_joinCause, inputs,
    ← hp, raiseIf_causes, mem_joinCause, beq_iff_eq]
  simp only [potInput]
  tauto

/-! ## The refresh (R185, R188) -/

/-- The block says nothing of memory, and of the generation count its first word alone. -/
theorem statusBlock_refresh (v : State) (g : Word) (same : g = v.port.generation) :
    statusBlock { v.writeClock.refresh with port := { v.writeClock.refresh.port with generation := g } } = statusBlock v := by
  subst same
  rfl

theorem read_block (v : State) {j : Nat} (hj : j < 512) : v.writeClock.refresh.mem.read (0x0160 + j) = (statusBlock v).getD j 0 := by
  have block : statusBlock v.writeClock = statusBlock v := rfl
  have e : v.writeClock.refresh.mem = v.writeClock.mem.writeBlock Config.statusAt (statusBlock v.writeClock) := rfl
  rw [e, Memory.read_writeBlock, statusBlock_length, block, if_pos (by unfold Config.statusAt; omega)]
  show (statusBlock v).getD (0x0160 + j - 0x0160) 0 = _
  rw [Nat.add_sub_cancel_left]

/-- Outside the clock words and the block a refresh writes nothing. -/
theorem read_refresh_outside (v : State) {n : Nat} (h : n < 7 ∨ (9 ≤ n ∧ n < 0x160) ∨ 0x360 ≤ n) :
    v.writeClock.refresh.mem.read n = v.mem.read n := by
  have e : v.writeClock.refresh.mem = v.writeClock.mem.writeBlock Config.statusAt (statusBlock v.writeClock) := rfl
  have e' : v.writeClock.mem = v.mem.writeBlock clockAt (twoWords v.clock.toNat) := rfl
  rw [e, Memory.read_writeBlock_of_outside (by rw [statusBlock_length]; unfold Config.statusAt; omega), e',
    Memory.read_writeBlock_of_outside (by change n < clockAt ∨ clockAt + 2 ≤ n; unfold clockAt; omega)]

theorem read32_clock (v : State) : v.writeClock.refresh.mem.read32 0x0007 = v.clock.toNat := by
  have e : v.writeClock.refresh.mem = v.writeClock.mem.writeBlock Config.statusAt (statusBlock v.writeClock) := rfl
  have e' : v.writeClock.mem = v.mem.writeBlock clockAt (twoWords v.clock.toNat) := rfl
  have word : ∀ n, n = 7 ∨ n = 8 → v.writeClock.refresh.mem.read n = (twoWords v.clock.toNat).getD (n - 7) 0 := fun n hn => by
    rw [e, Memory.read_writeBlock_of_outside (.inl (by unfold Config.statusAt; omega)), e', Memory.read_writeBlock,
      if_pos (by change clockAt ≤ n ∧ n < clockAt + 2; unfold clockAt; omega)]
    rfl
  exact read32_twoWords (word 7 (.inl rfl)) (word 8 (.inr rfl)) v.clock.isLt

theorem row_cons (n : Nat) (w : Word) (ws : List Word) : row (n + 1) (w :: ws) = w :: row n ws := by
  unfold row
  rw [List.take_succ_cons, List.length_cons, Nat.add_sub_add_right, List.cons_append]

/-- The first words of the block: the generation count, the mode and the gate state (Table 12-7). -/
theorem statusBlock_head (v : State) : (statusBlock v).getD 0 0 = nextGeneration v.port.generation ∧
    (statusBlock v).getD 1 0 = BitVec.ofNat 16 v.modes.mode.code ∧ (statusBlock v).getD 2 0 = BitVec.ofNat 16 v.gate.state.code := by
  obtain ⟨ws, modes⟩ : ∃ ws, statusModes v = wordOf v.modes.mode.code :: wordOf v.gate.state.code :: ws := by
    unfold statusModes
    simp only [List.append_assoc, List.cons_append]
    exact ⟨_, (row_cons 30 _ _).trans (congrArg _ (row_cons 29 _ _))⟩
  obtain ⟨rest, shape⟩ : ∃ rest, statusBlock v = [nextGeneration v.port.generation] ++ (statusModes v ++ rest) :=
    ⟨_, by unfold statusBlock; simp only [List.append_assoc]; rfl⟩
  rw [shape, modes]
  exact ⟨rfl, rfl, rfl⟩

/-- P stands in the block from offset 020h (Table 12-7). -/
theorem statusBlock_pos (v : State) (n : Nat) (hn : n < 2) : (statusBlock v).getD (32 + n) 0 = (twoWords v.track.pos.toNat).getD n 0 := by
  obtain ⟨rest, shape⟩ : ∃ rest, statusBlock v = ([nextGeneration v.port.generation] ++ statusModes v) ++ (statusTrack v ++ rest) :=
    ⟨_, by unfold statusBlock; simp only [List.append_assoc]; rfl⟩
  have length : ([nextGeneration v.port.generation] ++ statusModes v).length = 32 := by
    rw [List.length_append, statusModes, row_length]
    rfl
  rw [shape, List.getD_append_right _ _ _ _ (by rw [length]; omega), length, Nat.add_sub_cancel_left]
  interval_cases n <;> rfl

theorem nextGeneration_eq (g : Word) : nextGeneration g = if g.getLsbD 0 then g + 3 else g + 2 := by
  unfold nextGeneration oddGeneration
  split
  · rw [BitVec.add_assoc]; rfl
  · rw [BitVec.add_assoc]; rfl

end Sys2Proof.Machine
end



section
/-! The extraction unit through an evaluation with formed fans (R138 to R140), and the states of a status interval end. -/

namespace Sys2Proof.Machine

open Sys2Proof.Config

/-! ## The extraction unit -/

/-- The extraction unit less the horn and the beacon, which every re-forming sets (R149, R150). -/
def Extr.quiet (x : Extr) : Extr :=
  { x with horn := false, hornCount := 0, beacon := false, beaconCount := 0 }

theorem Extr.eq_of_quiet {x y : Extr} (h : x.quiet = y.quiet) :
    x = { y with horn := x.horn, hornCount := x.hornCount, beacon := x.beacon, beaconCount := x.beaconCount } := by
  have e : ∀ z : Extr, z = { z.quiet with horn := z.horn, hornCount := z.hornCount, beacon := z.beacon, beaconCount := z.beaconCount } :=
    fun _ => rfl
  rw [e x, h]
  rfl

theorem Extr.command_self (x : Extr) (now : Clock) : x.command x.fan now = x := by
  unfold Extr.command
  cases x.fan <;> rfl

/-- A re-forming with formed fans leaves the extraction unit but for horn and beacon. -/
theorem quiet_reform {s : State} (h : FansFormed s) : s.reform.extr.quiet = s.extr.quiet := by
  have formed : FansFormed s.modeStage := ((follows_modeStage s).fans h).1
  have fans : s.modeStage.reformFans.extr = s.extr := by
    have e : s.modeStage.extr.command (fanCommand s.modeStage) s.modeStage.clock = s.modeStage.extr := by
      rw [fanCommand_of_formed formed]
      exact Extr.command_self _ _
    exact e.trans (by simp)
  rw [reform_extr, ← fans]
  rfl

/-- The consequences with formed fans leave the extraction unit but for horn and beacon (R138 to R140). -/
theorem quiet_settleEval {s : State} (h : FansFormed s) : s.settleEval.extr.quiet = s.extr.quiet := by
  have lifted := (lift_evals (P := fun x => FansFormed x ∧ x.extr.quiet = s.extr.quiet)
    (fun x ⟨f, e⟩ => ⟨((follows_reform x).fans f).1, (quiet_reform f).trans e⟩)
    (fun x ⟨f, e⟩ => ⟨((follows_changeover 8 x).fans f).1, by rw [(by simp : (x.changeover 8).extr = x.extr)]; exact e⟩)
    (fun x ⟨f, e⟩ => ⟨((follows_gateEval x).fans f).1, by rw [(by simp : x.gateEval.extr = x.extr)]; exact e⟩)
    ⟨h, rfl⟩).2
  exact lifted.2

/-- The judgement of a point reads neither horn nor beacon. -/
theorem judgement_of_quiet {x y : Extr} (h : x.quiet = y.quiet) (c : Option Setup) (k : PointKind) : judgement x c k = judgement y c k := by
  rw [Extr.eq_of_quiet h]
  cases k <;> rfl

/-! ## The states of an interval end -/

variable {s p a w : State} {i : Readings} {ws : List HostWrite}

/-- The states of an interval end: with the pins and the host's writes, after the samples, after the consequences (log entry 7). -/
structure IntervalRun (s : State) (i : Readings) (ws : List HostWrite) (p a w : State) : Prop where
  presented : p = s.toInterval.present i ws
  sampled : a = p.sampleAll i
  settled : w = a.intervalRaises.settleEval

theorem intervalRun (s : State) (i : Readings) (ws : List HostWrite) : ∃ p a w, IntervalRun s i ws p a w ∧
    exec (.statusIntervalEnd i ws) s = .next w.writeClock.refresh :=
  ⟨_, _, _, ⟨rfl, rfl, rfl⟩, rfl⟩

/-- What the passage of time and the host's writes leave. -/
structure Presents (s : State) (i : Readings) (ws : List HostWrite) (p : State) : Prop where
  pins : p.pins = { s.pins with
    readings := i, thermostatOpen := i.thermostatOpen, homeActive := i.homeActive, limitMin := i.limitMin, limitMax := i.limitMax }
  clock : p.clock = s.clock + BitVec.ofNat 32 (untilBoundary 250 s.statusAt s.clock)
  statusAt : p.statusAt = p.clock
  mem : p.mem = hostWrites ws s.mem
  track : p.track = s.track
  docket : p.docket = s.docket
  flux : p.flux = s.flux
  thermal : p.thermal = s.thermal
  pot : ∃ f, p.pot = { s.pot with feedTest := p.pot.feedTest, feeder := f } ∧
    ∀ n, s.pot.feeder = .feeding n ∨ s.pot.feeder = .settling n → ∃ m, f = .feeding m ∨ f = .settling m
  extr : p.extr = { s.extr with grace1 := p.extr.grace1, grace2 := p.extr.grace2, sampled := p.extr.sampled }
  modes : p.modes = { s.modes with idle := p.modes.idle, runOn := p.modes.runOn }
  port : p.port = { s.port with supElapsed := p.port.supElapsed }
  pending : p.pending = s.pending
  fans : FansFormed s → FansFormed p

namespace IntervalRun

theorem presents (h : IntervalRun s i ws p a w) : Presents s i ws p := by
  rw [h.presented]
  refine ⟨rfl, rfl, rfl, rfl, rfl, rfl, rfl, rfl, ⟨_, rfl, fun n feeds => ?_⟩, rfl, rfl, rfl, rfl, fun fans => ?_⟩
  · rcases feeds with e | e <;> rw [e]
    · exact ⟨_, .inl rfl⟩
    · exact ⟨_, .inr rfl⟩
  · have running : (s.toInterval.present i ws).modes.runOn ≠ none ↔ s.modes.runOn ≠ none := by
      have e : (s.toInterval.present i ws).modes.runOn = s.modes.runOn.map fun r => r - untilBoundary statusPeriod s.statusAt s.clock := rfl
      rw [e, ne_eq, Option.map_eq_none_iff]
    exact ⟨fans.fan.trans (or_congr_right running.symm), fun e => fans.runOn (running.mp e)⟩

theorem stages (h : IntervalRun s i ws p a w) : ∃ l v x, SampleStages p i l v x a := h.sampled ▸ sampleStages p i

/-- The modes at the raises are those of the state before the samples. -/
theorem modes_eq (h : IntervalRun s i ws p a w) : a.modes = p.modes := by
  obtain ⟨l, v, x, stages⟩ := h.stages
  exact (congrArg State.modes stages.frame :)

theorem raising (_ : IntervalRun s i ws p a w) : Raising a a.intervalRaises :=
  raising_intervalRaises a

/-- What the raises and the consequences keep of the sampled state. -/
theorem kept (h : IntervalRun s i ws p a w) : Kept (a.causesOf w) w := by
  have settled : Kept a.intervalRaises w := h.settled ▸ kept_settleEval _
  have e : a.causesOf w = a.causesOf a.intervalRaises := by
    unfold State.causesOf
    rw [settled.keeps.modesCauses]
  rw [e]
  exact (raising_intervalRaises a).kept.trans settled

theorem keeps (h : IntervalRun s i ws p a w) : Keeps (a.causesOf w) w := h.kept.keeps

theorem follows (h : IntervalRun s i ws p a w) : Follows a.intervalRaises w := h.settled ▸ follows_settleEval _

theorem ws_eq (h : IntervalRun s i ws p a w) : p.ws = s.ws ∧ p.loaded = s.loaded ∧ w.port.setup = s.port.setup := by
  have first : p.port.setup = s.port.setup := (congrArg Port.setup h.presents.port :)
  obtain ⟨l, v, x, stages⟩ := h.stages
  have second : a.port.setup = p.port.setup := (congrArg Port.setup stages.port.frame :)
  exact ⟨by rw [State.ws, first]; rfl, by rw [State.loaded, first]; rfl, (h.keeps.portSetup.trans second).trans first⟩

end IntervalRun

end Sys2Proof.Machine
end



section
/-! What a status interval end leaves, block by block, and O30. -/

namespace Sys2Proof.Machine

open Sys2Proof.Config

namespace IntervalRun

variable {s p a w : State} {i : Readings} {ws : List HostWrite}

/-- A mode without motion stays one through the raises. -/
theorem stops (h : IntervalRun s i ws p a w) (rest : AtRest s) : AtRest a.intervalRaises := by
  have modes : a.modes.mode = s.modes.mode := by
    rw [h.modes_eq]
    exact (congrArg Modes.mode h.presents.modes :)
  rcases h.raising.raises.mode with e | e
  · exact rest.of_mode (e.trans modes)
  · exact .inr (.inr e)

/-- The speed window (R6 to R8). -/
theorem speed (h : IntervalRun s i ws p a w) : w.track.net = 0 ∧ w.track.shortWindow = false ∧
    w.track.measured = (if s.track.shortWindow then s.track.measured else (240000 * s.track.net).tdiv s.ws.countsPerMetre) ∧
    SpeedWindow s w w.track.measured s.track.ref := by
  obtain ⟨l, v, x, stages⟩ := h.stages
  have ends := windowEnds s.track s.ws.countsPerMetre
  have track : a.track = { s.track.window s.ws.countsPerMetre with records := a.track.records } := by
    have e : a.track = { p.track.window p.ws.countsPerMetre with records := a.track.records } := (congrArg State.track stages.frame :)
    rw [h.ws_eq.1, h.presents.track] at e
    exact e
  obtain ⟨b, hb⟩ : ∃ b, s.track.window s.ws.countsPerMetre = b := ⟨_, rfl⟩
  rw [hb] at ends track
  have raised : a.intervalRaises.track = a.track := h.raising.track
  have turn : SpeedTurn a.intervalRaises w := (h.settled ▸ (WindowsTurn.settles _).2).speed
  have first : ∀ {α : Type} (f : Track → α), (∀ t rs, f { t with records := rs } = f t) → f a.intervalRaises.track = f b := fun f e => by
    rw [raised, track, e]
  have moved : a.intervalRaises.track.refMoved = false := (first Track.refMoved fun _ _ => rfl).trans (congrArg Track.refMoved ends.rest :)
  have ref : a.intervalRaises.track.ref = s.track.ref := (first Track.ref fun _ _ => rfl).trans (congrArg Track.ref ends.rest :)
  have stable : a.intervalRaises.track.speedStable = b.speedStable := first Track.speedStable fun _ _ => rfl
  have passes : a.intervalRaises.track.passes = b.passes := first Track.passes fun _ _ => rfl
  have misses : a.intervalRaises.track.misses = b.misses := first Track.misses fun _ _ => rfl
  have measured : w.track.measured = b.measured := h.keeps.trackMeasured.trans (congrArg Track.measured track :)
  have net : w.track.net = 0 := (h.keeps.trackNet.trans (congrArg Track.net track :)).trans (congrArg Track.net ends.rest :)
  have short : w.track.shortWindow = false :=
    (h.keeps.trackShortWindow.trans (congrArg Track.shortWindow track :)).trans (congrArg Track.shortWindow ends.rest :)
  unfold SpeedTurn at turn
  rw [moved, ref, stable, passes, misses] at turn
  refine ⟨net, short, measured.trans ends.measured, ?_⟩
  rw [measured]
  have still : w.track.refMoved = false → w.track.ref = s.track.ref ∧ w.track.speedStable = b.speedStable ∧
      w.track.passes = b.passes ∧ w.track.misses = b.misses := fun e => by
    rcases turn with ⟨-, stands⟩ | ⟨moves, -⟩
    · exact stands
    · rw [e] at moves; cases moves
  have fresh : w.track.refMoved = true → w.track.speedStable = false ∧ w.track.passes = 0 ∧ w.track.misses = 0 := fun e => by
    rcases turn with ⟨stays, -⟩ | ⟨-, clear⟩
    · rw [e] at stays; cases stays
    · exact clear
  refine ⟨fun e g => ?_, fun e => ?_, fun e => ?_, fun e => ?_, fresh, fun e => (still e).1, fun rest zero => ?_⟩
  · obtain ⟨-, st, pa, mi⟩ := still g
    obtain ⟨st', pa', mi'⟩ := ends.short e
    exact ⟨st.trans st', pa.trans pa', mi.trans mi'⟩
  · cases g : w.track.refMoved with
    | false => rw [(still g).2.1, ends.stable e]; simp
    | true => rw [(fresh g).1]; simp
  · cases g : w.track.refMoved with
    | false => rw [(still g).2.2.1, ends.passes e]; simp
    | true => rw [(fresh g).2.1]; simp
  · cases g : w.track.refMoved with
    | false => rw [(still g).2.2.2, ends.misses e]; simp
    | true => rw [(fresh g).2.2]; simp
  · have last := (StaysStill.settleEval (h.stops rest)).1 false ⟨ref.trans zero, moved⟩
    rw [← h.settled] at last
    exact last.2

/-- The reading of a pump's speed. -/
def rpmOf (i : Readings) : Wave → Nat
  | .chip => i.chipRpm
  | .main => i.mainRpm

/-- A pump after the samples (R127, R128). -/
theorem pump_sampled (h : IntervalRun s i ws p a w) (k : Wave) :
    a.pot.pump k = (s.pot.pump k).sample (rpmOf i k) s.ws.pumpTol s.pot.shortWindow := by
  obtain ⟨l, v, x, stages⟩ := h.stages
  obtain ⟨y, level, port, pot, last, -⟩ := stages.pot
  have frame := (levelFrame y i.level).pot
  rw [← level] at frame
  obtain ⟨f, old, -⟩ := h.presents.pot
  rw [last]
  change v.pot.pump k = _
  rw [frame, pot, h.ws_eq.1, old]
  cases k <;> rfl

/-- The pumps' windows (R127, R128). -/
theorem pump (h : IntervalRun s i ws p a w) (k : Wave) :
    (w.pot.pump k).measured = (if s.pot.shortWindow then (s.pot.pump k).measured else min (rpmOf i k) 1500) ∧
      PumpWindow s (s.pot.pump k) (w.pot.pump k) s.ws.pumpTol := by
  have ends := pumpEnds (s.pot.pump k) (rpmOf i k) s.ws.pumpTol s.pot.shortWindow
  have turn : PumpTurn (a.intervalRaises.pot.pump k) (w.pot.pump k) := (h.settled ▸ (WindowsTurn.settles _).2).pump k
  have raised : a.intervalRaises.pot.pump k = a.pot.pump k := h.raising.pump k
  have measured : (w.pot.pump k).measured = (a.pot.pump k).measured := by
    cases k with
    | chip => exact h.keeps.potChipMeasured
    | main => exact h.keeps.potMainMeasured
  rw [h.pump_sampled] at raised measured
  obtain ⟨q, hq⟩ : ∃ q, (s.pot.pump k).sample (rpmOf i k) s.ws.pumpTol s.pot.shortWindow = q := ⟨_, rfl⟩
  rw [hq] at ends raised measured
  refine ⟨measured.trans ends.measured, ?_⟩
  unfold PumpTurn at turn
  rw [raised, ends.moved, ends.ref] at turn
  have still : (w.pot.pump k).refMoved = false → (w.pot.pump k).ref = (s.pot.pump k).ref ∧ (w.pot.pump k).stable = q.stable ∧
      (w.pot.pump k).count = q.count := fun e => by
    rcases turn with ⟨-, stands⟩ | ⟨moves, -⟩
    · exact stands
    · rw [e] at moves; cases moves
  have fresh : (w.pot.pump k).refMoved = true → (w.pot.pump k).stable = false ∧ (w.pot.pump k).count = 0 := fun e => by
    rcases turn with ⟨stays, -⟩ | ⟨-, clear⟩
    · rw [e] at stays; cases stays
    · exact clear
  refine ⟨fun e g => ?_, fun e => ?_, fun e => ?_, fresh, fun e => (still e).1, fun rest zero => ?_⟩
  · obtain ⟨-, st, co⟩ := still g
    obtain ⟨st', co'⟩ := ends.short e
    exact ⟨st.trans st', co.trans co'⟩
  · cases g : (w.pot.pump k).refMoved with
    | false => rw [(still g).2.1, measured, ends.stable e]; simp
    | true => rw [(fresh g).1]; simp
  · cases g : (w.pot.pump k).refMoved with
    | false => rw [(still g).2.2, measured, ends.count e]; simp
    | true => rw [(fresh g).2]; simp
  · have last := (StaysStill.settleEval (h.stops rest)).2 k false (raised ▸ ⟨ends.ref.trans zero, ends.moved⟩)
    rw [← h.settled] at last
    exact last.2

/-- The level sample (R117, R118, R125). -/
theorem level (h : IntervalRun s i ws p a w) : LevelSampled s w i.level := by
  obtain ⟨l, v, x, stages⟩ := h.stages
  obtain ⟨y, eq, port, pot, last, -⟩ := stages.pot
  obtain ⟨f, old, feeding⟩ := h.presents.pot
  have sampled := levelSampled y i.level
  rw [← eq] at sampled
  have setup : y.port.setup = s.port.setup := (congrArg Port.setup port).trans (congrArg Port.setup h.presents.port :)
  have ws : y.ws = s.ws := by rw [State.ws, setup]; rfl
  have loaded : y.loaded = s.loaded := by rw [State.loaded, setup]; rfl
  have keeps := h.keeps
  have main : w.pot.main.measured = v.pot.main.measured := keeps.potMainMeasured.trans (congrArg (·.main.measured) last :)
  have value : w.pot.level = v.pot.level := keeps.potLevel.trans (congrArg Pot.level last :)
  have good : w.pot.levelGood = v.pot.levelGood := keeps.potLevelGood.trans (congrArg Pot.levelGood last :)
  have run : w.pot.levelRun = v.pot.levelRun := keeps.potLevelRun.trans (congrArg Pot.levelRun last :)
  have high : w.pot.high = v.pot.high := keeps.potHigh.trans (congrArg Pot.high last :)
  have low : w.pot.low = v.pot.low := keeps.potLow.trans (congrArg Pot.low last :)
  have lowlow : w.pot.lowlow = v.pot.lowlow := keeps.potLowlow.trans (congrArg Pot.lowlow last :)
  have pend : Pending v .potEvent → Pending w .potEvent := fun e =>
    h.follows.notices _ (h.raising.notes.kept _ ((stages.tank_port.2 ▸ stages.tank_port.1.notes.kept _ e)))
  have idle : v.pot.feeder = .idle → w.pot.feeder = .idle := fun e => by
    have raised : a.intervalRaises.pot.feeder = .idle := h.raising.feeder (by rw [last]; exact e)
    exact (h.follows.feeder fun r => by rw [raised]; nofun).trans raised
  obtain ⟨goods, bads, flags⟩ := sampled
  have same : ∀ {α : Type} (g : Pot → α), g y.pot = g { p.pot with
      chip := y.pot.chip, main := y.pot.main, shortWindow := false } := fun g => by rw [pot]
  have same' : ∀ {α : Type} (g : Pot → α), g p.pot = g { s.pot with feedTest := p.pot.feedTest, feeder := f } := fun g => congrArg g old
  rw [ws, loaded, (same Pot.levelGood).trans (same' Pot.levelGood), (same Pot.levelRun).trans (same' Pot.levelRun),
    (same Pot.high).trans (same' Pot.high), (same Pot.low).trans (same' Pot.low), (same Pot.lowlow).trans (same' Pot.lowlow)] at goods
  rw [(same Pot.levelGood).trans (same' Pot.levelGood), (same Pot.level).trans (same' Pot.level),
    (same Pot.feeder).trans (same' Pot.feeder)] at bads
  rw [(same Pot.high).trans (same' Pot.high), (same Pot.low).trans (same' Pot.low), (same Pot.lowlow).trans (same' Pot.lowlow)] at flags
  refine ⟨?_, ?_, ?_⟩
  · rw [main, value, good, run, high, low, lowlow]
    exact goods
  · intro out
    obtain ⟨good', run', value', fault⟩ := bads out
    refine ⟨good.trans good', run.trans run', value.trans value', fun was => ?_⟩
    obtain ⟨event, hi, lo, ll, feeder⟩ := fault was
    refine ⟨pend event, by rw [high]; exact hi, by rw [low]; exact lo, by rw [lowlow]; exact ll, fun n feeds => ?_⟩
    obtain ⟨m, hm⟩ := feeding n feeds
    exact idle (feeder m hm)
  · rw [high, low, lowlow]
    exact flags

end IntervalRun

end Sys2Proof.Machine
end



section
/-! What a status interval end leaves, block by block: inputs, flux, points, records, causes, memory; O30. -/

namespace Sys2Proof.Machine

open Sys2Proof.Config

namespace IntervalRun

variable {s p a w : State} {i : Readings} {ws : List HostWrite}

/-- What no sample, raise or consequence touches. -/
theorem plain (h : IntervalRun s i ws p a w) : w.pins = p.pins ∧ w.clock = p.clock ∧ w.statusAt = p.statusAt ∧ w.pending = s.pending ∧
    w.docket.held = s.docket.held ∧ w.thermal.auth = s.thermal.auth := by
  obtain ⟨l, v, x, stages⟩ := h.stages
  have frame := stages.frame
  have keeps := h.keeps
  have pre := h.presents
  have auth : a.thermal.auth = p.thermal.auth := (congrArg (·.thermal.auth) frame :)
  exact ⟨keeps.pins.trans (congrArg State.pins frame :), keeps.clock.trans (congrArg State.clock frame :),
    keeps.statusAt.trans (congrArg State.statusAt frame :), (keeps.pending.trans (congrArg State.pending frame :)).trans pre.pending,
    (keeps.docketHeld.trans (congrArg (·.docket.held) frame :)).trans (congrArg Docket.held pre.docket),
    (keeps.thermalAuth.trans auth).trans (congrArg Thermal.auth pre.thermal)⟩

/-- The port but for its notices. -/
theorem port (h : IntervalRun s i ws p a w) : w.port.setup = s.port.setup ∧ w.port.request = s.port.request ∧
    w.port.enable = s.port.enable ∧ w.port.generation = s.port.generation := by
  obtain ⟨l, v, x, stages⟩ := h.stages
  have told := stages.port.frame
  have pre := h.presents.port
  have keeps := h.keeps
  exact ⟨h.ws_eq.2.2, (keeps.portRequest.trans (congrArg Port.request told :)).trans (congrArg Port.request pre :),
    (keeps.portEnable.trans (congrArg Port.enable told :)).trans (congrArg Port.enable pre :),
    (keeps.portGeneration.trans (congrArg Port.generation told :)).trans (congrArg Port.generation pre :)⟩

/-- The track unit but for its window and the records' samples. -/
theorem track (h : IntervalRun s i ws p a w) : w.track.pos = s.track.pos ∧ w.track.entryEye = s.track.entryEye ∧
    w.track.exitEye = s.track.exitEye := by
  obtain ⟨l, v, x, stages⟩ := h.stages
  have track : a.track = { p.track.window p.ws.countsPerMetre with records := a.track.records } := (congrArg State.track stages.frame :)
  have rest := (windowEnds p.track p.ws.countsPerMetre).rest
  have pre := h.presents.track
  have keeps := h.keeps
  have each : ∀ {α : Type} (f : Track → α), (∀ t rs, f { t with records := rs } = f t) →
      f (p.track.window p.ws.countsPerMetre) = f p.track → f a.track = f s.track := fun f e e' => by
    rw [track, e, e', pre]
  exact ⟨keeps.trackPos.trans (each Track.pos (fun _ _ => rfl) (congrArg Track.pos rest :)),
    keeps.trackEntryEye.trans (each Track.entryEye (fun _ _ => rfl) (congrArg Track.entryEye rest :)),
    keeps.trackExitEye.trans (each Track.exitEye (fun _ _ => rfl) (congrArg Track.exitEye rest :))⟩

/-- The temperature inputs (R80 to R82). -/
theorem inputs (h : IntervalRun s i ws p a w) (k : Idx8) :
    w.thermal.inputs.get k = (s.thermal.inputs.get k).sample (i.temps.get k) := by
  obtain ⟨l, v, x, stages⟩ := h.stages
  have e : a.thermal.inputs = p.thermal.inputs.mapIdx fun k q => q.sample (i.temps.get k) := (congrArg (·.thermal.inputs) stages.frame :)
  have last : w.thermal.inputs = p.thermal.inputs.mapIdx fun k q => q.sample (i.temps.get k) := h.keeps.thermalInputs.trans e
  rw [last, h.presents.thermal, Tab8.get_mapIdx]

/-- The zone latches (R100). -/
theorem latches (h : IntervalRun s i ws p a w) (z : Zone) : w.thermal.latches.get z = true ↔ s.thermal.latches.get z = true ∨
    (s.loaded = true ∧ ∃ v, w.thermal.zonePV z = some v ∧ s.ws.zoneHard ≤ v) := by
  obtain ⟨l, v, x, stages⟩ := h.stages
  have last : w.thermal.latches = a.thermal.latches := h.keeps.thermalLatches
  have setup : (p.sampleSpeed.sampleInputs i.temps).port = p.port := rfl
  have pv : (p.sampleSpeed.sampleInputs i.temps).thermal.zonePV z = w.thermal.zonePV z := by
    have e : (p.sampleSpeed.sampleInputs i.temps).thermal.inputs = p.thermal.inputs.mapIdx fun k q => q.sample (i.temps.get k) := rfl
    unfold Thermal.zonePV
    rw [e, Tab8.get_mapIdx, h.inputs, h.presents.thermal]
  rw [last, stages.latch, Bool.or_eq_true, overZoneLimit_iff, pv, State.loaded, State.ws, setup, ← State.loaded, ← State.ws,
    h.ws_eq.1, h.ws_eq.2.1, h.presents.thermal]

/-- The flux samples (R70, R76). -/
theorem flux (h : IntervalRun s i ws p a w) : PressureSampled s w i.pressure ∧ w.flux.tankEmpty = i.tankEmpty ∧
    (i.tankEmpty = true → w.flux.counter = 0) := by
  obtain ⟨l, v, x, stages⟩ := h.stages
  obtain ⟨band, count, switch, empty⟩ := stages.flux
  have keeps := h.keeps
  have bandW : w.flux.pressureInBand = pressureInBand s.ws i.pressure := by
    rw [← h.ws_eq.1]
    exact keeps.fluxPressureInBand.trans band
  have modulates : p.modulating = s.modulating := by
    unfold State.modulating
    rw [h.presents.flux, h.presents.track]
  refine ⟨⟨by rw [bandW, pressureInBand_iff], ?_⟩, keeps.fluxTankEmpty.trans switch, fun e => ?_⟩
  · have countW : w.flux.pressureCount = _ := keeps.fluxPressureCount.trans count
    rw [countW, bandW, h.ws_eq.1, modulates, h.presents.flux]
    simp only [Bool.and_eq_true, Bool.not_eq_true', modulating_iff]
  · have raised : a.intervalRaises.flux.counter = 0 := by rw [h.raising.flux]; exact empty e
    exact Nat.le_zero.mp (raised ▸ h.follows.counter)

/-- The extraction readings and the vapour halt count (R141, R151). -/
theorem readings (h : IntervalRun s i ws p a w) : w.extr.x1 = inRange 4000 i.x1 ∧ w.extr.x2 = inRange 4000 i.x2 ∧
    w.extr.filter = inRange 4000 i.filter ∧ w.extr.vapour = inRange 1000 i.vapour ∧ w.extr.feedback1 = i.feedback1 ∧
    w.extr.feedback2 = i.feedback2 ∧
    w.extr.vapourCount = (if (s.extr.points.get 7).sev = .alarm then s.extr.vapourCount + 1 else s.extr.vapourCount) := by
  obtain ⟨l, v, x, stages⟩ := h.stages
  have extr : a.extr = (p.sampleExtraction i).extr := (congrArg State.extr stages.frame :)
  have keeps := h.keeps
  have points : p.extr.points = s.extr.points := (congrArg Extr.points h.presents.extr :)
  have count : p.extr.vapourCount = s.extr.vapourCount := (congrArg Extr.vapourCount h.presents.extr :)
  refine ⟨keeps.extrX1.trans (congrArg Extr.x1 extr :), keeps.extrX2.trans (congrArg Extr.x2 extr :),
    keeps.extrFilter.trans (congrArg Extr.filter extr :), keeps.extrVapour.trans (congrArg Extr.vapour extr :),
    keeps.extrFeedback1.trans (congrArg Extr.feedback1 extr :), keeps.extrFeedback2.trans (congrArg Extr.feedback2 extr :), ?_⟩
  have e : w.extr.vapourCount = if (p.extr.points.get 7).alarming then p.extr.vapourCount + 1 else p.extr.vapourCount :=
    keeps.extrVapourCount.trans (congrArg Extr.vapourCount extr :)
  rw [e, points, count]
  simp only [Point.alarming, beq_iff_eq]

/-- The alarm points (R139 to R146). -/
theorem points (h : IntervalRun s i ws p a w) (fans : FansFormed s) (k : Idx8) :
    PointSampled w k (s.extr.points.get k) (w.extr.points.get k) := by
  obtain ⟨l, v, x, stages⟩ := h.stages
  have extr : a.extr = (p.sampleExtraction i).extr := (congrArg State.extr stages.frame :)
  have formed : FansFormed a.intervalRaises := by
    refine h.raising.fans ((h.presents.fans fans).of_eq ?_ ?_ ?_)
    · exact (congrArg Extr.fan extr :)
    · rw [h.modes_eq]
    · rw [h.modes_eq]
  have quiet : w.extr.quiet = (p.sampleExtraction i).extr.quiet := by
    rw [h.settled, quiet_settleEval formed, h.raising.extr, extr]
  have setup : w.port.setup = p.port.setup := by
    rw [h.ws_eq.2.2]
    exact (congrArg Port.setup h.presents.port :).symm
  have old : p.extr.points = s.extr.points := (congrArg Extr.points h.presents.extr :)
  have judged : judgement w.extr w.port.setup (pointKind k) = judgement (p.sampleExtraction i).extr p.port.setup (pointKind k) := by
    rw [judgement_of_quiet quiet, setup]
  have point : w.extr.points.get k = (p.extr.points.get k).sample (judgement (p.sampleExtraction i).extr p.port.setup (pointKind k))
      (pointKind k).escalates := by
    have e : w.extr.points = (p.sampleExtraction i).extr.points := (congrArg Extr.points quiet :)
    rw [e]
    refine (Tab8.get_mapIdx _ _ k).trans ?_
    congr 1
  rw [point, ← judged, old]
  exact pointSampled_sample w k _

/-- The records' samples (R111, R133), and their places. -/
theorem records (h : IntervalRun s i ws p a w) : w.track.records.map Record.place = s.track.records.map Record.place ∧
    ∀ (j : Nat) (r q : Record), s.track.records[j]? = some r → w.track.records[j]? = some q → RecordSampled s w r q := by
  obtain ⟨l, v, x, stages⟩ := h.stages
  obtain ⟨f, map, sampled⟩ := stages.records
  have pre := h.presents
  rw [pre.track] at map
  have places : a.track.records.map Record.place = s.track.records.map Record.place := by
    rw [map, List.map_map]
    exact List.map_congr_left fun r _ => (sampled r).1
  refine ⟨h.kept.places.trans places, fun j r q hr hq => ?_⟩
  obtain ⟨r', hr', core⟩ := h.kept.record hq
  have e : r' = f r := by
    have : a.track.records[j]? = some r' := hr'
    rw [map, List.getElem?_map, hr] at this
    exact (Option.some.inj this).symm
  obtain ⟨contact, outside, zones⟩ := (sampled r).2
  have measured : w.track.measured = a.track.measured := h.keeps.trackMeasured
  have rpm : w.pot.main.measured = a.pot.main.measured := h.keeps.potMainMeasured
  have latches : w.thermal.latches = a.thermal.latches := h.keeps.thermalLatches
  have ground : SameGround s p := ⟨by rw [pre.track], (congrArg Port.setup pre.port :)⟩
  have lies : ∀ m n, Over p r m n ↔ Over s r m n := fun m n => by rw [← overStretch_iff, ground.overStretch, overStretch_iff]
  have minSpeed : q.minSpeed = (f r).minSpeed := e ▸ (congrArg Record.minSpeed core :)
  have minRpm : q.minRpm = (f r).minRpm := e ▸ (congrArg Record.minRpm core :)
  have mask : q.zoneMask = (f r).zoneMask := e ▸ (congrArg Record.zoneMask core :)
  rw [lies, ground.ws] at contact outside
  simp only [lies, ground.ws, pre.thermal] at zones
  refine ⟨?_, ?_, ?_⟩
  · rw [measured, rpm, minSpeed, minRpm]; exact contact
  · rw [minSpeed, minRpm]; exact outside
  · rw [mask, latches]; exact zones

/-- The causes (R83, R99, R119, R171). -/
theorem causes (h : IntervalRun s i ws p a w) (c : HaltCause) : c ∈ w.modes.causes ↔ c ∈ s.modes.causes ∨
    (c = .estop ∧ s.pins.estop = true) ∨ (c = .potOvertemp ∧ overtemp w = true) ∨
    (c = .potSensor ∧ (s.thermal.inputs.get 6).state = .faulted) ∨ (c = .potLevel ∧ s.pot.lowlow.set = true) := by
  have keeps := h.keeps
  have pins : a.pins = w.pins := keeps.pins.symm
  have inputs : a.thermal.inputs = w.thermal.inputs := keeps.thermalInputs.symm
  have setup : a.port.setup = w.port.setup := keeps.portSetup.symm
  have lowlow : a.pot.lowlow = w.pot.lowlow := keeps.potLowlow.symm
  have hot : overtemp a = overtemp w := by
    unfold overtemp Thermal.potPV State.loaded State.ws
    rw [pins, inputs, setup]
  have estop : w.pins.estop = s.pins.estop := by rw [h.plain.1, h.presents.pins]
  have old : a.modes.causes = s.modes.causes := by
    rw [h.modes_eq]
    exact (congrArg Modes.causes h.presents.modes :)
  have raised : w.modes.causes = a.intervalRaises.modes.causes := by
    rw [h.settled]
    exact (kept_settleEval _).keeps.modesCauses
  rw [raised, intervalRaises_causes, hot, pins, estop, inputs, h.inputs, state_sample, lowlow, h.level.flags.2.2, old]

/-- A new cause halts a running line (R170). -/
theorem halts (h : IntervalRun s i ws p a w) (runs : s.modes.mode.runs = true) (new : w.modes.causes ≠ s.modes.causes) :
    w.modes.mode = .halted ∧ Pending w .halted := by
  have modes := h.modes_eq
  have mode : a.modes.mode = s.modes.mode := by rw [modes]; exact (congrArg Modes.mode h.presents.modes :)
  have old : a.modes.causes = s.modes.causes := by rw [modes]; exact (congrArg Modes.causes h.presents.modes :)
  have raised : w.modes.causes = a.intervalRaises.modes.causes := by
    rw [h.settled]
    exact (kept_settleEval _).keeps.modesCauses
  obtain ⟨pend, stop⟩ := h.raising.raises.causes.resolve_left fun e => new ((raised.trans e).trans old)
  have halted := stop (by rw [mode]; exact runs)
  refine ⟨?_, h.follows.notices _ pend⟩
  rcases h.follows.mode with e | ⟨e, -⟩ | ⟨e, -⟩
  · exact e.trans halted
  · rw [halted] at e; cases e
  · rw [halted] at e; cases e

/-- Memory before the refresh: the slots that are rejected, and the host's records. -/
theorem memory (h : IntervalRun s i ws p a w) : Rejects (hostWrites ws s.mem) w.mem ∧
    ∀ n, (0x0040 ≤ n ∧ n < 0x0160) ∨ (0x0360 ≤ n ∧ n < 0x0960) → w.mem.read n = (hostWrites ws s.mem).read n := by
  obtain ⟨l, v, x, stages⟩ := h.stages
  have mirror : MirrorOnly (hostWrites ws s.mem) a.intervalRaises.mem := by
    rw [← h.presents.mem, h.raising.mem]
    exact stages.mem
  have settled : Rejects a.intervalRaises.mem w.mem := h.settled ▸ rejects_settleEval _
  refine ⟨mirror.rejects.trans settled, fun n hn => ?_⟩
  have quiet : w.mem.read n = a.intervalRaises.mem.read n := by
    rw [h.settled]
    exact (kept_settleEval _).mem.quiet n (by unfold quietWord; omega)
  exact quiet.trans (mirror n (by omega) (by omega))

end IntervalRun

/-- The refresh writes neither the closed-slot count nor a slot. -/
theorem rejects_refresh (v : State) : Rejects v.mem v.writeClock.refresh.mem :=
  .of_words (fun k => have b := slotAt_bounds k; read_refresh_outside v (by omega)) (read_refresh_outside v (by omega))

/-- Settles O30: the samples one after another, then what the raises, the consequences and the refresh keep of them. -/
theorem statusIntervalEndSamplesAndRefreshes : Obligations.StatusIntervalEndSamplesAndRefreshes := by
  intro i ws s
  obtain ⟨p, a, w, run, step⟩ := intervalRun s i ws
  obtain ⟨pins, clock, statusAt, pending, held, auth⟩ := run.plain
  obtain ⟨setup, request, enable, generation⟩ := run.port
  obtain ⟨net, short, measured, speed⟩ := run.speed
  obtain ⟨pressure, switch, empty⟩ := run.flux
  obtain ⟨x1, x2, filter, vapour, feedback1, feedback2, vapourCount⟩ := run.readings
  obtain ⟨places, records⟩ := run.records
  obtain ⟨rejects, host⟩ := run.memory
  obtain ⟨pos, entry, exit⟩ := run.track
  have pre := run.presents
  have holds : HoldsFormed w.writeClock.refresh := by
    have formed : HoldsFormed w := by rw [run.settled]; exact settle_holdsFormed _
    exact (Undisturbed.refresh w).holdsFormed formed
  have next : w.writeClock.refresh.port.generation = nextGeneration s.port.generation := by rw [← generation]; rfl
  have words : ∀ j, j < 512 → w.writeClock.refresh.mem.read (0x0160 + j) = (statusBlock w).getD j 0 := fun j => read_block w
  obtain ⟨word0, word1, word2⟩ := statusBlock_head w
  have position : w.writeClock.refresh.mem.read32 0x0180 = w.track.pos.toNat :=
    read32_twoWords ((words 32 (by omega)).trans (statusBlock_pos w 0 (by omega)))
      ((words 33 (by omega)).trans (statusBlock_pos w 1 (by omega))) w.track.pos.isLt
  have boundary : NextBoundary 250 s.statusAt s.clock w.clock := by
    rw [clock, pre.clock]
    exact nextBoundary_until (by omega) (by omega) _ _
  refine ⟨w.writeClock.refresh, step, boundary, (statusAt.trans pre.statusAt).trans clock.symm, pins.trans pre.pins, fun k => ?_, run.latches,
    net, short, measured, (run.pump .chip).1, (run.pump .main).1, ?_, fun k => (run.pump k).2, ?_, ?_, switch, empty, x1, x2, filter, vapour,
    feedback1, feedback2, fun fans k => ?_, vapourCount, fun j r q hr hq => ?_, run.causes, run.halts, holds, ?_, fun j hj => ?_, ?_, ?_, ?_,
    position, read32_clock w, ?_, fun n hn => ?_, places, pos, entry, exit, held, auth, setup, request, enable, pending⟩
  · have e : w.writeClock.refresh.thermal.inputs.get k = (s.thermal.inputs.get k).sample (i.temps.get k) := run.inputs k
    rw [e]
    exact ⟨inputSampled_sample _ _, pvFormed _⟩
  · exact { speed with }
  · exact { run.level with }
  · exact { pressure with }
  · exact { run.points fans k with }
  · exact { records j r q hr hq with }
  · rw [next, nextGeneration_eq]
  · rw [words j hj, statusBlock_refresh w _ generation.symm]
  · exact ((words 0 (by omega)).trans word0)
  · exact (words 1 (by omega)).trans word1
  · exact (words 2 (by omega)).trans word2
  · exact (rejects.trans (rejects_refresh w)).count
  · rw [read_refresh_outside w (by omega)]
    exact host n hn

end Sys2Proof.Machine
end
